-- ==== Sys2Proof/Word.lean ====
section
/-! DEFINITION. Words, bytes, lines and sparse tables: the plainest data the model is made of. -/

namespace Sys2Proof

abbrev Byte := BitVec 8
abbrev Word := BitVec 32

/-- The 64 data bytes of a line (R58, R74): byte 0 in the least significant bits (R2). -/
abbrev Line := BitVec 512

/-- A sparse table: pairs of a key and a value, keys strictly rising, no pair holding the table's default value.
The default is the value an unlisted key reads as; every table's default is named where the table is declared. -/
abbrev Tab (α : Type) := List (Nat × α)

namespace Tab

variable {α : Type}

/-- The value at a key; `d` is what an unlisted key reads as. -/
def get (d : α) : Tab α → Nat → α
  | [], _ => d
  | (k, v) :: t, n => if n = k then v else get d t n

/-- Put a pair in its place, in a table whose keys rise. -/
def insert : Tab α → Nat → α → Tab α
  | [], n, v => [(n, v)]
  | (k, w) :: t, n, v =>
    if n < k then (n, v) :: (k, w) :: t
    else if n = k then (n, v) :: t
    else (k, w) :: insert t n v

/-- Take a key's pairs out. -/
def erase : Tab α → Nat → Tab α
  | [], _ => []
  | (k, w) :: t, n => if n = k then erase t n else (k, w) :: erase t n

/-- Write a value: the default value is never listed. -/
def set [DecidableEq α] (d : α) (t : Tab α) (n : Nat) (v : α) : Tab α :=
  if v = d then erase t n else insert t n v

/-- Change the value at a key by a function. -/
def upd [DecidableEq α] (d : α) (t : Tab α) (n : Nat) (f : α → α) : Tab α :=
  set d t n (f (get d t n))

/-- Keys strictly rise from a bound. -/
def sortedFrom : Nat → Tab α → Bool
  | _, [] => true
  | lo, (k, _) :: t => decide (lo ≤ k) && sortedFrom (k + 1) t

/-- The canonical form: keys strictly rise and no pair holds the default. -/
def wf [DecidableEq α] (d : α) (t : Tab α) : Bool :=
  sortedFrom 0 t && t.all (fun p => decide (p.2 ≠ d))

/-- Drop every pair whose key lies in `[lo, hi)`. -/
def clear (t : Tab α) (lo hi : Nat) : Tab α := t.filter (fun p => !(decide (lo ≤ p.1) && decide (p.1 < hi)))

/-- Copy the values at `[src, src + n)` to `[dst, dst + n)`. -/
def copy [DecidableEq α] (d : α) (t : Tab α) (src dst n : Nat) : Tab α :=
  (t.filter (fun p => decide (src ≤ p.1) && decide (p.1 < src + n))).foldl
    (fun acc p => set d acc (p.1 - src + dst) p.2) (clear t dst (dst + n))

end Tab

/-- A natural number held at a largest value. -/
def satAdd (m a b : Nat) : Nat := min m (a + b)

/-- Largest value of a 32-bit counter that sticks. -/
def max32 : Nat := 0xFFFFFFFF

end Sys2Proof
end

