-- ==== Sys2Proof/Syntax.lean ====
section
/-! DEFINITION. The commands of the block: one constructor of `Instr` per row of spec/opcode_table.json, with the
operands the row's event carries. The table gives its rows no bits and no fields; the operands are what the spec's
text says the event brings with it (notes/assumptions/2.md). -/

namespace Sys2Proof

/-- An agent: who makes a register access or holds a source identity (R20, R53, R433). -/
inductive Agent where
  | fn (port func : Nat)   -- a function or logical device of a host-role port
  | core (i : Nat)         -- a control core in a firmware role (R294)
  | ic                     -- the integrator core
  | smbus                  -- the management port (R327)
  | twin                   -- the other device of the pair
  | stream (c : Nat)       -- a stream channel
  deriving DecidableEq, Repr, Inhabited

/-- An Atorn request as its row names it: the mailbox channel and the tag (R328, R329). -/
structure Rq where
  ch : Nat
  tag : Nat
  deriving DecidableEq, Repr, Inhabited

/-- What one read of a stored line yields at the GDDR6 bus, the line code and the MAC (R79, R81, R85). The faults of
the memory array and of its bus are the environment's; the spec fixes what follows from each. -/
inductive RdRes where
  | edcFail        -- the bursts fail EDC (R85): nothing is decoded
  | clean          -- decoded clean, MAC matches
  | corrected      -- one symbol corrected, MAC matches
  | uncorrectable  -- any other syndromes
  | macBad         -- decoded clean or corrected, MAC mismatch
  deriving DecidableEq, Repr, Inhabited

/-- What one read of a media sector yields at a recovery step (R144, R145). -/
inductive SecRes where
  | good           -- decodes, header and MAC match
  | noDecode       -- does not decode, or names a key slot whose salt is not held (R348)
  | mismatch       -- decodes, but the MAC or the header does not match
  deriving DecidableEq, Repr, Inhabited

/-- What a media read on its die interrupts (R146): nothing, the program in progress there, or the erase of a set. -/
inductive Susp where
  | none
  | program
  | erase (set : Nat)
  deriving DecidableEq, Repr, Inhabited

/-- What a sealed restart cannot read (R176): nothing, both seal copies, or a structure that they name. -/
inductive SealLost where
  | none
  | copies
  | remap
  | sets
  | chunk (m : Nat)
  | journal
  deriving DecidableEq, Repr, Inhabited

/-- What fails the front tier's self-test (R93): devices, and pair-rows by device. -/
structure SelfTest where
  devs : List Nat := []
  rows : List (Nat × Nat) := []
  deriving DecidableEq, Repr, Inhabited

/-- A CXL.mem request: the port and LD it came to, its tag and its address (R233). -/
structure MReq where
  port : Nat
  ld : Nat
  tag : Nat
  hpa : Nat
  deriving DecidableEq, Repr, Inhabited

/-- The header of a twin frame (R193), its `LSEQ` with the sender bit; whether its tag verifies (R194, R195) and whether the
reserved bytes of its payload are zero (R195). -/
structure LinkHdr where
  typ : Nat
  flags : Nat
  len : Nat
  session : Nat
  lseq : Nat
  ack : Nat
  tagOk : Bool
  rsvOk : Bool
  deriving DecidableEq, Repr, Inhabited

/-- The payload of `HELLO` (R196). -/
structure HelloP where
  serial : Nat
  fwVer : Nat
  uGib : Nat
  pairId : Nat
  pgen : Nat
  pstate : Nat
  twinB : Bool
  token : Bool
  qwired : Bool
  scanned : Bool
  fullOwed : Bool
  pool : Nat
  budgetGib : Nat
  ceilGib : Nat
  budget64k : Nat
  peerSerial : Nat
  deriving DecidableEq, Repr, Inhabited

/-- A grant (R60): RW when `rw`. -/
structure Grant where
  who : Agent
  rw : Bool
  deriving DecidableEq, Repr, Inhabited

/-- A turf (R60). -/
structure Turf where
  base : Nat
  size : Nat
  device : Bool := false
  reserve : Nat := 0
  cap : Nat := 0
  deadline : Nat := 120
  grants : List Grant := []
  preserve : Bool := false
  deriving DecidableEq, Repr, Inhabited

/-- A home range (R199): policy 0 A, 1 B, 2 auto. -/
structure HomeRange where
  base : Nat
  size : Nat
  policy : Nat
  deriving DecidableEq, Repr, Inhabited

/-- A write of the configuration segment (R62, R199): a turf's entry, a range of the home table (policy 3 takes it out), or the
whole home table. -/
inductive CfgWrite where
  | turf (id : Nat) (t : Option Turf)
  | home (base size policy : Nat)
  | homes (l : List HomeRange)
  deriving DecidableEq, Repr, Inhabited

/-- One record of a `REPL` frame (R203). A full write carries one or more lines; a partial write one line and its
byte mask; an unmap no line. -/
structure ReplRec where
  first : Nat
  mask : Option (BitVec 64)
  fwdTag : Option Nat
  unmap : Bool
  data : List Line
  cfg : Option CfgWrite := none   -- a write of the configuration segment, whose layout the spec does not give
  deriving DecidableEq, Repr, Inhabited

/-- A stream entry of a notice or of `STREAM_STATE` (R196). -/
structure StreamEnt where
  ch : Nat
  stopped : Bool
  line : Nat
  deriving DecidableEq, Repr, Inhabited

/-- The parameters of a stream job, in the order of R248. -/
structure JobParams where
  base : Nat
  len : Nat
  first : Nat
  count : Nat
  x : Nat
  l : Nat
  port : Nat
  consumer : Nat
  entryBase : Nat
  entries : Nat
  dataBase : Nat
  slotSize : Nat
  trig : Nat
  fmax : Nat
  window : Nat
  pinLimit : Nat
  onStarve : Nat
  partner : Nat
  deriving DecidableEq, Repr, Inhabited

/-- The parameters of `PMON_CONFIG` in the order of its cell (R418, R422). -/
structure PmonCfg where
  target : Nat
  counter : Nat
  code : Nat
  qual : Nat
  inst : Nat
  chain : Nat
  enable : Nat
  scode : Nat
  period : Nat
  jitter : Nat
  thresh : Nat
  wrap : Nat
  deriving DecidableEq, Repr, Inhabited

/-- What the checks of R361 and R362 that need a digest yield for an image: the hash of its public key and whether
the signature verifies. -/
structure ImgChk where
  keyHash : Nat
  sigOk : Bool
  deriving DecidableEq, Repr, Inhabited

/-- One entry of an option-store image (R373). -/
structure OptEntry where
  page : Nat
  off : Nat
  data : List Byte
  deriving DecidableEq, Repr, Inhabited

/-- One consumer function as enumeration finds it (R244, R245). -/
structure FoundFn where
  bus : Nat
  dev : Nat
  func : Nat
  bars : List Nat      -- the size of each memory BAR requested, in bytes
  configurable : Bool
  deriving DecidableEq, Repr, Inhabited

/-- The register pairs whose name ends in `_LO` and `_HI` (R53, R431, R441). -/
inductive LoReg where
  | tbCount | tbPpsStamp | ltrigStamp (j : Nat) | ftRawCheck | mcDestage | mcFold | tuPairId | tuStamp
  | suLines (c : Nat) | xeSticks | secHaltLoc | ccSterrAddr (i : Nat) | lgStaged | lgMedia | lgOldest
  | thThrottle | pmonCnt (k : Nat) | glbSerial
  deriving DecidableEq, Repr, Inhabited

/-- Which part of a register pair a read takes (R53, R431): LO, the whole pair by one aligned 8-byte access, or HI. -/
inductive PairPart where
  | lo | both | hi
  deriving DecidableEq, Repr, Inhabited

/-- An AMO's operation on its naturally aligned word (R308; RV64A). -/
inductive AmoOp where
  | swap | add | xor | and | or | min | max | minu | maxu
  deriving DecidableEq, Repr, Inhabited

/-- What the copies of the ledger yield for a `SEQ` (R382): a valid record in A, in B, and whether two valid ones differ. A `SEQ`
not named reads valid and equal in both. -/
structure LgOut where
  seq : Nat
  a : Bool
  b : Bool
  differ : Bool
  deriving DecidableEq, Repr, Inhabited

/-- What the check bits of a TCM say of the bytes that a load meets (R309). -/
inductive TcmRes where
  | clean
  | corrected
  | bad
  deriving DecidableEq, Repr, Inhabited

/-- How a core-executed instruction that is neither a memory access nor a fence ends (R307, R311, R314). -/
inductive OtherKind where
  | plain        -- retires: arithmetic, a forward branch, a register move
  | trap         -- takes an exception or interrupt
  | trapReturn   -- the trap handler returns
  | doubleTrap   -- a trap taken before the supervisor handler has returned
  | fetch (off : Nat) (bad : Bool)   -- its fetch meets a byte of the core's instruction TCM: corrected, or uncorrectable (R309)
  deriving DecidableEq, Repr, Inhabited

/-- One PLL of R389. -/
inductive Pll where
  | capture | port (p : Nat) | ft (k : Nat) | nc (k : Nat)
  deriving DecidableEq, Repr, Inhabited

/-- A command source of reset whose 10 µs have passed (R386, R387). -/
inductive RstSrc where
  | por | restart | resetN | cmdCold | peer | failStart | cmdWarm | coreFail | fwAct | cmdCluster | port (p : Nat)
  deriving DecidableEq, Repr, Inhabited

/-- The commands. Constructor names are the rows' mnemonics in lower camel case. -/
inductive Instr where
  -- Time and handshakes (03_handshake_timing.md)
  | paceWindowEnd (rings : List Nat)
  | ppsEdge (cycles sub highNs : Nat)
  | ppsLost
  | tbCtlPpsEnSet (ag : Agent)
  | tbCtlPpsEnClear (ag : Agent)
  | tbCtlStepEnSet (ag : Agent)
  | tbCtlStepEnClear (ag : Agent)
  | loReadLatch (ag : Agent) (reg : LoReg) (part : PairPart)
  | tbPpsStatRead (ag : Agent)
  | hfPaceWrite (ag : Agent) (v : Word)
  | lineTrigEdge (input : Nat) (falling : Bool) (pulseNs restNs cycles sub : Nat)
  -- Address space and turfs (04_address_space.md)
  | turfCreate (rq : Rq) (id base size rtype : Nat)
  | turfDestroy (rq : Rq) (id : Nat)
  | turfResize (rq : Rq) (id size : Nat)
  | turfSet (rq : Rq) (id mask reserve cap deadline rtype : Nat)
  | turfGrant (rq : Rq) (id : Nat) (grantee : Agent) (access : Nat)
  | turfRevoke (rq : Rq) (id : Nat) (grantee : Agent)
  | turfQuery (rq : Rq) (id : Nat)
  | windowMap (rq : Rq) (fn : Agent) (base len : Nat)
  | billetUnmap (billet : Nat)
  | hdmDecoderCommit (port ld dec base size ways gran pos skip : Nat) (lock commit : Bool)
  -- Host memory requests and host functions (04, 10_ports.md)
  | memrd (m : MReq) (rd : List RdRes)
  | memrddata (m : MReq) (rd : List RdRes)
  | memwr (m : MReq) (data : Line) (poison : Bool) (edcFails : Nat)
  | memwrptl (m : MReq) (data : Line) (mask : BitVec 64) (poison : Bool) (rd : List RdRes)
  | memspecrd (m : MReq)
  | unsupportedM2sOpcode (m : MReq) (opcode : Nat)
  | bar2Read (port func tag off len : Nat) (rd : List RdRes)
  | bar2Write (port func off : Nat) (bytes : List Byte) (relaxed poison : Bool) (rd : List RdRes)
  | atomicopRequest (port func tag : Nat)
  | configurationRequest (port func off : Nat) (wr : Option Word)
  | globalPersistentFlush (port : Nat)
  | functionLevelReset (port func : Nat)
  | portReset (port : Nat)
  -- Front tier (05_front_tier.md)
  | correctedLineWriteBack (frame line : Nat)
  | ftRetrack (dev margin retrained : Nat) (responds : Bool)
  | gddr6TemperatureReading (temps : List Int)
  | refreshBandCooler
  | perBankRefresh
  | patrolStep (rd : List RdRes)
  | rowSparingCopy (rd : List RdRes)
  | dirtyFrameCopy (frame : Nat) (bad : List Nat) (twinLines : List (Nat × Line))
  | gddr6DeviceRetired (dev : Nat)
  | ftRawWrite (core : Nat)
  | ftRawRead (core : Nat)
  | ftRawDecode (core : Nat)
  | ftRawLock (core : Nat)
  | frontQuery (rq : Rq)
  | frontRetire (rq : Rq) (dev : Nat)
  | dirtyCeilingSet (rq : Rq) (gib : Nat)
  | frontRaw (rq : Rq) (op dev line : Nat) (data : Line) (check : BitVec 64)
  -- Tier pool (06_tier_pool.md)
  | ageSweep
  | backgroundEviction
  | evictionCommitPoint (frame : Nat)
  | mediaFillUnit (frame unit : Nat) (good : Bool) (susp : Susp)
  | lookasideFillComplete (port : Nat)
  | teLaInval (ag : Agent) (port : Nat)
  | cheaperPathDeadline (frame line : Nat)
  | destageComplete (frame : Nat) (rds : List (Nat × List RdRes))
  | destageProgramFail (frame : Nat)
  | destageRetry (billet : Nat)
  -- Media (07_media_management.md)
  | rowVerification (row : Nat) (failing : List Nat)
  | kilnFold
  | blockSetEraseComplete (set : Nat) (ok : Bool)
  | mediaIdle
  | smoulder
  | driftSample (set : Nat) (overHalf again : Bool)
  | mediaReadComplete (id : Nat) (res : SecRes) (cls : Nat) (susp : Susp)
  | blockSetCheckpoint (bad : List Nat)
  | wearTableRebuilt (lun : Nat)
  | levellingMove
  | lunStatusTimeout (lun : Nat) (lost : List Nat)
  | journalSectorTimer
  | checkpointChunk
  | mediaQuery (rq : Rq)
  | mediaFormat (rq : Rq) (gib slc : Nat)
  | mediaRetire (rq : Rq) (chan lun : Nat) (lost : List Nat)
  | mcRecDeepRead (ag : Agent)
  -- Ember and recovery (08_ember_and_recovery.md)
  | pfWarnAccepted
  | pfWarnReleased
  | pfWarnReleaseHeld
  | emberQuiesceComplete (us : Nat)
  | emberFlushComplete (us : Nat) (badLines : List Nat) (twinLines : List (Nat × Line))
  | sealComplete
  | sealedHoldTimeout
  | sealedRestart (lost : SealLost) (fail : SelfTest)
  | fullScan (unreadable rejected : List Nat) (fail : SelfTest)
  | emberQuery (rq : Rq)
  | holdupSet (rq : Rq) (mj mw : Nat)
  | emberDrill (rq : Rq)
  -- Twin pair (09_twin_pair.md)
  | twinPortTrained (hi : Bool) (width : Nat)
  | hello (h : LinkHdr) (p : HelloP)
  | pairResult (h : LinkHdr) (outcome reason pgen pairId : Nat)
  | keepalive (h : LinkHdr)
  | retry (h : LinkHdr) (expected : Nat)
  | peerStatus (h : LinkHdr) (pool budgetGib ceilGib budget64k : Nat)
  | repl (h : LinkHdr) (seg gen stamp : Nat) (recs : List ReplRec)
  | replAck (h : LinkHdr) (stamp : Nat)
  | fwd (h : LinkHdr) (tag dpa : Nat) (unmap : Bool) (mask : Option (BitVec 64)) (data : List Line) (cfg : Option CfgWrite)
  | fwdResult (h : LinkHdr) (tag result : Nat)
  | unitReq (h : LinkHdr) (tag billet unit mode : Nat) (rds : List (Nat × List RdRes))
  | unitReply (h : LinkHdr) (tag status stamp : Nat) (mask : BitVec 64) (data : List Line)
  | credit (h : LinkHdr) (frames : Nat)
  | migBegin (h : LinkHdr) (seg : Nat)
  | migReady (h : LinkHdr) (seg : Nat)
  | migDone (h : LinkHdr) (seg stamp : Nat)
  | genList (h : LinkHdr) (first : Nat) (gens : List Nat)
  | unitCopy (h : LinkHdr) (billet unit st : Nat) (mask : BitVec 64) (data : List Line)
  | segDone (h : LinkHdr) (seg gen : Nat)
  | segAck (h : LinkHdr) (seg : Nat)
  | resyncDone (h : LinkHdr) (pgen : Nat)
  | cmd (h : LinkHdr) (slot : List Byte)
  | cmdReply (h : LinkHdr) (slot : List Byte)
  | emberNotice (h : LinkHdr) (cause : Nat) (ents : List StreamEnt)
  | haltNotice (h : LinkHdr) (reason : Nat) (ents : List StreamEnt)
  | streamState (h : LinkHdr) (ents : List StreamEnt)
  | peerReset (h : LinkHdr)
  | linkGapTimeout
  | twinPortSilent (hi : Bool)
  | replAckTimeout
  | keepaliveTimer
  | peerStatusTimer
  | streamStateTimer
  | pseqInNotLive (forOneMs : Bool)
  | pseqInClaim
  | quorumWindowEnd
  | takeoverRecordCommitted
  | twinRetrainAttempt
  | twinPortDegrade (hi : Bool) (width : Nat)
  | twinQuery (rq : Rq)
  | twinHomeSet (rq : Rq) (base size policy : Nat)
  | twinTakeover (rq : Rq)
  | twinUnpair (rq : Rq)
  | twinPeerReset (rq : Rq)
  | twinRetrain (rq : Rq)
  -- Ports (10_ports.md)
  | portLinkUp (port rate width : Nat) (flit reversed mldOk : Bool)
  | portDisabledRetry (port : Nat)
  | portLaneFailed (port : Nat)
  | streamPortEnumeration (port : Nat) (found : List FoundFn)
  | consumerErrCor (port consumer : Nat)
  | consumerErrFatal (port consumer : Nat)
  | streamPathLinkDown (port consumer : Nat)
  | inboundRequest (port : Nat)
  | consumerInterrupt (port consumer : Nat)
  | getEventRecords (port ld log : Nat)
  | clearEventRecords (port ld log : Nat) (all : Bool) (handles : List Nat)
  | getEventInterruptPolicy (port ld : Nat)
  | setEventInterruptPolicy (port ld : Nat) (modes nums : List Nat)
  | getSupportedLogs (port ld : Nat)
  | getLog (port ld : Nat)
  | identifyMemoryDevice (port ld : Nat)
  | getHealthInfo (port ld : Nat)
  | getPoisonList (port ld base len : Nat)
  | primaryMailboxUnsupported (port ld opcode : Nat)
  | getLdInfo (port : Nat)
  | getLdAllocations (port : Nat)
  | setLdAllocations (port : Nat) (sizes : List Nat)
  | getQosControl (port : Nat)
  | setQosControl (port : Nat) (vals : List Nat)
  | getQosStatus (port : Nat)
  | msixVectorUnmask (port func vec : Nat)
  | portQuery (rq : Rq) (port : Nat)
  | portRetrain (rq : Rq) (port : Nat)
  | portRescan (rq : Rq) (port : Nat)
  -- Stream channels (11_stream_channels.md)
  | streamJobLoad (rq : Rq) (c : Nat) (p : JobParams)
  | streamJobUnload (rq : Rq) (c : Nat)
  | streamStart (rq : Rq) (c stamp mode : Nat) (peer : Option JobParams)
  | streamStop (rq : Rq) (c : Nat)
  | streamResume (rq : Rq) (c line stamp mode : Nat) (peer : Option JobParams)
  | streamQuery (rq : Rq) (c : Nat)
  | channelArmed (c : Nat)
  | primeTimeout (c : Nat)
  | startStampReached (c : Nat)
  | triggerDecisionPoint (input : Nat) (rds : List (Nat × List RdRes))
  | lineReleaseComplete (c : Nat)
  | streamCreditDoorbell (c port consumer : Nat) (v : Word) (be : Nat)
  | suChLateMaxWrite (ag : Agent) (c : Nat) (v : Word)
  -- Expansion engine (12_nolene_expansion.md)
  | stickRendered (c stick lane : Nat) (laneOk : Bool)
  | testStick (results : List Bool)
  | laneResponseTimeout (lane : Nat)
  | spareLaneActivation
  | noleneCheck (rq : Rq) (base len : Nat)
  | xeQuery (rq : Rq)
  | xeLaneRetire (rq : Rq) (lane : Nat)
  -- Control cluster (13_control_cluster.md)
  | loadInstruction (core addr size : Nat) (acquire : Bool) (tcm : TcmRes) (rd : List RdRes)
  | storeInstruction (core addr size : Nat) (v : BitVec 64) (release : Bool)
  | storeVisible (core idx : Nat) (errResp : Bool)
  | fence (core pred succ : Nat)
  | fenceI (core : Nat)
  | lr (core addr size : Nat) (aq rl : Bool)
  | sc (core addr size : Nat) (v : BitVec 64) (aq rl : Bool)
  | amo (core addr size : Nat) (op : AmoOp) (v : BitVec 64) (aq rl : Bool)
  | storeErrorTimeout (core : Nat)
  | loadAccessTimeout (core : Nat)
  | ccSterrInfoClear (ag : Agent) (core : Nat)
  | heartbeatMissed (role : Nat)
  | clusterResetComplete (stOk : List Bool)
  | ccHeartbeatWrite (ag : Agent) (role : Nat)
  | coreLogicFault (core : Nat)
  | tcmPatrol (core tcm : Nat) (corrected bad : List Nat)
  | icWatchdogExpiry
  | ccIcKickWrite (ag : Agent)
  | coreQuery (rq : Rq)
  | icLoad (rq : Rq) (src base len : Nat) (chk : ImgChk)
  | icStart (rq : Rq) (wdt : Nat)
  | icStop (rq : Rq)
  | icWindowMap (rq : Rq) (w base len access : Nat)
  -- Mailboxes (14_mailboxes_and_atorn.md)
  | mbReqDbWrite (ch : Nat) (v : Word) (be : Nat)
  | mbRplDbWrite (ch : Nat) (v : Word) (be : Nat)
  | requestTaken
  | descriptorAreaComplete (rq : Rq) (ok : Bool) (inArea : List Byte)
  | mbNotePop (ch : Nat) (ag : Agent)
  | mbNoteStatRead (ch : Nat)
  | mbCtlReset (ch : Nat)
  | mbBindLockSet (ag : Agent)
  | smbusSlotWrite (off : Nat) (bytes : List Byte) (pecOk : Bool)
  | smbusRequestDoorbell (v : Nat) (pecOk : Bool)
  | smbusStatusRead (pecOk : Bool)
  | smbusReplyOffset (off : Nat) (pecOk : Bool)
  | smbusReplyRead (pecOk : Bool)
  | smbusReplyDoorbell (v : Nat) (pecOk : Bool)
  | smbusNotificationPop (pecOk : Bool)
  | smbusChannelReset (v : Nat) (pecOk : Bool)
  | smbusOtherCode (code : Nat)
  | identify (rq : Rq)
  | nop (rq : Rq)
  | mbQuery (rq : Rq) (channel : Nat)
  | fwQuery (rq : Rq)
  | fwUpdateBegin (rq : Rq) (target len : Nat)
  | fwUpdateData (rq : Rq) (off : Nat) (data : List Byte)
  | fwUpdateEnd (rq : Rq) (chk : ImgChk)
  | fwActivate (rq : Rq)
  | updateSessionTimeout
  | blockRunCommandEnd (rq : Rq)
  -- Security (15_security.md)
  | rngHealthFail
  | frontSweepStep (rd : List RdRes)
  | mediaSweepStep
  | mediaSweepComplete
  | unlockClosureEnd (area : Nat)
  | secQuery (rq : Rq)
  | rekeyStart (rq : Rq) (scope : Nat)
  | rekeyPause (rq : Rq) (op : Nat)
  -- Option store and ledger (16_option_store_and_ledger.md)
  | optCtlCommit (core tpage : Nat)
  | optCtlLoad (core tpage : Nat)
  | optByteAccess (core : Nat) (wr : Option Byte)
  | pageWriteComplete
  | optionPatrol (weak damaged : List Nat)
  | optRead (rq : Rq) (first count : Nat)
  | optWrite (rq : Rq) (form page off : Nat) (data : List Byte) (image : List OptEntry) (imageOk : Bool)
  | optUnlock (rq : Rq) (area dir : Nat) (pw : BitVec 128)
  | optPasswordSet (rq : Rq) (area dir : Nat) (old new : BitVec 128)
  | ledgerQuery (rq : Rq)
  | ledgerRead (rq : Rq) (first count : Nat) (out : List LgOut)
  | ledgerAgeTimer
  | ledgerProgramComplete (ok : Bool) (bad : List Nat)
  | highWaterCommitComplete
  -- Reset, power and thermal (17_reset_power_thermal.md)
  | porDetected
  | resetNAccepted
  | resetNReleased
  | pllLocked (pll : Pll)
  | pllLockTimeout (pll : Pll)
  | pllLockLost (pll : Pll)
  | pllRelocked (pll : Pll) (noResponse : List Nat)
  | firmwareEntryLimit
  | startComplete
  | sequencerEnable
  | sequencerDisable
  | sequencerWait
  | sequencerWaitExpiry
  | sequencerCheck
  | sequencerCheckTimeout
  | sequencerJump
  | sequencerEnd
  | sequencerBudgetExceeded
  | powerUpRetry
  | pgInGood (i : Nat)
  | pgInBad (i : Nat)
  | pgInGlitch (i : Nat)
  | railMeasurement (mv : List Nat)
  | restartFromShutdown
  | thermalSample (samples : List Int) (selfCheckFail : List Nat)
  | throttlePhaseEnd
  | deviceReset (rq : Rq) (reach port clear : Nat)
  | powerQuery (rq : Rq)
  | thermalQuery (rq : Rq)
  | thMaxSeenWrite (ag : Agent) (v : Word)
  -- Observability and registers (18_observability.md, 19_register_map.md)
  | bandwidthWindowEnd (bytesIn bytesOut : List Nat)
  | pmonCtlSnap (ag : Agent)
  | pmonCtlClear (ag : Agent)
  | pmonSelWrite (ag : Agent) (k : Nat) (inst : Bool) (v : Word)
  | pmonBwMaxWrite (ag : Agent) (port : Nat) (out : Bool)
  | pmonConfig (rq : Rq) (cfg : PmonCfg)
  | pmonRead (rq : Rq) (what first count : Nat)
  | pmonDumpSet (rq : Rq) (target base entries every : Nat)
  | eventRoute (rq : Rq) (cls mask vec : Nat)
  | glbIntEnWrite (port func : Nat) (v : Word)
  | registerWrite (ag : Agent) (addr size : Nat) (v : BitVec 64)
  -- Rows the table lists last, of the families above
  | porReleased
  | commandResetSourceReleased (src : RstSrc)
  | pseqInLive (heldOneSec : Bool)
  | linkUpconfigure (port width : Nat)
  | fillLineArrival (frame line : Nat)
  | checkRetry (i : Nat)
  | dumpComplete
  | otherInstruction (core : Nat) (kind : OtherKind)
  deriving DecidableEq, Repr

end Sys2Proof
end

