-- ==== Sys2Proof/WellFormed.lean ====
section
/-! DEFINITION. When a command is one that the device can be sent: the elements it names exist and its fields keep their
widths. A command that is not well formed names something that no part has, and `exec` faults on it. What the spec
itself refuses, ignores or reports (a bad parameter, a reserved value, an unserved channel) is well formed. -/

namespace Sys2Proof

def portOk (p : Nat) : Bool := decide (p < 10)
def fnOk (p f : Nat) : Bool := decide (p < 10) && decide (f < 16)
def coreOk (i : Nat) : Bool := decide (i < 6)
def chanNoOk (c : Nat) : Bool := decide (c < 64)
def mbOk (k : Nat) : Bool := decide (k < 32)
def devOk (d : Nat) : Bool := decide (d < 32)
def u8 (v : Nat) : Bool := decide (v < 2 ^ 8)
def u16 (v : Nat) : Bool := decide (v < 2 ^ 16)
def u32 (v : Nat) : Bool := decide (v < 2 ^ 32)
def u64 (v : Nat) : Bool := decide (v < 2 ^ 64)

/-- An agent that exists (R20, R53). -/
def Agent.wf : Agent → Bool
  | .fn p f => fnOk p f
  | .core i => coreOk i
  | .stream c => chanNoOk c
  | .ic | .smbus | .twin => true

/-- A mailbox channel and a tag (R318, R329). -/
def Rq.wf (r : Rq) : Bool := mbOk r.ch && u16 r.tag

/-- A line request of a host (R233): 64-byte lines of a 52-bit address. -/
def MReq.wf (m : MReq) : Bool :=
  fnOk m.port m.ld && u16 m.tag && decide (m.hpa < 2 ^ 52) && decide (m.hpa % 64 = 0)

/-- The header of a frame of the twin link (R193). -/
def LinkHdr.wf (h : LinkHdr) : Bool := u8 h.typ && u8 h.flags && u16 h.len && u32 h.session && u64 h.lseq && u64 h.ack

/-- A line address of the DPA space, or of a frame (R58, R74). -/
def lineOk (l : Nat) : Bool := decide (l < 1024)
def frameOk (f : Nat) : Bool := decide (f < 2 ^ 21)
def lunOk (c l : Nat) : Bool := decide (c < 32) && decide (l < 16)
def sizeOk (n : Nat) : Bool := n == 1 || n == 2 || n == 4 || n == 8

/-- An access size of a core, naturally aligned or not (R299). -/
def accessOk (addr size : Nat) : Bool := u64 addr && sizeOk size

/-- An atomic access is of a word or a doubleword (R307, R308). -/
def atomicOk (addr size : Nat) : Bool := u64 addr && (size == 4 || size == 8)

/-- A register pair that exists. -/
def LoReg.wf : LoReg → Bool
  | .ltrigStamp j => decide (j < 16)
  | .suLines c => chanNoOk c
  | .ccSterrAddr i => coreOk i
  | .pmonCnt k => decide (k < 256)
  | _ => true

def Pll.wf : Pll → Bool
  | .capture => true
  | .port p => portOk p
  | .ft k | .nc k => decide (k < 8)

def RstSrc.wf : RstSrc → Bool
  | .port p => portOk p
  | _ => true

/-- A stream job's parameters as 4- and 8-byte numbers (R248, R331). -/
def JobParams.wf (p : JobParams) : Bool :=
  u64 p.base && u64 p.len && u32 p.first && u32 p.count && u64 p.x && u64 p.l && u32 p.port && u32 p.consumer
    && u64 p.entryBase && u32 p.entries && u64 p.dataBase && u64 p.slotSize && u32 p.trig && u32 p.fmax
    && u32 p.window && u32 p.pinLimit && u32 p.onStarve && u32 p.partner

def PmonCfg.wf (c : PmonCfg) : Bool :=
  u32 c.target && u32 c.counter && u32 c.code && u32 c.qual && u32 c.inst && u32 c.chain && u32 c.enable
    && u32 c.scode && u32 c.period && u32 c.jitter && u32 c.thresh && u32 c.wrap

/-- A suspended program, or the erase of a set (R146). -/
def Susp.wf : Susp → Bool
  | .none | .program => true
  | .erase set => decide (set < 512 * 4096)

/-- A chunk is one of 64 (R132). -/
def SealLost.wf : SealLost → Bool
  | .chunk m => decide (m < 64)
  | _ => true

/-- Devices, and rows of a device (R76). -/
def SelfTest.wf (t : SelfTest) : Bool := t.devs.all devOk && t.rows.all (fun r => devOk r.1 && decide (r.2 < 2 ^ 20))

/-- Lines of a billet with the outcomes of their reads. -/
def rdsOk (rds : List (Nat × List RdRes)) : Bool := rds.all (fun x => lineOk x.1)

/-- Units of the media: location × 16 + unit (R124). -/
def unitsOk (l : List Nat) : Bool := l.all (fun x => decide (x < 2 ^ 35))

/-- A mailbox slot has 256 bytes (R321). -/
def slotOk (b : List Byte) : Bool := decide (b.length = 256)

/-- A fetch meets a byte of the 256 KiB instruction TCM (R298). -/
def OtherKind.wf : OtherKind → Bool
  | .fetch off _ => decide (off < 2 ^ 18)
  | _ => true

/-- Well-formed commands. -/
def Instr.wf : Instr → Bool
  | .paceWindowEnd rings => decide (rings.length = 8) && rings.all u16
  | .ppsEdge _ sub _ => decide (sub < 10)
  | .ppsLost => true
  | .tbCtlPpsEnSet ag | .tbCtlPpsEnClear ag | .tbCtlStepEnSet ag | .tbCtlStepEnClear ag => ag.wf
  | .loReadLatch ag reg _ => ag.wf && reg.wf
  | .tbPpsStatRead ag => ag.wf
  | .hfPaceWrite ag _ => ag.wf
  | .lineTrigEdge input _ _ _ _ sub => decide (input < 16) && decide (sub < 10)
  | .turfCreate rq id base size rtype => rq.wf && u32 id && u64 base && u64 size && u32 rtype
  | .turfDestroy rq id => rq.wf && u32 id
  | .turfResize rq id size => rq.wf && u32 id && u64 size
  | .turfSet rq id mask reserve cap deadline rtype =>
    rq.wf && u32 id && u32 mask && u32 reserve && u32 cap && u32 deadline && u32 rtype
  | .turfGrant rq id grantee access => rq.wf && u32 id && grantee.wf && u32 access
  | .turfRevoke rq id grantee => rq.wf && u32 id && grantee.wf
  | .turfQuery rq id => rq.wf && u32 id
  | .windowMap rq fn base len => rq.wf && fn.wf && u64 base && u64 len
  | .billetUnmap billet => decide (billet < 2 ^ 30)
  | .hdmDecoderCommit port ld dec base size ways gran pos skip _ _ =>
    fnOk port ld && decide (dec < 8) && u64 base && u64 size && decide (ways < 8) && decide (gran < 16)
      && decide (pos < 16) && u64 skip
  | .memrd m _ | .memrddata m _ => m.wf
  | .memwr m _ _ _ => m.wf
  | .memwrptl m _ _ _ _ => m.wf
  | .memspecrd m => m.wf
  | .unsupportedM2sOpcode m opcode => m.wf && decide (opcode < 16)
  | .bar2Read port func tag off len _ =>
    fnOk port func && decide (tag < 2 ^ 14) && u64 off && decide (1 ≤ len) && decide (len ≤ 4096)
  | .bar2Write port func off bytes _ _ _ =>
    fnOk port func && u64 off && decide (1 ≤ bytes.length) && decide (bytes.length ≤ 4096)
  | .atomicopRequest port func tag => fnOk port func && decide (tag < 2 ^ 14)
  | .configurationRequest port func off _ => portOk port && decide (func < 256) && decide (off < 4096) && decide (off % 4 = 0)
  | .globalPersistentFlush port => portOk port
  | .functionLevelReset port func => fnOk port func
  | .portReset port => portOk port
  | .correctedLineWriteBack frame line => frameOk frame && lineOk line
  | .ftRetrack dev margin _ _ => devOk dev && u8 margin
  | .gddr6TemperatureReading temps => decide (temps.length = 32)
  | .refreshBandCooler | .perBankRefresh => true
  | .patrolStep _ | .rowSparingCopy _ => true
  | .dirtyFrameCopy frame _ _ => frameOk frame
  | .gddr6DeviceRetired dev => devOk dev
  | .ftRawWrite core | .ftRawRead core | .ftRawDecode core | .ftRawLock core => coreOk core
  | .frontQuery rq => rq.wf
  | .frontRetire rq dev => rq.wf && u32 dev
  | .dirtyCeilingSet rq gib => rq.wf && u32 gib
  | .frontRaw rq op dev line _ _ => rq.wf && u32 op && u32 dev && u32 line
  | .ageSweep | .backgroundEviction => true
  | .evictionCommitPoint frame => frameOk frame
  | .mediaFillUnit frame unit _ susp => frameOk frame && decide (unit < 16) && susp.wf
  | .lookasideFillComplete port => portOk port
  | .teLaInval ag port => ag.wf && portOk port
  | .cheaperPathDeadline frame line => frameOk frame && lineOk line
  | .destageComplete frame rds => frameOk frame && rdsOk rds
  | .destageProgramFail frame => frameOk frame
  | .destageRetry billet => decide (billet < 2 ^ 30)
  | .rowVerification _ failing => failing.all (fun x => decide (x < 2 ^ 35))
  | .kilnFold => true
  | .blockSetEraseComplete set _ => decide (set < 512 * 4096)
  | .mediaIdle | .smoulder => true
  | .driftSample set _ _ => decide (set < 512 * 4096)
  | .mediaReadComplete _ _ cls susp => decide (cls < 4) && susp.wf
  | .blockSetCheckpoint bad => bad.all (fun u => decide (u < 512))
  | .wearTableRebuilt lun => decide (lun < 512)
  | .levellingMove => true
  | .lunStatusTimeout lun lost => decide (lun < 512) && unitsOk lost
  | .journalSectorTimer | .checkpointChunk => true
  | .mediaQuery rq => rq.wf
  | .mediaFormat rq gib slc => rq.wf && u32 gib && u32 slc
  | .mediaRetire rq chan lun lost => rq.wf && u32 chan && u32 lun && unitsOk lost
  | .mcRecDeepRead ag => ag.wf
  | .pfWarnAccepted | .pfWarnReleased | .pfWarnReleaseHeld => true
  | .emberQuiesceComplete us => u32 us
  | .emberFlushComplete us bad tw => u32 us && bad.all (fun k => decide (k < 2 ^ 31)) && tw.all (fun x => decide (x.1 < 2 ^ 31))
  | .sealComplete | .sealedHoldTimeout => true
  | .sealedRestart lost fail => lost.wf && fail.wf
  | .fullScan bad rejected fail => unitsOk bad && unitsOk rejected && fail.wf
  | .emberQuery rq => rq.wf
  | .holdupSet rq mj mw => rq.wf && u32 mj && u32 mw
  | .emberDrill rq => rq.wf
  | .twinPortTrained _ width => decide (width < 32)
  | .hello h _ => h.wf
  | .pairResult h outcome reason pgen pairId => h.wf && u8 outcome && u8 reason && u32 pgen && u64 pairId
  | .keepalive h => h.wf
  | .retry h expected => h.wf && decide (expected < 2 ^ 63)
  | .peerStatus h pool bg cg b64 => h.wf && u32 pool && u32 bg && u32 cg && u32 b64
  | .repl h seg gen stamp recs =>
    h.wf && decide (seg < 2 ^ 25) && u32 gen && u64 stamp && recs.all (fun r => decide (r.first < 2 ^ 40))
  | .replAck h stamp => h.wf && u64 stamp
  | .fwd h tag dpa _ _ _ _ => h.wf && u64 tag && u64 dpa
  | .fwdResult h tag result => h.wf && u64 tag && u8 result
  | .unitReq h tag billet unit mode _ => h.wf && u32 tag && decide (billet < 2 ^ 30) && decide (unit < 16) && u8 mode
  | .unitReply h tag status stamp _ _ => h.wf && u32 tag && u8 status && u64 stamp
  | .credit h frames => h.wf && u32 frames
  | .migBegin h seg | .migReady h seg => h.wf && decide (seg < 2 ^ 25)
  | .migDone h seg stamp => h.wf && decide (seg < 2 ^ 25) && u64 stamp
  | .genList h first gens => h.wf && decide (first < 2 ^ 25) && gens.all u32
  | .unitCopy h billet unit st _ _ => h.wf && decide (billet < 2 ^ 30) && decide (unit < 16) && u8 st
  | .segDone h seg gen => h.wf && decide (seg < 2 ^ 25) && u32 gen
  | .segAck h seg => h.wf && decide (seg < 2 ^ 25)
  | .resyncDone h pgen => h.wf && u32 pgen
  | .cmd h slot | .cmdReply h slot => h.wf && slotOk slot
  | .emberNotice h cause ents => h.wf && u8 cause && ents.all (fun e => chanNoOk e.ch)
  | .haltNotice h reason ents => h.wf && u8 reason && ents.all (fun e => chanNoOk e.ch)
  | .streamState h ents => h.wf && ents.all (fun e => chanNoOk e.ch)
  | .peerReset h => h.wf
  | .linkGapTimeout => true
  | .twinPortSilent _ => true
  | .replAckTimeout | .keepaliveTimer | .peerStatusTimer | .streamStateTimer => true
  | .pseqInNotLive _ => true
  | .pseqInClaim | .quorumWindowEnd | .takeoverRecordCommitted | .twinRetrainAttempt => true
  | .twinPortDegrade _ width => decide (width < 32)
  | .twinQuery rq => rq.wf
  | .twinHomeSet rq base size policy => rq.wf && u64 base && u64 size && u32 policy
  | .twinTakeover rq | .twinUnpair rq | .twinPeerReset rq | .twinRetrain rq => rq.wf
  | .portLinkUp port rate width _ _ _ => portOk port && decide (rate < 8) && decide (width < 32)
  | .portDisabledRetry port | .portLaneFailed port => portOk port
  | .streamPortEnumeration port _ => portOk port
  | .consumerErrCor port c | .consumerErrFatal port c | .streamPathLinkDown port c => portOk port && decide (c < 8)
  | .inboundRequest port => portOk port
  | .consumerInterrupt port c => portOk port && decide (c < 8)
  | .getEventRecords port ld log => fnOk port ld && u8 log
  | .clearEventRecords port ld log _ handles => fnOk port ld && u8 log && handles.all u16
  | .getEventInterruptPolicy port ld => fnOk port ld
  | .setEventInterruptPolicy port ld modes nums =>
    fnOk port ld && decide (modes.length = 4) && decide (nums.length = 4)
  | .getSupportedLogs port ld | .getLog port ld | .identifyMemoryDevice port ld | .getHealthInfo port ld => fnOk port ld
  | .getPoisonList port ld base len => fnOk port ld && u64 base && u64 len
  | .primaryMailboxUnsupported port ld opcode => fnOk port ld && u16 opcode
  | .getLdInfo port | .getLdAllocations port => portOk port
  | .setLdAllocations port _ => portOk port
  | .getQosControl port => portOk port
  | .setQosControl port _ => portOk port
  | .getQosStatus port => portOk port
  | .msixVectorUnmask port func vec => fnOk port func && decide (vec < 64)
  | .portQuery rq port | .portRetrain rq port | .portRescan rq port => rq.wf && u32 port
  | .streamJobLoad rq c p => rq.wf && u32 c && p.wf
  | .streamJobUnload rq c => rq.wf && u32 c
  | .streamStart rq c stamp mode _ => rq.wf && u32 c && u64 stamp && u32 mode
  | .streamStop rq c => rq.wf && u32 c
  | .streamResume rq c line stamp mode _ => rq.wf && u32 c && u32 line && u64 stamp && u32 mode
  | .streamQuery rq c => rq.wf && u32 c
  | .channelArmed c | .primeTimeout c | .startStampReached c => chanNoOk c
  | .triggerDecisionPoint input rds => decide (input < 16) && rds.all (fun x => decide (x.1 < 2 ^ 40))
  | .lineReleaseComplete c => chanNoOk c
  | .streamCreditDoorbell c port consumer _ be => chanNoOk c && portOk port && decide (consumer < 16) && decide (be < 16)
  | .suChLateMaxWrite ag c _ => ag.wf && chanNoOk c
  | .stickRendered c stick lane _ => chanNoOk c && decide (stick < 2 ^ 20) && decide (lane < 9)
  | .testStick results => decide (results.length = 9)
  | .laneResponseTimeout lane => decide (lane < 9)
  | .spareLaneActivation => true
  | .noleneCheck rq base len => rq.wf && u64 base && u64 len
  | .xeQuery rq => rq.wf
  | .xeLaneRetire rq lane => rq.wf && u32 lane
  | .loadInstruction core addr size _ _ _ => coreOk core && accessOk addr size
  | .storeInstruction core addr size _ _ => coreOk core && accessOk addr size
  | .storeVisible core idx _ => coreOk core && decide (idx < 16)
  | .fence core pred succ => coreOk core && decide (pred < 16) && decide (succ < 16)
  | .fenceI core => coreOk core
  | .lr core addr size _ _ => coreOk core && atomicOk addr size
  | .sc core addr size _ _ _ => coreOk core && atomicOk addr size
  | .amo core addr size _ _ _ _ => coreOk core && atomicOk addr size
  | .storeErrorTimeout core | .loadAccessTimeout core => coreOk core
  | .ccSterrInfoClear ag core => ag.wf && coreOk core
  | .heartbeatMissed role => decide (role < 4)
  | .clusterResetComplete stOk => decide (stOk.length = 6)
  | .ccHeartbeatWrite ag role => ag.wf && decide (role < 4)
  | .coreLogicFault core => coreOk core
  | .tcmPatrol core tcm corrected bad => coreOk core && decide (tcm < 2) && (corrected ++ bad).all (fun o => decide (o < 2 ^ 18))
  | .icWatchdogExpiry => true
  | .ccIcKickWrite ag => ag.wf
  | .coreQuery rq => rq.wf
  | .icLoad rq src base len _ => rq.wf && u32 src && u64 base && u64 len
  | .icStart rq wdt => rq.wf && u32 wdt
  | .icStop rq => rq.wf
  | .icWindowMap rq w base len access => rq.wf && u32 w && u64 base && u64 len && u32 access
  | .mbReqDbWrite ch _ be | .mbRplDbWrite ch _ be => mbOk ch && decide (be < 16)
  | .requestTaken => true
  | .descriptorAreaComplete rq _ _ => rq.wf
  | .mbNotePop ch ag => mbOk ch && ag.wf
  | .mbNoteStatRead ch | .mbCtlReset ch => mbOk ch
  | .mbBindLockSet ag => ag.wf
  | .smbusSlotWrite off bytes _ => u8 off && decide (0 < bytes.length) && decide (bytes.length < 32)
  | .smbusRequestDoorbell v _ => u8 v
  | .smbusStatusRead _ => true
  | .smbusReplyOffset off _ => u8 off
  | .smbusReplyRead _ => true
  | .smbusReplyDoorbell v _ => u8 v
  | .smbusNotificationPop _ => true
  | .smbusChannelReset v _ => u8 v
  | .smbusOtherCode code => u8 code
  | .identify rq | .nop rq | .fwQuery rq | .fwActivate rq | .blockRunCommandEnd rq => rq.wf
  | .mbQuery rq channel => rq.wf && u32 channel
  | .fwUpdateBegin rq target len => rq.wf && u32 target && u64 len
  | .fwUpdateData rq off data => rq.wf && u32 off && decide (data.length ≤ 2 ^ 20)
  | .fwUpdateEnd rq _ => rq.wf
  | .updateSessionTimeout => true
  | .rngHealthFail => true
  | .frontSweepStep _ => true
  | .mediaSweepStep | .mediaSweepComplete => true
  | .unlockClosureEnd area => decide (area < 7)
  | .secQuery rq => rq.wf
  | .rekeyStart rq scope => rq.wf && u32 scope
  | .rekeyPause rq op => rq.wf && u32 op
  | .optCtlCommit core tpage | .optCtlLoad core tpage => coreOk core && decide (tpage < 1024)
  | .optByteAccess core _ => coreOk core
  | .pageWriteComplete => true
  | .optionPatrol weak damaged => weak.all (fun p => decide (p < 1024)) && damaged.all (fun p => decide (p < 1024))
  | .optRead rq first count => rq.wf && u32 first && u32 count
  | .optWrite rq form page off data image _ =>
    rq.wf && u32 form && u32 page && u32 off && decide (data.length ≤ 2 ^ 20) && decide (image.length ≤ 2 ^ 20)
  | .optUnlock rq area dir _ => rq.wf && u32 area && u32 dir
  | .optPasswordSet rq area dir _ _ => rq.wf && u32 area && u32 dir
  | .ledgerQuery rq => rq.wf
  | .ledgerRead rq first count _ => rq.wf && u64 first && u32 count
  | .ledgerAgeTimer => true
  | .ledgerProgramComplete _ _ => true
  | .highWaterCommitComplete => true
  | .porDetected | .resetNAccepted | .resetNReleased => true
  | .pllLocked pll | .pllLockTimeout pll | .pllLockLost pll => pll.wf
  | .pllRelocked pll devs => pll.wf && devs.all devOk
  | .firmwareEntryLimit | .startComplete => true
  | .sequencerEnable | .sequencerDisable | .sequencerWait | .sequencerWaitExpiry | .sequencerCheck => true
  | .sequencerCheckTimeout | .sequencerJump | .sequencerEnd | .sequencerBudgetExceeded => true
  | .powerUpRetry => true
  | .pgInGood i | .pgInBad i | .pgInGlitch i => decide (i < 8)
  | .railMeasurement mv => decide (mv.length = 8) && mv.all u16
  | .restartFromShutdown => true
  | .thermalSample samples fails =>
    decide (samples.length = 12) && samples.all (fun v => decide (-2048 ≤ v) && decide (v < 2048)) && fails.all (fun i => decide (i < 12))
  | .throttlePhaseEnd => true
  | .deviceReset rq reach port clear => rq.wf && u32 reach && u32 port && u32 clear
  | .powerQuery rq | .thermalQuery rq => rq.wf
  | .thMaxSeenWrite ag _ => ag.wf
  | .bandwidthWindowEnd i o => decide (i.length = 10) && decide (o.length = 10)
  | .pmonCtlSnap ag | .pmonCtlClear ag => ag.wf
  | .pmonSelWrite ag k _ _ => ag.wf && decide (k < 256)
  | .pmonBwMaxWrite ag port _ => ag.wf && portOk port
  | .pmonConfig rq cfg => rq.wf && cfg.wf
  | .pmonRead rq what first count => rq.wf && u32 what && u32 first && u32 count
  | .pmonDumpSet rq target base entries every => rq.wf && u32 target && u64 base && u32 entries && u32 every
  | .eventRoute rq cls mask vec => rq.wf && u32 cls && u32 mask && u32 vec
  | .glbIntEnWrite port func _ => fnOk port func
  | .registerWrite ag addr size _ => ag.wf && u64 addr && sizeOk size
  | .porReleased => true
  | .commandResetSourceReleased src => src.wf
  | .pseqInLive _ => true
  | .linkUpconfigure port width => portOk port && decide (width < 32)
  | .fillLineArrival frame line => frameOk frame && lineOk line
  | .checkRetry i => decide (i < 8)
  | .dumpComplete => true
  | .otherInstruction core kind => coreOk core && kind.wf

end Sys2Proof
end

