-- ==== Sys2Proof/Decode.lean ====
section
/-! DEFINITION. The command a word spells by the opcode table's bits. The table gives none of its rows bits, so no word
spells a command (notes/assumptions/3.md). -/

namespace Sys2Proof

/-- The rows of the table that give bits. -/
def rowsWithBits : List (Nat × Nat × Instr) := []

def decodeTableWord (nbits w : Nat) : Option Instr :=
  (rowsWithBits.find? (fun r => r.1 == nbits && r.2.1 == w)).map (fun r => r.2.2)

end Sys2Proof
end

