-- ==== Sys2Proof/Config.lean ====
section
/-! DEFINITION. The free values: what the spec leaves open. Each is an opaque constant applied to the number of the
draw (a counter in the state) or to what the value depends on; nothing can evaluate it (notes/assumptions/5.md). -/

namespace Sys2Proof.Config

/-- Whether a pulse whose width the spec leaves open is taken: a line-trigger pulse of 10 to 50 ns (R56). -/
opaque freePulse : Nat → Bool

/-- A random value of the CE's random source (R344). -/
opaque freeRandom : Nat → Nat

/-- The verifier of an option-store password: 16 bytes under a key that no one reads, for an area and direction (R363). -/
opaque verifier : Nat → BitVec 128 → BitVec 128

/-- A latency in nanoseconds, which the spec bounds but does not give (R36, R422). -/
opaque freeLatency : Nat → Nat

/-- The gap of a jittered sample, before it is brought into its range (R422). -/
opaque freeGap : Nat → Nat

/-- The point at which power was lost in a commit: 0 before the commit page was armed, 1 with its CRC not yet right,
any other with the page armed (R367). -/
opaque freeCommitPoint : Nat → Nat

/-- A value that a read of registers whose content the spec does not give returns: the firmware controls of R428 and
the configuration fields that R228 leaves to the base specification. -/
opaque freeRead : Nat → Nat

/-- The stored bits of a line slot that no rule gives: data and check word of a slot no raw write has reached (R94). -/
opaque freeLine : Nat → BitVec 512

/-- How far the calibration of a LUN moves its step from the profile's, before it is brought within 2 steps (R154). -/
opaque freeLevel : Nat → Nat

/-- A place in the system area of the media, which the spec leaves to the device: where a seal, a journal sector or a table
copy lies (R126, R173). -/
opaque freeLoc : Nat → Nat

/-- The contents of the boot ROM and the sandbox monitor ROM, byte by byte (R298). -/
opaque freeRom : Nat → Byte

/-- The element (GDDR6 device, LUN or lane) whose controls lie at a core-only offset of a block: R428 places the controls
of single elements there and does not lay them out. -/
opaque instanceAt : Nat → Nat → Nat

end Sys2Proof.Config
end

