-- ==== Sys2Proof/Machine/State.lean ====
section
/-! DEFINITION. The state of the block, as plain data: one structure per block of the device, every register, buffer,
queue, counter, mode and pin the spec names. The value after `:=` is the value after reset; the note after a field gives
its width, the chapter and rule that name it, and where the reset value comes from: `spec`, `DC n` (design choice),
`PRE n` (presumed), or `env n` (a fact of the board or of the fuses), n a row of the assumption log. -/

namespace Sys2Proof.Machine

/-- The stops. No meaning refuses a command of the spec; the one fault is safe. -/
inductive Fault where
  /-- Raised by a meaning whose row names an element the silicon does not have (port 12, core 9, R430). Safe. -/
  | noSuchElement
  deriving DecidableEq, Repr

/-- What the model has no meaning for. -/
inductive Refusal where
  /-- Raised by an arm of `exec` whose command has no meaning yet. Safe. -/
  | notModelled (mnemonic : String)
  deriving DecidableEq, Repr

/-! ## Values shared by blocks -/

/-- A stored line: 64 bytes of data or the poison marker of R83. -/
inductive LineVal where
  | data (v : Line)
  | poison
  deriving DecidableEq, Repr, Inhabited

/-- The line no write has reached: zeros (R59, R104). -/
abbrev zeroLine : LineVal := .data 0

/-- What an access to one line is, and how it is answered. -/
inductive AccKind where
  | cxlRd                                 -- MemRd, MemRdData (R233)
  | cxlWr                                 -- MemWr, MemWrPtl (R233)
  | barRd (off len : Nat)                 -- one line's piece of a BAR2 read (R67, R240)
  | barWr (relaxed : Bool)                -- one line's piece of a BAR2 write, Relaxed Ordering set (R72)
  | coreRd (off size : Nat) (lr : Bool)   -- a core load or LR
  | coreWr                                -- a core store leaving the buffer (R303)
  | coreSc (id : Nat)                     -- a successful SC
  | coreAmo (op : AmoOp) (off size : Nat) (v : BitVec 64)   -- R308
  | coreAmoDone (old : BitVec 64)         -- the same, its read and write performed
  | twinFwd (ftag : Nat)                  -- a write the twin forwarded (R205)
  | replica (stamp gen : Nat) (fwd : Option Nat)   -- a line of a `REPL` record, applied as replica (R204)
  | dump                                  -- a PMON dump (R424)
  | pin                                   -- a stream channel promotes a billet that it pins (R261)
  deriving DecidableEq, Repr, Inhabited

/-- One access to one line of the DPA space. -/
structure Acc where
  who : Agent := .ic
  port : Nat := 15                        -- host-role port it came through; 15 none
  tag : Nat := 0
  kind : AccKind := .dump
  dpa : Nat := 0                          -- DPA of the line's first byte
  wr : Option (Line × BitVec 64) := none  -- the bytes written and their mask; `none` for a read
  rd : List RdRes := []                   -- outcomes of its access to the stored line: its reads, then its write's bursts
  more : Bool := false                    -- a later line of the same request (R39)
  deriving DecidableEq, Repr, Inhabited

/-- What an access waits for. -/
inductive Why where
  | look                 -- the port's lookaside miss (R109)
  | blocked              -- a miss on another segment than the outstanding one (R109)
  | behind               -- an earlier request of its source that waits on a miss (R109)
  | line                 -- its line of a FILLING frame (R104)
  | ready                -- past the port's lookaside, about to be served
  | evict (f : Nat)      -- the eviction that frees the frame it takes (R111)
  | frame                -- a frame shortage (R111)
  | admission                -- admission under the dirty ceiling (R118)
  | retire (f : Nat)     -- the move of its line off frame f by a retirement (R84, R85)
  | before               -- an earlier write to the same line (R201) or of the same source and segment (R71)
  | seg                  -- a migration or a resync copy of its segment (R200, R217)
  | fwd (ftag : Nat)     -- a write forwarded to the twin's home (R205)
  | ack (stamp : Nat)    -- REPL_ACK up to its stamp (R205)
  | unit (utag : Nat)    -- a UNIT_REPLY (R207, R217)
  | failover             -- a takeover in progress (R211)
  | pause                -- a closed phase of the pause (R412)
  | stall                -- a GDDR6 device whose PLL has lost lock (R390)
  deriving DecidableEq, Repr, Inhabited

/-- A waiting access, with the timebase at which it began to wait and whether the cheaper path has been asked. -/
structure Wait where
  acc : Acc := {}
  why : Why := .line
  t0 : Nat := 0
  asked : Bool := false
  missAt : Option Nat := none             -- timebase at which the TE detected its miss (R114)
  old : Bool := false                     -- taken before the migration of its segment began (R200)
  deriving DecidableEq, Repr, Inhabited

/-- A ledger record (R375). -/
structure LgRec where
  seq : Nat
  code : Nat
  source : Nat
  p0 : Nat
  p1 : Nat
  p2 : Nat
  flags : Nat
  deriving DecidableEq, Repr, Inhabited

/-- A notification entry (R325). -/
structure Note where
  code : Nat := 0
  aux : Nat := 0
  nseq : Nat := 0
  param : Nat := 0
  deriving DecidableEq, Repr, Inhabited

/-- The messages of the twin link as sent (R196). -/
inductive LinkMsg where
  | hello (p : HelloP)
  | pairResult (outcome reason pgen pairId : Nat)
  | keepalive
  | retry (expected : Nat)
  | peerStatus (pool budgetGib ceilGib budget64k : Nat)
  | repl (seg gen stamp : Nat) (recs : List ReplRec)
  | replAck (stamp : Nat)
  | fwd (tag dpa : Nat) (unmap : Bool) (mask : Option (BitVec 64)) (data : List Line) (cfg : Option CfgWrite)
  | fwdResult (tag result : Nat)
  | unitReq (tag billet unit mode : Nat)
  | unitReply (tag status stamp : Nat) (mask : BitVec 64) (data : List Line)
  | credit (frames : Nat)
  | migBegin (seg : Nat)
  | migReady (seg : Nat)
  | migDone (seg stamp : Nat)
  | genList (first : Nat) (gens : List Nat)
  | unitCopy (billet unit st : Nat) (mask : BitVec 64) (data : List Line)
  | segDone (seg gen : Nat)
  | segAck (seg : Nat)
  | resyncDone (pgen : Nat)
  | cmd (slot : List Byte)
  | cmdReply (slot : List Byte)
  | emberNotice (cause : Nat) (ents : List StreamEnt)
  | haltNotice (reason : Nat) (ents : List StreamEnt)
  | streamState (ents : List StreamEnt)
  | peerReset
  deriving DecidableEq, Repr, Inhabited

/-- PCIe completion statuses the device returns. -/
inductive CplSt where
  | sc | ur | ca
  deriving DecidableEq, Repr, Inhabited

/-- Errors logged in a function's AER registers (R241). -/
inductive AerErr where
  | unsupportedRequest | completerAbort | poisonedTlp | completionTimeout | internal | receiver
  deriving DecidableEq, Repr, Inhabited

/-- Exceptions a control core takes. -/
inductive CoreExc where
  | accessFault | loadPoison | storeError | external | watchdogStop
  deriving DecidableEq, Repr, Inhabited

/-- What the device puts out: every completion, message and pin event, newest first in `State.out`. -/
inductive Out where
  | s2mData (port ld tag : Nat) (data : LineVal) (devLoad : Nat)
  | s2mAllOnes (port ld tag devLoad : Nat)
  | s2mCmp (port ld tag devLoad : Nat)
  | s2mUnsupported (port ld tag opcode : Nat)
  | cpl (port func tag off : Nat) (st : CplSt) (data : List Byte) (ep : Bool)
  | cfgCpl (port func off : Nat) (value : Option Word)
  | aer (port func : Nat) (err : AerErr)
  | errFatal (port func : Nat)
  | msix (port func vec : Nat)
  | icIrq
  | link (h : LinkHdr) (msg : LinkMsg)
  | ring (port consumer addr : Nat) (data : List Byte)
  | hostWr (port func addr : Nat) (data : List Byte)
  | smbus (data : List Byte)
  | smbusNack
  | regRead (ag : Agent) (value : Nat)
  | coreVal (core : Nat) (value : BitVec 64)
  | coreExc (core : Nat) (exc : CoreExc)
  | gpf (port : Nat)
  | cxlMbox (port ld : Nat) (code : Nat) (data : List Nat)
  | fmLd (port code : Nat) (data : List Nat)
  | sweepIrq (role : Nat)
  deriving DecidableEq, Repr, Inhabited

/-! ## Board and fuses: facts of the part and its board that no command changes -/

/-- Environment facts: the fuses, the straps and the population kindling finds (R15, R17, R343, R391). -/
structure Board where
  serial : Nat := 0x960                   -- 64 | 15 R343 | env 6
  root0Revoked : Bool := false            -- 1 | 15 R343 | env 6
  rootHash0 : Nat := 0xA0                 -- 384 | 15 R343 | env 6
  rootHash1 : Nat := 0xA1                 -- 384 | 15 R343 | env 6
  fCode : Nat := 2                        -- 8 | 19 GLB_REV | env 6
  mCode : Nat := 3                        -- 8 | 19 GLB_REV | env 6
  romVer : Nat := 0x00010000              -- 32 | 19 GLB_ROM_VER | env 6
  density : Nat := 1                      -- 2 | 05 R75 FT_CFG | env 6
  speed : Nat := 2                        -- 2 | 05 R75 FT_CFG | env 6
  gddr : BitVec 32 := 0xFFFFFFFF          -- 32 | 05 R74 devices that respond | env 6
  luns : Nat := 16                        -- 5 | 07 R122 LUNs on each channel | env 6
  ratedLine : Nat := 0                    -- 16 | 01 R15 | env 6
  strapBoot : Nat := 0                    -- 2 | 17 R391 | env 6
  strapClk : Nat := 0                     -- 2 | 03 R51 | env 6
  strapTwin : Bool := false               -- 1 | 09 R189 (true: twin B) | env 6
  pseqInHigh : Bool := true               -- 1 | 17 R404 (pull-up) | spec
  coresOk : BitVec 6 := 0x3F              -- 6 | 13 R295 self-test outcome of C0-C5 | env 6
  rngOk : Bool := true                    -- 1 | 15 R344 health tests at kindling | env 6
  gddrOdd : List (Nat × Nat × Nat) := []  -- list | 01 R16 devices of another density or speed grade: device, density, speed | env 6
  chanLuns : List (Nat × Nat) := []       -- list | 01 R16 channels with another number of LUNs | env 6
  chanDies : List Nat := []               -- list | 01 R16 channels with LUNs of another die type | env 6
  nandOk : Bool := true                   -- 1 | 07 R120, R121 every LUN has the features and the parameter page asked | env 6
  bareTest : SelfTest := {}               -- record | 05 R93 what fails the self-test of a start without formatted media | env 6
  factoryBad : List Nat := []             -- list | 07 R152 block sets with factory marks (LUN * 4096 + block) | env 6
  optOk : Bool := true                    -- 1 | 17 R393 the option-store controller keeps its bounds | env 6
  deriving DecidableEq, Repr, Inhabited

/-! ## Time and pace (03) -/

/-- Alignment states of R54, as `STATE` of TB_PPS_STAT codes them. -/
inductive PpsState where
  | free | stepPending | tracking | holdover
  deriving DecidableEq, Repr, Inhabited

structure TbState where
  count : Nat := 0                        -- 64 | 03 R52 TB_COUNT | spec
  frac : Nat := 0                         -- 32 | 03 R52 fraction accumulator | DC 7
  adj : Int := 0                          -- 32 signed | 03 R52 TB_ADJ | DC 7
  pps : PpsState := .free                 -- 3 | 03 R54 TB_PPS_STAT.STATE | spec
  havePrev : Bool := false                -- 1 | 03 PPS alignment | DC 7
  ppsEn : Bool := false                   -- 1 | 03 TB_CTL.PPS_EN | spec
  stepEn : Bool := false                  -- 1 | 03 TB_CTL.STEP_EN | spec
  clkMode : Nat := 0                      -- 2 | 03 R51 TB_CTL.CLK_MODE | spec
  rejectCnt : Nat := 0                    -- 8 | 03 TB_PPS_STAT.REJECT_CNT | spec
  clamped : Bool := false                 -- 1 | 03 TB_PPS_STAT.CLAMPED | spec
  ppsStamp : Nat := 0                     -- 64 | 03 TB_PPS_STAMP | DC 7
  phaseErr : Int := 0                     -- 32 signed | 03 TB_PHASE_ERR | DC 7
  refCycles : Nat := 0                    -- 32 | 03 TB_REF_CYCLES | DC 7
  rawSince : Nat := 0                     -- nat | 03 PPS alignment, n in progress | DC 7
  edgeFall : BitVec 16 := 0               -- 16 | 03 LTRIG_CTL | spec
  ovr : BitVec 16 := 0                    -- 16 | 03 LTRIG_OVR | spec
  ltStamp : Tab Nat := []                 -- 16 x 64 | 03 LTRIG_STAMP | DC 7
  ltLast : Tab Nat := []                  -- 16 x 64 | 03 R57 stamp of the last captured edge, moved by a step | DC 7
  ltSeen : BitVec 16 := 0                 -- 16 | 03 R57 an edge of the input has been captured | DC 7
  capLocked : Bool := false               -- 1 | 17 R390 capture PLL | DC 7
  deriving DecidableEq, Repr, Inhabited

structure HfState where
  paceLow : Nat := 0xFFFF                 -- 16 | 03 HF_PACE.PACE_LOW | spec
  paceNow : Nat := 0                      -- 16 | 03 HF_PACE.PACE_NOW | spec
  floor : Nat := 0x3E8                    -- 16 | 03 HF_PACE_FLOOR.FLOOR | spec
  lowRaised : Bool := false               -- 1 | 03 R49 pace low raised and not re-armed | DC 7
  aboveUs : Nat := 0                      -- nat | 03 R49 windows at or above FLOOR without a break | DC 7
  deriving DecidableEq, Repr, Inhabited

/-! ## Front tier (05) -/

structure FtDev where
  st : Nat := 0                           -- 2 | 05 FT_DEV_STAT.STATE | spec
  rband : Nat := 0                        -- 2 | 05 FT_DEV_STAT.RBAND | spec
  margin : Nat := 0xFF                    -- 8 | 05 FT_DEV_STAT.MARGIN_MIN | spec
  ce : Nat := 0                           -- 32 | 05 FT_CE_CNT | spec
  ue : Nat := 0                           -- 32 | 05 FT_UE_CNT | spec
  ueTimes : List Nat := []                -- list | 05 R89 uncorrectable lines within 24 h | DC 7
  edc : Nat := 0                          -- nat | 05 R85 EDC errors counted | DC 7
  rowsLow : Bool := false                 -- 1 | 05 R88 spare rows low raised | DC 7
  ckc : List Nat := []                    -- 1,024 | 05 R83 check cache: check slots, the most recently used first | DC 7
  deriving DecidableEq, Repr, Inhabited

/-- A raw line slot as a raw write left it (R94). -/
structure RawSlot where
  data : Line := 0
  check : BitVec 64 := 0
  deriving DecidableEq, Repr, Inhabited

/-- A row sparing in progress (R87): device, pair-row, spare taken and the progress pointer. -/
structure RowSpare where
  dev : Nat
  row : Nat
  spare : Nat
  next : Nat
  deriving DecidableEq, Repr, Inhabited

structure FtState where
  trained : Bool := false                 -- 1 | 05 FT_CFG.TRAINED | spec
  tested : Bool := false                  -- 1 | 05 FT_CFG.TESTED | spec
  failed : Bool := false                  -- 1 | 05 R91 FT_CFG.FAILED | spec
  density : Nat := 0                      -- 2 | 05 FT_CFG.DENSITY | spec
  speed : Nat := 0                        -- 2 | 05 FT_CFG.SPEED | spec
  dev : Tab FtDev := []                   -- 32 records | 05 FT_DEV_STAT, FT_CE_CNT, FT_UE_CNT | spec
  remap : Tab Nat := []                   -- per pair-row | 05 R87, R88 remap table (spare row + 1; 0 none) | DC 7
  rowCe : Tab (List Nat) := []            -- per pair-row | 05 R87 corrections within 24 h | DC 7
  spareQ : List RowSpare := []            -- list | 05 R87 sparings in progress | DC 7
  band : Nat := 0                         -- 2 | 05 R86 FT_BAND | DC 7
  bandSeen : Nat := 0                     -- 2 | 05 R86 refresh band last determined | DC 7
  hotDev : Nat := 0                       -- 2 | 05 R86 hottest device's band | DC 7
  patFrame : Nat := 0                     -- 21 | 05 Patrol pointer, frame | DC 7
  patLine : Nat := 0                      -- 10 | 05 Patrol pointer, line | DC 7
  patPass : Nat := 0                      -- 16 | 05 FT_SCRUB passes | DC 7
  ceilGib : Nat := 8                      -- 8 | 05 R92 ceiling in force | spec
  cand : List Nat := []                   -- list | 05 R89 candidates that wait for the next start | DC 7
  life : BitVec 32 := 0                   -- 32 | 05 R89 devices retired over the life of the part | DC 7
  failedLast : Bool := false              -- 1 | 05 R91 the start before ended in the front-tier failed state | DC 7
  rawLock : Bool := false                 -- 1 | 05 FT_RAW_CTL.LOCK | spec
  rawEn : Bool := false                   -- 1 | 05 FT_RAW_CTL.EN | spec
  rawBusy : Bool := false                 -- 1 | 05 FT_RAW_CTL.BUSY | spec
  rawCmd : Nat := 0                       -- 3 | 05 FT_RAW_CTL.CMD | spec
  rawDev : Nat := 0                       -- 5 | 05 FT_RAW_ADDR.DEV | spec
  rawLine : Nat := 0                      -- 26 | 05 FT_RAW_ADDR.LINE | spec
  rawStatus : Nat := 0                    -- 4 | 05 FT_RAW_RESULT.STATUS | spec
  rawOutcome : Nat := 0                   -- 2 | 05 FT_RAW_RESULT.OUTCOME | spec
  rawPos : Nat := 0                       -- 6 | 05 FT_RAW_RESULT.POSITION | spec
  rawSynd : Nat := 0                      -- 32 | 05 FT_RAW_SYND | DC 7
  rawCheck : BitVec 64 := 0               -- 64 | 05 FT_RAW_CHECK | DC 7
  rawData : Line := 0                     -- 512 | 05 FT_RAW_DATA0-15 | DC 7
  rawSlots : Tab RawSlot := []            -- per line slot | 05 R94 slots holding a raw write | DC 7
  wb : List (Nat × Nat) := []             -- list | 05 R82 write-backs owed (frame, line) | DC 7
  lines : Tab LineVal := []               -- per line of a frame | 05 R74 contents, key frame*1024+line | DC 8
  retireDev : Option Nat := none          -- 5 | 05 R90 device being retired by FRONT_RETIRE | DC 7
  ftStall : BitVec 8 := 0                 -- 8 | 17 R390 FTk PLLs that have lost lock | DC 7
  deriving DecidableEq, Repr, Inhabited

/-! ## Tier pool and turfs (04, 06) -/

/-- A tier map entry (R98). -/
inductive MapEnt where
  | unmapped
  | poisoned
  | media (loc : Nat)
  | res (frame : Nat)
  deriving DecidableEq, Repr, Inhabited

/-- Frame states (R101, R102). -/
inductive FrState where
  | free | filling | clean | dirty | destaging | evicting | table | offline
  deriving DecidableEq, Repr, Inhabited

/-- Fill sources (R101). -/
inductive FillSrc where
  | media | zeros | copy | poison
  deriving DecidableEq, Repr, Inhabited

/-- A frame table entry (R101), with the touched bit, the fill slot's present map and what R117 and R174 need. -/
structure Frame where
  st : FrState := .free                   -- 3 | 06 R101 STATE | spec
  mediaLoc : Option Nat := none           -- 31 | 06 R101 MEDIA_LOC (none: 0x7FFF_FFFF) | DC 7
  counted : Bool := false                 -- 1 | 06 R101 COUNTED | DC 7
  age : Nat := 0                          -- 8 | 06 R101 AGE | DC 7
  turf : Nat := 0                         -- 8 | 06 R101 TURF | DC 7
  redirty : Bool := false                 -- 1 | 06 R101 REDIRTY | DC 7
  src : FillSrc := .media                 -- 2 | 06 R101 FILL_SRC | DC 7
  slot : Nat := 0                         -- 12 | 06 R101 FILL_SLOT | DC 7
  billet : Nat := 0                       -- 30 | 06 R101 BILLET | DC 7
  touched : Bool := false                 -- 1 | 06 R101 touched bit | DC 7
  present : BitVec 1024 := 0              -- 1024 | 06 R103 present map | DC 7
  order : Nat := 0                        -- nat | 06 R117 order of leaving FILLING | DC 7
  dirtied : Bool := false                 -- 1 | 08 R174 a dirtied record since the last destage began | DC 7
  todo : List Nat := []                   -- 16 | 06 R103 units its media fill still has to bring, in order | DC 7
  copyFrom : Option Nat := none           -- frame | 05 R90 the frame a retirement copy is taken from | DC 7
  fails : Nat := 0                        -- nat | 07 R136 failed programs of the destage running | DC 7
  deriving DecidableEq, Repr, Inhabited

/-- A segment directory record (R100). DIRTY_MAP, TURF and ASSIGNED are read from the frame table and the turf table. -/
structure Seg where
  gen : Nat := 0                          -- 32 | 06 R100 GEN | spec
  homeB : Bool := false                   -- 1 | 06 R100 HOME | spec
  migrating : Bool := false               -- 1 | 06 R100 MIGRATING | spec
  streams : Nat := 0                      -- 7 | 06 R100 STREAMS | spec
  writers : BitVec 64 := 0                -- 64 | 09 R199 last 64 writes, 1 from the twin | DC 7
  writes : Nat := 0                       -- nat | 09 R199 writes looked at, up to 64 | DC 7
  lastMig : Nat := 0                      -- 64 | 09 R199 timebase of the last migration | DC 7
  everMig : Bool := false                 -- 1 | 09 R199 migrated in this run | DC 7
  deriving DecidableEq, Repr, Inhabited

/-- A lookaside entry (R106-R108). -/
structure LaEnt where
  seg : Nat
  ref : Bool
  age : Nat
  streaming : Bool
  hit : Bool
  deriving DecidableEq, Repr, Inhabited

/-- A port's lookaside and victim cache (R105-R109). -/
structure Look where
  ents : List (Option LaEnt) := []        -- 48 entries | 06 R105 (missing slots invalid) | spec
  victims : List Nat := []                -- 8 segments | 06 R108 | spec
  lookups : Nat := 0                      -- 12 | 06 R106 | DC 7
  recent : List (Nat × Nat) := []         -- 16 | 06 R107 last missed segment by source | DC 7
  miss : Option (Nat × Bool) := none      -- 1 | 06 R109 segment being filled, streaming | spec
  streamDet : Bool := true                -- 1 | 06 TE_LA_CTL.STREAM_DET | spec
  deriving DecidableEq, Repr, Inhabited

/-- A map of a window that waits until every access through the one it replaces is complete (R67, R312): its command, the
window (port*16+function, or 160 + the integrator window), DPA base, length, and write access. -/
structure MapPend where
  ch : Nat
  tag : Nat
  key : Nat
  base : Nat
  len : Nat
  rw : Bool
  deriving DecidableEq, Repr, Inhabited

/-- A command that waits for its writes: of the configuration segment (R62), and of the billets it unmaps (R63). -/
structure CfgPend where
  ch : Nat
  tag : Nat
  stamp : Nat                -- last stamp of the writes ordered here
  unmaps : Bool              -- it unmaps billets
  fwd : Option (Nat × CfgWrite) := none   -- forward tag of its write, while the home has not ordered it
  deriving DecidableEq, Repr, Inhabited

structure TeState where
  turfs : Tab (Option Turf) := []         -- 256 | 04 R60 turf and grant tables | spec
  map : Tab MapEnt := []                  -- 2^30 | 06 R98 tier map (unlisted: unmapped) | spec
  segs : Tab Seg := []                    -- 2^25 | 06 R100 segment directory | spec
  frames : Tab Frame := []                -- frames | 06 R101 frame table | spec
  kindRet : BitVec 32 := 0                -- 32 | 06 R97 devices retired when the table pages were placed | DC 7
  tindex : Tab Nat := []                  -- pages | 06 R97 table index moved entries (frame + 1; 0 k-th lowest) | DC 7
  look : Tab Look := []                   -- 10 | 06 R105 | spec
  waits : List Wait := []                 -- list | 06 R104, R109, R111, R118 waiting accesses | DC 7
  pool : Nat := 0                         -- 21 | 06 TE_POOL.TOTAL | spec
  firstDone : Bool := false               -- 1 | 06 TE_AGE_CTL.FIRST_DONE | spec
  destageAge : Nat := 4                   -- 8 | 06 TE_AGE_CTL.DESTAGE_AGE | spec
  period : Nat := 250                     -- 14 | 06 TE_AGE_CTL.PERIOD | spec
  orderCnt : Nat := 0                     -- nat | 06 R117 frames that have left FILLING | DC 7
  lastServed : Nat := 256                 -- 9 | 06 R118 turf served last, 256 for unassigned DPA | DC 7
  ceilEpisode : Bool := false             -- 1 | 06 R118 dirty ceiling reached raised for the episode | DC 7
  unmaps : List Nat := []                 -- list | 04 R63 mapped billets whose unmap is owed | DC 7
  cfgPend : List CfgPend := []            -- list | 04 R62, R63 commands whose writes are not yet durable on both twins | DC 7
  unmapFwd : List (Nat × Nat) := []       -- list | 09 R201 owed unmaps the twin forwarded: billet, forward tag | DC 7
  winMap : Tab (Nat × Nat) := []          -- per function | 04 R67 BAR2 window base and length (length 0: none) | spec
  mapPend : List MapPend := []            -- list | 04 R67, 13 R312 maps that wait for accesses through the old one | DC 7
  uGib : Nat := 0                         -- 17 | 04 R58 user capacity U, GiB; 0 before format | spec
  deriving DecidableEq, Repr, Inhabited

/-! ## Media (07) -/

/-- A block-set record (R148). `VALID` is counted from the slots that are current. -/
structure BlkSet where
  erase : Nat := 0                        -- 24 | 07 R148 ERASE_CNT | spec
  st : Nat := 0                           -- 3 | 07 R148 STATE | spec
  native : Bool := false                  -- 2 | 07 R148 MODE (native mode of the population, else SLC) | spec
  drift : Nat := 0                        -- 4 | 07 R148 DRIFT | spec
  ageH : Nat := 0                         -- 20 | 07 R148 AGE_H | spec
  order : Nat := 0                        -- nat | 07 R138, R149 order of closing or of the last erase | DC 7
  row : Nat := 0                          -- nat | 07 R125 row it belongs to (number + 1; 0 none) | DC 7
  lastRefresh : Nat := 0                  -- 64 | 07 R152 timebase of its last refresh | DC 7
  prevRefresh : Nat := 0                  -- 64 | 07 R152 timebase of the refresh before | DC 7
  refreshed : Bool := false               -- 1 | 07 R152 its last erase followed a refresh | DC 7
  refreshes : Nat := 0                    -- nat | 07 R152 refreshes in a row that failed their first sample | DC 7
  susp : Nat := 0                         -- nat | 07 R146 suspensions of the erase in progress | DC 7
  eraseOwed : Bool := false               -- 1 | 08 R164 an erase abandoned by ember | DC 7
  refreshOwed : Bool := false             -- 1 | 07 R143 a refresh is scheduled | DC 7
  sampled : Bool := false                 -- 1 | 07 R152 sampled since its last erase | DC 7
  ashOwed : Bool := false                 -- 1 | 07 R135 goes to ash once its failing sectors are relocated | DC 7
  deriving DecidableEq, Repr, Inhabited

/-- A programmed billet slot: the copy it holds (R128). The data lines are in `mlines`. -/
structure MSlot where
  billet : Nat
  seq : Nat
  gen : Nat
  keyGen : Nat
  flags : Nat                -- FLAGS [2:0], the same in its 16 sectors
  units : BitVec 16          -- units written with data or the marker
  marks : BitVec 16          -- units that hold the poison marker: FLAGS [3] of their sectors
  erase : Nat                -- ERASE_CNT of the set at its last erase
  mode : Nat                 -- MODE of the set
  deriving DecidableEq, Repr, Inhabited

/-- A programmed parity slot: the row, the `SEQ` of its first sector, and the XOR of the stripe's data lines (R128, R134). -/
structure ParSlot where
  row : Nat
  seq : Nat
  lines : Tab Line
  deriving DecidableEq, Repr, Inhabited

/-- A journal record (R132, R174). -/
structure JRec where
  seq : Nat
  billet : Nat
  kind : Nat                 -- 0 mapped, 1 unmapped, 2 poisoned, 3 dirtied
  val : Nat                  -- location, or GEN for kinds 1 and 2
  deriving DecidableEq, Repr, Inhabited

/-- A checkpoint chunk on the media (R132): its SEQ and the images it copied. -/
structure Chunk where
  seq : Nat := 0
  ents : Tab MapEnt := []
  gens : Tab Nat := []
  deriving DecidableEq, Repr, Inhabited

/-- A cord row (R125). -/
structure Row where
  cord : Nat
  fold : Bool
  sets : List Nat            -- data sets, by position order (key lun*4096+set)
  parity : List Nat          -- parity sets
  next : Nat                 -- next slot position within the row
  closed : Bool
  parityHeld : Bool          -- parity not yet released
  verified : Bool := false   -- read back (R135)
  deriving DecidableEq, Repr, Inhabited

/-- Why a media read runs, where it matters at its end (R144). -/
inductive RdWhy where
  | fill | verify | twin (utag : Nat)
  deriving DecidableEq, Repr, Inhabited

/-- A media read in progress past step 1 (R144). -/
structure MRead where
  id : Nat
  loc : Nat
  unit : Nat
  frame : Nat
  step : Nat                 -- recovery step, 1-6
  why : RdWhy
  second : Bool              -- the second read of R145
  utag : Nat := 0            -- the request tag of step 6
  deriving DecidableEq, Repr, Inhabited

/-- A destage in progress: the frame, its SEQ, the slot it goes to, the snapshot of its lines. -/
structure Destage where
  frame : Nat
  seq : Nat
  loc : Nat
  gen : Nat
  lines : Tab LineVal
  ember : Bool
  susp : Nat := 0            -- suspensions of its program (R146)
  deriving DecidableEq, Repr, Inhabited

structure Lun where
  ash : Bool := false                     -- 1 | 07 R153 MC_CH_STAT.RETIRED | spec
  unlevelled : Bool := false              -- 1 | 07 R151 | spec
  deriving DecidableEq, Repr, Inhabited

/-- The die profile as kindling applied it (R372). -/
structure Prof where
  cell : Nat := 0                         -- 2 | 07 MC_CFG.CELL | spec
  speed : Nat := 0                        -- 2 | 07 MC_CFG.SPEED | spec
  luns : Nat := 0                         -- 5 | 07 MC_CFG.LUNS | spec
  pn : Nat := 0                           -- 16 | 16 R372 DP_PN | DC 7
  ps : Nat := 0                           -- 16 | 16 R372 DP_PS | DC 7
  blocks : Nat := 0                       -- 16 | 16 R372 DP_BLOCKS | DC 7
  en : Nat := 0                           -- 32 | 16 R372 DP_EN | DC 7
  es : Nat := 0                           -- 32 | 16 R372 DP_ES | DC 7
  step : Int := 0                         -- 8 | 16 R372 DP_STEP | DC 7
  retryN : Nat := 0                       -- 8 | 16 R372 DP_RETRY_N | DC 7
  deriving DecidableEq, Repr, Inhabited

structure McState where
  prof : Prof := {}                       -- profile | 16 R372 as applied at kindling | spec
  formatted : Bool := false               -- 1 | 07 MC_CFG.FORMATTED | spec
  slcDiv : Nat := 0                       -- 4 | 07 MC_CFG.SLC_DIV | spec
  fmt : Option (Nat × Nat) := none        -- U in GiB and SLC_DIV | 07 R126, R154 what the last format left on the media | spec
  luns : Tab Lun := []                    -- 512 | 07 R122, R153 | spec
  sets : Tab BlkSet := []                 -- per block set | 07 R148 (unlisted: erased, never erased since manufacture) | spec
  slots : Tab (Option MSlot) := []        -- per billet slot | 07 R123 programmed slots | spec
  mlines : Tab LineVal := []              -- per line of a slot | 07 R127 data, key loc*1024+line | spec
  rows : Tab (Option Row) := []           -- per row number | 07 R125 | DC 7
  rowCnt : Nat := 0                       -- nat | 07 R125 rows opened since format | DC 7
  cordRows : Tab Nat := []                -- 2k | 07 R125 rows opened in each cord | DC 7
  lastCord : Nat := 0                     -- 5 | 07 R149 cord of the last destage row | DC 7
  openRow : Tab Nat := []                 -- per cord | 07 R133 open destage row (number + 1) | DC 7
  foldRow : Nat := 0                      -- nat | 07 R149 open fold row (number + 1) | DC 7
  rotCord : Nat := 0                      -- 5 | 07 R133 rotation of destage over the cords | DC 7
  orderCnt : Nat := 0                     -- nat | 07 R138 closings and erases so far | DC 7
  seq : Nat := 0                          -- 64 | 07 R129 next SEQ | spec
  jPend : List JRec := []                 -- list | 07 R132 records of the sector not yet written | DC 7
  journal : List JRec := []               -- list | 07 R132 records on the media, newest first | DC 7
  chunks : Tab Chunk := []                -- 64 | 07 R132 checkpoint | DC 7
  chunkNext : Nat := 0                    -- 6 | 07 R132 chunk written next | DC 7
  bst : Tab BlkSet := []                  -- per block set | 07 R148 block-set table checkpoint on the media | DC 7
  remapMedia : Tab Nat := []              -- per pair-row | 05 R88 remap tables on the media | DC 7
  sys : Tab (Nat × Nat × Nat) := []       -- 67 x 3 | 07 R126, R129 last SEQ and the two copies of what the system area holds: chunks 0-63, journal sector 64, block-set table 65, remap tables 66 | DC 7
  parSlots : Tab ParSlot := []            -- per parity slot | 07 R134 parity slots programmed | DC 7
  relocOwed : List Nat := []              -- list | 07 R135, R144 slots with a recovered sector, to be relocated | DC 7
  destages : List Destage := []           -- list | 07 R133 destages in progress | DC 7
  retry : List Nat := []                  -- list | 07 R136 billets whose destage waits its 10 ms | DC 7
  retryRaised : List Nat := []            -- list | 07 R136 billets whose destage retry event was raised | DC 7
  reads : List MRead := []                -- list | 07 R144 reads in recovery | DC 7
  readCnt : Nat := 0                      -- nat | 07 R144 identities given to reads | DC 7
  deriving DecidableEq, Repr, Inhabited

/-- The levels, counters and the idle flag of the media controller. -/
structure McCtl where
  idle : Bool := false                    -- 1 | 07 R140 | DC 7
  mediaFull : Bool := false               -- 1 | 07 MC_STATE.MEDIA_FULL | spec
  stoke : Bool := false                   -- 1 | 07 MC_STATE.STOKE | spec
  stokeEmerg : Bool := false              -- 1 | 07 MC_STATE.STOKE_EMERG | spec
  smoulder : Bool := false                -- 1 | 07 MC_STATE.SMOULDER | spec
  kiln : Nat := 0                         -- 2 | 07 MC_STATE.KILN | spec
  slcLevel : Nat := 0                     -- nat | 07 R137 row of the table in force, 0-4 | DC 7
  sparesLow : Bool := false               -- 1 | 07 MC_STATE.SPARES_LOW | spec
  destageCnt : Nat := 0                   -- 64 | 07 MC_DESTAGE | DC 7
  foldCnt : Nat := 0                      -- 64 | 07 MC_FOLD | DC 7
  recDeep : Nat := 0                      -- 32 | 07 MC_REC_DEEP | DC 7
  recPoison : Nat := 0                    -- 32 | 07 MC_REC_POISON | DC 7
  recMid : Nat := 0                       -- 32 | 10 R237 units recovered at steps 3-6 | DC 7
  calib : Nat := 0                        -- nat | 07 R154 the free value that S of R142 was refined with at format | DC 5
  ashSets : Nat := 0                      -- 21 | 07 MC_ASH_SETS | DC 7
  ashFactory : Nat := 0                   -- 21 | 07 MC_ASH_FACTORY | DC 7
  stokeFreed : Nat := 0                   -- nat | 07 R141 block sets that stoke has freed and the kiln not yet opened | DC 7
  formatRq : Option (Nat × Nat × Nat) := none   -- U, SLC divisor and kind | 07 R154 format in progress | DC 7
  retireLun : Option Nat := none          -- 9 | 07 R153 retirement in progress by command | DC 7
  ncStall : BitVec 8 := 0                 -- 8 | 17 R390 NCk PLLs that have lost lock | DC 7
  deriving DecidableEq, Repr, Inhabited

/-! ## Ember (08) -/

/-- `PHASE` of EU_STAT. -/
inductive Phase where
  | service | quiesce | flush | seal | sealedHold | shutdown | restart | scan1 | scan2 | scanSeal
  deriving DecidableEq, Repr, Inhabited

/-- The epoch record of option page 32 (R172). -/
structure Epoch where
  num : Nat := 0                          -- 32 | 08 R172 EPOCH | DC 7
  st : Nat := 0                           -- 8 | 08 R172 STATE (0: never written, 1 OPEN, 2 SEALED) | DC 7
  cause : Nat := 0                        -- 8 | 08 R172 CAUSE | DC 7
  sealSeq : Nat := 0                      -- 64 | 08 R172 SEAL_SEQ | DC 7
  locA : Nat := 0                         -- 32 | 08 R172 SEAL_LOC_A | DC 7
  locB : Nat := 0                         -- 32 | 08 R172 SEAL_LOC_B | DC 7
  openSeq : Nat := 0                      -- 64 | 08 R172 OPEN_SEQ | DC 7
  deriving DecidableEq, Repr, Inhabited

/-- The seal sector's data (R173), held on the media. -/
structure Seal where
  epoch : Nat := 0                        -- 32 | 08 R173 EPOCH | DC 7
  cause : Nat := 0                        -- 8 | 08 R173 CAUSE | DC 7
  seqHigh : Nat := 0                      -- 64 | 08 R173 SEQ_HIGH | DC 7
  journalFrom : Nat := 0                  -- 64 | 08 R173 JOURNAL_FROM | DC 7
  billets : Nat := 0                      -- 32 | 08 R173 BILLETS_FLUSHED | DC 7
  poisoned : Nat := 0                     -- 32 | 08 R173 LINES_POISONED | DC 7
  tQuiesce : Nat := 0                     -- 32 | 08 R173 T_QUIESCE | DC 7
  tFlush : Nat := 0                       -- 32 | 08 R173 T_FLUSH | DC 7
  emberCnt : Nat := 0                     -- 32 | 08 R173 EMBER_CNT | DC 7
  unsealedCnt : Nat := 0                  -- 32 | 08 R173 UNSEALED_CNT | DC 7
  journalLoc : Nat := 0                   -- 32 | 08 R173 JOURNAL_LOC | DC 7
  bstLoc : Nat := 0                       -- 32 | 08 R173 BST_LOC | DC 7
  remapLoc : Nat := 0                     -- 32 | 08 R173 REMAP_LOC | DC 7
  chunkSeq : List Nat := []               -- 64 x 64 | 08 R173 CHUNK_SEQ | DC 7
  chunkLoc : List Nat := []               -- 64 x 32 | 08 R173 CHUNK_LOC | DC 7
  deriving DecidableEq, Repr, Inhabited

structure EuState where
  phase : Phase := .service               -- 4 | 08 EU_STAT.PHASE | spec
  cause : Nat := 0                        -- 8 | 08 EU_STAT.CAUSE | spec
  causes : List Nat := []                 -- list | 08 R158 causes of the ember in progress | DC 7
  pfw : Bool := false                     -- 1 | 08 EU_STAT.PFW | spec
  pfwHeld : Bool := true                  -- 1 | 08 R159, R168 warning released for 10 ms | DC 7
  scanned : Bool := false                 -- 1 | 08 EU_STAT.SCANNED | spec
  epoch : Epoch := {}                     -- 64 B | 08 R172 epoch record in force | DC 7
  sealRec : Seal := {}                       -- 4 KiB | 08 R173 last seal | DC 7
  ceilSupported : Nat := 0                -- 8 | 08 EU_BUDGET.CEIL_SUPPORTED | spec
  flushRate : Nat := 0                    -- 16 | 08 EU_BUDGET.FLUSH_RATE | spec
  scanPoison : Nat := 0                   -- 32 | 08 EU_SCAN_POISON | DC 7
  scanPass : Nat := 0                     -- 2 | 08 EU_SCAN_PROGRESS pass | DC 7
  scanProg : Nat := 0                     -- 16 | 08 EU_SCAN_PROGRESS progress | DC 7
  scanBad : Option Nat := none            -- sector | 08 R180 the first sector rejected in the scan: location + unit * 2^32 | DC 7
  flushing : List Nat := []               -- frames | 08 R165 frames the flush writes | DC 7
  flushed : Nat := 0                      -- nat | 08 R173 billets flushed so far | DC 7
  pois : Nat := 0                         -- nat | 08 R166 lines poisoned so far | DC 7
  tQuiesce : Nat := 0                     -- 32 | 08 R173 step 1 to step 7 of the ember in progress | DC 7
  tFlush : Nat := 0                       -- 32 | 08 R173 step 7 to step 8 of the ember in progress | DC 7
  deferred : List RstSrc := []            -- list | 08 R185 resets deferred by ember | DC 7
  unusable : Bool := false                -- 1 | 08 R176 the seal could not be used in this start | DC 7
  drill : Option (Nat × Nat) := none      -- channel, tag | 08 R188 EMBER_DRILL in progress | DC 7
  admitLow : Bool := false                -- 1 | 08 R177 admission limited until the ember reserve is free | DC 7
  startEnded : Bool := false              -- 1 | 08 R184 a start stopped by a warning | DC 7
  deriving DecidableEq, Repr, Inhabited

/-! ## Twin (09) -/

/-- Pair states (R191). -/
inductive PState where
  | unpaired | pairing | inSync | solo | fenced | left | resyncSource | resyncTarget | refused
  deriving DecidableEq, Repr, Inhabited

/-- The pair record of option page 33 (R190). -/
structure PairRec where
  pgen : Nat := 0                         -- 32 | 09 R190 PGEN | DC 7
  pstate : PState := .unpaired            -- 8 | 09 R190 PSTATE | spec
  token : Bool := false                   -- 1 | 09 R190 TOKEN | DC 7
  fullOwed : Bool := false                -- 1 | 09 R190 FULL_OWED | DC 7
  pairId : Nat := 0                       -- 64 | 09 R190 PAIR_ID | spec
  peerSerial : Nat := 0                   -- 64 | 09 R190 PEER_SERIAL | DC 7
  session : Nat := 0                      -- 32 | 09 R190, R351 SESSION (random at manufacture) | DC 7
  uGib : Nat := 0                         -- 32 | 09 R190 U_GIB | DC 7
  deriving DecidableEq, Repr, Inhabited

/-- One twin port. -/
structure TwinPort where
  up : Bool := false                      -- 1 | 09 TU_LINK.UP_LO, UP_HI | spec
  width : Nat := 0                        -- 5 | 09 TU_LINK.WIDTH_LO, WIDTH_HI | spec
  owed : Bool := false                    -- 1 | 09 R219 a retrain to the full width is owed | DC 7
  deriving DecidableEq, Repr, Inhabited

/-- A frame sent and not yet covered (R194). -/
structure SentFrame where
  lseq : Nat
  sends : Nat
  hdr : LinkHdr
  msg : LinkMsg
  deriving DecidableEq, Repr, Inhabited

structure TuState where
  isB : Bool := false                     -- 1 | 09 TU_STAT.ID | spec
  ps : PState := .unpaired                -- 4 | 09 TU_STAT.PSTATE | spec
  record : PairRec := {}                  -- 64 B | 09 R190 pair record in force | spec
  qwired : Bool := false                  -- 1 | 09 TU_STAT.QWIRED | spec
  qfault : Bool := false                  -- 1 | 09 TU_STAT.QFAULT | spec
  live : Bool := false                    -- 1 | 09 TU_STAT.PEER_LIVE | spec
  claimIn : Bool := false                 -- 1 | 09 TU_STAT.CLAIM_IN | spec
  refuse : Nat := 0                       -- 6 | 09 TU_STAT.REFUSE | spec
  lo : TwinPort := {}                     -- port | 09 R192 lower-numbered twin port | spec
  hi : TwinPort := {}                     -- port | 09 R192 higher-numbered twin port | spec
  session : Nat := 0                      -- 32 | 09 TU_SESSION | DC 7
  txSeq : Nat := 0                        -- 63 | 09 R193 next LSEQ sent | spec
  rxSeq : Nat := 0                        -- 63 | 09 R193 next LSEQ expected | spec
  sent : List SentFrame := []             -- list | 09 R194 frames not covered, oldest first | DC 7
  gap : Bool := false                     -- 1 | 09 R194 a gap is open | DC 7
  retryAt : Nat := 0                      -- 64 | 09 R194 timebase at which the next RETRY may be sent | DC 7
  helloRx : Option HelloP := none         -- 64 B | 09 R197 HELLO of the session | DC 7
  peerPool : Nat := 0                     -- 32 | 09 R196 PEER_STATUS pool total | DC 7
  peerB64 : Nat := 0                      -- 32 | 09 R202 twin's budget in 64 KiB | DC 7
  stamp : Nat := 1                        -- 64 | 09 R201 order counter TU_STAMP | spec
  rxStamp : Nat := 0                      -- 64 | 09 R204 last stamp received from the twin | DC 7
  ackSent : Nat := 0                      -- 64 | 09 R204 stamp of the last REPL_ACK sent | DC 7
  ackStamp : Nat := 0                     -- 64 | 09 R205 every stamp up to this is covered | DC 7
  fwdCnt : Nat := 0                       -- 63 | 09 R196 forward tag count | DC 7
  unitCnt : Nat := 0                      -- 32 | 09 R196 request tags of UNIT_REQ | DC 7
  credits : Nat := 0                      -- nat | 09 R118 credits held from the twin | DC 7
  retx : Nat := 0                         -- 32 | 09 TU_RETX | DC 7
  takeovers : Nat := 0                    -- 32 | 09 TU_TAKEOVERS | DC 7
  idle : Bool := false                    -- 1 | 09 R208 both twin ports held in electrical idle | DC 7
  claimOut : Bool := false                -- pin | 09 R209 PSEQ_OUT holds a claim | DC 7
  liveOn : Bool := false                  -- 1 | 09 R209 the unit drives liveness from the first pair state that asks it | DC 7
  myStatus : Nat × Nat × Nat := (0, 0, 0) -- 3 x 32 | 09 R202 pool, ceiling and budget last sent to the twin | DC 7
  deriving DecidableEq, Repr, Inhabited

/-- What a resync target still has to install (R217). -/
inductive CopyIn where
  | unit (billet unit st : Nat) (mask : BitVec 64) (data : List Line)
  | segDone (seg gen : Nat)
  deriving DecidableEq, Repr, Inhabited

/-- What the twin unit holds of homes, migrations, resync and failover. -/
structure TuPair where
  homes : List HomeRange := []            -- 64 | 09 R199 home table | spec
  mig : List (Nat × Bool × Nat) := []     -- list | 09 R200 migrations: segment, as old home, step | DC 7
  migQ : List Nat := []                   -- list | 09 R221 segments that still have to migrate | DC 7
  unackSegs : List (Nat × Nat) := []      -- list | 09 R205 stamps not covered and their segments | DC 7
  unackBillets : List (Nat × Nat) := []   -- list | 09 R206 stamps not covered and their billets | DC 7
  rxFwd : List Nat := []                  -- list | 09 R205 forward tags applied here as home | DC 7
  full : Bool := false                    -- 1 | 09 R216 full resync | DC 7
  todo : List Nat := []                   -- list | 09 R217 segments still to copy | DC 7
  copying : Option Nat := none            -- segment | 09 R217 segment being copied | DC 7
  synced : List Nat := []                 -- list | 09 R217 synced segments | DC 7
  genListAt : Nat := 0                    -- 25 | 09 R216 GEN_LIST received up to this segment | DC 7
  done : Nat := 0                         -- 32 | 09 TU_RESYNC_DONE | DC 7
  total : Nat := 0                        -- 32 | 09 TU_RESYNC_TOTAL | DC 7
  haltRx : Bool := false                  -- 1 | 09 R221 HALT_NOTICE received since the last pairing | DC 7
  haltReason : Nat := 0                   -- 8 | 09 R213 its reason | DC 7
  haltSent : Bool := false                -- 1 | 09 R213 HALT_NOTICE sent | DC 7
  deciding : Bool := false                -- 1 | 09 R210 the 2 ms window runs | DC 7
  notLive1ms : Bool := false              -- 1 | 09 R210 PSEQ_IN not live for 1 ms without a break | DC 7
  taking : Bool := false                  -- 1 | 09 R211 a takeover waits for its record | DC 7
  byNotice : Bool := false                -- 1 | 09 R211 the takeover follows a notice | DC 7
  lossOwed : Bool := false                -- 1 | 09 R453 a resync source in ember lost the link | DC 7
  noticeEnts : List StreamEnt := []       -- list | 09 R214 held lines of the notice | DC 7
  peerLines : Tab Nat := []               -- 64 | 09 R214 last line received for a twin channel (line + 1) | DC 7
  peerRun : Tab Nat := []                 -- 64 | 09 R214 its status (1 running, 2 stopped) | DC 7
  copyQ : List CopyIn := []               -- list | 09 R217 copies received and not yet installed, oldest first | DC 7
  replUnmap : List (Nat × Nat) := []      -- list | 09 R204 unmap records that wait: billet, stamp | DC 7
  cmdSeq : Nat := 0                       -- 32 | 14 R329 CSEQ of the next CMD this device sends in the session | DC 7
  unitAsk : List (Nat × Nat × Nat) := []  -- list | 06 R114 cheaper-path requests: tag, billet, unit | DC 7
  deriving DecidableEq, Repr, Inhabited

/-! ## Ports (10) -/

/-- An HDM decoder (R65). -/
structure HdmDec where
  committed : Bool := false               -- 1 | 04 R65 | spec
  error : Bool := false                   -- 1 | 04 R66 Error Not Committed | spec
  lock : Bool := false                    -- 1 | 10 R231 Lock On Commit set at its commit | spec
  base : Nat := 0                         -- 64 | 04 R65 | DC 7
  size : Nat := 0                         -- 64 | 04 R65 | DC 7
  ways : Nat := 0                         -- 3 | 04 R65 log2 of the ways | DC 7
  gran : Nat := 8                         -- 4 | 04 R65 log2 of the granularity | DC 7
  pos : Nat := 0                          -- 4 | 04 R65 interleave position | DC 7
  skip : Nat := 0                         -- 64 | 04 R65 DPA skip | DC 7
  start : Nat := 0                        -- 64 | 04 R65 DPA start | DC 7
  deriving DecidableEq, Repr, Inhabited

/-- A CXL event record (R238): what it reports. -/
structure EvRec where
  handle : Nat
  kind : Nat                 -- 0 General Media, 1 DRAM, 2 Memory Module
  code : Nat                 -- the event code of R416
  val : Nat                  -- its parameter
  deriving DecidableEq, Repr, Inhabited

/-- What a logical device holds (R65, R238, R243). -/
structure LdState where
  decs : Tab HdmDec := []                 -- 8 | 04 R65 HDM decoders | spec
  logs : Tab (List EvRec) := []           -- 4 x 64 | 10 R238 event logs, oldest first | spec
  overCnt : Tab Nat := []                    -- 4 | 10 R238 overflow count of each log | spec
  nextHandle : Nat := 1                   -- 16 | 10 R238 record handles | DC 7
  polMode : Tab Nat := []                 -- 4 | 10 R243 Event Interrupt Policy modes | DC 7
  polNum : Tab Nat := []                  -- 4 | 10 R243 its message numbers | DC 7
  deriving DecidableEq, Repr, Inhabited

/-- An MSI-X table entry (R437). -/
structure MsixEnt where
  addr : Nat := 0                         -- 64 | 19 R437 | spec
  data : Nat := 0                         -- 32 | 19 R437 | spec
  mask : Bool := true                     -- 1 | 19 R437 | spec
  deriving DecidableEq, Repr, Inhabited

/-- What a host function holds (R228, R436). -/
structure FnState where
  msixEn : Bool := false                  -- 1 | 10 R243 MSI-X Enable | spec
  msixMask : Bool := false                -- 1 | 10 R228 MSI-X Function Mask | spec
  msix : Tab MsixEnt := []                -- 64 | 19 R437 | spec
  pend : BitVec 64 := 0                   -- 64 | 19 R437 PBA | spec
  bme : Bool := false                     -- 1 | 10 R229 Bus Master Enable | spec
  mse : Bool := false                     -- 1 | 10 R228 Memory Space Enable | spec
  d3 : Bool := false                      -- 1 | 10 R228 D3hot | spec
  cfg : Tab Nat := []                     -- words | 10 R228 other configuration words written | DC 7
  aer : List AerErr := []                 -- list | 10 R241 errors logged | DC 7
  errFatalSent : Bool := false            -- 1 | 10 R242 | DC 7
  accErr : Nat := 0                       -- 32 | 19 GLB_ACC_ERR | spec
  intStat : BitVec 5 := 0                 -- 5 | 19 GLB_INT_STAT | spec
  intEn : BitVec 5 := 0x1F                -- 5 | 19 GLB_INT_EN | spec
  evtVec : Tab Nat := []                  -- 18 | 19 GLB_EVT_VEC | spec
  deriving DecidableEq, Repr, Inhabited

/-- A consumer below a stream port (R244, R245). -/
structure Consumer where
  bus : Nat
  dev : Nat
  func : Nat
  bars : List (Nat × Nat)    -- base and size
  lost : Bool
  deriving DecidableEq, Repr, Inhabited

/-- A port (R222, R226). -/
structure Port where
  role : Nat := 0                         -- 2 | 10 PX_CFG.ROLE | spec
  plain : Bool := false                   -- 1 | 10 PX_CFG.PLAIN | spec
  nfunc : Nat := 0                        -- 4 | 10 PX_CFG.NFUNC | spec
  bar2Log2 : Nat := 0                     -- 6 | 10 PX_CFG.BAR2_LOG2 | spec
  maxWidth : Nat := 0                     -- 2 | 10 PX_CFG.MAX_WIDTH | spec
  mld : Bool := false                     -- 1 | 10 PX_CFG.MLD | spec
  replaced : Bool := false                -- 1 | 10 PX_CFG.REPLACED | spec
  twinRefused : Bool := false             -- 1 | 10 PX_CFG.TWIN_REFUSED | spec
  width : Nat := 0                        -- 5 | 10 PX_LINK.WIDTH | spec
  rate : Nat := 0                         -- 3 | 10 PX_LINK.RATE | spec
  flit : Bool := false                    -- 1 | 10 PX_LINK.FLIT | spec
  serving : Bool := false                 -- 1 | 10 PX_LINK.SERVING | spec
  disabled : Bool := false                -- 1 | 10 PX_LINK.DISABLED | spec
  attempts : Nat := 0                     -- 2 | 10 PX_LINK.ATTEMPTS | spec
  reversed : Bool := false                -- 1 | 10 PX_LINK.REVERSED | spec
  degradeCnt : Nat := 0                   -- 32 | 10 PX_DEGRADE_CNT | DC 7
  poisonOut : Nat := 0                    -- 32 | 10 PX_POISON_OUT | DC 7
  poisonIn : Nat := 0                     -- 32 | 10 PX_POISON_IN | DC 7
  discard : Nat := 0                      -- 32 | 10 PX_DISCARD | DC 7
  urInbound : Nat := 0                    -- 32 | 10 PX_UR_INBOUND | DC 7
  consCor : Nat := 0                      -- 32 | 10 PX_CONS_COR | DC 7
  policyFix : Nat := 0                    -- 32 | 10 PX_POLICY_FIX | DC 7
  dumpSkip : Nat := 0                     -- 32 | 10 PX_DUMP_SKIP | DC 7
  consumers : List Consumer := []         -- 8 | 10 R244 | spec
  pllOk : Bool := false                   -- 1 | 17 R389 port PLL locked | DC 7
  deriving DecidableEq, Repr, Inhabited

structure PxState where
  ports : Tab Port := []                  -- 10 | 10 R222 | spec
  fns : Tab FnState := []                 -- 160 | 10 R228, key port*16+function | spec
  lds : Tab LdState := []                 -- 160 | 10 R232, key port*16+LD | spec
  open_ : Bool := false                   -- 1 | 10 R235 ports opened (Memory Active) | spec
  poisonIdx : List (Nat × Bool) := []     -- 65,536 | 10 R238 poison index: DPA, whole billet | DC 7
  poisonOver : Bool := false              -- 1 | 10 R238 Poison List Overflow | DC 7
  cdatChg : Nat := 0                      -- nat | 10 R236 CDAT rebuilds signalled | DC 7
  qos : Tab (List Nat) := []              -- 10 | 10 R239 QoS Control values | DC 7
  rescan : Option Nat := none             -- port | 10 R247 PORT_RESCAN in progress | DC 7
  deriving DecidableEq, Repr, Inhabited

/-! ## Streams (11) -/

/-- Channel states (R251). -/
inductive ChSt where
  | empty | loaded | priming | armed | running | standby | held | done
  deriving DecidableEq, Repr, Inhabited

/-- An outcome decided whose entry is not yet valid (R253, R257): a line in release, or a starve mark that waits for the
outcomes before it. -/
structure Release where
  seq : Nat
  line : Nat
  stamp : Nat
  mark : Bool                -- a starve mark of the decision point
  todo : List Nat            -- sticks not yet rendered
  data : List Byte           -- the line, from its line fetches (R263)
  bad : Option (Nat × Nat)   -- reason and detail of the starve mark it ends in
  deriving DecidableEq, Repr, Inhabited

/-- A stream channel (R248, R251). -/
structure Chan where
  st : ChSt := .empty                     -- 4 | 11 SU_CH_STAT.STATE | spec
  cause : Nat := 0                        -- 8 | 11 SU_CH_STAT.CAUSE | spec
  heldValid : Bool := false               -- 1 | 11 SU_CH_STAT.HELD_VALID | spec
  srcWritten : Bool := false              -- 1 | 11 SU_CH_STAT.SRC_WRITTEN | spec
  winShort : Bool := false                -- 1 | 11 SU_CH_STAT.WIN_SHORT | spec
  job : Option JobParams := none          -- params | 11 R248 | spec
  owner : Nat := 0                        -- 5 | 11 R249 mailbox channel of the owner | DC 7
  next : Nat := 0                         -- 32 | 11 SU_CH_LINE | DC 7
  produced : Nat := 0                     -- 32 | 11 SU_CH_PRODUCED | DC 7
  consumed : Nat := 0                     -- 32 | 11 SU_CH_CONSUMED | DC 7
  lines : Nat := 0                        -- 64 | 11 SU_CH_LINES | DC 7
  starve : Nat := 0                       -- 32 | 11 SU_CH_STARVE | DC 7
  tloss : Nat := 0                        -- 32 | 11 SU_CH_TLOSS | DC 7
  dbRej : Nat := 0                        -- 32 | 11 SU_CH_DB_REJ | DC 7
  lateMax : Nat := 0                      -- 32 | 11 SU_CH_LATE_MAX | spec
  stamp : Nat := 0                        -- 64 | 11 R251 start stamp | DC 7
  standbyMode : Bool := false             -- 1 | 11 R248 start mode | DC 7
  rel : List Release := []                -- list | 11 R257 outcomes not yet valid, oldest first | DC 7
  pinned : List Nat := []                 -- billets | 11 R261 billets pinned | DC 7
  shortRaised : Bool := false             -- 1 | 11 R261 lookahead short raised | DC 7
  stopping : Option Nat := none           -- 8 | 11 R251 HELD after the releases end, with this cause | DC 7
  lastLine : Bool := false                -- 1 | 11 R251 line F + K - 1 has been released | DC 7
  trackLine : Nat := 0                    -- 32 | 11 R267 line of the partner, in STANDBY | DC 7
  header : List Byte := []                -- 128 | 12 R284 header as loaded | DC 7
  deriving DecidableEq, Repr, Inhabited

/-- The stream unit: its channels, and the captured edges (input and stamp, R56) on their way to it. -/
structure SuState where
  chans : Tab Chan := []                  -- 64 | 11 R248 | spec
  edges : List (Nat × Nat) := []          -- list | 03 R56 captured edges on their way, oldest first | DC 7
  deriving DecidableEq, Repr, Inhabited

/-- A lane (R290): state 0 active, 1 spare, 2 retired. -/
structure Lane where
  st : Nat := 0                           -- 2 | 12 XE_LANE.STATE | spec
  cause : Nat := 0                        -- 8 | 12 XE_LANE.CAUSE | spec
  tests : Nat := 0                        -- 16 | 12 XE_LANE.TESTS | spec
  deriving DecidableEq, Repr, Inhabited

structure XeState where
  lanes : Tab Lane := []                  -- 9 | 12 XE_LANE | spec
  up : Bool := false                      -- 1 | 12 XE_LANE states applied from the option bytes | DC 7
  spareOwed : Nat := 0                    -- 4 | 12 R291 active places a spare has still to take | DC 7
  sticks : Nat := 0                       -- 64 | 12 XE_STICKS | spec
  decodeErr : Nat := 0                    -- 32 | 12 XE_DECODE_ERR | spec
  lastErr : Nat := 0                      -- 32 | 12 XE_LAST_ERR | spec
  laneFaults : Nat := 0                   -- 32 | 12 XE_LANE_FAULTS | spec
  retiring : List Nat := []               -- list | 12 R291 lanes that finish their sticks first | DC 7
  deriving DecidableEq, Repr, Inhabited

/-! ## Control cluster (13) -/

/-- A store buffer entry (R300, R301): a store, or the place of a FENCE that waits for the stores before it. -/
structure SbEnt where
  addr : Nat
  size : Nat
  val : BitVec 64
  release : Bool
  dev : Bool := false        -- its target is a device region (R299)
  sent : Bool := false       -- left the buffer and waits for its acknowledge (R305)
  mark : Option (Nat × Nat) := none   -- not a store: a FENCE that waits, its predecessor and successor sets (R304)
  deriving DecidableEq, Repr, Inhabited

/-- A control core (R294). -/
structure Core where
  st : Nat := 0                           -- 2 | 13 CC_CORE_STAT.STATE | spec
  cause : Nat := 0                        -- 8 | 13 CC_CORE_STAT.CAUSE | spec
  sb : List SbEnt := []                   -- 16 | 13 R300 store buffer, oldest first | spec
  resv : Option Nat := none               -- line | 13 R307 reservation (address of its 64-byte line) | spec
  resvAge : Nat := 0                      -- 7 | 13 R307 instructions since the LR | DC 7
  sterrValid : Bool := false              -- 1 | 13 CC_STERR_INFO.VALID | spec
  sterrMore : Nat := 0                    -- 8 | 13 CC_STERR_INFO.MORE | spec
  sterrKind : Nat := 0                    -- 3 | 13 CC_STERR_INFO.KIND | spec
  sterrAddr : Nat := 0                    -- 64 | 13 CC_STERR_ADDR | DC 7
  exc : List CoreExc := []                -- list | 13 R305, R306 exceptions to take at the next instruction boundary | DC 7
  tcmCe : Nat := 0                        -- 32 | 13 CC_TCM_CE | DC 7
  tcmUe : Nat := 0                        -- 32 | 13 CC_TCM_UE | DC 7
  rowHits : Tab (List Nat) := []          -- per row | 13 R310 corrections within 24 h, key tcm*1024+row | DC 7
  tcm : Tab Byte := []                    -- bytes | 13 R298 TCMs, key tcm*2^18+offset | DC 8
  badBytes : List Nat := []               -- list | 13 R309 TCM bytes marked uncorrectable | DC 7
  inTrap : Bool := false                  -- 1 | 13 R311 the supervisor handler has not returned | DC 7
  loadWait : Bool := false                -- 1 | 13 R306 a load waits for its target | DC 7
  sparesOut : Bool := false               -- 1 | 13 R310 a row qualifies and its TCM has no spare left | DC 7
  deriving DecidableEq, Repr, Inhabited

/-- An integrator window (R312). -/
structure IcWin where
  base : Nat := 0                         -- 64 | 13 R312 | spec
  len : Nat := 0                          -- 64 | 13 R312 (0 unmapped) | spec
  rw : Bool := false                      -- 1 | 13 R312 | spec
  deriving DecidableEq, Repr, Inhabited

structure CcState where
  degraded : Bool := false                -- 1 | 13 CC_ROLE.DEGRADED | spec
  icCore : Nat := 5                       -- 3 | 13 CC_ROLE.IC_CORE | spec
  fCore : List Nat := [0, 1, 2, 3]        -- 4 x 3 | 13 CC_ROLE.F0-F3_CORE | spec
  cores : Tab Core := []                  -- 6 | 13 CC_CORE_STAT and core state | spec
  sram : Tab Byte := []                   -- 4 MiB | 13 R298 shared SRAM | DC 8
  icSt : Nat := 0                         -- 2 | 13 CC_IC_CTL.STATE | spec
  icFault : Nat := 0                      -- 8 | 13 CC_IC_CTL.FAULT | spec
  icWdt : Nat := 0                        -- 14 | 13 CC_IC_CTL.WDT | spec
  icEntry : Nat := 0                      -- 32 | 13 R313 entry point of the image | DC 7
  wins : Tab IcWin := []                  -- 16 | 13 R312 | spec
  served : Bool := false                  -- 1 | 14 R339 firmware serves | spec
  fwSlot : Nat := 0                       -- 1 | 14 R336 slot running | DC 7
  fwVer : Nat := 0                        -- 32 | 19 GLB_FW_VER | spec
  exhausted : Bool := false               -- 1 | 13 R297 no firmware core at run time | DC 7
  icKick : Bool := false                  -- 1 | 13 R314 CC_IC_KICK written since the watchdog interval began | DC 7
  rstOwed : Bool := false                 -- 1 | 13 R296 a cluster reset in progress | DC 7
  beats : List Nat := []                  -- 4 | 13 R296 roles whose heartbeat came in the present 100 ms | DC 7
  deriving DecidableEq, Repr, Inhabited

/-! ## Mailboxes (14) -/

/-- An in-flight record (R338). -/
structure Flight where
  tag : Nat
  cseq : Nat
  opcode : Nat
  flags : Nat
  committed : Bool := false
  block : Bool := false      -- carried out by a block (R338)
  started : Bool := true     -- false: waits for its descriptor or for an ORDERED start
  replied : Bool := false
  drop : Bool := false       -- the reply is discarded (R340)
  payload : List Byte := []
  area : Bool := false       -- its descriptor's in area is being read (R330)
  ran : Bool := false        -- its row has come, with the parameters
  reply : Option (Nat × Nat × List Byte) := none   -- status, detail and data that wait for the out area of M29 (R330)
  deriving DecidableEq, Repr, Inhabited

/-- A mailbox channel (R318-R326). -/
structure MbChan where
  bind_ : Nat := 0                        -- 16 | 14 MB_BIND.ENTRY | spec
  slots : Tab (List Byte) := []           -- 8 x 256 B | 14 R321 request slots 0-3, reply slots 4-7 | DC 7
  reqProd : Nat := 0                      -- 8 | 14 MB_COUNTS.REQ_PROD | spec
  reqCons : Nat := 0                      -- 8 | 14 MB_COUNTS.REQ_CONS | spec
  rplProd : Nat := 0                      -- 8 | 14 MB_COUNTS.RPL_PROD | spec
  rplCons : Nat := 0                      -- 8 | 14 MB_COUNTS.RPL_CONS | spec
  flights : List Flight := []             -- 4 | 14 R338 in-flight records, oldest first | spec
  expect : Option Nat := none             -- 32 | 14 R329 expected CSEQ (none: any accepted) | spec
  fifo : List Note := []                  -- 256 | 14 R326 notification FIFO, oldest first | spec
  last : Note := {}                       -- 16 B | 14 R326 last entry popped | spec
  nseq : Nat := 1                         -- 32 | 14 R325 next NSEQ | spec
  lost : Nat := 0                         -- 16 | 14 MB_NOTE_STAT.LOST | spec
  underrun : Bool := false                -- 1 | 14 MB_NOTE_STAT.UNDERRUN | spec
  dbRej : Nat := 0                        -- 32 | 14 MB_DB_REJ | DC 7
  irqRpl : Bool := true                   -- 1 | 14 MB_CTL.IRQ_RPL | spec
  irqEmpty : Bool := false                -- 1 | 14 MB_CTL.IRQ_EMPTY | spec
  taken : List Nat := []                  -- list | 14 R324 timebase of requests taken in the last 100 ms | DC 7
  unlocks : List Nat := []                -- list | 15 R363 unlocked areas, area*2+direction | spec
  mask : Tab (BitVec 32) := []            -- 18 | 18 R426 event masks | DC 7
  deriving DecidableEq, Repr, Inhabited

structure MbState where
  chans : Tab MbChan := []                -- 32 | 14 R318 | spec
  lock : Bool := false                    -- 1 | 14 MB_BIND_LOCK | spec
  rot : Nat := 0                          -- 5 | 14 R324 channel of the rotation served next | DC 7
  smbOff : Nat := 0                       -- 9 | 14 R327 reply read offset | DC 7
  sess : Option (Nat × Bool × Nat) := none   -- session | 14 R337 owner channel, integrator target, length | spec
  sessDone : Nat := 0                     -- 32 | 14 R337 bytes written | spec
  sessLast : Option (Nat × List Byte) := none  -- chunk | 14 R337 previous chunk | DC 7
  held : List (Nat × Nat × Nat) := []     -- list | 14 R342 replies held by ember: channel, tag, status | DC 7
  deriving DecidableEq, Repr, Inhabited

/-- An image slot of the NOR (R336). -/
structure NorSlot where
  valid : Bool := false                   -- 1 | 14 R336 | env 6
  ver : Nat := 0                          -- 32 | 14 R336 | env 6
  rollback : Nat := 0                     -- 6 | 15 R360 | env 6
  key : Nat := 0xA0                       -- 384 | 15 R360 hash of the image's public key | env 6
  deriving DecidableEq, Repr, Inhabited

/-! ## Security (15) -/

structure SecState where
  halt : Bool := false                    -- 1 | 15 SEC_STAT.HALT | spec
  cause : Nat := 0                        -- 8 | 15 SEC_HALT.CAUSE | spec
  loc : Nat := 0                          -- 64 | 15 SEC_HALT_LOC | DC 7
  rngFail : Bool := false                 -- 1 | 15 SEC_STAT.RNG_FAIL | spec
  frontSalt : Nat := 0                    -- 256 | 15 R345 front salt | DC 7
  rekey : Nat := 0                        -- 2 | 15 SEC_STAT.REKEY | spec
  scope : Nat := 0                        -- 2 | 15 SEC_STAT.SCOPE | spec
  fFrame : Nat := 0                       -- 21 | 15 SEC_FRONT_BOUND.FRAME | spec
  fLine : Nat := 0                        -- 10 | 15 SEC_FRONT_BOUND.LINE | spec
  fDone : Bool := true                    -- 1 | 15 R355 front part of the sweep complete | DC 7
  mBound : Nat := 0                       -- 30 | 15 SEC_MEDIA_BOUND | DC 7
  mDone : Bool := true                    -- 1 | 15 R358 media part of the sweep complete | DC 7
  mPassed : Bool := false                 -- 1 | 15 R358 the boundary has passed the last billet | DC 7
  movedGib : Nat := 0                     -- nat | 15 R357 billets moved since the boundary was recorded | DC 7
  tagFail : Nat := 0                      -- 32 | 15 SEC_LINK_TAGFAIL | DC 7
  verif : Tab (Option (BitVec 128)) := [] -- 13 | 15 R363 password verifiers, key area*2+direction (none: no password) | spec
  closed : List Nat := []                 -- list | 15 R363 areas closed to OPT_UNLOCK | DC 7
  rollback : Nat := 0                     -- 6 | 15 SEC_STAT.ROLLBACK fuses | env 6
  deriving DecidableEq, Repr, Inhabited

/-! ## Option store (16) -/

/-- A physical page as its trailer gives it (R365), under the logical page it holds. -/
structure OptPage where
  data : BitVec 512 := 0                  -- 64 B | 16 R365 data | spec
  wcount : Nat := 0                       -- 24 | 16 R365 WCOUNT | spec
  phys : Nat := 0                         -- 11 | 16 R368 physical page it was moved to (0: its own) | spec
  damaged : Bool := false                 -- 1 | 16 R369 | spec
  deriving DecidableEq, Repr, Inhabited

/-- What a commit completes when it ends. -/
inductive OptAct where
  | none
  | reply (ch tag : Nat)                  -- the command's last commit
  | epoch                                 -- the epoch record (R167, R172)
  | epochOpen                             -- the OPEN record of R175 step 8, of a format or of an ember return
  | pair                                  -- the pair record
  | session                               -- the session number of R194
  | unpair (ch tag : Nat)                 -- TWIN_UNPAIR
  | takeover                              -- the record of R211 step 3
  | highWater                             -- R377
  | failStart (cause : Nat)               -- page 34 by R396
  | snap                                  -- page 34 with a snapshot
  | rekey (ch tag : Nat)                  -- REKEY_START
  | verifier (key : Nat) (v : Option (BitVec 128)) (ch tag : Nat)
  | part (ch tag : Nat)                   -- a page write of a command before its last
  | wrote (ch tag n : Nat)                -- the last of `OPT_WRITE`'s page writes, `n` applied
  | clearFs (src : RstSrc)                -- DEVICE_RESET with clear failed starts
  deriving DecidableEq, Repr, Inhabited

/-- A page write that waits or runs (R366). -/
structure Commit where
  page : Nat
  off : Nat
  bytes : List Byte
  act : OptAct := .none
  prio : Bool := false       -- by the EU or the MC (R370)
  deriving DecidableEq, Repr, Inhabited

structure OptState where
  pages : Tab OptPage := []               -- 1,024 | 16 R365 logical pages | spec
  sparesUsed : Nat := 0                   -- 7 | 16 OPT_STAT.SPARES (64 less this) | spec
  commitW : Nat := 0                      -- 24 | 16 R368 WCOUNT of the commit page | spec
  commitPhys : Nat := 1088                -- 11 | 16 R365 physical page of the commit page | spec
  run : Option Commit := none             -- commit | 16 OPT_STAT.BUSY, the commit running | spec
  queue : List Commit := []               -- list | 16 R370 commits that wait | DC 7
  page : Nat := 0                         -- 10 | 16 OPT_STAT.PAGE | spec
  tpage : Nat := 0                        -- 10 | 16 OPT_CTL.TPAGE | spec
  byte : Nat := 0                         -- 6 | 16 OPT_CTL.BYTE | spec
  buf : BitVec 512 := 0                   -- 64 B | 16 R366 page buffer | DC 7
  lowRaised : Bool := false               -- 1 | 16 R368 option spares low raised | DC 7
  exhausted : Bool := false               -- 1 | 16 OPT_STAT.EXHAUSTED | spec
  armed : Option Bool := none             -- commit page | 16 R367 armed by an interrupted commit (its CRC valid) | DC 7
  factory : List Nat := []                -- pages | 16 R369 damaged pages whose fields kindling took at factory value | DC 7
  locked : Bool := false                  -- state | 17 R393 option-byte state machine in LOCKED | spec
  faulted : Bool := false                 -- state | 17 R393 option-byte state machine in FAULT | spec
  deriving DecidableEq, Repr, Inhabited

/-! ## Ledger (16) -/

/-- A slot of a ledger set: the group it holds, L_PROG, and the last SEQ it covers (R379). -/
structure LgSlot where
  group : Nat
  prog : Nat
  upTo : Nat
  deriving DecidableEq, Repr, Inhabited

/-- One ledger copy (R379). -/
structure LgCopy where
  founding : List LgSlot := []            -- slots | 16 R380 founding set | DC 7
  circ : List (List LgSlot) := [[], [], [], []]   -- 4 sets | 16 R379 circulating sets, current first | DC 7
  prog : Nat := 0                         -- 64 | 16 R379 L_PROG | DC 7
  deriving DecidableEq, Repr, Inhabited

structure LgState where
  offline : Bool := true                  -- 1 | 16 LG_STAT.OFFLINE | spec
  moved : Bool := false                   -- 1 | 16 LG_STAT.MOVED | spec
  staged : List LgRec := []               -- 1,024 | 16 R378 staged buffer, oldest first | spec
  known : Bool := false                   -- 1 | 16 R377 the counter is known (LOCKED reached) | DC 7
  next : Nat := 1                         -- 64 | 16 R376 next SEQ | spec
  high : Nat := 1                         -- 64 | 16 R377 high-water in force | DC 7
  waiting : List (List LgRec) := []       -- list | 16 R377 events that wait for a SEQ | DC 7
  raising : Bool := false                 -- 1 | 16 R377 a raise of the high-water is in progress | DC 7
  recs : Tab LgRec := []                  -- records | 16 R379 records on the media, key SEQ | DC 7
  copyA : LgCopy := {}                    -- sets | 16 R379 copy A | DC 7
  copyB : LgCopy := {}                    -- sets | 16 R379 copy B | DC 7
  setLoc : List Nat := []                 -- 10 | 16 R379 locations of the sets | DC 7
  mediaSeq : Nat := 0                     -- 64 | 16 LG_SEQ_MEDIA | DC 7
  programming : Bool := false             -- 1 | 16 R378 a program of both copies is in progress | DC 7
  dropped : Nat := 0                      -- 32 | 16 LG_DROPPED | DC 7
  dropPend : Nat := 0                     -- 32 | 16 R378 dropped since the last ledger overflow | DC 7
  conflicts : Nat := 0                    -- 32 | 16 LG_CONFLICTS | DC 7
  confSeqs : List Nat := []               -- 64 | 16 R382 SEQs in conflict this epoch | DC 7
  early : List LgRec := []                -- list | 16 R377 records held before LOCKED | DC 7
  deriving DecidableEq, Repr, Inhabited

/-! ## Reset, power, thermal (17) -/

/-- `STATE` of RPM_STAT. -/
inductive RpmSt where
  | osm | powerUp | kindling | service | timedShutdown | shutdown | afterAbort
  deriving DecidableEq, Repr, Inhabited

structure RpmState where
  st : RpmSt := .osm                      -- 4 | 17 RPM_STAT.STATE | spec
  recovery : Nat := 0                     -- 4 | 17 RPM_STAT.RECOVERY | spec
  boot : Nat := 0                         -- 2 | 17 RPM_STAT.BOOT | spec
  builtin : Bool := false                 -- 1 | 17 RPM_STAT.BUILTIN | spec
  pseqTu : Bool := false                  -- 1 | 17 RPM_STAT.PSEQ_TU | spec
  pseqOut : Bool := false                 -- pin | 17 R404 PSEQ_OUT driven high | spec
  asserted : List RstSrc := [.por]        -- list | 17 R388 sources asserted now | spec
  seen : List RstSrc := [.por]            -- list | 17 R388 sources asserted in the interval | spec
  rst : BitVec 12 := 0x800                -- 12 | 17 RPM_RST bits [11:1] | spec
  reach : Nat := 5                        -- 3 | 17 RPM_RST.REACH | spec
  en : BitVec 8 := 0x01                   -- 8 | 17 RPM_RAIL.EN | spec
  enOrder : List Nat := []                -- list | 17 R402 enables asserted, newest first | DC 7
  pgGood : BitVec 8 := 0                  -- 8 | 17 RPM_RAIL.PG_GOOD | spec
  pgRaw : BitVec 8 := 0                   -- 8 | 17 RPM_RAIL.PG_RAW | spec
  sup : BitVec 8 := 0x01                  -- 8 | 17 RPM_RAIL.SUPERVISED | spec
  step : Nat := 0                         -- 6 | 17 RPM_SEQ.STEP | spec
  running : Bool := false                 -- 1 | 17 R401 a half of the program runs | DC 7
  waiting : Bool := false                 -- 1 | 17 R401 the WAIT or CHECK of STEP runs | DC 7
  retry : Nat := 0                        -- 2 | 17 RPM_SEQ.RETRY | spec
  aborted : Bool := false                 -- 1 | 17 RPM_SEQ.ABORTED | spec
  downLate : Bool := false                -- 1 | 17 RPM_SEQ.DOWN_LATE | spec
  snapCause : Nat := 0                    -- 8 | 17 RPM_SEQ.SNAP_CAUSE | spec
  deriving DecidableEq, Repr, Inhabited

structure RpmMore where
  glitch : Nat := 0                       -- 32 | 17 RPM_GLITCH | DC 7
  glitchT : Tab (List Nat) := []          -- 8 | 17 R399 glitches of each input within 1 s | DC 7
  vmon : Tab Nat := []                    -- 8 x 16 | 17 RPM_VMON | DC 7
  prog : List Word := []                  -- 64 x 32 | 17 R403 program in force | DC 7
  snap : List Byte := []                  -- 40 B | 17 R406 last snapshot | DC 7
  snapPend : Bool := false                -- 1 | 17 R407 a snapshot is to be committed | DC 7
  lastDown : Bool := false                -- 1 | 17 R408 rail lost during power-down: waits and checks skipped | DC 7
  downCause : Nat := 0                    -- 8 | 17 R409 what SHUTDOWN was entered after (1 warning, 2 thermal, 3 rail or abort) | DC 7
  plls : List Pll := []                   -- 27 | 17 R389 PLLs that have qualified | DC 7
  pllFail : List Pll := []                -- 27 | 17 R390 PLLs declared failed | DC 7
  entered : Bool := false                 -- 1 | 17 R392 firmware entered | DC 7
  opened : Bool := false                  -- 1 | 17 R395 ports opened in this start | DC 7
  startDone : Bool := false               -- 1 | 17 R395 start complete | DC 7
  coolWait : Bool := false                -- 1 | 17 R410 the power-up waits for the comparators | DC 7
  rstPin : Nat := 0                       -- 2 | 17 R387, R409 RESET_N: 0 released, 1 accepted low, 2 accepted and released in SHUTDOWN | DC 7
  deriving DecidableEq, Repr, Inhabited

structure ThState where
  samples : Tab (List Int) := []          -- 12 x 4 | 17 R411 last four samples of each sensor | DC 7
  failed : BitVec 12 := 0                 -- 12 | 17 TH_STAT.FAILED | spec
  band : Nat := 1                         -- 3 | 17 TH_STAT.BAND | spec
  max : Int := 0                          -- 12 signed | 17 TH_STAT.MAX | spec
  maxSeen : Int := 0                      -- 12 signed | 17 TH_MAX_SEEN | DC 7
  tripped : Bool := false                 -- 1 | 17 TH_STAT.TRIPPED | spec
  emerg : Bool := false                   -- 1 | 17 TH_STAT.EMERG | spec
  pause : Nat := 0                        -- 3 | 17 TH_STAT.PAUSE | spec
  closedPhase : Bool := false             -- 1 | 17 R412 closed phase in force | DC 7
  throttle : Nat := 0                     -- 64 | 17 TH_THROTTLE, us | DC 7
  hotPrev : BitVec 12 := 0                -- 12 | 17 R413 last sample of the comparator at or above 118 C | DC 7
  coolOk : Bool := false                  -- 1 | 17 R409, R410 every comparator at or below 90 C | DC 7
  deriving DecidableEq, Repr, Inhabited

/-! ## Monitoring (18) -/

/-- A PMON counter (R418). -/
structure PmonCnt where
  code : Nat := 0                         -- 16 | 18 PMON_SEL.CODE | spec
  qual : Nat := 0xFF                      -- 8 | 18 PMON_SEL.QUAL | spec
  chain : Bool := false                   -- 1 | 18 PMON_SEL.CHAIN | spec
  ovf : Bool := false                     -- 1 | 18 PMON_SEL.OVF | spec
  en : Bool := false                      -- 1 | 18 PMON_SEL.EN | spec
  inst : Nat := 0xFFFF                    -- 16 | 18 PMON_INST | spec
  cnt : Nat := 0                          -- 48 | 18 PMON_CNT | spec
  shadow : Nat := 0                       -- 48 | 18 R420 | spec
  shadowOvf : Bool := false               -- 1 | 18 R420 | spec
  deriving DecidableEq, Repr, Inhabited

/-- A sample record (R422). -/
structure Sample where
  code : Nat
  inst : Nat
  lat : Nat
  addr : Nat
  info : Nat
  done : Nat
  deriving DecidableEq, Repr, Inhabited

structure PmState where
  cnts : Tab PmonCnt := []                -- 256 | 18 R418 | spec
  window : Nat := 1000                    -- 20 | 18 PMON_CTL.WINDOW | spec
  bwIn : Tab Nat := []                    -- 10 | 18 PMON_BW_IN | DC 7
  bwOut : Tab Nat := []                   -- 10 | 18 PMON_BW_OUT | DC 7
  bwDevIn : Nat := 0                      -- 32 | 18 PMON_BW_DEV_IN | DC 7
  bwDevOut : Nat := 0                     -- 32 | 18 PMON_BW_DEV_OUT | DC 7
  maxIn : Tab Nat := []                   -- 10 | 18 PMON_BW_MAX_IN | DC 7
  maxOut : Tab Nat := []                  -- 10 | 18 PMON_BW_MAX_OUT | DC 7
  winCur : Nat := 1000                    -- 20 | 18 R421 the window length in force, us | DC 7
  cuts : List Nat := []                   -- list | 18 R421 lengths in ns of the windows a forward step cuts | DC 7
  sEn : Bool := false                     -- 1 | 18 PMON_SAMP_CTL.EN | spec
  sWrap : Bool := false                   -- 1 | 18 PMON_SAMP_CTL.WRAP | spec
  sJitter : Bool := false                 -- 1 | 18 PMON_SAMP_CTL.JITTER | spec
  sCode : Nat := 0                        -- 16 | 18 PMON_SAMP_CODE | DC 7
  sPeriod : Nat := 1                      -- 24 | 18 PMON_SAMP_PERIOD | DC 7
  sThresh : Nat := 0                      -- 32 | 18 PMON_SAMP_THRESH | DC 7
  sLost : Nat := 0                        -- 32 | 18 PMON_SAMP_LOST | DC 7
  sGap : Nat := 0                         -- 24 | 18 R422 occurrences since the last taken | DC 7
  sNextGap : Nat := 1                     -- 24 | 18 R422 gap in force | DC 7
  sFullRaised : Bool := false             -- 1 | 18 R423 sample buffer full raised | DC 7
  samples : List Sample := []             -- 4,096 | 18 R423 held, oldest first | spec
  deriving DecidableEq, Repr, Inhabited

/-- The dump of R424: target 1 host, 2 DPA; 0 none. -/
structure Dump where
  target : Nat := 0                       -- 2 | 18 R424 | spec
  ch : Nat := 0                           -- 5 | 18 R424 channel that set it | DC 7
  base : Nat := 0                         -- 64 | 18 R424 | DC 7
  entries : Nat := 0                      -- 17 | 18 R424 | DC 7
  every : Nat := 1                        -- 16 | 18 R424 | DC 7
  winCnt : Nat := 0                       -- 16 | 18 R424 windows since the last dump | DC 7
  dseq : Nat := 0                         -- 64 | 18 PMON_DUMP_SEQ | DC 7
  writing : Bool := false                 -- 1 | 18 R424 a record is being written | DC 7
  skipped : Bool := false                 -- 1 | 18 R424 the previous dump was skipped | DC 7
  deriving DecidableEq, Repr, Inhabited

/-- The state of the device. -/
structure State where
  board : Board := {}                     -- facts | 15 R343, 17 R391 | env 6
  tb : TbState := {}
  hf : HfState := {}
  ft : FtState := {}
  te : TeState := {}
  mc : McState := {}
  mctl : McCtl := {}
  eu : EuState := {}
  tu : TuState := {}
  tp : TuPair := {}
  px : PxState := {}
  su : SuState := {}
  xe : XeState := {}
  cc : CcState := {}
  mb : MbState := {}
  nor : Tab NorSlot := []                 -- 3 | 14 R336 image slots | env 6
  norBytes : Tab Byte := []               -- 16 MiB | 14 R336 NOR contents (unlisted: 0xFF, erased) | PRE 6
  sec : SecState := {}
  opt : OptState := {}
  lg : LgState := {}
  rpm : RpmState := {}
  rpmx : RpmMore := {}
  th : ThState := {}
  pm : PmState := {}
  dump : Dump := {}
  latch : List (Agent × LoReg × Nat) := []   -- list | 03 R53 latched upper halves by agent | DC 7
  noteLatch : List (Agent × Nat × Note) := []  -- list | 14 R326 entry latched for the reading agent | DC 7
  out : List Out := []                    -- list | model: what the device has put out, newest first | DC 1
  free : Nat := 0                         -- nat | model: free values drawn so far | DC 5
  pending : List Instr := []              -- list | model: commands waiting, first in first out | DC 1
  deriving DecidableEq, Repr, Inhabited

/-! ## The state right after power-on reset is asserted -/

/-- A factory page with its data. -/
def pg (d : BitVec 512) : OptPage := { data := d }

/-- The option store at manufacture (R365): page 4 the first high-water (R376, R377), page 35 the ceiling of 8 GiB,
pages 64 and 65 the port, SMBus and binding words (R223, R319, R371), pages 128-131 the built-in program (R403), and
pages 132-163 the die profile of the reference population (R157, R372). -/
def factoryPages : Tab OptPage :=
  [(4, pg 0x1),
   (35, pg 0x800000000),
   (64, pg 0x5A09601D5F00000002000000020000000000000000000000000000000000000000000000000000000000000000),
   (65, pg 0x80000000000000000000000000000000000000000000000000000000000000000000000000000000000000008700860085008400830082008100C000),
   (128, pg 0x300003E84001F4C0100000C04001F410100000104001F420100000204001F40C1000000C4001F402100000024003E80150000001300000645000010450000204),
   (129, pg 0xF0000000F0000000F0000000F0000000F0000000F0000000F0000000F0000000F0000000F0000000F0000000F0000000F0000000F0000000F0000000F0000000),
   (130, pg 0xF0000000F0000000F0000000F0000000F0000000F0000000F0000000F0000000F000000020000002300001F42000002C300001F420000010300001F4200000C0),
   (131, pg 0xF0000000F0000000F0000000F0000000F0000000F0000000F0000000F0000000F0000000F0000000F0000000F0000000F0000000F0000000F0000000F0000000),
   (132, pg 0x405DC0019005500009C40000005DC080010000100040003020001),
   (163, pg 0x4E0BFBF2000000000000000000000000000000000000000000000000000000000000000000000000000000000000000000000000000000000000000000000000)]

/-- The device with its power-on reset asserted (R386, R435): every register at its Reset value, the option store at
factory contents, a valid firmware image in slot 0, the media unformatted and nothing in any memory. -/
def State.reset : State :=
  { nor := [(0, { valid := true, ver := 0x00010000 })]
    opt := { pages := factoryPages } }

end Sys2Proof.Machine
end

