-- ==== Sys2Proof/Machine/Ops.lean ====
section
/-! DEFINITION. The named operations that every family shares: bytes and checks, output, free values, agents and their
rights, register writes, MSI-X, counting, notification, the ledger's staging and the option store's commit queue. -/

namespace Sys2Proof.Machine

open Sys2Proof

/-- The outcome of a meaning. -/
abbrev Res := Host.Outcome State Fault Refusal

/-- A meaning answers its next state where the row names elements that the silicon has (R430). -/
def run (ok : Bool) (t : State) : Res := if ok then .next t else .fault .noSuchElement

/-- Apply a change only where a condition holds. -/
def when_ (c : Bool) (f : State → State) (s : State) : State := if c then f s else s

/-! ## Bytes and words -/

/-- The little-endian bytes of a number (R2). -/
def leBytes : Nat → Nat → List Byte
  | 0, _ => []
  | n + 1, v => BitVec.ofNat 8 v :: leBytes n (v / 256)

/-- The number that little-endian bytes give (R2). -/
def leNat : List Byte → Nat
  | [] => 0
  | b :: t => b.toNat + 256 * leNat t

/-- One step of CRC-32C (reflected polynomial 0x82F63B78). -/
def crcBit (c : BitVec 32) : BitVec 32 :=
  if c.getLsbD 0 then (c >>> 1) ^^^ 0x82F63B78#32 else c >>> 1

def crcByte (c : BitVec 32) (b : Byte) : BitVec 32 :=
  crcBit (crcBit (crcBit (crcBit (crcBit (crcBit (crcBit (crcBit (c ^^^ b.zeroExtend 32))))))))

/-- CRC-32C of a byte string. -/
def crc32c (bs : List Byte) : BitVec 32 := (bs.foldl crcByte 0xFFFFFFFF#32) ^^^ 0xFFFFFFFF#32

/-- Byte `i` of a 64-byte value. -/
def byteOf (v : BitVec 512) (i : Nat) : Byte := (v >>> (8 * i)).setWidth 8

/-- Write byte `i` of a 64-byte value. -/
def putByte (v : BitVec 512) (i : Nat) (b : Byte) : BitVec 512 :=
  (v &&& ~~~((0xFF#512) <<< (8 * i))) ||| ((b.zeroExtend 512) <<< (8 * i))

/-- The bytes `[i, i + n)` of a 64-byte value. -/
def bytesOf (v : BitVec 512) (i n : Nat) : List Byte := (List.range n).map (fun k => byteOf v (i + k))

/-- Place bytes in a page from an offset, byte *k* at (offset + *k*) mod 64 (R366). -/
def putBytes : BitVec 512 → Nat → List Byte → BitVec 512
  | v, _, [] => v
  | v, i, b :: t => putBytes (putByte v (i % 64) b) (i + 1) t

/-- The bytes a mask of a line enables (R73, R84). -/
def maskMerge (old new : Line) (mask : BitVec 64) : Line :=
  (List.range 64).foldl (fun v i => if mask.getLsbD i then putByte v i (byteOf new i) else v) old

def fullMask : BitVec 64 := 0xFFFFFFFFFFFFFFFF

/-- Raise a 32-bit counter that sticks (R425). -/
def inc32 (n : Nat) : Nat := satAdd max32 n 1

/-- Bits `[hi:lo]` of a number. -/
def bits (v hi lo : Nat) : Nat := v / 2 ^ lo % 2 ^ (hi + 1 - lo)

/-- The DPA of an address of the cores' DPA aperture, whose base is 2^40 (R298). -/
def above40 (a : Nat) : Nat := (a / 2 ^ 40 - 1) * 2 ^ 40 + a % 2 ^ 40

def b2n (b : Bool) : Nat := if b then 1 else 0

/-- Positions of a list's elements that satisfy a test, counted from 1 (R333: the first condition that failed). -/
def firstTrue : List Bool → Nat → Option Nat
  | [], _ => none
  | true :: _, n => some n
  | false :: t, n => firstTrue t (n + 1)

/-! ## Output and free values -/

/-- Put out one item. -/
def emit (o : Out) (s : State) : State := { s with out := o :: s.out }

/-- Advance the counter that free values are drawn with. -/
def draw (s : State) : State := { s with free := s.free + 1 }

/-! ## Parts of State by key -/

def State.port (s : State) (p : Nat) : Port := s.px.ports.get {} p
def State.modPort (s : State) (p : Nat) (f : Port → Port) : State :=
  { s with px := { s.px with ports := s.px.ports.upd {} p f } }
def State.fn (s : State) (p f : Nat) : FnState := s.px.fns.get {} (p * 16 + f)
def State.modFn (s : State) (p f : Nat) (g : FnState → FnState) : State :=
  { s with px := { s.px with fns := s.px.fns.upd {} (p * 16 + f) g } }
def State.ld (s : State) (p l : Nat) : LdState := s.px.lds.get {} (p * 16 + l)
def State.modLd (s : State) (p l : Nat) (g : LdState → LdState) : State :=
  { s with px := { s.px with lds := s.px.lds.upd {} (p * 16 + l) g } }
def State.chan (s : State) (c : Nat) : Chan := s.su.chans.get {} c
def State.modChan (s : State) (c : Nat) (f : Chan → Chan) : State :=
  { s with su := { s.su with chans := s.su.chans.upd {} c f } }
def State.mbox (s : State) (k : Nat) : MbChan := s.mb.chans.get {} k
def State.modMbox (s : State) (k : Nat) (f : MbChan → MbChan) : State :=
  { s with mb := { s.mb with chans := s.mb.chans.upd {} k f } }
def State.cpu (s : State) (i : Nat) : Core := s.cc.cores.get {} i
def State.modCpu (s : State) (i : Nat) (f : Core → Core) : State :=
  { s with cc := { s.cc with cores := s.cc.cores.upd {} i f } }
def State.frame (s : State) (f : Nat) : Frame := s.te.frames.get {} f
def State.modFrame (s : State) (f : Nat) (g : Frame → Frame) : State :=
  { s with te := { s.te with frames := s.te.frames.upd {} f g } }
def State.seg (s : State) (n : Nat) : Seg := s.te.segs.get {} n
def State.modSeg (s : State) (n : Nat) (g : Seg → Seg) : State :=
  { s with te := { s.te with segs := s.te.segs.upd {} n g } }
def State.turf (s : State) (t : Nat) : Option Turf := s.te.turfs.get none t
def State.modTurf (s : State) (t : Nat) (g : Turf → Turf) : State :=
  { s with te := { s.te with turfs := s.te.turfs.upd none t (fun o => o.map g) } }
def State.ftDev (s : State) (d : Nat) : FtDev := s.ft.dev.get {} d
def State.modFtDev (s : State) (d : Nat) (g : FtDev → FtDev) : State :=
  { s with ft := { s.ft with dev := s.ft.dev.upd {} d g } }
/-- What the fields of a page read as: its data, or the factory's where kindling found it damaged (R369). -/
def State.page (s : State) (k : Nat) : BitVec 512 :=
  ((if s.opt.factory.contains k then factoryPages else s.opt.pages).get {} k).data

/-- A little-endian field of an option page (R371). -/
def State.pageNat (s : State) (k off size : Nat) : Nat := leNat (bytesOf (s.page k) off size)

/-! ## Modes, agents and rights -/

/-- The device is in ember or past it (R161). -/
def inEmber (s : State) : Bool :=
  match s.eu.phase with
  | .quiesce | .flush | .seal | .sealedHold | .shutdown => true
  | _ => false

/-- Device mode as byte 34 of `IDENTIFY` codes it (R335). -/
def deviceMode (s : State) : Nat :=
  if s.sec.halt then 2 else if s.ft.failed then 3
  else if s.rpm.recovery ≠ 0 then 1
  else if s.eu.phase = .sealedHold then 4 else 0

def bindBound (b : Nat) : Bool := b / 32768 % 2 = 1
def bindAdmin (b : Nat) : Bool := b / 16384 % 2 = 1
def bindPort (b : Nat) : Nat := bits b 11 8
def bindFunc (b : Nat) : Nat := bits b 3 0

/-- The mailbox channel of an agent (R318, R320). -/
def chanOf (s : State) : Agent → Option Nat
  | .fn p f => (List.range 29).find? (fun k =>
      let b := (s.mbox k).bind_
      bindBound b && bindPort b == p && bindFunc b == f)
  | .ic => some 29
  | .twin => some 30
  | .smbus => some 31
  | _ => none

/-- The sender of a channel, as a grantee or source (R318). -/
def senderOf (s : State) (ch : Nat) : Agent :=
  if ch = 29 then .ic else if ch = 30 then .twin else if ch = 31 then .smbus
  else .fn (bindPort (s.mbox ch).bind_) (bindFunc (s.mbox ch).bind_)

/-- A channel's right A (R332). -/
def hasAdmin (s : State) (ch : Nat) : Bool :=
  ch == 30 || ch == 31 || (bindBound (s.mbox ch).bind_ && bindAdmin (s.mbox ch).bind_)

/-- A function that reaches the block windows with full access (R429). -/
def fnAdmin (s : State) (p f : Nat) : Bool :=
  match chanOf s (.fn p f) with
  | some k => hasAdmin s k
  | none => false

/-- A host-role port takes requests: its link serves, the device is not halted, failed, in ember or in minimal
recovery (R162, R224, R226, R242, R434). -/
def portServes (s : State) (p : Nat) : Bool :=
  decide (p < 10) && (s.port p).role == 0 && (s.port p).serving && !s.sec.halt && !s.ft.failed
    && !inEmber s && s.rpm.recovery == 0

def countAccErr (p f : Nat) (s : State) : State :=
  s.modFn p f (fun x => { x with accErr := inc32 x.accErr })

/-- Log an error on a function (R241). -/
def logAer (p f : Nat) (e : AerErr) (s : State) : State :=
  emit (.aer p f e) (s.modFn p f (fun x => { x with aer := e :: x.aer }))

/-- The host functions of a port (R228, R232): an MLD port whose partner did not negotiate presents LD 0 alone. -/
def portFns (s : State) (p : Nat) : List Nat :=
  let q := s.port p
  if q.role ≠ 0 then []
  else if q.plain then List.range (q.nfunc + 1)
  else if q.nfunc ≠ 0 && !q.mld then [0] else List.range (q.nfunc + 1)

/-- A request reaches a host function: its port serves and provides it. -/
def fnReached (s : State) (p f : Nat) : Bool := portServes s p && (portFns s p).contains f

/-- An access that a host function receives in BAR0: in D3hot it is an Unsupported Request (R241). -/
def fnWrite (p f : Nat) (body : State → State) (s : State) : State :=
  if !fnReached s p f then s
  else if (s.fn p f).d3 then logAer p f .unsupportedRequest s
  else body s

/-- A write of a block-window register (R429, R434): a core's write is governed by the access codes alone; a function
whose binding has `ADMIN` has its effect; any other function's write is ignored and counted. -/
def regWrite (ag : Agent) (body : State → State) (s : State) : State :=
  match ag with
  | .core i => if i < 5 then body s else s
  | .fn p f => fnWrite p f (fun s => if fnAdmin s p f then body s else countAccErr p f s) s
  | _ => s

/-- An agent reads a block-window register that has a side effect (R429): a function without `ADMIN` reads `masked`, and
the side effect is not done. -/
def regRead (ag : Agent) (value masked : Nat) (body : State → State) (s : State) : State :=
  match ag with
  | .core i => if i < 5 then emit (.regRead ag value) (body s) else s
  | .fn p f =>
    fnWrite p f (fun s =>
      if fnAdmin s p f then emit (.regRead ag value) (body s) else emit (.regRead ag masked) s) s
  | _ => s

/-- Every host function. -/
def hostFns (s : State) : List (Nat × Nat) :=
  (List.range 10).flatMap (fun p => (portFns s p).map (fun f => (p, f)))

/-- A grantee the port configuration provides (R63). -/
def granteePresent (s : State) : Agent → Bool
  | .fn p f => decide (p < 10) && (portFns s p).contains f
  | .ic => s.cc.icCore ≠ 7
  | _ => false

/-! ## MSI-X (R243, R437) -/

/-- Fire a vector: one message, or its pending bit while masked or disabled. -/
def fire (p f v : Nat) (s : State) : State :=
  let x := s.fn p f
  if x.msixEn && !x.msixMask && !(x.msix.get {} v).mask then emit (.msix p f v) s
  else s.modFn p f (fun x => { x with pend := x.pend ||| ((1#64) <<< v) })

/-- A cause of vector 7 on one function (R439). -/
def intCause (bit : Nat) (p f : Nat) (s : State) : State :=
  let x := s.fn p f
  if x.intStat.getLsbD bit then s
  else
    let s := s.modFn p f (fun x => { x with intStat := x.intStat ||| ((1#5) <<< bit) })
    if x.intEn.getLsbD bit then fire p f 7 s else s

/-- A cause of vector 7 on every host function. -/
def intCauseAll (bit : Nat) (s : State) : State :=
  (hostFns s).foldl (fun s pf => intCause bit pf.1 pf.2 s) s

/-! ## Counting (R417-R420) -/

def cntMax : Nat := 2 ^ 48 - 1

/-- A counter selects an occurrence (R418). -/
def cntHits (c : PmonCnt) (code inst qual : Nat) : Bool :=
  c.en && c.code == code && (c.inst == 0xFFFF || c.inst == inst) && (c.qual == 0xFF || c.qual == qual)

/-- Add to counter `k`: unchained it sticks at 2^48 - 1 and sets OVF; chained the pair sticks at 2^96 - 1 (R419). -/
def cntAdd (t : Tab PmonCnt) (k n : Nat) : Tab PmonCnt × Bool :=
  let c := t.get {} k
  if c.chain && k % 2 == 0 then
    let d := t.get {} (k + 1)
    let v := min (2 ^ 96 - 1) (c.cnt + 2 ^ 48 * d.cnt + n)
    let full := decide (v = 2 ^ 96 - 1)
    let t := t.set {} k { c with cnt := v % 2 ^ 48 }
    (t.set {} (k + 1) { d with cnt := v / 2 ^ 48, ovf := d.ovf || full }, full && !d.ovf)
  else
    let v := min cntMax (c.cnt + n)
    (t.set {} k { c with cnt := v, ovf := c.ovf || decide (v = cntMax) }, decide (v = cntMax) && !c.ovf)

/-- A counter that a chained even counter feeds counts only its carries (R419). -/
def cntFed (t : Tab PmonCnt) (k : Nat) : Bool := k % 2 == 1 && (t.get {} (k - 1)).chain

/-- Count `n` occurrences of a source: the new counters and those that have just overflowed (R418). -/
def countTab (t : Tab PmonCnt) (code inst qual n : Nat) : Tab PmonCnt × List Nat :=
  t.foldl (fun (a : Tab PmonCnt × List Nat) (kv : Nat × PmonCnt) =>
    if cntHits kv.2 code inst qual && !cntFed t kv.1 then
      let (t', o) := cntAdd a.1 kv.1 n
      (t', if o then a.2 ++ [kv.1] else a.2)
    else a) (t, [])

/-! ## Notification FIFOs (R325, R326, R426) -/

/-- Write an entry into a channel's FIFO: a full FIFO loses its oldest entry (R326). -/
def fifoPut (m : MbChan) (code aux param : Nat) : MbChan :=
  let e : Note := { code := code, aux := aux, nseq := m.nseq, param := param }
  let m := { m with nseq := if m.nseq = 0xFFFFFFFF then 1 else m.nseq + 1 }
  if m.fifo.length < 256 then { m with fifo := m.fifo ++ [e] }
  else { m with fifo := m.fifo.drop 1 ++ [e], lost := satAdd 0xFFFF m.lost 1 }

/-- Count without the *counter overflow* event, where counting is part of writing an entry (R416 class 0x0B). -/
def countQuiet (code inst n : Nat) (s : State) : State :=
  { s with pm := { s.pm with cnts := (countTab s.pm.cnts code inst 0 n).1 } }

/-- Enter an event into the FIFO of a channel; vector 1 fires when it turns non-empty, and the vector its class is
routed to (R326, R426). M30 has no FIFO. -/
def notePut (ch code aux param : Nat) (s : State) : State :=
  if ch = 30 then s
  else
    let was := (s.mbox ch).fifo.isEmpty
    let s := countQuiet 0x2C24 ch 1 s
    let s := if (s.mbox ch).fifo.length < 256 then s else countQuiet 0x2C25 ch 1 s
    let s := s.modMbox ch (fun m => fifoPut m code aux param)
    match senderOf s ch with
    | .fn p f =>
      let s := if was then fire p f 1 s else s
      let v := (s.fn p f).evtVec.get 0 (code / 1024)
      if v = 0 then s else fire p f v s
    | _ => s

/-- The factory mask of a channel: every index on M29, M31 and channels with `ADMIN`, none on others (R426). -/
def maskDef (s : State) (ch : Nat) : BitVec 32 :=
  if ch == 29 || ch == 31 || (ch < 29 && hasAdmin s ch) then 0xFFFFFFFF else 0

def evtMask (s : State) (ch cls : Nat) : BitVec 32 := (s.mbox ch).mask.get (maskDef s ch) cls

/-- What an event's parameter names, for the grant filter of R426. -/
inductive Names where
  | nothing | dpa (d : Nat) | turf (t : Nat) | stream (c : Nat)
  deriving DecidableEq, Repr

/-- The turf a DPA lies in, with its identifier (R60). -/
def turfAt (s : State) (dpa : Nat) : Option (Nat × Turf) :=
  s.te.turfs.findSome? (fun kv => match kv.2 with
    | some t => if t.base ≤ dpa ∧ dpa < t.base + t.size then some (kv.1, t) else none
    | none => none)

def grantOf (t : Turf) (ag : Agent) : Option Grant := t.grants.find? (fun g => g.who == ag)

/-- The grant filter of R426. -/
def maskPasses (s : State) (ch : Nat) (n : Names) : Bool :=
  hasAdmin s ch ||
  match n with
  | .nothing => true
  | .dpa d => match turfAt s d with
    | some (_, t) => (grantOf t (senderOf s ch)).isSome
    | none => false
  | .turf t => match s.turf t with
    | some t => (grantOf t (senderOf s ch)).isSome
    | none => false
  | .stream c => (s.chan c).job.isSome && (s.chan c).owner == ch

def chanBound (s : State) (ch : Nat) : Bool :=
  ch == 31 || (ch < 30 && bindBound (s.mbox ch).bind_)

/-- Route an event by mask (R426). -/
def route (code aux param : Nat) (n : Names) (s : State) : State :=
  (List.range 32).foldl (fun s ch =>
    if chanBound s ch && (evtMask s ch (code / 1024)).getLsbD (code % 1024) && maskPasses s ch n
    then notePut ch code aux param s else s) s

/-- Count occurrences of a source; a counter that sticks raises *counter overflow* once (R419). -/
def count (code inst qual n : Nat) (s : State) : State :=
  let (t, o) := countTab s.pm.cnts code inst qual n
  let s := { s with pm := { s.pm with cnts := t } }
  o.foldl (fun s k => route 0x4400 k 0 .nothing
    { s with pm := { s.pm with cnts := (countTab s.pm.cnts 0x4400 k 0 1).1 } }) s

/-- An operation that arrives at an entry point in a closed phase is counted; its row is its admission when the phase ends (R412,
R417). -/
def pauseWait (inst : Nat) (s : State) : State := if s.th.closedPhase then count 0x3C20 inst 0 1 s else s

/-- Raise an event routed by mask, and count it (R416, R426). -/
def raise (code inst param : Nat) (n : Names) (s : State) : State :=
  route code inst param n (count code inst 0 1 s)

/-- Raise a directed event: the recipients' FIFOs and that of M31 (R426). -/
def raiseTo (chs : List Nat) (code inst param : Nat) (s : State) : State :=
  (chs ++ [31]).eraseDups.foldl (fun s ch => notePut ch code inst param s) (count code inst 0 1 s)

/-- The number that names an agent in a parameter, a reply or an event (notes/assumptions/2.md). -/
def agentNum : Agent → Nat
  | .fn p f => p * 16 + f
  | .ic => 0xFFFF
  | .core i => 0x3000 + i
  | .stream c => 0x4000 + c
  | .twin => 0x8000
  | .smbus => 0x101F

/-- The channel list of an agent, for directed events. -/
def chanList (s : State) (ag : Agent) : List Nat := (chanOf s ag).toList

/-! ## Option store: commits (R366, R370) -/

/-- A commit that may start now: during ember only those of R370. -/
def commitAllowed (s : State) (c : Commit) : Bool :=
  !inEmber s || c.prio || c.act == .highWater || c.act == .pair || c.page == 34

/-- Start the next commit of the queue when none runs (R366). -/
def commitStart (s : State) : State :=
  match s.opt.run with
  | some _ => s
  | none =>
    match s.opt.queue.find? (commitAllowed s) with
    | none => s
    | some c => { s with opt := { s.opt with run := some c, page := c.page, queue := s.opt.queue.erase c } }

/-- Queue a page write: a commit by the EU or the MC goes ahead of every queued command (R370). -/
def commit (c : Commit) (s : State) : State :=
  let q := s.opt.queue
  let q := if c.prio then q.filter (·.prio) ++ [c] ++ q.filter (fun x => !x.prio) else q ++ [c]
  commitStart { s with opt := { s.opt with queue := q } }

/-- The page image a commit programs: the present contents with its bytes placed (R366). -/
def commitImage (s : State) (c : Commit) : BitVec 512 := putBytes (s.opt.pages.get {} c.page).data c.off c.bytes

/-- Count a commit in `WCOUNT`; at the rated life the page moves to the lowest unassigned spare (R368). -/
def wear (o : OptState) (p : OptPage) : OptState × OptPage :=
  if p.wcount + 1 = 1000000 ∧ o.sparesUsed < 64 then
    ({ o with sparesUsed := o.sparesUsed + 1, exhausted := decide (o.sparesUsed + 1 = 64) },
     { p with wcount := 1, phys := 1024 + o.sparesUsed })
  else (o, { p with wcount := satAdd (2 ^ 24 - 1) p.wcount 1 })

/-- Steps 1 to 3 of a commit take effect (R366): the target page reads wholly new, and both pages count. A write of the
whole page ends its damage (R369). -/
def commitPage (page : Nat) (whole : Bool) (img : BitVec 512) (o : OptState) : OptState :=
  let (o, cp) := wear o { wcount := o.commitW, phys := o.commitPhys }
  let o := { o with commitW := cp.wcount, commitPhys := cp.phys }
  let p := o.pages.get {} page
  let (o, p) := wear o { p with data := img, damaged := p.damaged && !whole }
  { o with pages := o.pages.set {} page p, factory := if whole then o.factory.erase page else o.factory }

/-- Events of the spares (R368). -/
def spareEvents (was : Nat) (s : State) : State :=
  let s := if s.opt.sparesUsed ≥ 56 ∧ !s.opt.lowRaised then
      raise 0x3001 0xFFFF 0 .nothing { s with opt := { s.opt with lowRaised := true } } else s
  if was < 64 ∧ s.opt.sparesUsed = 64 then raise 0x3002 0xFFFF 0 .nothing s else s

/-- A commit is done: its page is written and the commit is taken off; its completion is the caller's. -/
def commitApply (c : Commit) (s : State) : State :=
  let was := s.opt.sparesUsed
  let s := { s with opt := { commitPage c.page (decide (64 ≤ c.bytes.length)) (commitImage s c) s.opt with run := none } }
  spareEvents was (count 0x3020 0xFFFF 0 1 s)

/-! ## Ledger: staging (R375-R381) -/

/-- One record, with the continuation flag and index (R375). -/
def lgRec1 (code source flags i p0 p1 p2 : Nat) : LgRec :=
  { seq := 0, code := code, source := source, p0 := p0, p1 := p1, p2 := p2,
    flags := flags + (if i = 0 then 0 else 4) + 256 * i }

/-- Cut parameters into consecutive records of three words (R375). -/
def lgCut (code source flags : Nat) : Nat → List Nat → List LgRec
  | _, [] => []
  | i, [a] => [lgRec1 code source flags i a 0 0]
  | i, [a, b] => [lgRec1 code source flags i a b 0]
  | i, a :: b :: c :: t => lgRec1 code source flags i a b c :: lgCut code source flags (i + 1) t

/-- The records of one event. -/
def lgRecs (code source flags : Nat) (ps : List Nat) : List LgRec :=
  lgCut code source flags 0 (if ps.isEmpty then [0] else ps)

/-- Give records their SEQ and the founding flag (R376). -/
def lgNumber : Nat → List LgRec → List LgRec
  | _, [] => []
  | n, r :: t => { r with seq := n, flags := r.flags + (if n ≤ 4096 then 1 else 0) } :: lgNumber (n + 1) t

/-- Drop the oldest whole event: its first record and the continuations that follow (R381). -/
def lgDropEvent : List LgRec → List LgRec
  | [] => []
  | _ :: t => t.dropWhile (fun r => r.flags / 4 % 2 = 1)

/-- Make room for `n` records by overwriting the oldest whole events (R381). -/
def lgMakeRoom : Nat → Nat → List LgRec → List LgRec
  | 0, _, b => b
  | fuel + 1, n, b => if b.length + n ≤ 1024 then b else lgMakeRoom fuel n (lgDropEvent b)

/-- Stage numbered records (R378, R381). -/
def lgPut (rs : List LgRec) (s : State) : State :=
  let n := rs.length
  let l := s.lg
  let rs := lgNumber l.next rs
  if l.offline then
    let rs := rs.map (fun r => { r with flags := r.flags + 16 })
    count 0x3420 0xFFFF 0 n
      { s with lg := { l with staged := lgMakeRoom 1024 n l.staged ++ rs, next := l.next + n } }
  else
    let b := l.staged ++ rs
    count 0x3420 0xFFFF 0 n
      { s with lg := { l with staged := b, next := l.next + n, programming := l.programming || decide (b.length ≥ 512) } }

/-- Drop an event whole for want of room (R378). -/
def lgDrop (n : Nat) (s : State) : State :=
  { s with lg := { s.lg with dropped := satAdd max32 s.lg.dropped n, dropPend := satAdd max32 s.lg.dropPend n } }

/-- Stage one event whole or not at all; the first after the buffer has room again is preceded by *ledger overflow*. -/
def lgEvent (rs : List LgRec) (s : State) : State :=
  let l := s.lg
  if l.offline then lgPut rs s
  else if l.dropPend = 0 then
    (if l.staged.length + rs.length ≤ 1024 then lgPut rs s else lgDrop rs.length s)
  else if l.staged.length + 1 + rs.length ≤ 1024 then
    raise 0x3401 0xFFFF l.dropPend .nothing
      (lgPut (lgRecs 0x3401 0 0 [l.dropPend] ++ rs) { s with lg := { l with dropPend := 0 } })
  else lgDrop rs.length s

/-- Raise the high-water by 4,096 with a page write (R377). -/
def lgRaise (s : State) : State :=
  if s.lg.raising then s
  else commit { page := 4, off := 0, bytes := leBytes 8 (s.lg.high + 4096), act := .highWater, prio := false }
    { s with lg := { s.lg with raising := true } }

/-- Stage an event's records, or let them wait for the counter or for the high-water (R377). -/
def lgStage (rs : List LgRec) (s : State) : State :=
  if !s.lg.known then { s with lg := { s.lg with early := s.lg.early ++ rs } }
  else if !s.lg.waiting.isEmpty || s.lg.next + rs.length + 1 > s.lg.high then
    lgRaise { s with lg := { s.lg with waiting := s.lg.waiting ++ [rs] } }
  else lgEvent rs s

/-- A ledger record for an event or for a rule that requires one (R375, R416). -/
def ledger (code source : Nat) (ps : List Nat) (s : State) : State :=
  lgStage (lgRecs code source (if inEmber s then 2 else 0) ps) s

/-- `SOURCE` kinds of R375. -/
def srcMb (ch : Nat) : Nat := 0x1000 + ch
def srcPort (p : Nat) : Nat := 0x2000 + p
def srcCore (i : Nat) : Nat := 0x3000 + i
def srcChan (c : Nat) : Nat := 0x4000 + c
def srcDev (d : Nat) : Nat := 0x5000 + d
def srcLun (u : Nat) : Nat := 0x6000 + u
def srcLane (i : Nat) : Nat := 0x7000 + i
def srcTwin : Nat := 0x8000
def srcRail (i : Nat) : Nat := 0x9000 + i
def srcSensor (i : Nat) : Nat := 0xA000 + i

/-! ## CXL event logs (R238) -/

/-- Which logical devices a CXL record reaches. -/
def ldSees (s : State) (p l : Nat) : Names → Bool
  | .dpa d => match turfAt s d with
    | some (_, t) => (grantOf t (.fn p l)).isSome
    | none => false
  | _ => true

/-- Write a record into one log of a logical device; a full log counts an overflow; the log's vector fires when the
Event Interrupt Policy selects MSI-X (R238, R243). -/
def ldLog (p l log kind code val : Nat) (s : State) : State :=
  let x := s.ld p l
  let old := x.logs.get [] log
  if old.length < 64 then
    let s := s.modLd p l (fun x =>
      { x with logs := x.logs.set [] log (old ++ [⟨x.nextHandle, kind, code, val⟩]), nextHandle := x.nextHandle % 0xFFFF + 1 })
    if x.polMode.get 0 log = 1 then fire p l (x.polNum.get (3 + log) log) s else s
  else s.modLd p l (fun x => { x with overCnt := x.overCnt.upd 0 log (satAdd 0xFFFF · 1) })

/-- Write a CXL event record to every logical device that sees it. -/
def cxlLog (log kind code val : Nat) (n : Names) (s : State) : State :=
  (hostFns s).foldl (fun s pl =>
    if !(s.port pl.1).plain && ldSees s pl.1 pl.2 n then ldLog pl.1 pl.2 log kind code val s else s) s

/-! ## Sampling (R422, R423) -/

/-- The gap the next sample is taken after (R422). -/
def sampleGap (p : PmState) (free : Nat) : Nat :=
  if p.sJitter then max 1 (p.sPeriod - 15 + Config.freeGap free % 31) else p.sPeriod

/-- An occurrence of a permitted source reaches the sampler, with its latency. -/
def sampleLat (lat code inst addr info : Nat) (s : State) : State :=
  if !s.pm.sEn || s.pm.sCode ≠ code then s
  else if s.pm.sGap + 1 < s.pm.sNextGap then { s with pm := { s.pm with sGap := s.pm.sGap + 1 } }
  else
    let s := draw { s with pm := { s.pm with sGap := 0, sNextGap := sampleGap s.pm s.free } }
    if s.pm.sThresh ≠ 0 ∧ lat < s.pm.sThresh then s
    else
      let r : Sample := ⟨code, inst, min lat max32, addr, info, s.tb.count⟩
      if s.pm.samples.length < 4096 then
        count 0x4420 0xFFFF 0 1 { s with pm := { s.pm with samples := s.pm.samples ++ [r] } }
      else if s.pm.sWrap then
        count 0x4420 0xFFFF 0 1
          { s with pm := { s.pm with samples := s.pm.samples.drop 1 ++ [r], sLost := inc32 s.pm.sLost } }
      else
        let first := !s.pm.sFullRaised
        let s := { s with pm := { s.pm with sLost := inc32 s.pm.sLost, sFullRaised := true } }
        if first then raise 0x4401 0xFFFF 0 .nothing s else s

/-- The same, of an operation whose latency the spec bounds but does not give. -/
def sample (code inst addr info : Nat) (s : State) : State := sampleLat (Config.freeLatency s.free) code inst addr info s

end Sys2Proof.Machine
end

