-- ==== Sys2Proof/Machine/Frames.lean ====
section
/-! DEFINITION. The byte forms of the twin link (R193, R196, R203): the frame header, the message codes, payloads and their
lengths, and the checks that R195 makes of a frame. -/

namespace Sys2Proof.Machine

open Sys2Proof

/-- The 24 header bytes (R193). -/
def hdrBytes (h : LinkHdr) : List Byte :=
  leBytes 1 h.typ ++ leBytes 1 h.flags ++ leBytes 2 h.len ++ leBytes 4 h.session ++ leBytes 8 h.lseq ++ leBytes 8 h.ack

/-- `LSEQ` without its sender bit. -/
def hdrNum (h : LinkHdr) : Nat := h.lseq % 2 ^ 63

/-- Message codes (R196). -/
def msgCode : LinkMsg → Nat
  | .hello _ => 0x01
  | .pairResult _ _ _ _ => 0x02
  | .keepalive => 0x03
  | .retry _ => 0x04
  | .peerStatus _ _ _ _ => 0x05
  | .repl _ _ _ _ => 0x10
  | .replAck _ => 0x11
  | .fwd _ _ _ _ _ _ => 0x12
  | .fwdResult _ _ => 0x13
  | .unitReq _ _ _ _ => 0x14
  | .unitReply _ _ _ _ _ => 0x15
  | .credit _ => 0x16
  | .migBegin _ => 0x20
  | .migReady _ => 0x21
  | .migDone _ _ => 0x22
  | .genList _ _ => 0x28
  | .unitCopy _ _ _ _ _ => 0x29
  | .segDone _ _ => 0x2A
  | .segAck _ => 0x2B
  | .resyncDone _ => 0x2C
  | .cmd _ => 0x30
  | .cmdReply _ => 0x31
  | .emberNotice _ _ => 0x38
  | .haltNotice _ _ => 0x39
  | .streamState _ => 0x3A
  | .peerReset => 0x3B

/-- Lines that a record covers. -/
def recLines (r : ReplRec) : Nat := max 1 r.data.length

/-- The word that begins a record (R203). -/
def recWord (r : ReplRec) : Nat :=
  r.first % 2 ^ 15 + 2 ^ 15 * (recLines r - 1) + 2 ^ 21 * b2n r.mask.isSome + 2 ^ 22 * b2n r.fwdTag.isSome + 2 ^ 23 * b2n r.unmap

def lineBytes64 (ls : List Line) : List Byte := ls.flatMap (fun v => bytesOf v 0 64)

def maskBytes : Option (BitVec 64) → List Byte
  | some m => leBytes 8 m.toNat
  | none => []

/-- A record: its word, the byte mask, the forward tag, the lines (R203). -/
def replRecBytes (r : ReplRec) : List Byte :=
  leBytes 4 (recWord r) ++ maskBytes r.mask ++ (match r.fwdTag with
    | some t => leBytes 8 t
    | none => []) ++ lineBytes64 r.data

/-- The 8 bytes of a stream entry (R196). -/
def entBytes (e : StreamEnt) : List Byte := leBytes 1 e.ch ++ leBytes 1 (b2n e.stopped) ++ leBytes 2 0 ++ leBytes 4 e.line

/-- The 64 payload bytes of `HELLO` (R196). -/
def helloBytes (p : HelloP) : List Byte :=
  leBytes 8 p.serial ++ leBytes 4 p.fwVer ++ leBytes 4 p.uGib ++ leBytes 8 p.pairId ++ leBytes 4 p.pgen ++ leBytes 1 p.pstate
    ++ leBytes 1 (b2n p.twinB + 2 * b2n p.token + 4 * b2n p.qwired + 8 * b2n p.scanned + 16 * b2n p.fullOwed)
    ++ leBytes 2 0 ++ leBytes 4 p.pool ++ leBytes 4 p.budgetGib ++ leBytes 1 p.ceilGib ++ leBytes 3 0
    ++ leBytes 4 p.budget64k ++ leBytes 8 p.peerSerial ++ List.replicate 8 0

/-- The payload of a message (R196), every reserved byte zero. -/
def msgBytes : LinkMsg → List Byte
  | .hello p => helloBytes p
  | .pairResult o r g i => leBytes 1 o ++ leBytes 1 r ++ leBytes 2 0 ++ leBytes 4 g ++ leBytes 8 i
  | .keepalive | .peerReset => []
  | .retry n => leBytes 8 n
  | .peerStatus p g c k => leBytes 4 p ++ leBytes 4 g ++ leBytes 1 c ++ leBytes 3 0 ++ leBytes 4 k
  | .repl seg gen stamp recs =>
    leBytes 4 seg ++ leBytes 4 gen ++ leBytes 8 stamp ++ leBytes 2 recs.length ++ leBytes 2 0 ++ recs.flatMap replRecBytes
  | .replAck stamp => leBytes 8 stamp
  | .fwd tag dpa unmap mask data _ =>
    leBytes 8 tag ++ leBytes 8 dpa ++ leBytes 1 (max 1 data.length - 1) ++ leBytes 1 (b2n mask.isSome + 2 * b2n unmap)
      ++ leBytes 6 0 ++ maskBytes mask ++ lineBytes64 data
  | .fwdResult tag r => leBytes 8 tag ++ leBytes 1 r ++ leBytes 7 0
  | .unitReq tag b u m => leBytes 4 tag ++ leBytes 4 b ++ leBytes 1 u ++ leBytes 1 m ++ leBytes 6 0
  | .unitReply tag st stamp mask data =>
    leBytes 4 tag ++ leBytes 1 st ++ leBytes 3 0 ++ leBytes 8 stamp ++ leBytes 8 mask.toNat ++ lineBytes64 data
  | .credit n => leBytes 4 n ++ leBytes 4 0
  | .migBegin g | .migReady g | .segAck g => leBytes 4 g ++ leBytes 4 0
  | .migDone g stamp => leBytes 4 g ++ leBytes 4 0 ++ leBytes 8 stamp
  | .genList first gens => leBytes 4 first ++ leBytes 4 gens.length ++ gens.flatMap (leBytes 4)
  | .unitCopy b u st mask data =>
    leBytes 4 b ++ leBytes 1 u ++ leBytes 1 st ++ leBytes 2 0 ++ leBytes 8 mask.toNat ++ lineBytes64 data
  | .segDone g gen => leBytes 4 g ++ leBytes 4 gen
  | .resyncDone g => leBytes 4 g ++ leBytes 4 0
  | .cmd slot | .cmdReply slot => slot
  | .emberNotice c ents => leBytes 1 c ++ leBytes 1 ents.length ++ leBytes 6 0 ++ ents.flatMap entBytes
  | .haltNotice r ents => leBytes 1 r ++ leBytes 1 ents.length ++ leBytes 6 0 ++ ents.flatMap entBytes
  | .streamState ents => leBytes 1 ents.length ++ leBytes 7 0 ++ ents.flatMap entBytes

/-- Bytes of a record. -/
def recLen (r : ReplRec) : Nat := 4 + 8 * b2n r.mask.isSome + 8 * b2n r.fwdTag.isSome + 64 * r.data.length

/-- `LEN` of a message (R196). -/
def msgLen : LinkMsg → Nat
  | .hello _ => 64
  | .pairResult _ _ _ _ | .peerStatus _ _ _ _ | .fwdResult _ _ | .unitReq _ _ _ _ | .migDone _ _ => 16
  | .keepalive | .peerReset => 0
  | .retry _ | .replAck _ | .credit _ | .migBegin _ | .migReady _ | .segAck _ | .segDone _ _ | .resyncDone _ => 8
  | .repl _ _ _ recs => recs.foldl (fun n r => n + recLen r) 20
  | .fwd _ _ _ mask data _ => 24 + 8 * b2n mask.isSome + 64 * data.length
  | .unitReply _ _ _ _ data => 24 + 64 * data.length
  | .genList _ gens => 8 + 4 * gens.length
  | .unitCopy _ _ _ _ data => 16 + 64 * data.length
  | .cmd slot | .cmdReply slot => slot.length
  | .emberNotice _ ents | .haltNotice _ ents | .streamState ents => 8 + 8 * ents.length

/-- A record keeps within its segment; a partial one covers one line, an unmap none (R203). -/
def recOk (r : ReplRec) : Bool :=
  decide (r.first + recLines r ≤ 2 ^ 15) && decide (recLines r ≤ 64) && (r.mask.isNone || r.data.length == 1)
    && (if r.unmap then r.data.isEmpty else r.cfg.isSome || !r.data.isEmpty)

/-- The counts and lengths that R193 and R196 allow a message. -/
def msgOk (m : LinkMsg) : Bool :=
  decide (msgLen m ≤ 4224) && match m with
    | .repl _ _ _ recs => decide (0 < recs.length) && decide (recs.length ≤ 64) && recs.all recOk
    | .fwd _ _ unmap mask data cfg =>
      decide (data.length ≤ 64) && (mask.isNone || data.length == 1)
        && (if unmap then data.isEmpty else cfg.isSome || !data.isEmpty)
    | .unitReply _ st _ _ data => data.length == (if st = 0 ∨ st = 2 then 64 else 0)
    | .unitCopy _ _ st _ data => data.length == (if st = 0 then 64 else 0)
    | .genList _ gens => decide (0 < gens.length) && decide (gens.length ≤ 1024)
    | .cmd slot | .cmdReply slot => slot.length == 256
    | .emberNotice _ ents | .haltNotice _ ents => decide (ents.length ≤ 64)
    | .streamState ents => decide (0 < ents.length) && decide (ents.length ≤ 64)
    | _ => true

/-- The form that R195 asks of a frame: a type of R196 with a length in its range, and reserved fields zero. -/
def formOk (h : LinkHdr) (m : LinkMsg) : Bool :=
  h.typ == msgCode m && decide (h.flags < 2) && h.len == msgLen m && msgOk m && decide (h.ack < 2 ^ 63) && h.rsvOk

/-- Types of the frames that carry write data: `REPL`, `FWD`, `UNIT_REPLY`, `UNIT_COPY` (R195). -/
def carriesData (typ : Nat) : Bool := [0x10, 0x12, 0x15, 0x29].contains typ

/-- Frames that a link kept up after `HALT_NOTICE` carries (R211, R213), and those that begin a session. -/
def keptAfterHalt : LinkMsg → Bool
  | .keepalive | .retry _ | .peerReset | .hello _ | .pairResult _ _ _ _ => true
  | _ => false

/-- The header of a frame that this device sends (R193). -/
def frameHdr (s : State) (again : Bool) (m : LinkMsg) : LinkHdr :=
  { typ := msgCode m, flags := b2n again, len := msgLen m, session := s.tu.session,
    lseq := s.tu.txSeq + 2 ^ 63 * b2n s.tu.isB, ack := s.tu.rxSeq, tagOk := true, rsvOk := true }

/-- The twin link takes and sends nothing after step 5 of ember (R161, R163). -/
def linkQuiet (s : State) : Bool :=
  match s.eu.phase with
  | .flush | .seal | .sealedHold | .shutdown => true
  | _ => false

/-- A message that the link does not carry now: after a halt notice sent or received (R211, R213), or in ember. -/
def linkMute (s : State) (m : LinkMsg) : Bool := linkQuiet s || ((s.tp.haltSent || s.tp.haltRx) && !keptAfterHalt m)

end Sys2Proof.Machine
end

