-- ==== Sys2Proof/Machine/Operands.lean ====
section
/-! DEFINITION. The operand forms of commands: the opcode table of R334, the encoding of reply data (R331), and the
course of an Atorn request from its taking to its reply (R322, R329, R332, R333, R338). -/

namespace Sys2Proof.Machine

open Sys2Proof

/-- The rights of R332. -/
inductive Right where
  | q | a | g | l | s | i | w
  deriving DecidableEq, Repr

/-- A row of the opcode table of R334: right, accepted in minimal recovery, accepted in halt, one at a time, carried
out by a block (R338), and the payload bytes its parameters reach (R331). -/
structure OpRow where
  code : Nat
  right : Right
  r : Bool
  h : Bool
  one : Bool
  block : Bool
  len : Nat
  deriving DecidableEq, Repr

/-- The opcodes of R334, and no others. -/
def opTable : List OpRow :=
  [⟨0x0001, .q, true, true, false, false, 0⟩, ⟨0x0002, .q, true, true, false, false, 0⟩,
   ⟨0x0003, .q, true, true, false, false, 4⟩, ⟨0x0010, .q, true, true, false, false, 0⟩,
   ⟨0x0011, .a, true, false, true, true, 16⟩, ⟨0x0012, .a, true, false, false, false, 8⟩,
   ⟨0x0013, .a, true, false, false, false, 0⟩, ⟨0x0014, .a, false, false, true, false, 0⟩] ++
  [⟨0x0100, .a, false, false, false, false, 28⟩, ⟨0x0101, .a, false, false, false, false, 4⟩,
   ⟨0x0102, .a, false, false, false, false, 16⟩, ⟨0x0103, .a, false, false, false, false, 24⟩,
   ⟨0x0104, .a, false, false, false, false, 12⟩, ⟨0x0105, .a, false, false, false, false, 8⟩,
   ⟨0x0106, .g, false, true, false, false, 4⟩, ⟨0x0107, .g, false, false, false, false, 24⟩] ++
  [⟨0x0200, .q, true, true, false, false, 0⟩, ⟨0x0201, .a, false, false, true, true, 4⟩,
   ⟨0x0202, .a, false, false, false, false, 4⟩, ⟨0x0203, .a, false, false, true, false, 84⟩,
   ⟨0x0300, .q, true, true, false, false, 0⟩, ⟨0x0301, .a, false, false, true, true, 8⟩,
   ⟨0x0302, .a, false, false, true, true, 8⟩, ⟨0x0400, .q, true, true, false, false, 0⟩,
   ⟨0x0401, .a, false, false, false, false, 8⟩, ⟨0x0402, .a, false, false, true, true, 0⟩] ++
  [⟨0x0500, .q, true, true, false, false, 0⟩, ⟨0x0501, .a, false, false, false, false, 20⟩,
   ⟨0x0502, .a, false, false, true, false, 0⟩, ⟨0x0503, .a, false, false, false, false, 0⟩,
   ⟨0x0504, .a, false, false, false, false, 0⟩, ⟨0x0505, .a, false, false, false, false, 0⟩,
   ⟨0x0600, .q, true, true, false, false, 4⟩, ⟨0x0601, .a, false, false, false, false, 4⟩,
   ⟨0x0602, .a, false, false, true, false, 4⟩] ++
  [⟨0x0700, .l, false, false, false, false, 112⟩, ⟨0x0701, .s, false, false, false, false, 4⟩,
   ⟨0x0702, .s, false, false, false, false, 20⟩, ⟨0x0703, .s, false, true, false, false, 4⟩,
   ⟨0x0704, .s, false, false, false, false, 20⟩, ⟨0x0705, .q, false, true, false, false, 4⟩,
   ⟨0x0800, .g, false, false, false, false, 16⟩, ⟨0x0801, .q, false, true, false, false, 0⟩,
   ⟨0x0802, .a, false, false, true, true, 4⟩] ++
  [⟨0x0900, .q, true, true, false, false, 0⟩, ⟨0x0901, .i, false, false, true, false, 24⟩,
   ⟨0x0902, .i, false, false, false, false, 4⟩, ⟨0x0903, .i, false, true, false, false, 0⟩,
   ⟨0x0904, .w, false, false, false, false, 28⟩, ⟨0x0A00, .q, true, true, false, false, 0⟩,
   ⟨0x0A01, .a, false, false, true, true, 4⟩, ⟨0x0A02, .a, false, false, false, false, 4⟩] ++
  [⟨0x0B00, .a, true, true, false, false, 8⟩, ⟨0x0B01, .a, true, false, false, false, 16⟩,
   ⟨0x0B02, .a, true, false, false, false, 24⟩, ⟨0x0B03, .a, true, false, false, false, 40⟩,
   ⟨0x0B10, .q, true, true, false, false, 0⟩, ⟨0x0B11, .a, true, true, false, false, 12⟩,
   ⟨0x0C00, .a, true, false, true, false, 12⟩, ⟨0x0C01, .q, true, true, false, false, 0⟩,
   ⟨0x0C02, .q, true, true, false, false, 0⟩, ⟨0x0D00, .a, false, false, false, false, 48⟩,
   ⟨0x0D01, .q, false, true, false, false, 12⟩, ⟨0x0D02, .a, false, false, false, false, 24⟩,
   ⟨0x0D03, .q, false, false, false, false, 12⟩]

def opRow (code : Nat) : Option OpRow := opTable.find? (fun r => r.code == code)

/-! ## Reply data (R331) -/

/-- A field of a reply: a number of 4 or 8 bytes, or a structure in its own layout. -/
inductive Fld where
  | n4 (v : Nat)
  | n8 (v : Nat)
  | raw (bs : List Byte)
  deriving DecidableEq, Repr

def padTo (a : Nat) (acc : List Byte) : List Byte := acc ++ List.replicate ((a - acc.length % a) % a) 0

/-- Lay fields out: an 8-byte field at the next multiple of 8, any other at the next multiple of 4 (R331). -/
def packInto : List Byte → List Fld → List Byte
  | acc, [] => acc
  | acc, .n4 v :: t => packInto (padTo 4 acc ++ leBytes 4 v) t
  | acc, .n8 v :: t => packInto (padTo 8 acc ++ leBytes 8 v) t
  | acc, .raw b :: t => packInto (padTo 4 acc ++ b) t

def pack (fs : List Fld) : List Byte := packInto [] fs

/-! ## Requests in flight (R322, R338) -/

/-- Firmware serves a channel (R297, R339, R353, R397): in minimal recovery M31 alone, in halt M29 to M31. With no
valid firmware slot the boot ROM serves M31. -/
def chanServed (s : State) (ch : Nat) : Bool :=
  !inEmber s && (s.cc.served || s.rpm.recovery == 7) &&
    (match deviceMode s with
      | 1 => ch == 31
      | 2 | 3 => decide (29 ≤ ch)
      | _ => true)

/-- The opcodes the boot ROM serves when no firmware slot is valid (R397). -/
def bootRomServes (op : Nat) : Bool :=
  [0x0001, 0x0002, 0x0003, 0x0010, 0x0011, 0x0012, 0x0013, 0x0014, 0x0B00, 0x0B01, 0x0B02, 0x0B03,
   0x0C00, 0x0C01, 0x0C02].contains op

/-- The opcode is accepted in the present mode (R334, R397). -/
def modeAllows (s : State) (r : OpRow) : Bool :=
  match deviceMode s with
  | 1 => r.r && (s.rpm.recovery != 7 || bootRomServes r.code)
  | 2 | 3 => r.h
  | _ => true

def icHostCtl (s : State) : Bool := (s.page 64).getLsbD (8 * 48 + 1)

/-- A channel's rights (R332). `owns` is the right S on the job named; `granted` what G asks for. -/
def rightOk (s : State) (ch : Nat) (owns granted : Bool) : Right → Bool
  | .q => true
  | .a => hasAdmin s ch
  | .g => granted
  | .l => decide (ch ≤ 29)
  | .s => owns || ch == 30 || ch == 31
  | .i => ch == 31 || (decide (ch ≤ 28) && icHostCtl s)
  | .w => ch == 29 || ch == 31

def findFlight (s : State) (ch tag : Nat) : Option Flight :=
  (s.mbox ch).flights.find? (fun f => f.tag == tag && !f.replied)

/-- An instance of a one-at-a-time command is running (R334). -/
def opRunning (s : State) (op : Nat) (ch tag : Nat) : Bool :=
  (List.range 32).any (fun k =>
    (s.mbox k).flights.any (fun f => f.opcode == op && !f.replied && f.started && !(k == ch && f.tag == tag)))

/-- PMON's qualifier of a reply (R417). -/
def statusQual (st : Nat) : Nat := st / 256 * 16 + st % 16

/-- The 256 bytes of a reply slot (R328). -/
def replySlot (op flags tag st cseq det : Nat) (data : List Byte) : List Byte :=
  let d := data.take 240
  leBytes 2 op ++ [BitVec.ofNat 8 (flags % 8 - flags / 2 % 2 * 2 + 2)] ++ [BitVec.ofNat 8 d.length] ++ leBytes 2 tag
    ++ leBytes 2 st ++ leBytes 4 cseq ++ leBytes 4 det ++ d ++ List.replicate (240 - d.length) 0

/-- The 256 bytes of a request slot (R328). -/
def requestSlot (op tag cseq : Nat) (params : List Byte) : List Byte :=
  leBytes 2 op ++ [0] ++ [BitVec.ofNat 8 params.length] ++ leBytes 2 tag ++ leBytes 2 0 ++ leBytes 4 cseq ++ leBytes 4 0
    ++ params ++ List.replicate (240 - params.length) 0

/-- Raise vector 0 of a channel, or the external interrupt of the integrator core (R323). -/
def mbIrq (ch : Nat) (s : State) : State :=
  if ch < 29 then
    match senderOf s ch with
    | .fn p f => fire p f 0 s
    | _ => s
  else if ch = 29 then emit .icIrq s else s

/-- Send a message on the twin link: it takes the next `LSEQ` and is kept until covered (R194); a link that is
muted sends nothing (R163, R211, R213). -/
def linkSend (m : LinkMsg) (s : State) : State :=
  if s.tu.idle || !(s.tu.lo.up || s.tu.hi.up) || linkMute s m then s
  else
    count 0x1820 0xFFFF 1 1 (emit (.link (frameHdr s false m) m)
      { s with tu := { s.tu with txSeq := s.tu.txSeq + 1, sent := s.tu.sent ++ [⟨s.tu.txSeq, 1, frameHdr s false m, m⟩] } })

/-- Send a command to the twin's M30: its `CSEQ` follows that of the last one sent in the session (R329, R341). -/
def twinCmd (op : Nat) (params : List Byte) (s : State) : State :=
  linkSend (.cmd (requestSlot op (s.tp.cmdSeq % 2 ^ 16) s.tp.cmdSeq params))
    { s with tp := { s.tp with cmdSeq := (s.tp.cmdSeq + 1) % 2 ^ 32 } }

/-- Where a descriptor's reply data goes: host memory of the function, or nothing (R330). -/
def outArea (s : State) (ch : Nat) (f : Flight) (data : List Byte) (t : State) : State :=
  if f.flags % 2 = 0 then t
  else
    let room := leNat ((f.payload.drop 12).take 4)
    let addr := leNat ((f.payload.drop 16).take 8)
    match senderOf s ch with
    | .fn p fn => emit (.hostWr p fn addr (data.take room)) t
    | _ => t

/-- Commands that may start: an `ORDERED` one only after every earlier command of its channel has ended (R329). -/
def startReady : Bool → List Flight → List Flight
  | _, [] => []
  | before, f :: t =>
    let wait := f.replied || f.started || f.area || (f.flags / 4 % 2 == 1 && before)
    (if wait then f else { f with started := true }) :: startReady (before || !f.replied) t

/-- Write the reply of the command `f` beside the `others` of its channel, and only then advance `RPL_PROD` (R322, R330). A
reply on M30 releases the record at once (R341). -/
def replyNow (ch : Nat) (f : Flight) (others : List Flight) (st det : Nat) (data : List Byte) (s : State) : State :=
  let desc := decide (f.flags % 2 = 1)
  let room := if desc then leNat ((f.payload.drop 12).take 4) else 240
  let cut := decide (data.length > room)
  let st := if cut ∧ st = 0 then 1 else st
  let det := if data.isEmpty then det else data.length
  let slot := replySlot f.opcode f.flags f.tag st f.cseq det (if desc then [] else data.take room)
  let s := outArea s ch f data s
  let s := count 0x2C21 ch (statusQual st) 1 s
  if ch = 30 then
    linkSend (.cmdReply slot) (s.modMbox 30 (fun m => { m with flights := startReady false others }))
  else
    let s := s.modMbox ch (fun m =>
      { m with slots := m.slots.set [] (4 + m.rplProd % 4) slot,
               rplProd := (m.rplProd + 1) % 256,
               flights := startReady false (others ++ [{ f with replied := true }]) })
    if (s.mbox ch).irqRpl then mbIrq ch s else s

/-- The same; on M29 a reply through a descriptor waits for its out area to be written (R330). -/
def replyWith (ch : Nat) (f : Flight) (others : List Flight) (st det : Nat) (data : List Byte) (s : State) : State :=
  if ch = 29 ∧ f.flags % 2 = 1 ∧ !data.isEmpty ∧ f.reply.isNone then
    s.modMbox 29 (fun m => { m with flights := others ++ [{ f with reply := some (st, det, data) }] })
  else replyNow ch f others st det data s

/-- Reply to a command in flight. A reply that a channel reset discards releases the record at once (R340). In ember the reply
waits for the return (R342). -/
def reply (rq : Rq) (st det : Nat) (data : List Byte) (s : State) : State :=
  match findFlight s rq.ch rq.tag with
  | none => s
  | some f =>
    let others := (s.mbox rq.ch).flights.erase f
    if f.drop then s.modMbox rq.ch (fun m => { m with flights := startReady false others })
    else if inEmber s && s.mb.held.any (fun h => h.1 == rq.ch && h.2.1 == rq.tag) then s
    else if inEmber s then
      { s with mb := { s.mb with held := s.mb.held ++ [(rq.ch, rq.tag, st)] } }
    else replyWith rq.ch f others st det data s

/-- End a command with OK and its data. -/
def ok (rq : Rq) (data : List Byte) (s : State) : State := reply rq 0 0 data s

/-- Mark a command's effect durable (R338). -/
def setCommitted (rq : Rq) (s : State) : State :=
  s.modMbox rq.ch (fun m => { m with flights := m.flights.map (fun f =>
    if f.tag == rq.tag && !f.replied then { f with committed := true } else f) })

/-- The checks that come after a command's frame, right, mode and instance have passed (R333): parameters by position,
an option-store area's password, then the conditions of "Refused when" by position. `params` lays the parameters out as R331
encodes them. -/
structure Cmd where
  params : List (List Fld) := []   -- the parameters of the row, each by its fields
  bad : List Bool := []
  denied : Option Nat := none
  refuse : List Bool := []

/-- The bytes of a field, where it begins after `off`, and where it ends (R331). -/
def fldAt (off : Nat) (x : Fld) : Nat × List Byte × Nat :=
  let up (a : Nat) : Nat := (off + a - 1) / a * a
  match x with
  | .n4 v => (up 4, leBytes 4 v, up 4 + 4)
  | .n8 v => (up 8, leBytes 8 v, up 8 + 8)
  | .raw b => (up 4, b, up 4 + b.length)

/-- `n` bytes of a payload from an offset, zeros past its end. -/
def payloadAt (b : List Byte) (off n : Nat) : List Byte := (b.drop off ++ List.replicate n 0).take n

/-- The bytes that round a byte array up to a multiple of 8 (R331). -/
def fldTail : Fld → Nat
  | .raw b => (8 - b.length % 8) % 8
  | _ => 0

/-- A parameter's fields from `off`: whether the payload holds them, whether their padding is not zero, and where they end. -/
def paramAt (b : List Byte) : List Fld → Nat → Bool × Bool × Nat
  | [], off => (true, false, off)
  | x :: t, off =>
    let p := fldAt off x
    let n := fldTail x
    let r := paramAt b t (p.2.2 + n)
    (payloadAt b p.1 p.2.1.length == p.2.1 && r.1,
     (payloadAt b off (p.1 - off) ++ payloadAt b p.2.2 n).any (· != 0) || r.2.1, r.2.2)

/-- The parameters of a payload: whether they are these, and the positions whose padding is not zero (R6, R333). -/
def paramsAt (b : List Byte) : List (List Fld) → Nat → Bool × List Bool
  | [], _ => (true, [])
  | x :: t, off =>
    let p := paramAt b x off
    let r := paramsAt b t p.2.2
    (p.1 && r.1, p.2.1 :: r.2)

/-- Positions bad for either of two reasons. -/
def orPos : List Bool → List Bool → List Bool
  | [], b => b
  | a, [] => a
  | x :: a, y :: b => (x || y) :: orPos a b

/-- What the taken request's payload holds of the row's parameters: a byte array that comes by an in area is not in the payload,
and is the last parameter (R330). -/
def flightParams (f : Flight) (ps : List (List Fld)) : Bool × List Bool :=
  if f.flags % 2 = 1 then
    let b := f.payload.drop 32
    let area := leNat ((f.payload.drop 8).take 4) != 0
    paramsAt b (if area then ps.dropLast else ps) 0
  else paramsAt f.payload ps 0

/-- Run a command in flight: BAD_PARAM, ACCESS_DENIED or REFUSED, or its effect (R333). -/
def cmdRun (rq : Rq) (c : Cmd) (eff : State → State) (s : State) : State :=
  match firstTrue c.bad 1 with
  | some n => reply rq 0x0300 n [] s
  | none =>
    match c.denied with
    | some a => reply rq 0x0303 a [] s
    | none =>
      match firstTrue c.refuse 1 with
      | some n => reply rq 0x0301 n [] s
      | none => eff s

/-- The in-flight record of a request as its row presents it. -/
def directFlight (s : State) (rq : Rq) (op : Nat) (block : Bool) : Flight :=
  { tag := rq.tag, cseq := (s.mbox rq.ch).expect.getD 0, opcode := op, flags := 0, block := block, ran := true }

/-- Requests taken in the last 100 ms (R324). -/
def recentTakes (s : State) (l : List Nat) : List Nat := l.filter (fun t => decide (s.tb.count < t + 100000000))

/-- Post and take a request as its row presents it (notes/assumptions/9.md), with the commands then in flight. -/
def takeDirect (rq : Rq) (flights : List Flight) (s : State) : State :=
  count 0x2C20 rq.ch 0 1 (s.modMbox rq.ch (fun m =>
    { m with reqProd := (m.reqProd + 1) % 256, reqCons := (m.reqCons + 1) % 256,
             expect := some ((m.expect.getD 0 + 1) % 2 ^ 32), taken := recentTakes s m.taken ++ [s.tb.count],
             flights := flights }))

/-- A request taken from its slot, whose row has not come yet. -/
def waitingFlight (s : State) (rq : Rq) (op : Nat) : Option Flight :=
  (s.mbox rq.ch).flights.find? (fun f => f.tag == rq.tag && f.opcode == op && !f.replied && !f.ran)

def setRan (rq : Rq) (s : State) : State :=
  s.modMbox rq.ch (fun m => { m with flights := m.flights.map (fun f =>
    if f.tag == rq.tag && !f.replied then { f with ran := true } else f) })

/-- Vector 0 for a channel that has become empty (R323): a reply in the same step makes one message with it. -/
def emptied (ch : Nat) (s t : State) : State :=
  let m := t.mbox ch
  if m.irqEmpty && m.reqCons == m.reqProd && !(m.irqRpl && m.rplProd != (s.mbox ch).rplProd) then mbIrq ch t else t

/-- A channel can have a request taken now (R318, R322, R324). -/
def canTake (s : State) (ch : Nat) : Bool :=
  decide (ch < 32) && (decide (30 ≤ ch) || bindBound (s.mbox ch).bind_) && chanServed s ch
    && decide ((s.mbox ch).flights.length < 4) && decide ((recentTakes s (s.mbox ch).taken).length < 2000)

/-- The right, mode and instance checks (R333), in order. -/
def gate (s : State) (rq : Rq) (r : OpRow) (owns granted : Bool) : Option (Nat × Nat) :=
  if !rightOk s rq.ch owns granted r.right then some (0x0104, 0)
  else if !modeAllows s r then some (0x0105, deviceMode s)
  else if r.one && opRunning s r.code rq.ch rq.tag then some (0x0106, r.code)
  else none

/-- An Atorn command's row. A request that was taken from its slot with this tag, opcode and parameters is run, its padding
checked with its parameters; a row with other parameters is not that request's. With no such request the row stands for its frame,
its taking and its run (notes/assumptions/9.md). -/
def atorn (op : Nat) (rq : Rq) (owns granted : State → Bool) (c : State → Cmd) (eff : State → State) (s : State) : State :=
  match opRow op with
  | none => s
  | some r =>
    match waitingFlight s rq op with
    | some f =>
      if !f.started then s
      else
        let t := setRan rq s
        let p := flightParams f (c t).params
        if !p.1 then s
        else if rightOk s rq.ch (owns s) (granted s) r.right then cmdRun rq { c t with bad := orPos p.2 (c t).bad } eff t
        else reply rq 0x0104 0 [] t
    | none =>
      if !canTake s rq.ch then s
      else
        let old := (s.mbox rq.ch).flights
        let f := directFlight s rq op r.block
        emptied rq.ch s
          (if old.any (fun f => f.tag == rq.tag) then
            count 0x2C23 rq.ch 0 1 (replyWith rq.ch f old 0x0102 0 [] (takeDirect rq old s))
          else
            let t := takeDirect rq (old ++ [f]) s
            match gate s rq r (owns s) (granted s) with
            | some (st, det) => reply rq st det [] t
            | none => cmdRun rq (c t) eff t)

/-- A command whose right needs nothing beyond its channel. -/
def atornQ (op : Nat) (rq : Rq) (c : State → Cmd) (eff : State → State) (s : State) : State :=
  atorn op rq (fun _ => true) (fun _ => true) c eff s

/-- A command that only returns data. -/
def query (op : Nat) (rq : Rq) (data : State → List Byte) (s : State) : State :=
  atornQ op rq (fun _ => {}) (fun t => ok rq (data t) t) s

/-- The request of a running command with this opcode (R338). -/
def runningRq (s : State) (op : Nat) : Option Rq :=
  (List.range 32).findSome? (fun k =>
    ((s.mbox k).flights.find? (fun f => f.opcode == op && !f.replied)).map (fun f => ⟨k, f.tag⟩))

/-- A block ends a command it carries out. -/
def endBlock (op st det : Nat) (s : State) : State :=
  match runningRq s op with
  | some rq => reply rq st det [] (setCommitted rq s)
  | none => s

/-- The row's channel exists (R318). -/
def rqOk (rq : Rq) : Bool := decide (rq.ch < 32)

/-- All ones in a 4-byte parameter: "or all", "or none" (R331). -/
def allOnes : Nat := 0xFFFFFFFF

end Sys2Proof.Machine
end

