-- ==== Sys2Proof/Machine/Control.lean ====
section
/-! DEFINITION. Operations that stop things: holding and stopping stream channels, starve marks and ring entries (R251,
R252, R264), entry into ember (R158, R161, R162), integrity halt (R352), the front-tier failed state (R91), memory
not ready (R235), and the notices to the twin (R212, R213). -/

namespace Sys2Proof.Machine

open Sys2Proof

/-! ## Rings (R252, R253) -/

/-- The 28 bytes of an entry before `VALID` (R252). -/
def entryBytes (line kind reason detail stamp bytes crc : Nat) : List Byte :=
  leBytes 4 line ++ leBytes 1 kind ++ leBytes 1 reason ++ leBytes 2 detail ++ leBytes 8 stamp ++ leBytes 4 bytes
    ++ leBytes 4 crc ++ leBytes 4 0

/-- `VALID` of outcome `q` (its full count) in a ring of `n` entries: phase and sequence (R252). -/
def validWord (n q : Nat) : Nat := ((q - 1) / n + 1) % 2 * 2 ^ 31 + q % 2 ^ 31

/-- Write the entry of outcome `q`: bytes 0-27, then `VALID` (R253). -/
def ringEntry (j : JobParams) (q line kind reason detail stamp bytes crc : Nat) (s : State) : State :=
  let a := j.entryBase + 32 * ((q - 1) % j.entries)
  emit (.ring j.port j.consumer (a + 28) (leBytes 4 (validWord j.entries q)))
    (emit (.ring j.port j.consumer a (entryBytes line kind reason detail stamp bytes crc)) s)

/-- The credit of a channel (R256). -/
def credit (j : JobParams) (c : Chan) : Nat := j.entries - (c.produced + 2 ^ 32 - c.consumed) % 2 ^ 32

/-- A starve mark in the entry of outcome `q`: entry, count, event *line starved* (R264). -/
def starveEntry (c : Nat) (j : JobParams) (q line reason detail stamp : Nat) (s : State) : State :=
  let s := ringEntry j q line 2 reason detail stamp 0 0 s
  let s := s.modChan c (fun x => { x with starve := inc32 x.starve })
  raise 0x1C07 c (line + reason * 2 ^ 32) (.stream c) (count 0x1C21 c reason 1 s)

/-- A stream entry of a channel (R196). -/
def streamEnt (s : State) (c : Nat) : StreamEnt :=
  let x := s.chan c
  ⟨c, x.st != .running, x.next⟩

def hasJob (s : State) (c : Nat) : Bool := (s.chan c).job.isSome
def hasPartner (s : State) (c : Nat) : Bool :=
  match (s.chan c).job with
  | some j => decide (j.partner < 64)
  | none => false

def streamEnts (s : State) : List StreamEnt :=
  ((List.range 64).filter (hasPartner s)).map (streamEnt s)

/-- The twin link is up. -/
def linkUp (s : State) : Bool := !s.tu.idle && (s.tu.lo.up || s.tu.hi.up) && s.tu.helloRx.isSome

/-- `STREAM_STATE` at a start, stop or starve mark of a channel with a partner (R214). -/
def streamNotify (c : Nat) (s : State) : State :=
  if hasPartner s c && linkUp s && s.tu.ps == .inSync then linkSend (.streamState [streamEnt s c]) s else s

def chanActive (st : ChSt) : Bool :=
  match st with
  | .priming | .armed | .running | .standby => true
  | _ => false

/-- The line a channel holds when it stops: the lowest whose entry was not valid, else the next (R251). -/
def heldLine (x : Chan) : Nat :=
  match x.rel with
  | r :: _ => r.line
  | [] => x.next

/-- Hold a channel at once, with no further entry written (R251: lost consumer, halt, warm reset, fencing). -/
def holdChan (cause c : Nat) (s : State) : State :=
  if chanActive (s.chan c).st then
    streamNotify c (s.modChan c (fun x =>
      { x with st := .held, cause := cause, heldValid := true, next := heldLine x, rel := [], pinned := [],
               stopping := none, lastLine := false }))
  else s

def holdAll (cause : Nat) (s : State) : State := (List.range 64).foldl (fun s c => holdChan cause c s) s

/-- A channel's stop ends: one starve mark where credit allows, except from STANDBY; then HELD (R251). -/
def stopEnd (reason c : Nat) (s : State) : State :=
  let x := s.chan c
  match x.job with
  | none => s
  | some j =>
    let line := heldLine x
    let s :=
      if x.st != .standby && decide (0 < credit j x) then
        let q := x.produced + 1
        starveEntry c j q line reason 0 s.tb.count
          (s.modChan c (fun x => { x with produced := q % 2 ^ 32 }))
      else s
    streamNotify c (s.modChan c (fun x =>
      { x with st := .held, cause := reason, heldValid := true, next := line, rel := [], pinned := [],
               stopping := none, lastLine := false }))

/-- `STREAM_STOP` and step 2 of R161: lines in release are completed first (R251). -/
def stopChan (reason c : Nat) (s : State) : State :=
  let x := s.chan c
  if chanActive x.st then
    (if x.rel.isEmpty then stopEnd reason c s else s.modChan c (fun x => { x with stopping := some reason }))
  else s

/-! ## Notices and marks (R212, R213) -/

def diverged : Nat := 0x7FFFFFFF

/-- The bytes of the pair record (R190). -/
def pairBytes (r : PairRec) : List Byte :=
  let ps := match r.pstate with
    | .unpaired => 0 | .pairing => 1 | .inSync => 2 | .solo => 3 | .fenced => 4 | .left => 5
    | .resyncSource => 6 | .resyncTarget => 7 | .refused => 8
  let b := leBytes 4 r.pgen ++ leBytes 1 ps ++ leBytes 1 (b2n r.token + 2 * b2n r.fullOwed) ++ leBytes 2 0
    ++ leBytes 8 r.pairId ++ leBytes 8 r.peerSerial ++ leBytes 4 r.session ++ leBytes 4 r.uGib ++ List.replicate 28 0
  b ++ leBytes 4 (crc32c b).toNat

/-- Change the pair record and commit its page (R190). -/
def pairWrite (act : OptAct) (f : PairRec → PairRec) (s : State) : State :=
  let r := f s.tu.record
  commit { page := 33, off := 0, bytes := pairBytes r, act := act } { s with tu := { s.tu with record := r } }

/-- Mark *diverged* every segment ordered here that has a write not covered by `REPL_ACK` (R212). -/
def markDiverged (s : State) : State :=
  (s.tp.unackSegs.map (·.2)).eraseDups.foldl (fun s g => s.modSeg g (fun x => { x with gen := diverged })) s

/-- A pair state in which a device sends notices (R213). -/
def noticeState (p : PState) : Bool :=
  match p with
  | .inSync | .resyncSource | .resyncTarget => true
  | _ => false

/-- Pair states from which PSEQ_OUT carries liveness (R209). -/
def livens (p : PState) : Bool :=
  match p with
  | .inSync | .solo | .resyncSource => true
  | _ => false

/-- What PSEQ_OUT carries (R209, R404): a level that the RPM drives until it hands the pin over; then low until the first pair
state of `livens`, liveness from there on, and a claim while one is held. -/
inductive PseqDrive where
  | low | high | liveness | claim
  deriving DecidableEq, Repr, Inhabited

def pseqDrive (s : State) : PseqDrive :=
  if !s.rpm.pseqTu then (if s.rpm.pseqOut then .high else .low)
  else if s.tu.claimOut then .claim
  else if s.tu.liveOn then .liveness
  else .low

/-- Pair state changed: vector 7 and the record of the CXL logs (R238, R439). -/
def setPs (p : PState) (s : State) : State :=
  if s.tu.ps = p then s
  else intCauseAll 2 { s with tu := { s.tu with ps := p, liveOn := s.tu.liveOn || livens p } }

/-- Leave the pair by a notice: IN_SYNC marks its uncovered segments and writes LEFT (R212). -/
def leaveByNotice (s : State) : State :=
  if s.tu.ps = .inSync then
    pairWrite .pair (fun r => { r with pstate := .left }) (setPs .left (markDiverged s))
  else s

/-- Send a notice to the twin when the link is up (R213). -/
def sendNotice (m : LinkMsg) (s : State) : State :=
  if linkUp s && noticeState s.tu.ps then leaveByNotice (linkSend m s) else s

/-- The halted device keeps the link up with what R213 lets it carry. -/
def haltSent (s : State) : State := { s with tp := { s.tp with haltSent := true } }

/-! ## Memory not ready (R235) -/

/-- The pair state withholds memory from hosts (R235). -/
def notReady (s : State) : Bool :=
  !s.px.open_ ||
  match s.tu.ps with
  | .pairing | .fenced | .left => true
  | .refused => (match s.tu.record.pstate with
    | .inSync | .left | .resyncTarget => true
    | _ => false)
  | _ => false

/-- Run a change and raise READY_CHG where the condition of R235 was entered or left (R439). -/
def readyWatch (f : State → State) (s : State) : State :=
  let t := f s
  if notReady s == notReady t then t else intCauseAll 4 t

/-! ## Integrity halt and the front-tier failed state (R91, R242, R352) -/

/-- Uncorrectable Internal Error and one ERR_FATAL on every host function (R242). -/
def fatalAll (s : State) : State :=
  (hostFns s).foldl (fun s pf =>
    if (s.fn pf.1 pf.2).errFatalSent then s
    else emit (.errFatal pf.1 pf.2) (emit (.aer pf.1 pf.2 .internal)
      (s.modFn pf.1 pf.2 (fun x => { x with errFatalSent := true, aer := .internal :: x.aer })))) s

/-- Enter integrity halt, in the steps of R352. Accesses that wait are left to the time limits of their sources: no request of a
host completes any more (R31, R35), and the apertures of the cores are closed. -/
def integrityHalt (cause loc : Nat) (s : State) : State :=
  if s.sec.halt then s
  else
    let s := { s with sec := { s.sec with halt := true, cause := cause, loc := loc }, te := { s.te with waits := [] } }
    let s := fatalAll (holdAll 0x11 s)
    let s := if linkUp s && noticeState s.tu.ps
      then haltSent (sendNotice (.haltNotice 1 (streamEnts s)) s) else s
    let s := { s with mctl := { s.mctl with smoulder := false } }
    ledger 0x2400 0 [cause, loc % 2 ^ 32, loc / 2 ^ 32] (raiseTo [29, 31] 0x2400 0xFFFF (cause + loc * 2 ^ 32) s)

/-! ## Entry into ember (R158, R161, R162) -/

/-- Free a frame that is FILLING with `COUNTED` 0 (R165): its billet's map entry is as it was before. -/
def freeUncounted (s : State) : State :=
  s.te.frames.foldl (fun s kv =>
    if kv.2.st == .filling && !kv.2.counted then
      let ent := match kv.2.mediaLoc with
        | some l => MapEnt.media l
        | none => .unmapped
      { s with te := { s.te with frames := s.te.frames.set {} kv.1 {}, map := s.te.map.set .unmapped kv.2.billet ent } }
    else s) s

def Acc.isWrite (a : Acc) : Bool :=
  match a.kind with
  | .coreAmo _ _ _ _ => true
  | _ => a.wr.isSome

/-- A line of a record received from the home: applied until step 5 of ember (R163). -/
def Acc.isReplica (a : Acc) : Bool :=
  match a.kind with
  | .replica _ _ _ => true
  | _ => false

/-- A wait that the quiesce point leaves (R162): writes waiting for admission or for a retirement and reads waiting on the
media are dropped; every other request taken before it is served, and lines of replicated records are applied (R163). -/
def keptAtQuiesce (w : Wait) : Bool :=
  w.acc.isReplica || match w.why with
    | .admission | .retire _ => false
    | .line | .frame | .evict _ => w.acc.isWrite
    | _ => true

def dropWaits (s : State) : State :=
  { s with te := { s.te with waits := s.te.waits.filter keptAtQuiesce, ceilEpisode := false } }

/-- Steps 1 to 3 of ember (R161), for a cause of R158. A device with no open epoch has no ember (R160). Causes arise together
while the quiesce runs: the lower code is then the one recorded (DESIGN CHOICE, notes/assumptions/98.md); the record of the
ledger follows at its end. -/
def emberEnter (cause : Nat) (s : State) : State :=
  if inEmber s then
    (if s.eu.phase == .shutdown then s
      else
        let first := s.eu.phase == .quiesce && decide (cause < s.eu.cause)
        { s with eu := { s.eu with causes := s.eu.causes ++ [cause], cause := if first then cause else s.eu.cause } })
  else
    let s := { s with eu := { s.eu with phase := .quiesce, cause := cause, causes := [cause], flushed := 0, pois := 0, tQuiesce := 0,
                                        tFlush := 0, pfwHeld := if cause = 1 then false else s.eu.pfwHeld },
                      mctl := { s.mctl with smoulder := false },
                      dump := { s.dump with writing := false } }
    let s := intCauseAll 0 (raiseTo [29] 0x1400 0xFFFF cause s)
    let s := (List.range 64).foldl (fun s c => stopChan 0x05 c s) s
    dropWaits (freeUncounted s)

/-- An epoch is open (R172): the start that wrote its OPEN record has come to service. -/
def epochOpen (s : State) : Bool := s.eu.epoch.st == 1 && s.rpm.st == .service

/-- Enter the front-tier failed state (R91): ember flushes what can be read, ports and streams stop as in halt. -/
def frontFailed (s : State) : State :=
  if s.ft.failed then s
  else
    let s := { s with ft := { s.ft with failed := true, failedLast := true } }
    let s := fatalAll (holdAll 0x11 s)
    let s := if linkUp s && noticeState s.tu.ps
      then haltSent (sendNotice (.haltNotice 2 (streamEnts s)) s) else s
    let s := { s with te := { s.te with waits := s.te.waits.filter (fun w => w.acc.who == .twin) } }
    if epochOpen s then emberEnter 7 s else s

end Sys2Proof.Machine
end

