-- ==== Sys2Proof/Machine/FrontOps.lean ====
section
/-! DEFINITION. The front tier's operations: the geometry of frames and lines (R75, R76, R95, R96), the line code
RS(34,32) (R79), the read of a line with its re-reads, corrections and poison (R81, R83, R85), row sparing (R87, R88)
and the retirement of devices (R89, R90). -/

namespace Sys2Proof.Machine

open Sys2Proof

/-! ## Geometry (R75, R76, R95-R97) -/

/-- Usable frame slots per device, u (R95). -/
def usable (density : Nat) : Nat := if density = 0 then 14280 else if density = 1 then 28616 else 57288

/-- Frames taken by tables and configuration segments (R96). -/
def tableCount (density : Nat) : Nat :=
  65536 + 8192 + (if density = 0 then 112 else if density = 1 then 224 else 448) + 64

/-- Rows per bank (R75). -/
def rowsPerBank (density : Nat) : Nat := if density = 0 then 16384 else if density = 1 then 32768 else 65536

def numFrames (s : State) : Nat := 32 * usable s.ft.density

def frameDev (f : Nat) : Nat := f % 32

/-- Pair-line index of line `l` of frame `f` within its device (R76). -/
def pairLine (f l : Nat) : Nat := f / 32 * 1024 + l

/-- Pair-row, bank and row of a pair-line index (R76). -/
def pairRow (q : Nat) : Nat := q / 56
def rowBank (rho : Nat) : Nat := rho % 16
def rowInBank (rho : Nat) : Nat := rho / 16

/-- The place of a line (R76): data slot, byte column of the data burst, byte column of its check slot, check word. -/
def dataSlot (q : Nat) : Nat := q % 56
def dataCol (q : Nat) : Nat := 32 * dataSlot q
def checkCol (q : Nat) : Nat := 32 * (56 + dataSlot q / 8)
def checkWord (q : Nat) : Nat := dataSlot q % 8

def devRetired (s : State) (d : Nat) : Bool := (s.ftDev d).st == 2
def devActive (s : State) (d : Nat) : Bool := (s.ftDev d).st == 0

def retiredCount (s : State) : Nat := ((List.range 32).filter (devRetired s)).length

/-- How many frames below `f` lie on devices outside a retired set (R97). -/
def frameRank (ret : BitVec 32) (f : Nat) : Nat :=
  let act := (List.range 32).filter (fun d => !ret.getLsbD d)
  f / 32 * act.length + (act.filter (fun d => decide (d < f % 32))).length

/-- The frame holds a table page (R97). -/
def isTable (s : State) (f : Nat) : Bool :=
  (!s.te.kindRet.getLsbD (frameDev f) && decide (frameRank s.te.kindRet f < tableCount s.ft.density)
    && !devRetired s (frameDev f))
  || s.te.tindex.any (fun kv => kv.2 == f + 1)

/-- A frame of the pool in use. -/
def frUsed (st : FrState) : Bool :=
  match st with
  | .free | .table | .offline => false
  | _ => true

/-- The state of a frame as its frame table entry gives it (R101, R102): free frames of a device that is not active are
offline. -/
def frState (s : State) (f : Nat) : FrState :=
  let st := (s.frame f).st
  if isTable s f then .table
  else if devRetired s (frameDev f) then .offline
  else if devActive s (frameDev f) || frUsed st then st
  else .offline

/-- Table pages placed on a device at kindling, while it is active (R97). -/
def tablesPlaced (s : State) (d : Nat) : Nat :=
  if s.te.kindRet.getLsbD d then 0
  else
    let act := (List.range 32).filter (fun x => !s.te.kindRet.getLsbD x)
    let n := tableCount s.ft.density
    n / act.length + b2n (decide ((act.filter (fun x => decide (x < d))).length < n % act.length))

/-- Table pages that an earlier retirement moved onto a device (R97). -/
def tablesMoved (s : State) (d : Nat) : Nat := (s.te.tindex.filter (fun kv => kv.2 != 0 && frameDev (kv.2 - 1) == d)).length

def usedOn (s : State) (d : Nat) : Nat := (s.te.frames.filter (fun kv => frUsed kv.2.st && frameDev kv.1 == d)).length

/-- Free frames that a device which is retiring has taken out of the pool (R102). -/
def offlineOn (s : State) (d : Nat) : Nat :=
  if (s.ftDev d).st == 1 then usable s.ft.density - tablesPlaced s d - tablesMoved s d - usedOn s d else 0

/-- Pool frames in state FREE (TE_FREE). -/
def freeCount (s : State) : Nat :=
  s.te.pool - (s.te.frames.filter (fun kv => frUsed kv.2.st)).length
    - (s.ft.dev.filter (fun kv => kv.2.st == 1)).foldl (fun n kv => n + offlineOn s kv.1) 0

/-- Frames a turf holds, pinned frames included (R60). -/
def held (s : State) (t : Nat) : Nat :=
  (s.te.frames.filter (fun kv => frUsed kv.2.st && kv.2.turf == t)).length

/-- Frames with `COUNTED` 1 (R92). -/
def dirtyCount (s : State) : Nat := (s.te.frames.filter (fun kv => kv.2.counted)).length

/-- The dirty ceiling in force, in frames (R92). -/
def ceilFrames (s : State) : Nat := s.ft.ceilGib * 16384

/-! ## The line code (R79) -/

/-- Multiplication by the root of x^16 + x^12 + x^3 + x + 1 in GF(2^16). -/
def mulAlpha (v : BitVec 16) : BitVec 16 :=
  if v.getLsbD 15 then (v <<< 1) ^^^ 0x100B#16 else v <<< 1

/-- Multiplication by α^n. -/
def mulAlphaPow : Nat → BitVec 16 → BitVec 16
  | 0, v => v
  | n + 1, v => mulAlphaPow n (mulAlpha v)

/-- Multiplication in GF(2^16). -/
def gfMul (a b : BitVec 16) : BitVec 16 :=
  (List.range 16).foldl (fun acc i => if b.getLsbD i then acc ^^^ mulAlphaPow i a else acc) 0

/-- The power 2^16 - 2: the inverse of a non-zero element. -/
def gfInv (a : BitVec 16) : BitVec 16 :=
  (List.range 15).foldl (fun (acc : BitVec 16 × BitVec 16) _ =>
    let sq := gfMul acc.2 acc.2
    (gfMul acc.1 sq, sq)) (1, a) |>.1

/-- Data symbol `i` of a line (R77). -/
def lineSym (d : Line) (i : Nat) : BitVec 16 := (d >>> (16 * i)).setWidth 16

/-- `P0` and `P1` of a line (R79). -/
def rsEncode (d : Line) : BitVec 16 × BitVec 16 :=
  let t0 := (List.range 32).foldl (fun a i => a ^^^ lineSym d i) 0
  let t1 := (List.range 32).foldl (fun a i => a ^^^ mulAlphaPow (i + 2) (lineSym d i)) 0
  let p1 := gfMul (t0 ^^^ t1) (gfInv (1 ^^^ mulAlpha 1))
  (t0 ^^^ p1, p1)

/-- Code position `j` of a stored line (R79). -/
def codePos (d : Line) (p0 p1 : BitVec 16) (j : Nat) : BitVec 16 :=
  if j = 0 then p0 else if j = 1 then p1 else lineSym d (j - 2)

/-- The syndromes S0 and S1 (R79). -/
def syndromes (d : Line) (p0 p1 : BitVec 16) : BitVec 16 × BitVec 16 :=
  (List.range 34).foldl (fun (a : BitVec 16 × BitVec 16) j =>
    (a.1 ^^^ codePos d p0 p1 j, a.2 ^^^ mulAlphaPow j (codePos d p0 p1 j))) (0, 0)

/-- Outcomes of a decode (R79). -/
inductive Decoded where
  | clean
  | corrected (pos : Nat)
  | uncorrectable
  deriving DecidableEq, Repr

/-- The position *j* in 0 to 33 with S1 = S0 α^*j*, when there is one. -/
def errorPos (s0 s1 : BitVec 16) : Option Nat :=
  (List.range 34).find? (fun j => mulAlphaPow j s0 == s1)

def rsDecode (d : Line) (p0 p1 : BitVec 16) : Decoded :=
  let (s0, s1) := syndromes d p0 p1
  if s0 = 0 ∧ s1 = 0 then .clean
  else if s0 ≠ 0 ∧ s1 ≠ 0 then
    match errorPos s0 s1 with
    | some j => .corrected j
    | none => .uncorrectable
  else .uncorrectable

/-! ## Lines and the poison index (R83, R238) -/

def lineKey (f l : Nat) : Nat := f * 1024 + l

def getLine (s : State) (f l : Nat) : LineVal := s.ft.lines.get zeroLine (lineKey f l)

/-- Add an entry to the poison index; past 65,536 entries the overflow is set (R238). -/
def poisonAdd (dpa : Nat) (billet : Bool) (s : State) : State :=
  if s.px.poisonIdx.contains (dpa, billet) then s
  else if s.px.poisonIdx.length < 65536 then
    { s with px := { s.px with poisonIdx := s.px.poisonIdx ++ [(dpa, billet)] } }
  else { s with px := { s.px with poisonOver := true } }

/-- Take an entry out; the overflow clears below 49,152 entries (R238). -/
def poisonDel (dpa : Nat) (billet : Bool) (s : State) : State :=
  let l := s.px.poisonIdx.erase (dpa, billet)
  { s with px := { s.px with poisonIdx := l, poisonOver := s.px.poisonOver && decide (49152 ≤ l.length) } }

/-- DPA of line `l` of a billet (R58). -/
def lineDpa (b l : Nat) : Nat := b * 65536 + l * 64

/-- Accesses of a device (R416): each is one burst pair, carried as one transfer on the device's HF lane (R74, R75). -/
def ftAccess (d n : Nat) (s : State) : State := count 0x0420 d 0 n (count 0x0820 d 0 n s)

/-- The check slot of a line, numbered within its device (R75, R76). -/
def checkSlot (f l : Nat) : Nat := pairRow (pairLine f l) * 8 + dataSlot (pairLine f l) / 8

/-- A read needs the line's check slot: cached, or fetched by one more access and cached (R83). -/
def checkRead (f l : Nat) (s : State) : State :=
  let d := frameDev f
  let c := (s.ftDev d).ckc
  let hit := c.contains (checkSlot f l)
  let s := s.modFtDev d (fun x => { x with ckc := (checkSlot f l :: c.erase (checkSlot f l)).take 1024 })
  if hit then s else ftAccess d 1 (count 0x0821 d 0 1 s)

/-- A write updates the check slot where it is cached (R83). -/
def checkWrite (f l : Nat) (s : State) : State :=
  s.modFtDev (frameDev f) (fun x =>
    if x.ckc.contains (checkSlot f l) then { x with ckc := checkSlot f l :: x.ckc.erase (checkSlot f l) } else x)

/-- The whole of a frame is read, for a destage or a copy: nine accesses for eight lines (R83). -/
def frameRead (f : Nat) (s : State) : State :=
  let d := frameDev f
  let ks := (List.range 128).map (fun i => checkSlot f (1023 - 8 * i))
  let c := (s.ftDev d).ckc
  let n := (ks.filter (fun k => !c.contains k)).length
  let s := s.modFtDev d (fun x => { x with ckc := (ks ++ c.filter (fun k => !ks.contains k)).take 1024 })
  ftAccess d (1024 + n) (if n = 0 then s else count 0x0821 d 0 n s)

/-- Store a line by the two accesses of R80. The next write of a slot that a raw write left overwrites it (R94), and a
write-back owed to the line is superseded (R82). -/
def putLine (f l : Nat) (v : LineVal) (s : State) : State :=
  let s := checkWrite f l (ftAccess (frameDev f) 2 s)
  { s with ft := { s.ft with lines := s.ft.lines.set zeroLine (lineKey f l) v,
                             rawSlots := s.ft.rawSlots.erase (frameDev f * 2 ^ 26 + pairLine f l),
                             wb := s.ft.wb.erase (f, l) } }

/-- Write the poison marker into a line of a billet's frame (R83). -/
def poisonLine (f l : Nat) (s : State) : State :=
  poisonAdd (lineDpa (s.frame f).billet l) false (putLine f l .poison s)

/-! ## Row sparing (R87, R88) -/

def rowKey (d rho : Nat) : Nat := d * 2 ^ 20 + rho

/-- Spare pair-rows taken in a bank of a device: they are taken in order, so the last one taken tells how many, those that
failed in their turn among them. -/
def sparesTaken (s : State) (d bank : Nat) : Nat :=
  (s.ft.remap.filter (fun kv => decide (kv.1 / 2 ^ 20 = d) && decide (kv.1 % 2 ^ 20 % 16 = bank))).foldl (fun m kv => max m kv.2) 0

/-- `SPARE_USED` and `SPARE_MIN` of a device. -/
def spareUsed (s : State) (d : Nat) : Nat := (s.ft.remap.filter (fun kv => decide (kv.1 / 2 ^ 20 = d))).length
def spareMin (s : State) (d : Nat) : Nat :=
  (List.range 16).foldl (fun m b => min m (64 - sparesTaken s d b)) 64

/-- A pair-row qualifies for sparing: a free spare of its bank is taken and the copy begins; false when none is free. A row
that a spare already stands for gives way to a further spare. *Spare rows low* is raised when a bank of the device comes to
8 spares left (notes/assumptions/97.md). -/
def spareBegin (d rho : Nat) (s : State) : Bool × State :=
  if s.ft.spareQ.any (fun q => q.dev == d && q.row == rho) then (true, s)
  else
    let n := sparesTaken s d (rowBank rho)
    if n ≥ 64 then (false, s)
    else
      let s := { s with ft := { s.ft with remap := s.ft.remap.set 0 (rowKey d rho) (n + 1),
                                          rowCe := s.ft.rowCe.erase (rowKey d rho),
                                          spareQ := s.ft.spareQ ++ [⟨d, rho, n, 0⟩] } }
      if n + 1 = 56 then
        (true, raise 0x0803 d (rowBank rho) .nothing (s.modFtDev d (fun x => { x with rowsLow := true })))
      else (true, s)

/-- A frame whose device waits at the boundary of an interface without lock (R390). -/
def devStalled (s : State) (f : Nat) : Bool := s.ft.ftStall.getLsbD (frameDev f / 4)

/-! ## Retirement of devices (R89-R91) -/

/-- A map entry for a billet that loses its frame (R102). -/
def entOf (fr : Frame) : MapEnt :=
  match fr.mediaLoc with
  | some l => .media l
  | none => .unmapped

/-- Take a frame out of use: its entry returns to FREE, which reads OFFLINE on a device that is retiring. -/
def dropFrame (f : Nat) (s : State) : State :=
  { s with te := { s.te with frames := s.te.frames.set {} f {} },
           ft := { s.ft with lines := Tab.clear s.ft.lines (f * 1024) (f * 1024 + 1024) } }

/-- Release a clean frame: its billet is served from the media afterwards (R90 step 2). -/
def releaseClean (f : Nat) (s : State) : State :=
  let fr := s.frame f
  dropFrame f { s with te := { s.te with map := s.te.map.set .unmapped fr.billet (entOf fr) } }

/-- Steps 1 and 2 of R90: retiring, events, clean frames released. -/
def retireStart (d : Nat) (s : State) : State :=
  let s := { s with ft := { s.ft with life := s.ft.life ||| ((1#32) <<< d) } }
  let s := s.modFtDev d (fun x => { x with st := 1 })
  let s := ledger 0x0804 (srcDev d) [d] (raise 0x0804 d 0 .nothing s)
  s.te.frames.foldl (fun s kv =>
    if frameDev kv.1 == d && (kv.2.st == .clean || kv.2.st == .evicting) then releaseClean kv.1 s else s) s

/-- A device becomes a candidate for retirement (R89): at most two retire over the life of the part; a third fails the front
tier (R91); during ember it waits for the next start. -/
def candidate (d : Nat) (s : State) : State :=
  if (s.ftDev d).st ≠ 0 || s.ft.cand.contains d then s
  else if inEmber s then { s with ft := { s.ft with cand := s.ft.cand ++ [d] } }
  else if ((List.range 32).filter (fun x => (s.ftDev x).st ≠ 0)).length < 2 then retireStart d s
  else frontFailed { s with ft := { s.ft with cand := s.ft.cand ++ [d] } }

/-- A row of an active device qualifies; with no free spare its device is a candidate (R88, R89). -/
def spareRow (d rho : Nat) (s : State) : State :=
  if !devActive s d then s
  else
    let (okay, t) := spareBegin d rho s
    if okay then t else candidate d t

/-! ## Reading a line (R81, R83, R85) -/

/-- What a read of a stored line ends in. -/
inductive LineRes where
  | data (v : Line)
  | poison
  | edc            -- three reads failed EDC: poison for this read alone (R85)
  | halted
  deriving DecidableEq, Repr

/-- One read with its EDC re-reads, at most twice (R85): the outcome, how many EDC errors, and what is left. -/
def fetch : Nat → List RdRes → RdRes × List RdRes
  | _, [] => (.clean, [])
  | 0, r :: t => (r, t)
  | n + 1, r :: t => if r = .edcFail then fetch n t else (r, t)

/-- Stamps within the last 24 h of timebase (R87, R89). -/
def day : Nat := 86400000000000
def within (now win : Nat) (l : List Nat) : List Nat := l.filter (fun t => decide (now - t ≤ win))

/-- Consequences of a corrected read: count, write-back owed, the third correction in 24 h spares the row (R79, R82, R87). -/
def onCorrected (f l : Nat) (s : State) : State :=
  let d := frameDev f
  let rho := pairRow (pairLine f l)
  let s := count 0x0822 d 0 1 (s.modFtDev d (fun x => { x with ce := inc32 x.ce }))
  let hits := s.tb.count :: within s.tb.count day (s.ft.rowCe.get [] (rowKey d rho))
  let wb := if s.ft.wb.contains (f, l) then s.ft.wb else s.ft.wb ++ [(f, l)]
  let s := { s with ft := { s.ft with rowCe := s.ft.rowCe.set [] (rowKey d rho) hits, wb := wb } }
  if hits.length ≥ 3 then spareRow d rho s else s

/-- A frame holds this line of a billet. -/
def lineHeld (s : State) (f l : Nat) : Bool :=
  let x := s.frame f
  frUsed x.st && (x.st != .filling || x.present.getLsbD l)

/-- A line newly found uncorrectable is counted and reported with its frame and line (R83). -/
def ueReport (f l : Nat) (s : State) : State :=
  let d := frameDev f
  raise 0x0801 d (f + l * 2 ^ 32) .nothing (s.modFtDev d (fun x =>
    { x with ue := inc32 x.ue, ueTimes := s.tb.count :: within s.tb.count day x.ueTimes }))

/-- Consequences of a line newly found uncorrectable: count, event, sparing, candidate (R83, R87, R89), and where the line
is a billet's the marker, the index and the log (R83, R238). -/
def onUncorrectable (f l : Nat) (s : State) : State :=
  let d := frameDev f
  let dpa := lineDpa (s.frame f).billet l
  let s := ueReport f l s
  let s := if lineHeld s f l then cxlLog 2 1 0x0801 dpa (.dpa dpa) (poisonLine f l s) else s
  let s := spareRow d (pairRow (pairLine f l)) s
  if 16 ≤ (s.ftDev d).ueTimes.length then candidate d s else s

/-- EDC errors of one read and its re-reads (R85). -/
def edcErrors (rd : List RdRes) : Nat := min 3 (rd.takeWhile (· == .edcFail)).length

def countEdc (d : Nat) (rd : List RdRes) (s : State) : State :=
  if edcErrors rd = 0 then s else s.modFtDev d (fun x => { x with edc := satAdd max32 x.edc (edcErrors rd) })

/-- One fetch of a line: its data bursts, again while EDC fails, its check slot, and the EDC errors it counts (R81, R83,
R85). -/
def lineFetch (f l : Nat) (rd : List RdRes) (s : State) : State :=
  let d := frameDev f
  countEdc d rd (checkRead f l (ftAccess d (min 3 (edcErrors rd + 1)) s))

/-- What follows a read that EDC passed, on a line that is not the marker (R79, R81): `rest` are the outcomes after it. -/
def decoded (f l : Nat) (v : Line) (r : RdRes) (rest : List RdRes) (s : State) : LineRes × List RdRes × State :=
  let d := frameDev f
  match r with
  | .edcFail => (.edc, rest, candidate d s)
  | .clean => (.data v, rest, s)
  | .corrected => (.data v, rest, onCorrected f l s)
  | .uncorrectable => (.poison, rest, onUncorrectable f l s)
  | .macBad =>
    let s := lineFetch f l rest s
    match fetch 2 rest with
    | (.clean, rest) => (.data v, rest, raise 0x0800 d 0 .nothing s)
    | (.corrected, rest) => (.data v, rest, onCorrected f l (raise 0x0800 d 0 .nothing s))
    | (_, rest) => (.halted, rest, integrityHalt 1 (f * 1024 + l) s)

/-- Read a stored line through R79, R81, R83 and R85, with the outcomes the environment gives its reads; the outcomes left
over are those of the write that may follow. -/
def ftReadRest (f l : Nat) (rd : List RdRes) (s : State) : LineRes × List RdRes × State :=
  let s := lineFetch f l rd s
  match fetch 2 rd, getLine s f l with
  | (.edcFail, rest), _ => (.edc, rest, candidate (frameDev f) s)
  | (_, rest), .poison => (.poison, rest, s)
  | (r, rest), .data v => decoded f l v r rest s

def ftRead (f l : Nat) (rd : List RdRes) (s : State) : LineRes × State :=
  match ftReadRest f l rd s with
  | (r, _, t) => (r, t)

/-- The write bursts of a line: those that fail EDC are sent again, at most twice, each one more access (R85); `false` when
every send failed, which makes the device a candidate (R89). -/
def lineSent (f : Nat) (rd : List RdRes) (s : State) : Bool × State :=
  let d := frameDev f
  let n := edcErrors rd
  if n = 0 then (true, s)
  else
    let s := countEdc d rd (ftAccess d (min 2 n) s)
    if n = 3 then (false, candidate d s) else (true, s)

end Sys2Proof.Machine
end

