-- ==== Sys2Proof/Machine/Time.lean ====
section
/-! DEFINITION. Time and handshakes: the timebase (R52), its alignment to PPS (R54, R55), the pace monitor (R48, R49),
line-trigger capture (R56, R57) and the read of a register pair (R53, R431). -/

namespace Sys2Proof.Machine

open Sys2Proof

/-- The band of R7 as a refresh band (R86): below −20 °C, outside the bands, the rate of band C holds. -/
def thRefresh (s : State) : Nat :=
  if s.th.band ≤ 1 then 0 else if s.th.band = 2 then 1 else if s.th.band = 4 && decide (s.th.max < -80) then 0 else 2

/-- The refresh band last determined: the hotter of its two inputs. -/
def refreshSeen (s : State) : State := { s with ft := { s.ft with bandSeen := max (thRefresh s) s.ft.hotDev } }

/-- A source of reset whose reach is cold (R386). -/
def isCold : RstSrc → Bool
  | .por | .restart | .resetN | .cmdCold | .peer | .failStart => true
  | _ => false

/-! ## The timebase -/

/-- What `n` reference cycles add, in units of 2^-32 ns (R52). -/
def tbGain (n : Nat) (adj : Int) : Nat := 10 * n * (2 ^ 32 + adj).toNat

/-- `n` reference cycles pass (R52). -/
def tbAdvance (n : Nat) (s : State) : State :=
  if s.rpm.asserted.any isCold then s
  else
    let u := s.tb.frac + tbGain n s.tb.adj
    { s with tb := { s.tb with count := (s.tb.count + u / 2 ^ 32) % 2 ^ 64, frac := u % 2 ^ 32,
                               rawSince := s.tb.rawSince + n } }

/-- The block with no command waiting: one reference cycle. -/
def idleCycle (s : State) : State := tbAdvance 1 s

/-- The signed phase error: the counter less the nearest whole second. -/
def phaseErrOf (c : Nat) : Int :=
  let r := c % 1000000000
  if r ≤ 500000000 then (r : Int) else (r : Int) - 1000000000

/-- The rate adjustment of an accepted edge in units of 2^-32, and whether it was clamped to 100 ppm. -/
def adjOf (e : Int) (n : Nat) : Int × Bool :=
  let d : Int := 10 * n
  let num : Int := 1000000000 - e - d
  if num * 10000 > d then (429497, true)
  else if num * 10000 < -d then (-429497, true)
  else ((2 * num * 2 ^ 32 + d) / (2 * d), false)

def clamp31 (e : Int) : Int := max (-(2 ^ 31 - 1)) (min (2 ^ 31 - 1) e)

/-- A forward step to `now` ends the window of `w` ns in which it falls; the next one begins where it lands (R421). -/
def stepCuts (w step now : Nat) : List Nat := [(now - step) % w, w - now % w].filter (fun n => decide (n ≠ 0))

/-- A forward step moves every armed deadline with it (R54), the spacing limit of R57 among them, and cuts the PMON windows
(R421). Windows that look back over past events (the 10 ms of R199, the 1 s of R399, the 24 h counts) are no deadlines and
are not moved (notes/assumptions/95.md). -/
def shiftDeadlines (step : Nat) (s : State) : State :=
  { s with te := { s.te with waits := s.te.waits.map (fun w => { w with t0 := w.t0 + step, missAt := w.missAt.map (· + step) }) },
           tb := { s.tb with ltLast := s.tb.ltLast.map (fun e => (e.1, e.2 + step)) },
           pm := { s.pm with cuts := stepCuts (s.pm.winCur * 1000) step s.tb.count } }

/-- The timebase at an edge `sub` ns after the last reference cycle (R56). Without the capture PLL's lock a stamp has no
part below 10 ns (R390). -/
def stampAt (sub : Nat) (s : State) : Nat :=
  let part := if s.tb.capLocked then sub * (2 ^ 32 + s.tb.adj).toNat else 0
  (s.tb.count * 2 ^ 32 + s.tb.frac + part) / 2 ^ 32

/-- An accepted or rejected rising edge on PPS_IN, `sub` ns after the last reference cycle (R54 and the alignment listing).
A step sets a to 0 without computing it, so CLAMPED keeps what the last computed a left (notes/assumptions/95.md). -/
def onPpsEdge (sub : Nat) (s : State) : State :=
  let tb := s.tb
  let c := stampAt sub s
  let n := tb.rawSince
  if tb.pps = .free then s
  else if tb.havePrev ∧ (n < 99980000 ∨ 100020000 < n) then
    count 0x4021 0xFFFF 0 1 { s with tb := { tb with rejectCnt := satAdd 255 tb.rejectCnt 1 } }
  else
    let e := phaseErrOf c
    let tb1 := { tb with ppsStamp := c, phaseErr := clamp31 e, havePrev := true, rawSince := 0, pps := .tracking,
                         refCycles := if tb.havePrev then n else tb.refCycles }
    if tb.pps = .stepPending then
      let step := (1000000000 - c % 1000000000) % 1000000000
      shiftDeadlines step
        { s with tb := { tb1 with count := (tb.count + step) % 2 ^ 64, stepEn := false, adj := 0 } }
    else
      let tb2 := if tb.havePrev then { tb1 with adj := (adjOf e n).1, clamped := (adjOf e n).2 } else tb1
      let s := { s with tb := tb2 }
      if tb.pps = .tracking ∧ (e > 1000000 ∨ e < -1000000) then raise 0x4001 0xFFFF 0 .nothing s else s

/-- A rising edge on PPS_IN and the pulse it begins (R57): captured by the circuit of R56, from 100 ns high. A pulse of 10 ns
up to that is left open. -/
def ppsEdge (cycles sub highNs : Nat) (s : State) : State :=
  let s := tbAdvance cycles s
  if highNs < 10 then s
  else if 100 ≤ highNs then onPpsEdge sub s
  else if Config.freePulse s.free then onPpsEdge sub (draw s)
  else draw s
def execPpsEdge (cycles sub highNs : Nat) (s : State) : Res := run (decide (sub < 10)) (ppsEdge cycles sub highNs s)

/-- No accepted edge for 1.5 s of timebase (R54). -/
def ppsLost (s : State) : State :=
  if s.tb.pps = .tracking then
    raise 0x4000 0xFFFF 0 .nothing { s with tb := { s.tb with pps := .holdover, havePrev := false } }
  else s
def execPpsLost (s : State) : Res := run true (ppsLost s)

/-- `PPS_EN` set (R54). -/
def ppsEnSet (s : State) : State :=
  if s.tb.ppsEn then s
  else { s with tb := { s.tb with ppsEn := true, havePrev := false,
                                  pps := if s.tb.stepEn then .stepPending else .tracking } }
def execTbCtlPpsEnSet (ag : Agent) (s : State) : Res := run ag.wf (regWrite ag ppsEnSet s)

/-- `PPS_EN` cleared (R54). -/
def ppsEnClear (s : State) : State :=
  { s with tb := { s.tb with ppsEn := false, havePrev := false, pps := .free } }
def execTbCtlPpsEnClear (ag : Agent) (s : State) : Res := run ag.wf (regWrite ag ppsEnClear s)

/-- No stream channel is in PRIMING, ARMED, RUNNING or STANDBY (R55). -/
def noStreamActive (s : State) : Bool := s.su.chans.all (fun kv => !chanActive kv.2.st)

/-- `STEP_EN` set (R54, R55). -/
def stepEnSet (s : State) : State :=
  if !noStreamActive s then s
  else { s with tb := { s.tb with stepEn := true, pps := if s.tb.pps = .free then .free else .stepPending } }
def execTbCtlStepEnSet (ag : Agent) (s : State) : Res := run ag.wf (regWrite ag stepEnSet s)

/-- `STEP_EN` cleared by a write (R54), or by a stream channel that enters PRIMING while a step is pending. -/
def stepEnClear (s : State) : State :=
  { s with tb := { s.tb with stepEn := false,
                             pps := if s.tb.pps = .stepPending then .tracking else s.tb.pps } }
def execTbCtlStepEnClear (ag : Agent) (s : State) : Res := run ag.wf (regWrite ag stepEnClear s)

def ppsCode : PpsState → Nat
  | .free => 0 | .stepPending => 1 | .tracking => 2 | .holdover => 3

/-- `TB_PPS_STAT`; a function without `ADMIN` reads `REJECT_CNT` as 0 and does not clear it (R429). -/
def tbPpsStatRead (ag : Agent) (s : State) : State :=
  let low := ppsCode s.tb.pps + 8 * b2n s.tb.clamped
  regRead ag (low + 2 ^ 24 * s.tb.rejectCnt) low (fun s => { s with tb := { s.tb with rejectCnt := 0 } }) s
def execTbPpsStatRead (ag : Agent) (s : State) : Res := run ag.wf (tbPpsStatRead ag s)

/-! ## The pace monitor -/

def listMin : List Nat → Nat
  | [] => 0
  | [a] => a
  | a :: t => min a (listMin t)

/-- The supply corner from the measured VCORE (R8): 0 S, 1 T, 2 F. R8 names no corner below 0.72 V, above 0.82 V or before any
measurement: DESIGN CHOICE, S below and before, F above (notes/assumptions/96.md). -/
def corner (s : State) : Nat :=
  let mv := s.rpmx.vmon.get 0 1
  if mv < 760 then 0 else if mv < 800 then 1 else 2

/-- The end of a 1 µs window of the timebase (R48, R49). -/
def paceWindowEnd (rings : List Nat) (s : State) : State :=
  let now := listMin rings
  let h := { s.hf with paceNow := now, paceLow := min s.hf.paceLow now }
  if now < h.floor then
    let first := !h.lowRaised
    let s := { s with hf := { h with lowRaised := true, aboveUs := 0 } }
    if first then ledger 0x0400 0 [now, s.th.band, corner s] (raise 0x0400 0xFFFF 0 .nothing s) else s
  else
    let n := min 1000 (h.aboveUs + 1)
    { s with hf := { h with aboveUs := n, lowRaised := h.lowRaised && decide (n < 1000) } }
def execPaceWindowEnd (rings : List Nat) (s : State) : Res :=
  run (decide (rings.length = 8) && rings.all u16) (paceWindowEnd rings s)

/-- A write of `HF_PACE`: the written value, then the hardware's rule at once (R433). -/
def hfPaceWrite (v : Word) (s : State) : State :=
  let w := (v >>> 16).toNat
  { s with hf := { s.hf with paceLow := if s.hf.paceNow = 0 then w else min w s.hf.paceNow } }
def execHfPaceWrite (ag : Agent) (v : Word) (s : State) : Res := run ag.wf (regWrite ag (hfPaceWrite v) s)

/-! ## Line-trigger capture -/

/-- An active edge that the glitch filter passed (R56, R57). -/
def ltCapture (input sub : Nat) (s : State) : State :=
  let now := stampAt sub s
  if s.tb.ltSeen.getLsbD input ∧ now < s.tb.ltLast.get 0 input + 450 then
    count 0x4020 input 0 1 { s with tb := { s.tb with ovr := s.tb.ovr ||| ((1#16) <<< input) } }
  else
    count 0x4022 input 0 1
      { s with tb := { s.tb with ltStamp := s.tb.ltStamp.set 0 input now, ltLast := s.tb.ltLast.set 0 input now,
                                 ltSeen := s.tb.ltSeen ||| ((1#16) <<< input) },
               su := { s.su with edges := s.su.edges ++ [(input, now)] } }

/-- An edge of LINE_TRIG, `sub` ns after the last reference cycle, the pulse it begins and the rest of the level before it
(R56): either of them below 10 ns is filtered, both from 50 ns captured, between them a free value. -/
def lineTrigEdge (input : Nat) (falling : Bool) (pulseNs restNs cycles sub : Nat) (s : State) : State :=
  let s := tbAdvance cycles s
  if falling != s.tb.edgeFall.getLsbD input || decide (min pulseNs restNs < 10) then s
  else if 50 ≤ min pulseNs restNs then ltCapture input sub s
  else if Config.freePulse s.free then ltCapture input sub (draw s)
  else draw s
def execLineTrigEdge (input : Nat) (falling : Bool) (pulseNs restNs cycles sub : Nat) (s : State) : Res :=
  run (decide (input < 16) && decide (sub < 10)) (lineTrigEdge input falling pulseNs restNs cycles sub s)

/-! ## Register pairs -/

/-- The whole value of a register pair. -/
def pairValue (s : State) : LoReg → Nat
  | .tbCount => s.tb.count
  | .tbPpsStamp => s.tb.ppsStamp
  | .ltrigStamp j => s.tb.ltStamp.get 0 j
  | .ftRawCheck => s.ft.rawCheck.toNat
  | .mcDestage => s.mctl.destageCnt
  | .mcFold => s.mctl.foldCnt
  | .tuPairId => s.tu.record.pairId
  | .tuStamp => s.tu.stamp
  | .suLines c => (s.chan c).lines
  | .xeSticks => s.xe.sticks
  | .secHaltLoc => s.sec.loc
  | .ccSterrAddr i => (s.cpu i).sterrAddr
  | .lgStaged => s.lg.next - 1
  | .lgMedia => s.lg.mediaSeq
  | .lgOldest => match s.lg.recs with
    | [] => (match s.lg.staged with
      | [] => 0
      | r :: _ => r.seq)
    | (k, _) :: _ => k
  | .thThrottle => s.th.throttle
  | .pmonCnt k =>
    let c := s.pm.cnts.get {} k
    if c.chain && k % 2 == 0 then c.cnt + 2 ^ 48 * (s.pm.cnts.get {} (k + 1)).cnt else c.cnt
  | .glbSerial => s.board.serial

/-- Registers that BAR0 does not hold (R428). -/
def coreOnlyPair : LoReg → Bool
  | .ftRawCheck | .lgStaged | .lgMedia | .lgOldest | .pmonCnt _ => true
  | _ => false

/-- A function without `ADMIN` reads a channel's register as 0 unless it owns the job (R429). -/
def hiddenPair (s : State) (p f : Nat) : LoReg → Bool
  | .suLines c => !fnAdmin s p f && !(hasJob s c && chanOf s (.fn p f) == some (s.chan c).owner)
  | _ => false

/-- Latch the upper part of a pair for an agent (R53). -/
def setLatch (ag : Agent) (reg : LoReg) (v : Nat) (s : State) : State :=
  { s with latch := (ag, reg, v / 2 ^ 32) :: s.latch.filter (fun x => !(x.1 == ag && x.2.1 == reg)) }

/-- The pairs the integrator core's page holds (R438). -/
def icPair (s : State) : LoReg → Bool
  | .tbCount => true
  | .ccSterrAddr i => i == s.cc.icCore
  | _ => false

/-- The upper half that the agent's last read of LO latched (R53); zero before any. -/
def latched (s : State) (ag : Agent) (r : LoReg) : Nat :=
  match s.latch.find? (fun x => x.1 == ag && x.2.1 == r) with
  | some x => x.2.2 % 2 ^ 32
  | none => 0

/-- What an agent that the pair serves reads of it (R53, R431): LO latches HI for the same agent, an aligned 8-byte read of LO
returns both halves at once, HI is what was latched. -/
def pairRead (ag : Agent) (reg : LoReg) (part : PairPart) (s : State) : State :=
  let v := pairValue s reg
  match part with
  | .lo => emit (.regRead ag (v % 2 ^ 32)) (setLatch ag reg v s)
  | .both => emit (.regRead ag (v % 2 ^ 64)) (setLatch ag reg v s)
  | .hi => emit (.regRead ag (latched s ag reg)) s

/-- A read of a register pair by an agent (R53, R241, R428, R429, R438). -/
def loReadLatch (ag : Agent) (reg : LoReg) (part : PairPart) (s : State) : State :=
  let served (s : State) : State := pairRead ag reg part s
  match ag with
  | .core i => if i < 5 && reg != .glbSerial then served s else s
  | .ic => if icPair s reg then served s else emit (.regRead ag 0) s
  | .fn p f =>
    fnWrite p f (fun s => if coreOnlyPair reg || hiddenPair s p f reg then emit (.regRead ag 0) s else served s) s
  | _ => s
def execLoReadLatch (ag : Agent) (reg : LoReg) (part : PairPart) (s : State) : Res :=
  run (ag.wf && reg.wf) (loReadLatch ag reg part s)

end Sys2Proof.Machine
end

