-- ==== Sys2Proof/Machine/MediaOps.lean ====
section
/-! DEFINITION. The media controller's operations: geometry of block sets, locations and cords (R122-R126), the journal and
the checkpoint (R129, R132), rows and slots (R125, R133, R149), the copies that move (R138), the levels of the SLC fill,
of reclamation and of the budget (R137, R140, R155), ash (R152, R153) and the recovery of a sector (R144, R145). -/

namespace Sys2Proof.Machine

open Sys2Proof

/-! ## Geometry -/

def State.setRec (s : State) (k : Nat) : BlkSet := s.mc.sets.get {} k
def State.modSet (s : State) (k : Nat) (f : BlkSet → BlkSet) : State :=
  { s with mc := { s.mc with sets := s.mc.sets.upd {} k f } }
def State.lun (s : State) (u : Nat) : Lun := s.mc.luns.get {} u
def State.modLun (s : State) (u : Nat) (f : Lun → Lun) : State :=
  { s with mc := { s.mc with luns := s.mc.luns.upd {} u f } }
def State.row (s : State) (r : Nat) : Option Row := s.mc.rows.get none r
def State.modRow (s : State) (r : Nat) (f : Row → Row) : State :=
  { s with mc := { s.mc with rows := s.mc.rows.upd none r (fun o => o.map f) } }

/-- LUN number: channel × 16 + LUN. A LUN that is populated and not in ash (R122, R153). -/
def lunPopulated (s : State) (u : Nat) : Bool := decide (u < 512) && decide (u % 16 < s.mc.prof.luns)
def lunGood (s : State) (u : Nat) : Bool := lunPopulated s u && !(s.lun u).ash
def lunAshCount (s : State) : Nat := (s.mc.luns.filter (fun kv => kv.2.ash)).length
def goodLuns (s : State) : Nat := 32 * s.mc.prof.luns - lunAshCount s

/-- Blocks of each plane in the SLC region: its lowest (notes/assumptions/10.md; R126). -/
def slcBlocks (s : State) : Nat := if s.mc.slcDiv = 0 then 0 else s.mc.prof.blocks / 2 ^ s.mc.slcDiv

/-- Block set key: LUN × 4096 + block. -/
def setLun (k : Nat) : Nat := k / 4096
def setBlock (k : Nat) : Nat := k % 4096
def inSlc (s : State) (k : Nat) : Bool := decide (setBlock k < slcBlocks s)
def slotsOf (s : State) (k : Nat) : Nat := if inSlc s k then s.mc.prof.ps else s.mc.prof.pn

/-- The media billet location of page `p` of a set (R124), and back. -/
def locOf (s : State) (k p : Nat) : Nat := setLun k * 2 ^ 22 + setBlock k * s.mc.prof.pn + p
def locSet (s : State) (l : Nat) : Nat := l / 2 ^ 22 * 4096 + l % 2 ^ 22 / s.mc.prof.pn
def locPage (s : State) (l : Nat) : Nat := l % 2 ^ 22 % s.mc.prof.pn

/-- The channel a location lies on; its NC interface waits while the PLL has no lock (R390). -/
def locChan (l : Nat) : Nat := l / 2 ^ 22 / 16
def ncStalled (s : State) (l : Nat) : Bool := s.mctl.ncStall.getLsbD (locChan l / 4)

/-- The poisoned-billet marker (R124). -/
def poisonedLoc : Nat := 0x7FFFFFFE

/-- The LUN at position `i` of cord `c` (R125). -/
def cordLun (c i : Nat) : Nat := (16 * (c % 2) + i) * 16 + c / 2
def lunCord (u : Nat) : Nat := u % 16 * 2 + u / 256
def cordCount (s : State) : Nat := 2 * s.mc.prof.luns
def cordActive (s : State) (c : Nat) : List Nat := (List.range 16).filter (fun i => lunGood s (cordLun c i))

def setAsh (x : BlkSet) : Bool := x.st == 4 || x.st == 5
def setBusy (x : BlkSet) : Bool := x.st == 1 || x.st == 2 || x.st == 3
def isLedgerSet (s : State) (k : Nat) : Bool := s.lg.setLoc.any (fun l => locSet s l == k)

/-- Listed sets of a region on good LUNs that satisfy a test. -/
def countSets (s : State) (slc : Bool) (p : BlkSet → Bool) : Nat :=
  (s.mc.sets.filter (fun kv => inSlc s kv.1 == slc && lunGood s (setLun kv.1) && p kv.2)).length

def goodMain (s : State) : Nat := goodLuns s * (s.mc.prof.blocks - slcBlocks s) - countSets s false setAsh
def erasedMain (s : State) : Nat := goodMain s - countSets s false setBusy
def goodSlc (s : State) : Nat := goodLuns s * slcBlocks s - countSets s true setAsh

/-! ## Budget (R155) -/

/-- G in billets. -/
def rawBillets (s : State) : Nat := goodMain s * s.mc.prof.pn

/-- M: the billets that are mapped, front-only ones included, or hold the poisoned-billet marker. -/
def mappedBillets (s : State) : Nat := s.te.map.length

/-- B ≥ `n` × 64 KiB, with L = 2 % of G. -/
def budgetAtLeast (s : State) (n : Nat) : Bool := decide (50 * n + 50 * mappedBillets s ≤ 49 * rawBillets s)

/-- B in whole 64 KiB, 0 below. -/
def budget64k (s : State) : Nat := (49 * rawBillets s - 50 * mappedBillets s) / 50

/-- G − L < 1.25 × U. -/
def sparesShort (s : State) : Bool :=
  s.mc.formatted && decide (4 * 49 * rawBillets s < 5 * 50 * s.te.uGib * 16384)

/-! ## SLC space (R126, R137, R177) -/

/-- Billet slots of the system area: the checkpoint of R132, every sector twice (R126). -/
def systemSlots : Nat := 64 * 16896 * 2 / 16

/-- The ember reserve, in billets (R126). -/
def reserveSlots (s : State) : Nat := (s.ft.ceilGib + 8) * 16384

/-- Slots of a set that hold valid or invalid data: all of a closed set, those programmed of an open one. -/
def setUsed (s : State) (k : Nat) (x : BlkSet) : Nat :=
  if x.st = 1 then
    match s.row (x.row - 1) with
    | some r => (match r.sets.idxOf? k with
      | some i => (r.next + r.sets.length - 1 - i) / r.sets.length
      | none => slotsOf s k)
    | none => slotsOf s k
  else slotsOf s k

def isParitySet (s : State) (k : Nat) : Bool :=
  s.mc.rows.any (fun kv => match kv.2 with
    | some r => r.parity.contains k
    | none => false)

/-- Slots taken by the sets of the SLC region that satisfy a test on the key. -/
def slcTaken (s : State) (p : Nat → Bool) : Nat :=
  s.mc.sets.foldl (fun n kv =>
    if inSlc s kv.1 && setBusy kv.2 && p kv.1 then n + setUsed s kv.1 kv.2 else n) 0

def paritySlots (s : State) : Nat :=
  (s.mc.sets.filter (fun kv => inSlc s kv.1 && setBusy kv.2 && isParitySet s kv.1)).length * s.mc.prof.ps
def ledgerSlots (s : State) : Nat := s.lg.setLoc.length * s.mc.prof.ps

/-- The space of the SLC fill: the region outside system area, parity sets, ledger sets and ember reserve. -/
def slcSpace (s : State) : Nat :=
  goodSlc s * s.mc.prof.ps - systemSlots - paritySlots s - ledgerSlots s - reserveSlots s
def slcData (s : State) : Nat := slcTaken s (fun k => !isParitySet s k)

/-- The SLC fill in percent. -/
def slcFill (s : State) : Nat :=
  if slcSpace s = 0 then (if s.mc.formatted then 100 else 0) else min 100 (slcData s * 100 / slcSpace s)

/-- Free SLC space outside system area and parity sets (R177). -/
def slcFree (s : State) : Nat :=
  goodSlc s * s.mc.prof.ps - systemSlots - paritySlots s - ledgerSlots s - slcData s

/-- The ember reserve is free (R177). -/
def reserveFree (s : State) : Bool := decide (reserveSlots s ≤ slcFree s)

/-! ## Levels (R137, R140, R155, R156) -/

/-- A level that enters at `enter` going up and ends 2 points below that edge going down (R137). -/
def slcLevelOf (old fill : Nat) : Nat :=
  let up := if fill ≥ 100 then 4 else if fill ≥ 85 then 3 else if fill ≥ 60 then 2 else if fill ≥ 20 then 1 else 0
  let down := if fill ≥ 98 then 4 else if fill ≥ 83 then 3 else if fill ≥ 58 then 2 else if fill ≥ 18 then 1 else 0
  if up ≥ old then up else min old down

/-- Main free fraction below, or at least, `p` percent. -/
def freeBelow (s : State) (p : Nat) : Bool := decide (erasedMain s * 100 < p * goodMain s)

/-- Every turf leaves read-preserve with the device (R156). -/
def leavePreserve (s : State) : State :=
  s.te.turfs.foldl (fun s kv => match kv.2 with
    | some t => if t.preserve then
        raise 0x100A kv.1 0 (.turf kv.1) (s.modTurf kv.1 (fun t => { t with preserve := false }))
      else s
    | none => s) s

/-- The event and ledger record of a level just reached. -/
def levelEvent (now : Bool) (code : Nat) (s : State) : State :=
  if now then ledger code 0 [] (raise code 0xFFFF 0 .nothing s) else s

def sparesEvent (now : Bool) (s : State) : State :=
  if now then cxlLog 0 2 0x1008 0 .nothing (raise 0x1008 0xFFFF 0 .nothing s) else s

/-- Leave preserve mode once the media take a budget again. -/
def preserveEnd (s : State) : State :=
  if s.mctl.mediaFull && budgetAtLeast s 16384 then
    leavePreserve { s with mctl := { s.mctl with mediaFull := false } }
  else s

/-- Bring the levels of the media to the present fractions, with their events. -/
def mediaLevels (s : State) : State :=
  if !s.mc.formatted then s
  else
    let m := s.mctl
    let stoke := if m.stoke then freeBelow s 8 else freeBelow s 6
    let emerg := if m.stokeEmerg then freeBelow s 3 else freeBelow s 2
    let smo := if m.smoulder then freeBelow s 20 && m.idle else freeBelow s 15 && m.idle
    let lvl := slcLevelOf m.slcLevel (slcFill s)
    let spares := sparesShort s
    let s := { s with mctl := { m with stokeFreed := if stoke then m.stokeFreed else 0, stoke := stoke, stokeEmerg := emerg, smoulder := smo, slcLevel := lvl,
                                       kiln := min 3 lvl, sparesLow := spares },
                      eu := { s.eu with admitLow := s.eu.admitLow && !reserveFree s } }
    preserveEnd (sparesEvent (spares && !m.sparesLow)
      (levelEvent (emerg && !m.stokeEmerg) 0x1002 (levelEvent (stoke && !m.stoke) 0x1001 s)))

/-! ## Sequence numbers, system area, journal and checkpoint (R126, R129, R132) -/

/-- Take `n` sequence numbers in a row; the first of them. -/
def takeSeqs (n : Nat) (s : State) : Nat × State := (s.mc.seq, { s with mc := { s.mc with seq := s.mc.seq + n } })
def takeSeq (s : State) : Nat × State := takeSeqs 1 s

/-- Two places on different channels, for what is written twice (R126, R167); where they lie the spec leaves to the device. -/
def twoLocs (n : Nat) : Nat × Nat :=
  let a := Config.freeLoc n % 2 ^ 31
  (a, (a + 2 ^ 26 * (1 + Config.freeLoc (n + 1) % 31)) % 2 ^ 31)

/-- Write `n` sectors of the system area, each with a `SEQ` of its own, twice; the `SEQ` of the first. -/
def sysWrite (key n : Nat) (s : State) : Nat × State :=
  let (q, s) := takeSeqs n s
  (q, { s with mc := { s.mc with sys := s.mc.sys.set (0, 0, 0) key (q + n - 1, twoLocs (2 * q)) } })

/-- Sectors of the block-set table: 8 bytes a record (R148). -/
def bstSectors (s : State) : Nat := (32 * s.mc.prof.luns * s.mc.prof.blocks * 8 + 4095) / 4096

/-- Write the block-set table (R148). -/
def bstWrite (s : State) : State :=
  let s := (sysWrite 65 (bstSectors s) s).2
  { s with mc := { s.mc with bst := s.mc.sets } }

/-- Write the remap tables of the GDDR6 devices, a sector each (R88; notes/assumptions/103.md). -/
def remapWrite (s : State) : State :=
  let s := (sysWrite 66 32 s).2
  { s with mc := { s.mc with remapMedia := s.ft.remap } }

/-- Write the journal sector in progress. -/
def journalWrite (s : State) : State :=
  if s.mc.jPend.isEmpty then s
  else
    let s := (sysWrite 64 1 s).2
    { s with mc := { s.mc with journal := s.mc.jPend.reverse ++ s.mc.journal, jPend := [] } }

/-- Append a record; the sector is written when it is full. -/
def journalAdd (billet kind val : Nat) (s : State) : State :=
  let (q, s) := takeSeq s
  let s := { s with mc := { s.mc with jPend := s.mc.jPend ++ [⟨q, billet, kind, val⟩] } }
  if s.mc.jPend.length ≥ 256 then journalWrite s else s

/-- The map entry of a billet as the media keeps it: front residence is not durable (R99). -/
def mediaEnt (s : State) : MapEnt → MapEnt
  | .res f => entOf (s.frame f)
  | e => e

/-- The image a chunk copies (R132). -/
def chunkEnts (s : State) (m : Nat) : Tab MapEnt :=
  (s.te.map.filter (fun kv => kv.1 / 2 ^ 24 == m)).filterMap (fun kv =>
    match mediaEnt s kv.2 with
    | .unmapped => none
    | e => some (kv.1, e))

def chunkGens (s : State) (m : Nat) : Tab Nat :=
  (s.te.segs.filter (fun kv => kv.1 / 2 ^ 19 == m && kv.2.gen != 0)).map (fun kv => (kv.1, kv.2.gen))

/-- Drop the journal records that every chunk has overtaken. -/
def journalTrim (s : State) : State :=
  let low := (List.range 64).foldl (fun n m => min n (s.mc.chunks.get {} m).seq) (s.mc.chunks.get {} 0).seq
  { s with mc := { s.mc with journal := s.mc.journal.filter (fun r => decide (low ≤ r.seq)) } }

/-- Sectors of a chunk (R132). -/
def chunkSectors : Nat := 16896

/-- Write chunk `m`: it copies the map and the directory when it takes its `SEQ`; a billet of it that is counted gets a
dirtied record (R132, R174). -/
def chunkWrite (m : Nat) (s : State) : State :=
  let (q, s) := sysWrite m chunkSectors s
  let c : Chunk := { seq := q, ents := chunkEnts s m, gens := chunkGens s m }
  let s := { s with mc := { s.mc with chunks := s.mc.chunks.set {} m c } }
  let s := s.te.frames.foldl (fun s kv =>
    if kv.2.counted && kv.2.billet / 2 ^ 24 == m then journalAdd kv.2.billet 3 0x7FFFFFFF s else s) s
  journalTrim s

/-- `GEN` of a billet's segment, as a record of kind unmapped or poisoned carries it (R132). -/
def billetGen (s : State) (b : Nat) : Nat := (s.seg (b / 32)).gen

/-- The billet takes the poisoned-billet marker: map entry, record, index (R30, R238). -/
def setPoisoned (b : Nat) (s : State) : State :=
  let s := { s with te := { s.te with map := s.te.map.set .unmapped b .poisoned } }
  poisonAdd (b * 65536) true (journalAdd b 2 (billetGen s b) s)

/-! ## Current copies (R138, R148) -/

/-- The tier map entry, or the frame's `MEDIA_LOC`, still names the slot. -/
def isCurrent (s : State) (loc : Nat) : Bool :=
  match s.mc.slots.get none loc with
  | none => false
  | some m => match s.te.map.get .unmapped m.billet with
    | .media l => l == loc
    | .res f => (s.frame f).mediaLoc == some loc
    | _ => false

/-- The current slots of a set, lowest page first. -/
def currentSlots (s : State) (k : Nat) : List Nat :=
  ((s.mc.slots.filter (fun kv => locSet s kv.1 == k)).map (·.1)).filter (isCurrent s)

def validCount (s : State) (k : Nat) : Nat := (currentSlots s k).length

/-! ## Opening rows (R125, R133, R149) -/

/-- The lowest key at or above `k`, among `n`, that the table does not list and the ledger does not hold. -/
def firstUnlisted (s : State) : Nat → Nat → Option Nat
  | 0, _ => none
  | n + 1, k => if s.mc.sets.any (fun kv => kv.1 == k) || isLedgerSet s k then firstUnlisted s n (k + 1) else some k

/-- The better of two erased sets by a key; the first is kept on ties. -/
def better (f : BlkSet → Nat) (a : Option (Nat × BlkSet)) (kv : Nat × BlkSet) : Option (Nat × BlkSet) :=
  match a with
  | none => some kv
  | some x => if f kv.2 < f x.2 then some kv else some x

/-- The erased set of a LUN's region that allocation takes: in the SLC region the one erased longest, in the main region
the one of lowest count; ties to the lowest index (R149). A set that the table does not list ranks 0 in both. -/
def pickErased (s : State) (u : Nat) (slc : Bool) : Option Nat :=
  let lo := u * 4096 + (if slc then 0 else slcBlocks s)
  let n := if slc then slcBlocks s else s.mc.prof.blocks - slcBlocks s
  let rank (x : BlkSet) : Nat := if slc then x.order else x.erase
  let es := s.mc.sets.filter (fun kv => setLun kv.1 == u && inSlc s kv.1 == slc && kv.2.st == 0 && !kv.2.eraseOwed
    && !isLedgerSet s kv.1)
  match firstUnlisted s n lo, es.foldl (better rank) none with
  | some k, some x => if rank x.2 = 0 ∧ x.1 < k then some x.1 else some k
  | some k, none => some k
  | none, some x => some x.1
  | none, none => none

/-- Open one set of a LUN for row `r`. -/
def openSet (r u : Nat) (slc : Bool) (s : State) : Option (Nat × State) :=
  (pickErased s u slc).map (fun k =>
    (k, s.modSet k (fun x => { x with st := 1, native := !slc, row := r + 1, ageH := 0, drift := 0 })))

/-- Open a set at each LUN of a list; none unless every one has an erased set. -/
def openSets (r : Nat) (slc : Bool) : List Nat → State → Option (List Nat × State)
  | [], s => some ([], s)
  | u :: us, s => match openSet r u slc s with
    | none => none
    | some (k, s) => (openSets r slc us s).map (fun ks => (k :: ks.1, ks.2))

/-- The data of a destage row lies in SLC sets, but in the main region on SLC dies (R126, R139). -/
def destageSlc (s : State) : Bool := s.mc.prof.cell != 0

/-- Parity sets of a row with its data in the SLC or the main region (R125). -/
def parityCount (s : State) (slc : Bool) : Nat :=
  if slc then 1 else (s.mc.prof.pn + s.mc.prof.ps - 1) / s.mc.prof.ps

/-- The parity position of the r-th row: the first active one at or after r mod 16 (R125, R153). -/
def parityPos (act : List Nat) (r : Nat) : Nat :=
  match act.find? (fun i => decide (r % 16 ≤ i)) with
  | some i => i
  | none => act.headD 0

def cordUnlevelled (s : State) (c : Nat) : Bool := (List.range 16).any (fun i => (s.lun (cordLun c i)).unlevelled)

/-- Every active position of a cord has an erased native set (R149). -/
def cordErased (s : State) (c : Nat) : Bool := (cordActive s c).all (fun i => (pickErased s (cordLun c i) false).isSome)

/-- Open a row in a cord, its data in the SLC or the main region. -/
def openRow (c : Nat) (fold slc : Bool) (s : State) : Option (Nat × State) :=
  let act := cordActive s c
  if act.length < 2 || cordUnlevelled s c || (fold && !cordErased s c) then none
  else
    let n := s.mc.cordRows.get 0 c
    let p := parityPos act n
    let r := s.mc.rowCnt
    match openSets r slc ((act.filter (· != p)).map (cordLun c)) s with
    | none => none
    | some (ds, s) => match openSets r true (List.replicate (parityCount s slc) (cordLun c p)) s with
      | none => none
      | some (ps, s) =>
        let row : Row := { cord := c, fold := fold, sets := ds, parity := ps, next := 0, closed := false, parityHeld := true }
        some (r, { s with mc := { s.mc with rows := s.mc.rows.set none r (some row), rowCnt := r + 1,
                                            cordRows := s.mc.cordRows.set 0 c (n + 1),
                                            lastCord := if fold then s.mc.lastCord else c } })

/-- The slots a row's data sets hold together. -/
def rowSlots (s : State) (r : Row) : Nat :=
  match r.sets with
  | [] => 0
  | k :: _ => r.sets.length * slotsOf s k

/-- Close a row whose last slot is taken: its sets are closed, unverified (R135, R148). -/
def closeRow (rn : Nat) (s : State) : State :=
  match s.row rn with
  | none => s
  | some r =>
    let s := (r.sets ++ r.parity).foldl (fun s k =>
      s.modSet k (fun x => { x with st := 2, order := s.mc.orderCnt })) s
    let s := s.modRow rn (fun r => { r with closed := true })
    { s with mc := { s.mc with orderCnt := s.mc.orderCnt + 1,
                               openRow := s.mc.openRow.filter (fun kv => kv.2 != rn + 1),
                               foldRow := if s.mc.foldRow = rn + 1 then 0 else s.mc.foldRow } }

/-- Slots 0x3FFFFE and 0x3FFFFF of a LUN hold filler (R124). -/
def fillerLoc (l : Nat) : Bool := decide (0x3FFFFE ≤ l % 2 ^ 22)

/-- The location at a place of a row: stripe by stripe over its data sets (R125, R133). -/
def rowLoc (s : State) (r : Row) (p : Nat) : Option Nat :=
  (r.sets[p % r.sets.length]?).map (fun k => locOf s k (p / r.sets.length))

/-- The next place of a row that takes a billet. -/
def pastFiller (s : State) (r : Row) : Nat → Nat → Nat
  | 0, p => p
  | n + 1, p => if p < rowSlots s r ∧ (rowLoc s r p).any fillerLoc then pastFiller s r n (p + 1) else p

/-- Take the next slot of a row; pages of filler that follow are programmed with it, each sector with a `SEQ` (R124, R129). -/
def takeSlot (rn : Nat) (s : State) : Option (Nat × State) :=
  match s.row rn with
  | none => none
  | some r =>
    let p := pastFiller s r 32 (r.next + 1)
    (rowLoc s r r.next).map (fun loc =>
      let s' := (takeSeqs (16 * (p - (r.next + 1))) s).2.modRow rn (fun r => { r with next := p })
      (loc, if p < rowSlots s r then s' else closeRow rn s'))

/-! ## Parity (R125, R134) -/

/-- A line's contribution to a stripe's XOR. -/
def parityLine : LineVal → Line
  | .data v => v
  | .poison => 0

/-- The data slots of a stripe. -/
def stripeLocs (s : State) (r : Row) (i : Nat) : List Nat := r.sets.map (fun k => locOf s k i)

/-- The XOR of a stripe's data slots, line by line; a slot not written counts as zero. -/
def stripeXor (s : State) (r : Row) (i : Nat) : Tab Line :=
  (stripeLocs s r i).foldl (fun t loc =>
    (s.mc.mlines.filter (fun kv => kv.1 / 1024 == loc)).foldl (fun (t : Tab Line) kv =>
      t.upd 0 (kv.1 % 1024) (fun v => v ^^^ parityLine kv.2)) t) []

/-- The parity slot of stripe `i` of a row. -/
def parityLoc (s : State) (r : Row) (i : Nat) : Nat :=
  locOf s (r.parity.getD (i / s.mc.prof.ps) 0) (i % s.mc.prof.ps)

def slotProgrammed (s : State) (loc : Nat) : Bool := (s.mc.slots.get none loc).isSome || fillerLoc loc
def slotInFlight (s : State) (loc : Nat) : Bool := s.mc.destages.any (fun d => d.loc == loc)

/-- A stripe whose parity is due: every data slot programmed, or, where no more will be, every one that was begun. -/
def stripeDue (s : State) (r : Row) (last : Bool) (i : Nat) : Bool :=
  let ls := stripeLocs s r i
  ls.all (fun l => slotProgrammed s l || (last && !slotInFlight s l)) && ls.any (slotProgrammed s)
    && (s.mc.parSlots.find? (fun kv => kv.1 == parityLoc s r i)).isNone

/-- Write the parity slot of stripe `i` of a row. -/
def parityWrite (rn : Nat) (r : Row) (i : Nat) (s : State) : State :=
  let (q, s) := takeSeqs 16 s
  { s with mc := { s.mc with parSlots := s.mc.parSlots.insert (parityLoc s r i) ⟨rn % 2 ^ 30, q, stripeXor s r i⟩ } }

/-- The parity of the stripe a slot lies in, once it is due. -/
def parityAfter (loc : Nat) (s : State) : State :=
  let n := (s.setRec (locSet s loc)).row
  match s.row (n - 1) with
  | some r => if n != 0 && r.parityHeld && stripeDue s r r.closed (locPage s loc) then parityWrite (n - 1) r (locPage s loc) s else s
  | none => s

/-- The parity of every stripe of a row that is begun and not whole (R134). -/
def parityRest (rn : Nat) (s : State) : State :=
  match s.row rn with
  | some r =>
    if !r.parityHeld then s
    else (List.range ((r.next + r.sets.length - 1) / max 1 r.sets.length)).foldl (fun s i =>
      if stripeDue s r true i then parityWrite rn r i s else s) s
  | none => s

/-- The partial stripes of every row, at ember and at seal (R134). -/
def parityAll (s : State) : State := s.mc.rows.foldl (fun s kv => parityRest kv.1 s) s

/-- Destage may take a slot: the SLC fill is below 100 % (R137). -/
def destageAccepted (s : State) : Bool :=
  s.mc.formatted && (!destageSlc s || decide (s.mctl.slcLevel < 4) && decide (slcData s < slcSpace s))

/-- Where the open destage row of a cord is kept: on SLC dies an ember flush has rows of its own, in the SLC region (R139). -/
def rowPlace (s : State) (ember : Bool) (c : Nat) : Nat := if ember && !destageSlc s then c + 64 else c

/-- The next slot for a destage: cords in rotation, each with its open row or a new one (R133, R149). An ember flush writes the
ember reserve of the SLC region (R126, R139). -/
def destageSlot (ember : Bool) : Nat → Nat → State → Option (Nat × State)
  | 0, _, _ => none
  | n + 1, c, s =>
    if !ember && !destageAccepted s then none
    else
      let c := c % max 1 (cordCount s)
      let open' := s.mc.openRow.get 0 (rowPlace s ember c)
      let opened : Option (Nat × State) :=
        if open' ≠ 0 then some (open' - 1, s)
        else (openRow c false (ember || destageSlc s) s).map (fun x =>
          (x.1, { x.2 with mc := { x.2.mc with openRow := x.2.mc.openRow.set 0 (rowPlace s ember c) (x.1 + 1) } }))
      match opened with
      | some (rn, t) => (takeSlot rn t).map (fun x => (x.1, { x.2 with mc := { x.2.mc with rotCord := c + 1 } }))
      | none => destageSlot ember n (c + 1) s

def destageSlotNext (ember : Bool) (s : State) : Option (Nat × State) :=
  destageSlot ember (cordCount s) s.mc.rotCord s

/-- A node of the wear tree: the erase counts of a cord's good block sets, as sum and number (R149). -/
def cordWear (s : State) (c : Nat) : Nat × Nat :=
  let n := (cordActive s c).length * s.mc.prof.blocks
  (s.mc.sets.foldl (fun (a : Nat × Nat) kv =>
    if lunCord (setLun kv.1) == c && lunGood s (setLun kv.1) then
      (if setAsh kv.2 then (a.1, a.2 - 1) else (a.1 + kv.2.erase, a.2))
    else a) (0, n))

/-- The fold row, or a new one in the cord of lowest mean that can open one (R149). -/
def foldRowNow (s : State) : Option (Nat × State) :=
  if s.mc.foldRow ≠ 0 then some (s.mc.foldRow - 1, s)
  else
    let best := (List.range (cordCount s)).foldl (fun (a : Option (Nat × Nat × (Nat × State))) c =>
      match openRow c true false s with
      | none => a
      | some x =>
        let w := cordWear s c
        match a with
        | none => some (w.1, w.2, x)
        | some b => if w.1 * b.2.1 < b.1 * w.2 then some (w.1, w.2, x) else a) none
    best.map (fun b => (b.2.2.1, { b.2.2.2 with mc := { b.2.2.2.mc with foldRow := b.2.2.1 + 1 } }))

/-! ## Copies that move (R138) -/

/-- Copy a slot's 1,024 lines. -/
def copyLines (src dst : Nat) (t : Tab LineVal) : Tab LineVal := Tab.copy zeroLine t (src * 1024) (dst * 1024) 1024

/-- Switch a location by compare-and-set, with its journal record (R138). -/
def casLoc (b old new : Nat) (s : State) : State :=
  match s.te.map.get .unmapped b with
  | .media l => if l = old then
      journalAdd b 0 new { s with te := { s.te with map := s.te.map.set .unmapped b (.media new) } }
    else s
  | .res f => if (s.frame f).mediaLoc = some old then
      journalAdd b 0 new (s.modFrame f (fun x => { x with mediaLoc := some new }))
    else s
  | _ => s

/-- The media generation in force: the greater of the two held with a salt (R347, R355). -/
def mediaGen (s : State) : Nat := max (s.pageNat 0 36 4) (s.pageNat 1 32 4)

/-- `MODE` of a set: native mode is that of the population (R128). -/
def setMode (s : State) (k : Nat) : Nat := if (s.setRec k).native then s.mc.prof.cell else 0

/-- A slot's record as it lies in a set: the header's `ERASE_CNT` and `MODE` are the set's (R128). -/
def slotIn (s : State) (loc : Nat) (m : MSlot) : MSlot :=
  { m with erase := (s.setRec (locSet s loc)).erase, mode := setMode s (locSet s loc) }

/-- Copy a current slot into the fold row and switch to it; `flag` is bit 1 for the kiln, bit 2 for the others. The copy keeps the
`SEQ` (R129). -/
def moveSlot (loc flag : Nat) (s : State) : State :=
  match s.mc.slots.get none loc, foldRowNow s with
  | some m, some (rn, t) => match takeSlot rn t with
    | some (dst, t) =>
      casLoc m.billet loc dst (parityAfter dst { t with mc := { t.mc with
        slots := t.mc.slots.set none dst (some (slotIn t dst { m with flags := flag, keyGen := mediaGen s })),
        mlines := copyLines loc dst t.mc.mlines } })
    | none => s
  | _, _ => s

/-- Move every current slot of a set elsewhere. -/
def moveAll (k flag : Nat) (s : State) : State := (currentSlots s k).foldl (fun s l => moveSlot l flag s) s

/-! ## Erase and ash (R136, R152) -/

/-- A set goes to ash: factory ash does not count (R152). -/
def ashSet (k : Nat) (s : State) : State :=
  if setAsh (s.setRec k) then s
  else
    { s.modSet k (fun x => { x with st := 4, eraseOwed := false }) with
      mctl := { s.mctl with ashSets := satAdd (2 ^ 21 - 1) s.mctl.ashSets 1 } }

/-- A read that obtained one of the set's locations is in flight (R138). -/
def readInFlight (s : State) (k : Nat) : Bool :=
  s.mc.reads.any (fun r => locSet s r.loc == k)
    || s.te.frames.any (fun kv => kv.2.st == .filling && kv.2.src == .media && (match kv.2.mediaLoc with
      | some l => locSet s l == k
      | none => false))

/-- A set may be erased: closed, no current slot, no read in flight, no parity of an unverified row (R135, R138). -/
def erasable (s : State) (k : Nat) : Bool :=
  let x := s.setRec k
  (x.st == 2 || x.st == 3 || x.eraseOwed) && !x.ashOwed && (validCount s k == 0) && !readInFlight s k
    && !s.mc.rows.any (fun kv => match kv.2 with
      | some r => r.parity.contains k && r.parityHeld
      | none => false)

/-- The programmed slots of a set are gone. -/
def eraseSlots (k : Nat) (s : State) : State :=
  let lo := locOf s k 0
  { s with mc := { s.mc with
      slots := Tab.clear s.mc.slots lo (lo + s.mc.prof.pn),
      mlines := Tab.clear s.mc.mlines (lo * 1024) ((lo + s.mc.prof.pn) * 1024),
      parSlots := Tab.clear s.mc.parSlots lo (lo + s.mc.prof.pn),
      rows := s.mc.rows.filterMap (fun kv => match kv.2 with
        | some r =>
          let r' : Row := { r with parity := r.parity.erase k }
          if !r'.parityHeld && r'.parity.isEmpty && r.sets.all (fun d => d == k || (s.setRec d).row != kv.1 + 1)
          then none else some (kv.1, some r')
        | none => none) } }

/-! ## LUNs in ash (R153, R169, R170) -/

/-- The ember flush rate in units of 100 MB/s (R169): 3.125 GB/s a channel at 3600 MT/s with 8 LUNs. -/
def speedMts (c : Nat) : Nat := if c = 0 then 2400 else if c = 1 then 2800 else if c = 2 then 3200 else 3600
def flushRateOf (s : State) : Nat :=
  ((List.range 32).foldl (fun n c =>
    n + min 8 ((List.range 16).filter (fun l => lunGood s (c * 16 + l))).length) 0)
    * 3125 * speedMts s.mc.prof.speed / (8 * 3600 * 100)

/-- R_f in bytes a second (R169). -/
def flushRateBytes (s : State) : Nat :=
  ((List.range 32).foldl (fun n c =>
    n + min 8 ((List.range 16).filter (fun l => lunGood s (c * 16 + l))).length) 0)
    * 3125000000 * speedMts s.mc.prof.speed / (8 * 3600)

/-- E(C) ≤ `HOLDUP_MJ` (R170), in whole numbers: energies in nJ × R_f. -/
def energyFits (rf mj mw c : Nat) : Bool :=
  -- t_f = (C GiB + 320 MiB) / R_f; E = 215 W t_q + 95 W (t_f + t_s) + P_mem (t_q + t_f + t_s), all times R_f, in µJ
  let d := c * 1073741824 + 335544320
  decide (rf > 0) &&
    decide (215 * 2000 * rf + 95 * (d * 1000000 + 6000 * rf)
      + (mw * (8000 * rf + d * 1000000)) / 1000 ≤ mj * 1000 * rf)

/-- The supported ceiling of R170. -/
def ceilSupportedOf (rf mj mw : Nat) : Nat :=
  if mj = 0 then 8
  else (List.range 16).foldl (fun n i => if energyFits rf mj mw (i + 1) then i + 1 else n) 0

/-- Recompute R_f and the supported ceiling; a ceiling above it is lowered at once, with a record (R169, R170). -/
def emberBudget (s : State) : State :=
  let rf := flushRateBytes s
  let c := ceilSupportedOf rf (s.pageNat 35 8 4) (s.pageNat 35 12 4)
  let s := { s with eu := { s.eu with flushRate := flushRateOf s, ceilSupported := c } }
  let top := max 1 c
  if s.ft.ceilGib > top then
    ledger 0x141F 0 [s.ft.ceilGib, top] { s with ft := { s.ft with ceilGib := top } }
  else s

/-! ## Retirement of a LUN (R153) -/

/-- Rows open on a LUN are closed with filler (R151, R153). -/
def closeRowsOn (u : Nat) (s : State) : State :=
  s.mc.rows.foldl (fun s kv => match kv.2 with
    | some r => if !r.closed && (r.sets ++ r.parity).any (fun k => setLun k == u) then parityRest kv.1 (closeRow kv.1 s) else s
    | none => s) s

/-- The current slots on a LUN with their billets, lowest billet first. -/
def currentOn (s : State) (u : Nat) : List (Nat × Nat) :=
  (s.mc.slots.filterMap (fun kv => match kv.2 with
    | some m => if kv.1 / 2 ^ 22 == u && isCurrent s kv.1 then some (m.billet, kv.1) else none
    | none => none)).foldl (fun t x => Tab.insert t x.1 x.2) []

/-- A billet whose copy finds no room: a dirty frame loses only its old copy, any other billet takes the poisoned-billet
marker and is reported. -/
def lostCopy (b loc : Nat) (s : State) : State :=
  if !isCurrent s loc then s
  else
    let mark (s : State) : State := cxlLog 2 0 0x1003 (b * 65536) (.dpa (b * 65536))
      (raise 0x1003 0xFFFF b .nothing (setPoisoned b s))
    match s.te.map.get .unmapped b with
    | .res f => if (s.frame f).counted then s.modFrame f (fun x => { x with mediaLoc := none }) else mark (dropFrame f s)
    | _ => mark s

/-- Mark a unit of a media copy with the poison marker; its lines enter the index while the billet is served from the media or
waits for them in a frame (R104). -/
def poisonUnit (loc u : Nat) (s : State) : State :=
  let b := match s.mc.slots.get none loc with
    | some m => m.billet
    | none => 0
  let newer (l : Nat) : Bool := match s.te.map.get .unmapped b with
    | .res f => lineHeld s f l
    | .media m => m != loc
    | _ => true
  (List.range 64).foldl (fun s i =>
    let s := { s with mc := { s.mc with mlines := s.mc.mlines.set zeroLine (loc * 1024 + u * 64 + i) .poison } }
    if newer (u * 64 + i) then s else poisonAdd (lineDpa b (u * 64 + i)) false s)
    { s with mc := { s.mc with slots := s.mc.slots.upd none loc (fun o => o.map (fun m =>
      { m with units := m.units ||| ((1#16) <<< u), marks := m.marks ||| ((1#16) <<< u) })) } }

/-- Step 7 of R144: the unit is poisoned, reported with its billet, and counted. -/
def unitLost (b loc u : Nat) (s : State) : State :=
  let dpa := lineDpa b (u * 64)
  let s := { s with mctl := { s.mctl with recPoison := inc32 s.mctl.recPoison } }
  poisonUnit loc u (cxlLog 2 0 0x1003 dpa (.dpa dpa) (raise 0x1003 0xFFFF (b + u * 2 ^ 32) .nothing s))

/-- Units of a LUN's current slots that no step to 6 of R144 yields: an entry is location × 16 + unit. -/
def lunLost (u : Nat) (lost : List Nat) (s : State) : State :=
  lost.foldl (fun s e =>
    match s.mc.slots.get none (e / 16) with
    | some m => if e / 16 / 2 ^ 22 == u && isCurrent s (e / 16) then unitLost m.billet (e / 16) (e % 16) s else s
    | none => s) s

/-- A LUN goes to ash: its current slots are moved, what cannot be read or finds no room is poisoned, the flush rate and the
supported ceiling follow (R153, R169). -/
def lunRetire (u : Nat) (lost : List Nat) (s : State) : State :=
  if !lunGood s u then s
  else
    let s := lunLost u lost s
    let cs := currentOn s u
    let s := closeRowsOn u (s.modLun u (fun x => { x with ash := true, unlevelled := false }))
    let s := cs.foldl (fun s c => moveSlot c.2 4 s) s
    let s := cs.reverse.foldl (fun s c => lostCopy c.1 c.2 s) s
    let s := ledger 0x1006 (srcLun u) [u] (raise 0x1006 u u .nothing s)
    mediaLevels (emberBudget s)

/-- More than 25 % of a LUN's sets are ash: the LUN goes to ash. -/
def lunAshCheck (u : Nat) (s : State) : State :=
  if s.mc.prof.blocks < 4 * (s.mc.sets.filter (fun kv => setLun kv.1 == u && kv.2.st == 4)).length then lunRetire u [] s else s

/-- A set goes to ash once its current slots are moved (R152); what finds no room now is moved later. -/
def toAsh (k : Nat) (s : State) : State :=
  let t := moveAll k 4 s
  if validCount t k = 0 then lunAshCheck (setLun k) (ashSet k (t.modSet k (fun x => { x with ashOwed := false })))
  else t.modSet k (fun x => { x with ashOwed := true })

/-! ## Suspension (R146) -/

/-- A read for a host, for a stream's lookahead or for the twin suspends the program or erase in progress on its die; one suspended
more than 64 or 256 times is counted once, and still completes. -/
def suspends (loc : Nat) (x : Susp) (s : State) : State :=
  let u := loc / 2 ^ 22
  match x with
  | .none => s
  | .program => (match s.mc.destages.find? (fun d => d.loc / 2 ^ 22 == u) with
    | some d =>
      let s := { s with mc := { s.mc with destages := s.mc.destages.map (fun y => if y = d then { d with susp := d.susp + 1 } else y) } }
      let s := count 0x1022 u 0 1 s
      if d.susp = 64 then count 0x1023 u 0 1 s else s
    | none => s)
  | .erase k =>
    if setLun k == u && erasable s k && !isLedgerSet s k then
      let n := (s.setRec k).susp
      let s := count 0x1022 u 0 1 (s.modSet k (fun x => { x with susp := n + 1 }))
      if n = 256 then count 0x1024 u 0 1 s else s
    else s

/-! ## Layouts on the media (R124, R128, R132, R148) -/

/-- The header of sector `u` of a data slot, the MAC apart (R128). -/
def sectorHeader (m : MSlot) (u : Nat) : List Byte :=
  leBytes 4 (m.billet % 2 ^ 30) ++ leBytes 1 u ++ leBytes 1 1 ++ leBytes 1 m.keyGen
    ++ leBytes 1 (m.flags + 8 * b2n (m.marks.getLsbD u)) ++ leBytes 8 m.seq ++ leBytes 3 m.erase ++ leBytes 1 m.mode ++ leBytes 4 m.gen

/-- The header of sector `u` of a parity slot, in a set of the count `erase` (R128). -/
def parityHeader (p : ParSlot) (keyGen erase u : Nat) : List Byte :=
  leBytes 4 (p.row % 2 ^ 30) ++ leBytes 1 u ++ leBytes 1 7 ++ leBytes 1 keyGen ++ leBytes 1 0 ++ leBytes 8 (p.seq + u)
    ++ leBytes 3 erase ++ leBytes 1 0 ++ leBytes 4 0

/-- A media billet location from its channel, LUN and slot (R124). -/
def locWord (chan lun slot : Nat) : Nat := chan * 2 ^ 26 + lun * 2 ^ 22 + slot

/-- A journal record (R132). -/
def journalBytes (r : JRec) : List Byte := leBytes 8 r.seq ++ leBytes 8 (r.billet % 2 ^ 30 + r.val % 2 ^ 31 * 2 ^ 30 + r.kind * 2 ^ 61)

/-- A checkpoint entry (R132). -/
def chunkWord : MapEnt → Nat
  | .unmapped => 0xFFFFFFFF
  | .poisoned => poisonedLoc
  | .media l => l
  | .res _ => 0xFFFFFFFF

/-- A block-set record (R148). -/
def setWord (s : State) (k : Nat) : Nat :=
  let x := s.setRec k
  x.erase * 2 ^ 40 + x.st * 2 ^ 37 + setMode s k * 2 ^ 35 + x.drift * 2 ^ 31 + validCount s k * 2 ^ 20 + x.ageH

end Sys2Proof.Machine
end

