-- ==== Sys2Proof/Machine/TierOps.lean ====
section
/-! DEFINITION. The course of one access to a line: the order of its source (R71), the pause (R412), the port's lookaside
(R105-R109), the frame (R102-R104, R111), admission (R92, R118), the budget (R155), the line itself (R81-R84), its place in
a pair (R201-R207), and its answer. An access that must wait stays in `te.waits`, in order of arrival. -/

namespace Sys2Proof.Machine

open Sys2Proof

/-! ## Small facts of an access -/

def Acc.line (a : Acc) : Nat := a.dpa / 64
def Acc.billet (a : Acc) : Nat := a.dpa / 65536
def Acc.seg (a : Acc) : Nat := a.dpa / 2 ^ 21
def Acc.lineIn (a : Acc) : Nat := a.dpa / 64 % 1024
def Acc.isBarWr (a : Acc) : Bool :=
  match a.kind with
  | .barWr _ => true
  | _ => false
def Acc.isBar (a : Acc) : Bool :=
  match a.kind with
  | .barWr _ | .barRd _ _ => true
  | _ => false
def Acc.relaxed (a : Acc) : Bool :=
  match a.kind with
  | .barWr r => r
  | _ => false

/-- An access that came through a host-role port. -/
def Acc.host (a : Acc) : Bool :=
  match a.kind with
  | .cxlRd | .cxlWr | .barRd _ _ | .barWr _ => true
  | _ => false

/-- A write that has its place in the home order. -/
def Wait.ordered (w : Wait) : Bool :=
  match w.why with
  | .ack _ => true
  | _ => false
def Wait.forwarded (w : Wait) : Bool :=
  match w.why with
  | .fwd _ => true
  | _ => false

/-- What the turf of a DPA asks: identifier, reserve, cap, type. Unassigned DPA, which cores alone reach, asks nothing. -/
structure TInfo where
  id : Nat := 256
  reserve : Nat := 0
  cap : Nat := 0
  device : Bool := false

def tinfo (s : State) (dpa : Nat) : TInfo :=
  match turfAt s dpa with
  | some (i, t) => ⟨i, t.reserve, t.cap, t.device⟩
  | none => { cap := s.te.pool }

/-! ## Ports' lookaside (R105-R109) -/

def State.look (s : State) (p : Nat) : Look := s.te.look.get {} p
def State.modLook (s : State) (p : Nat) (f : Look → Look) : State :=
  { s with te := { s.te with look := s.te.look.upd {} p f } }

/-- The age tick after 4,096 lookups (R106). -/
def laTick (l : Look) : Look :=
  if l.lookups + 1 < 4096 then { l with lookups := l.lookups + 1 }
  else { l with lookups := 0, ents := l.ents.map (fun o => o.map (fun e =>
    { e with age := if e.ref then e.age else min 3 (e.age + 1), ref := false })) }

/-- Where the replaced entry lies: an invalid one first, else reference bit 0 and greatest age, lowest index (R106). -/
def laVictim (l : Look) : Look × Nat :=
  if l.ents.length < 48 then (l, l.ents.length)
  else match l.ents.findIdx? (·.isNone) with
    | some i => (l, i)
    | none =>
      let all := l.ents.all (fun o => match o with
        | some e => e.ref
        | none => false)
      let l := if all then { l with ents := l.ents.map (fun o => o.map (fun e =>
        { e with ref := false, age := min 3 (e.age + 1) })) } else l
      let best := l.ents.zipIdx.foldl (fun (a : Option (Nat × Nat)) x => match x.1 with
        | some e => if e.ref then a else (match a with
          | none => some (e.age, x.2)
          | some b => if b.1 < e.age then some (e.age, x.2) else a)
        | none => a) none
      (l, (best.map (·.2)).getD 0)

/-- Put an entry in; the one it replaces goes to the victim cache unless a streaming fill brought it and nothing hit it
(R108). -/
def laInsert (e : LaEnt) (l : Look) : Look :=
  let (l, i) := laVictim l
  let old := (l.ents[i]?).getD none
  let vs := match old with
    | some o => if o.streaming && !o.hit then l.victims else l.victims ++ [o.seg]
    | none => l.victims
  let vs := if vs.length > 8 then vs.drop 1 else vs
  { l with ents := if i < l.ents.length then l.ents.set i (some e) else l.ents ++ [some e], victims := vs }

/-- A lookup's outcome. -/
inductive LaRes where
  | hit | pending | blocked
  deriving DecidableEq, Repr

def laHas (l : Look) (g : Nat) : Bool := l.ents.any (fun o => match o with
  | some e => e.seg == g
  | none => false)

/-- Look a segment up for a source (R106-R109); `tick` when the lookup is new. A tick of R106 follows the lookup's own hit. -/
def laLookup (tick : Bool) (p g src : Nat) (s : State) : LaRes × State :=
  let l := s.look p
  let done (l : Look) : Look := if tick then laTick l else l
  if laHas l g then
    let l := { l with ents := l.ents.map (fun o => o.map (fun e =>
      if e.seg = g then { e with ref := true, age := 0, hit := true } else e)) }
    (.hit, count 0x0C20 p 0 1 (s.modLook p (fun _ => done l)))
  else if l.victims.contains g then
    let l := laInsert ⟨g, true, 0, false, true⟩ { l with victims := l.victims.erase g }
    (.hit, count 0x0C22 p 0 1 (s.modLook p (fun _ => done l)))
  else match l.miss with
    | some (m, _) => if m = g then (.pending, s.modLook p (fun _ => done l)) else (.blocked, s)
    | none =>
      let streaming := l.streamDet && l.recent.any (fun r => r.1 == src && r.2 + 1 == g)
      let recent := ((src, g) :: l.recent.filter (fun r => r.1 != src)).take 16
      let s := count 0x0C21 p 0 1 (s.modLook p (fun _ => { done l with miss := some (g, streaming), recent := recent }))
      (.pending, if streaming then count 0x0C23 p 0 1 s else s)

/-! ## Frames (R102, R103, R111) -/

/-- `PINS` of the frame that holds a billet: the stream channels that pin it (R101). -/
def pins (s : State) (b : Nat) : Nat := (s.su.chans.filter (fun kv => kv.2.pinned.contains b)).length

def pinned (s : State) (b : Nat) : Bool := decide (0 < pins s b)

/-- The sum of the reserves not met (R111). -/
def shortfall (s : State) : Nat :=
  s.te.turfs.foldl (fun n kv => match kv.2 with
    | some t => n + (t.reserve - held s kv.1)
    | none => n) 0

def turfReserve (s : State) (t : Nat) : Nat :=
  match s.turf t with
  | some x => x.reserve
  | none => 0

/-- A raw operation is in progress on the frame (R94). -/
def rawOn (s : State) (f : Nat) : Bool :=
  s.ft.rawBusy && s.ft.rawDev == frameDev f && s.ft.rawLine / 1024 == f / 32

def freeFrameAt (s : State) : Nat → Nat → Option Nat
  | 0, _ => none
  | n + 1, f => if frState s f == .free && !rawOn s f then some f else freeFrameAt s n (f + 1)

/-- The lowest free frame: every frame below the first whole round past the tables holds a table page. -/
def freeFrame (s : State) : Option Nat :=
  let act := ((List.range 32).filter (fun d => !s.te.kindRet.getLsbD d)).length
  let lo := tableCount s.ft.density / max 1 act * 32
  match s.te.tindex with
  | [] => freeFrameAt s (numFrames s - lo) lo
  | _ => freeFrameAt s (numFrames s) 0

/-- An eligible frame (R111). -/
def eligible (s : State) (f : Nat) (x : Frame) : Bool :=
  x.st == .clean && !pinned s x.billet && devActive s (frameDev f)

/-- The older of two frames: by age, or before the first sweep by the order of leaving FILLING (R111, R117). -/
def olderThan (s : State) (a b : Frame) : Bool :=
  if s.te.firstDone then decide (b.age < a.age) else decide (a.order < b.order)

/-- The oldest eligible frame that a test admits. -/
def oldest (s : State) (p : Frame → Bool) : Option Nat :=
  (s.te.frames.foldl (fun (a : Option (Nat × Frame)) kv =>
    if eligible s kv.1 kv.2 && p kv.2 then
      (match a with
        | none => some kv
        | some b => if olderThan s kv.2 b.2 then some kv else a)
    else a) none).map (·.1)

/-- What `take_frame` answers (R111). -/
inductive Take where
  | free (f : Nat)
  | evict (f : Nat)
  | none
  deriving DecidableEq, Repr

def takeFrame (t : TInfo) (s : State) : Take :=
  let h := held s t.id
  let above (x : Frame) : Bool := decide (turfReserve s x.turf < held s x.turf)
  let ev (p : Frame → Bool) : Take := match oldest s p with
    | some f => .evict f
    | none => .none
  if h < t.cap && decide (0 < freeCount s) && (decide (h < t.reserve) || decide (shortfall s < freeCount s)) then
    match freeFrame s with
    | some f => .free f
    | none => .none
  else if t.cap ≤ h then ev (fun x => x.turf == t.id)
  else if h < t.reserve then ev above
  else ev (fun x => x.turf == t.id || above x)

/-- Fill slots in use (TE_FILL). -/
def fillBusy (s : State) : Nat := (s.te.frames.filter (fun kv => kv.2.st == .filling)).length

def slotFrom (used : List Nat) : Nat → Nat → Nat
  | 0, k => k
  | n + 1, k => if used.contains k then slotFrom used n (k + 1) else k

def freeSlot (s : State) : Nat :=
  slotFrom ((s.te.frames.filter (fun kv => kv.2.st == .filling)).map (fun kv => kv.2.slot)) 4096 0

/-- The units of a fill from the media: the requested one, then the others in ascending order (R103). -/
def fillUnits (want : Nat) : List Nat := want :: (List.range 16).filter (fun u => u != want)

/-- A FREE frame begins to fill (R102): map entry, slot, empty lines; `want` is the unit the request lies in. -/
def enterFilling (f b tid : Nat) (src : FillSrc) (loc : Option Nat) (want : Nat) (s : State) : State :=
  let fr : Frame := { st := .filling, mediaLoc := loc, turf := tid, src := src, slot := freeSlot s, billet := b, touched := true,
                      todo := if src = .media then fillUnits want else [] }
  let q := frameDev f * 2 ^ 26 + pairLine f 0
  let s := { s with te := { s.te with frames := s.te.frames.set {} f fr, map := s.te.map.set .unmapped b (.res f) },
                    ft := { s.ft with lines := Tab.clear s.ft.lines (f * 1024) (f * 1024 + 1024),
                                      rawSlots := Tab.clear s.ft.rawSlots q (q + 1024) } }
  if src = .media then count 0x1020 0xFFFF 0 1 (count 0x0C26 tid 0 1 s) else s

/-- The frame's billet loses it: the map entry returns to the media location (R102). -/
def evictCommit (f : Nat) (s : State) : State :=
  let fr := s.frame f
  if fr.st != .evicting || pinned s fr.billet then s
  else count 0x0C27 fr.turf 0 1
    (dropFrame f { s with te := { s.te with map := s.te.map.set .unmapped fr.billet (entOf fr) } })

/-- Unmap a billet (R59, R63, R201): its frame is freed and its record written with the segment's `GEN`. -/
def unmapNow (b : Nat) (s : State) : State :=
  let s := match s.te.map.get .unmapped b with
    | .res f => dropFrame f s
    | _ => s
  let s := { s with te := { s.te with map := s.te.map.set .unmapped b .unmapped, unmaps := s.te.unmaps.erase b },
                    px := { s.px with poisonIdx := s.px.poisonIdx.filter (fun e => decide (e.1 / 65536 ≠ b)) } }
  journalAdd b 1 (billetGen s b) s

/-- The frame table entry of a frame whose every line is present (R102, R110). -/
def filledFrame (n : Nat) (x : Frame) : Frame :=
  { x with st := if x.counted then .dirty else .clean, age := 0, touched := true, present := 0, slot := 0, order := n }

/-- A frame with every line present leaves FILLING. -/
def leaveFilling (f : Nat) (s : State) : State :=
  let fr := s.frame f
  if fr.st == .filling && fr.present == BitVec.allOnes 1024 then
    let n := s.te.orderCnt + 1
    let s := s.modFrame f (filledFrame n)
    { s with te := { s.te with orderCnt := n } }
  else s

/-- A line arrives from a fill source: it is written only where it is not already present (R103). -/
def fillLine (f l : Nat) (v : LineVal) (s : State) : State :=
  let fr := s.frame f
  if fr.st == .filling && !fr.present.getLsbD l then
    (putLine f l v s).modFrame f (fun x => { x with present := x.present ||| ((1#1024) <<< l) })
  else s

/-! ## Admission (R92, R118, R177) -/

/-- A write in an admission queue; replicated lines wait for room beside the queues. -/
def Wait.queued (w : Wait) : Bool := w.why == .admission && !w.acc.isReplica

/-- Turfs with a waiting write. -/
def waitTurfs (s : State) : List Nat :=
  ((s.te.waits.filter Wait.queued).map (fun w => (tinfo s w.acc.dpa).id)).eraseDups

/-- The next turf in ascending identifier after the one served last (R118). -/
def nextTurf (s : State) : Option Nat :=
  let ts := waitTurfs s
  let minOf (l : List Nat) : Option Nat := l.foldl (fun a t => match a with
    | none => some t
    | some x => some (min x t)) none
  match minOf (ts.filter (fun t => decide (s.te.lastServed < t))) with
  | some t => some t
  | none => minOf ts

/-- Segments whose writes are mirrored (R205, R217). -/
def mirrored (s : State) (g : Nat) : Bool :=
  match s.tu.ps with
  | .inSync => true
  | .resyncSource => s.tp.synced.contains g
  | _ => false

/-- This device orders the segment's writes (R191, R199, R217). -/
def homedHere (s : State) (g : Nat) : Bool :=
  match s.tu.ps with
  | .inSync => (s.seg g).homeB == s.tu.isB
  | .resyncTarget => false
  | _ => true

/-- A takeover or its decision is in progress (R210, R211). -/
def failingOver (s : State) : Bool := s.tp.deciding || s.tp.taking

/-- The dirty count may be raised by one: below the ceiling (R92), and while the ember reserve is short, with the dirty data and
320 MiB fitting in the free SLC space (R177). -/
def dirtyRoom (s : State) : Bool :=
  decide (dirtyCount s < ceilFrames s) && (!s.eu.admitLow || decide (dirtyCount s + 1 + 5120 ≤ slcFree s))

/-- A write that raises the dirty count may be admitted now. -/
def admitOk (s : State) (g : Nat) : Bool := dirtyRoom s && (!mirrored s g || decide (0 < s.tu.credits))

/-- Its turn in the rotation: nothing waits, or it waits in the turf served next with no earlier write of its turf. -/
def admitTurn (s : State) (prev : Why) (prior : List Wait) (t : Nat) : Bool :=
  if prev == .admission then
    nextTurf s == some t && !prior.any (fun w => w.queued && (tinfo s w.acc.dpa).id == t)
  else !s.te.waits.any Wait.queued

def dirtiedRecord (f : Nat) (s : State) : State :=
  let fr := s.frame f
  if fr.dirtied then s else journalAdd fr.billet 3 0x7FFFFFFF (s.modFrame f (fun x => { x with dirtied := true }))

/-- A write is admitted to a frame (R102): a clean or evicting one is dirty from here, one being destaged dirty again. -/
def dirtyFrame (f : Nat) (s : State) : State :=
  s.modFrame f (fun x =>
    { x with touched := true, redirty := x.redirty || x.st == .destaging,
             st := match x.st with
               | .clean | .evicting => .dirty
               | st => st })

/-- A frame comes to count in the dirty count: its `COUNTED`, the dirtied record, the twin's credit (R92, R118, R174).
`served`: the write waited in the queue of turf `t`, which is then the turf served last. -/
def countDirty (f g t : Nat) (served : Bool) (s : State) : State :=
  let s := dirtiedRecord f (dirtyFrame f (s.modFrame f (fun x => { x with counted := true })))
  let s := if mirrored s g then { s with tu := { s.tu with credits := s.tu.credits - 1 } } else s
  if served then { s with te := { s.te with lastServed := t } } else s

/-! ## Answers (R233, R234, R240) -/

/-- DevLoad of R234: 0 light, 1 optimal, 2 moderate overload, 3 severe overload. -/
def devLoad (s : State) (p t : Nat) : Nat :=
  if s.mctl.stoke || s.te.waits.any (fun w => w.why == .admission && (tinfo s w.acc.dpa).id == t) then 3
  else if s.te.waits.any (fun w => w.why == .frame && (tinfo s w.acc.dpa).id == t) then 2
  else if (s.look p).miss.isSome then 1 else 0

/-- A port completes a request: counted and offered to the sampler (R416, R422). -/
def completed (a : Acc) (wr : Nat) (poison : Bool) (s : State) : State :=
  if a.host then
    let id := match a.who with
      | .fn p f => p * 16 + f
      | _ => 0
    sample 0x0022 a.port a.dpa (id + wr * 2 ^ 16 + b2n poison * 2 ^ 27) (count 0x0022 a.port 0 1 s)
  else s

/-- The bytes of one line. -/
def lineBytes (v : Line) (off n : Nat) : List Byte := bytesOf v off n

/-- The value of a core's load: its bytes, zero extended; LR.W and AMO.W sign extend (RV64A). -/
def coreLoadVal (v : Line) (off size : Nat) (signed : Bool) : BitVec 64 :=
  let raw : BitVec 64 := (v >>> (8 * off)).setWidth 64
  if size = 8 then raw
  else if size = 4 && signed then (raw.setWidth 32).signExtend 64
  else raw &&& BitVec.ofNat 64 (2 ^ (8 * size) - 1)

/-- The reservation of a core is lost (R307). -/
def resvLost (i : Nat) (s : State) : State :=
  if (s.cpu i).resv.isSome then count 0x2823 i 0 1 (s.modCpu i (fun c => { c with resv := none, resvAge := 0 })) else s

/-- A core retires an instruction: counted and sampled (R418, R422); 64 of them after an LR end its reservation (R307). -/
def retire (i addr : Nat) (s : State) : State :=
  let s := sample 0x2820 i (Config.freeRead s.free) addr (count 0x2820 i 0 1 s)
  match (s.cpu i).resv with
  | none => s
  | some _ =>
    if 64 ≤ (s.cpu i).resvAge then resvLost i s else s.modCpu i (fun c => { c with resvAge := c.resvAge + 1 })

/-- A core's error record (R305): the first is kept with its exception owed, further ones counted. -/
def storeError (i kind addr : Nat) (exc : Bool) (s : State) : State :=
  s.modCpu i (fun c =>
    if c.sterrValid then { c with sterrMore := satAdd 255 c.sterrMore 1 }
    else { c with sterrValid := true, sterrKind := kind, sterrAddr := addr,
                  exc := if exc then c.exc ++ [.storeError] else c.exc })

/-- A FENCE set names an entry's class: I and O device regions, R and W memory regions (R300). -/
def inSet (set : Nat) (rd dev : Bool) : Bool := set.testBit (if dev then (if rd then 3 else 2) else (if rd then 1 else 0))

/-- A FENCE of predecessor set `p` still waits for one of the entries before it. -/
def fenceOpen (before : List SbEnt) (p : Nat) : Bool := before.any (fun e => e.mark.isNone && inSet p false e.dev)

/-- Fences whose order is met complete (R304); `before` are the entries ahead. -/
def sbTrim (before : List SbEnt) : List SbEnt → List SbEnt
  | [] => before
  | e :: t => match e.mark with
    | some (p, _) => if fenceOpen before p then sbTrim (before ++ [e]) t else sbTrim before t
    | none => sbTrim (before ++ [e]) t

/-- An entry leaves the buffer of a core. -/
def sbErase (i : Nat) (e : SbEnt) (s : State) : State := s.modCpu i (fun c => { c with sb := sbTrim [] (c.sb.erase e) })

/-- The store at a core address leaves the buffer. -/
def sbDrop (i addr : Nat) (s : State) : State :=
  match (s.cpu i).sb.find? (fun e => e.sent && e.addr == addr) with
  | some e => sbErase i e s
  | none => s

def coreOf (a : Agent) (s : State) : Nat :=
  match a with
  | .core i => i
  | _ => s.cc.icCore

/-- A core's load, LR, SC or AMO ends with a value: it retires. -/
def coreDone (i addr : Nat) (v : BitVec 64) (s : State) : State :=
  emit (.coreVal i v) (retire i addr (s.modCpu i (fun c => { c with loadWait := false })))

/-- A core's load ends without a value, and an exception is owed (R305, R306). -/
def coreBad (i kind addr : Nat) (exc : CoreExc) (s : State) : State :=
  storeError i kind addr false (s.modCpu i (fun c => { c with loadWait := false, exc := c.exc ++ [exc] }))

/-- Answer a read with a value. -/
def answerRead (a : Acc) (v : LineVal) (s : State) : State :=
  let poison := decide (v = .poison)
  let s := completed a 0 poison s
  match a.kind with
  | .cxlRd =>
    let l := match a.who with
      | .fn _ f => f
      | _ => 0
    let s := emit (.s2mData a.port l a.tag v (devLoad s a.port (tinfo s a.dpa).id)) (count 0x0021 a.port 1 64 s)
    if poison then count 0x0023 a.port 0 1 (s.modPort a.port (fun p => { p with poisonOut := inc32 p.poisonOut })) else s
  | .barRd off n =>
    let f := match a.who with
      | .fn _ f => f
      | _ => 0
    let bs := match v with
      | .data d => lineBytes d off n
      | .poison => List.replicate n 0
    let s := emit (.cpl a.port f a.tag (a.dpa + off) .sc bs poison) (count 0x0021 a.port 1 n s)
    if poison then count 0x0023 a.port 0 1 (s.modPort a.port (fun p => { p with poisonOut := inc32 p.poisonOut })) else s
  | .coreRd off n sx =>
    let i := coreOf a.who s
    match v with
    | .data d => coreDone i (a.dpa + off) (coreLoadVal d off n sx) s
    | .poison => coreBad i 4 (a.dpa + off) .loadPoison s
  | _ => s

/-- Acknowledge a write to its source. -/
def answerWrite (a : Acc) (s : State) : State :=
  let part := match a.wr with
    | some (_, m) => m != fullMask
    | none => true
  let s := completed a (if part then 2 else 1) false s
  match a.kind with
  | .cxlWr =>
    let l := match a.who with
      | .fn _ f => f
      | _ => 0
    emit (.s2mCmp a.port l a.tag (devLoad s a.port (tinfo s a.dpa).id)) s
  | .coreWr => sbDrop (coreOf a.who s) a.tag s
  | .coreSc _ => coreDone (coreOf a.who s) a.dpa 0 s
  | .coreAmoDone old => coreDone (coreOf a.who s) a.dpa old s
  | _ => s

/-- The condition of R235, which goes before the poison of a write on CXL.mem (notes/assumptions/101.md): reads carry poison or Completer Abort, writes are discarded, counted and reported. -/
def answerNotReady (a : Acc) (s : State) : State :=
  let l := match a.who with
    | .fn _ f => f
    | _ => 0
  match a.kind with
  | .cxlRd => answerRead a .poison s
  | .cxlWr =>
    raise 0x0003 a.port 0 .nothing (emit (.s2mCmp a.port l a.tag (devLoad s a.port (tinfo s a.dpa).id))
      (s.modPort a.port (fun p => { p with discard := inc32 p.discard })))
  | .barRd off _ => emit (.cpl a.port l a.tag (a.dpa + off) .ca [] false)
      (emit (.aer a.port l .completerAbort) (s.modFn a.port l (fun x => { x with aer := .completerAbort :: x.aer })))
  | .barWr _ =>
    raise 0x0003 a.port 0 .nothing (emit (.aer a.port l .completerAbort)
      (s.modFn a.port l (fun x => { x with aer := .completerAbort :: x.aer })
        |>.modPort a.port (fun p => { p with discard := inc32 p.discard })))
  | _ => s

/-- A core's store that the device discards ends with an error of kind 3 (R305). -/
def coreDiscard (a : Acc) (s : State) : State :=
  let i := coreOf a.who s
  match a.kind with
  | .coreWr => storeError i 3 a.dpa true (sbDrop i a.tag s)
  | .coreSc _ | .coreAmo _ _ _ _ => storeError i 3 a.dpa true (s.modCpu i (fun c => { c with loadWait := false }))
  | _ => s

/-- Read-preserve is entered at a turf's first discarded write (R156). -/
def enterPreserve (t : Nat) (s : State) : State :=
  match s.turf t with
  | some x => if x.preserve then s
    else cxlLog 1 2 0x1009 t .nothing (raise 0x1009 t 0 (.turf t) (s.modTurf t (fun x => { x with preserve := true })))
  | none => s

/-- The source of a write discarded under R155 is told, and its turf enters read-preserve. -/
def discardReport (a : Acc) (s : State) : State :=
  let s := enterPreserve (tinfo s a.dpa).id (raiseTo (chanList s a.who) 0x1007 0xFFFF a.dpa s)
  match a.kind with
  | .cxlWr => answerWrite a (s.modPort a.port (fun p => { p with discard := inc32 p.discard }))
  | .barWr _ => (match a.who with
    | .fn p f => emit (.aer p f .unsupportedRequest) ((s.modFn p f (fun x => { x with aer := .unsupportedRequest :: x.aer }))
        |>.modPort p (fun q => { q with discard := inc32 q.discard }))
    | _ => s)
  | _ => coreDiscard a s

/-- A write to an unmapped or poisoned billet finds the budget below 64 KiB (R155): it is discarded; the source of a forwarded
one is told by its own device. -/
def discardWrite (a : Acc) (s : State) : State :=
  let b := a.billet
  let s := { s with mctl := { s.mctl with mediaFull := true } }
  let s := if s.te.map.get .unmapped b = .unmapped then
      cxlLog 2 0 0x1007 (b * 65536) (.dpa a.dpa) (setPoisoned b s) else s
  match a.kind with
  | .twinFwd tag => linkSend (.fwdResult tag 1) (enterPreserve (tinfo s a.dpa).id s)
  | _ => discardReport a s

/-! ## The line (R80-R84, R308) -/

/-- The result of an AMO on a word of `size` bytes (R308; RV64A). -/
def amoEval (op : AmoOp) (size : Nat) (old v : BitVec 64) : BitVec 64 :=
  let x : BitVec 64 := if size = 4 then (old.setWidth 32).signExtend 64 else old
  let y : BitVec 64 := if size = 4 then (v.setWidth 32).signExtend 64 else v
  match op with
  | .swap => y
  | .add => x + y
  | .xor => x ^^^ y
  | .and => x &&& y
  | .or => x ||| y
  | .min => if x.slt y then x else y
  | .max => if x.slt y then y else x
  | .minu => if x.ult y then x else y
  | .maxu => if x.ult y then y else x

/-- The mask of `n` bytes from an offset in a line. -/
def maskAt (off n : Nat) : BitVec 64 := (BitVec.ofNat 64 (2 ^ n - 1)) <<< off

def putValue (off n : Nat) (v : BitVec 64) : Line := putBytes 0 off ((List.range n).map (fun i => (v >>> (8 * i)).setWidth 8))

/-- The bytes an access writes over an old line, and the access as it stands once they are known. -/
def resolve (a : Acc) (old : Line) : Acc :=
  match a.kind with
  | .coreAmo op off n v =>
    let was := coreLoadVal old off n true
    { a with kind := .coreAmoDone was, wr := some (putValue off n (amoEval op n was v), maskAt off n) }
  | _ => a

def newLine (a : Acc) (old : Line) : Line :=
  match a.wr with
  | some (d, m) => maskMerge old d m
  | none => old

def isFull (a : Acc) : Bool :=
  match a.wr with
  | some (_, m) => m == fullMask
  | none => false

/-- The outcome of an attempt. -/
inductive Try where
  | done (s : State)
  | hold (a : Acc) (y : Why) (s : State)

/-- Reservations that other cores hold on a line are lost (R307). -/
def dropResv (a : Acc) (s : State) : State :=
  (List.range 6).foldl (fun s i =>
    let mine := match a.who with
      | .core j => i == j
      | .ic => i == s.cc.icCore
      | _ => false
    match (s.cpu i).resv with
    | some r =>
      let dpa := if i = s.cc.icCore then
          (let w := s.cc.wins.get {} (r % 2 ^ 40 / 2 ^ 36)
           w.base + r % 2 ^ 36)
        else above40 r
      if !mine && decide (2 ^ 40 ≤ r) && decide (dpa / 64 = a.line) then
        resvLost i s else s
    | none => s) s

/-- *Job source written* (R263), and the record of R35. -/
def srcWritten (a : Acc) (s : State) : State :=
  (List.range 64).foldl (fun s c =>
    let x := s.chan c
    match x.job with
    | some j =>
      if x.st == .running && !x.srcWritten && decide (j.base / 2 ^ 21 ≤ a.seg) && decide (a.seg ≤ (j.base + j.len - 1) / 2 ^ 21)
      then ledger 0x1C06 (srcChan c) [] (raise 0x1C06 c 0 (.stream c) (s.modChan c (fun x => { x with srcWritten := true }))) else s
    | none => s) s

/-- Bits set in a word of the writers' history. -/
def popcount64 (v : BitVec 64) : Nat := ((List.range 64).filter (fun i => v.getLsbD i)).length

/-- The policy of the range a segment lies in: 2 auto (R199). -/
def policyOf (s : State) (g : Nat) : Nat :=
  match s.tp.homes.find? (fun h => decide (h.base ≤ g * 2 ^ 21) && decide (g * 2 ^ 21 < h.base + h.size)) with
  | some h => h.policy
  | none => 0

/-- Step 1 of a migration (R200). -/
def migBegin (g : Nat) (s : State) : State :=
  let s := { s with te := { s.te with waits := s.te.waits.map (fun w : Wait =>
    if w.acc.seg == g && w.acc.isWrite then { w with old := true } else w) } }
  linkSend (.migBegin g) { s.modSeg g (fun x => { x with migrating := true }) with
    tp := { s.tp with mig := s.tp.mig ++ [(g, true, 1)] } }

def sameRange (base size : Nat) (h : HomeRange) : Bool := h.base == base && h.size == size
def rangesMeet (base size : Nat) (h : HomeRange) : Bool := decide (h.base < base + size) && decide (base < h.base + h.size)

/-- The home table with a range added, changed (policies 0 A, 1 B, 2 auto) or removed (3). -/
def homesSet (base size policy : Nat) (hs : List HomeRange) : List HomeRange :=
  if policy = 3 then hs.filter (fun h => !sameRange base size h)
  else if hs.any (sameRange base size) then hs.map (fun h => if sameRange base size h then { h with policy := policy } else h)
  else hs ++ [⟨base, size, policy⟩]

/-- The home a policy gives: B for policy 1, A otherwise. -/
def policyHome (p : Nat) : Bool := p == 1

/-- Segments of a range. -/
def rangeSegs (h : HomeRange) : List Nat := (List.range (h.size / 2 ^ 21)).map (fun i => h.base / 2 ^ 21 + i)

/-- Segments of a range that this device homes and the new policy does not: they migrate, at most 1,024 at once (R221). -/
def homesMove (base size policy : Nat) (s : State) : State :=
  if policy = 2 || s.tu.ps != .inSync then s
  else
    let want := policyHome policy
    let gs := (rangeSegs ⟨base, size, policy⟩).filter (fun g =>
      (s.seg g).homeB != want && homedHere s g && !(s.seg g).migrating && !s.tp.migQ.contains g)
    let room := 1024 - s.tp.mig.length
    let s := { s with tp := { s.tp with migQ := s.tp.migQ ++ gs.drop room } }
    (gs.take room).foldl (fun s g => migBegin g s) s

/-- The home looks at the last 64 writes of an auto range (R199). -/
def watchWriters (a : Acc) (s : State) : State :=
  let g := a.seg
  let s := s.modSeg g (fun x => { x with writers := (x.writers <<< 1) ||| (if a.who == .twin then 1 else 0),
                                         writes := min 64 (x.writes + 1) })
  let x := s.seg g
  if s.tu.ps == .inSync && policyOf s g == 2 && !x.migrating && decide (48 ≤ popcount64 x.writers)
      && (!x.everMig || decide (x.lastMig + 10000000 < s.tb.count))
  then migBegin g s else s

/-- A line of a replicated record is applied (R204): the segment takes the frame's `GEN`, a forwarded write counts as applied
here (R205). -/
def replicaDone (g gen : Nat) (fwd : Option Nat) (s : State) : State :=
  count 0x1822 0xFFFF 0 1
    { s.modSeg g (fun x => { x with gen := gen }) with tp := { s.tp with rxFwd := s.tp.rxFwd ++ fwd.toList } }

/-- What follows once a line has been written in the home order: stamp, `GEN`, mirroring (R201, R205). The write of a
source of this device waits for `REPL_ACK`; a standalone or surviving device acknowledges at once (R14, R23). -/
def ordered (a : Acc) (s : State) : Try :=
  let g := a.seg
  let s := srcWritten a (dropResv a s)
  match a.kind with
  | .replica _ gen fwd => .done (replicaDone g gen fwd s)
  | _ =>
  let s := if s.tu.record.pairId = 0 then s else s.modSeg g (fun x => { x with gen := s.tu.record.pgen })
  let tag := match a.kind with
    | .twinFwd t => some t
    | _ => none
  if mirrored s g || (tag.isSome && s.tu.ps == .resyncSource) then
    let st := s.tu.stamp
    let r : ReplRec := { first := a.dpa % 2 ^ 21 / 64, mask := if isFull a then none else a.wr.map (·.2), fwdTag := tag,
                         unmap := false, data := (a.wr.map (·.1)).toList }
    let s := { s with tu := { s.tu with stamp := st + 1 },
                      tp := { s.tp with unackSegs := s.tp.unackSegs ++ [(st, g)],
                                        unackBillets := s.tp.unackBillets ++ [(st, a.billet)] } }
    let s := watchWriters a (linkSend (.repl g (s.seg g).gen st [r]) s)
    match a.kind with
    | .twinFwd _ => .done s
    | _ => .hold a (.ack st) s
  else
    let s := if s.tu.ps == .resyncSource then { s with tu := { s.tu with stamp := s.tu.stamp + 1 } } else s
    .done (answerWrite a (watchWriters a s))

/-- The frame after a write to its line (R102). -/
def wrote (f l : Nat) (s : State) : State :=
  dirtiedRecord f ((dirtyFrame f s).modFrame f (fun x =>
    { x with present := if x.st == .filling then x.present ||| ((1#1024) <<< l) else x.present }))

/-- The billet's entry leaves the poison index once every line of it has been written (R30, R238). -/
def poisonCleared (f : Nat) (s : State) : State :=
  let fr := s.frame f
  if s.px.poisonIdx.contains (fr.billet * 65536, true)
      && (fr.st != .filling || fr.present == BitVec.allOnes 1024)
      && !s.ft.lines.any (fun kv => kv.1 / 1024 == f && kv.2 == .poison) then
    poisonDel (fr.billet * 65536) true s
  else s

/-- The event of a narrow write to a poisoned line (R84), for the function that wrote: a source of this device, that of a
forwarded write when its record comes back here, none for a write of the twin (notes/assumptions/99.md). -/
def poisonedWriter (a : Acc) (s : State) : List Nat :=
  match a.kind with
  | .replica _ _ (some tag) => (match s.te.waits.find? (fun w => w.why == .fwd tag) with
    | some w => chanList s w.acc.who
    | none => [])
  | .replica _ _ none => []
  | _ => chanList s a.who

/-- Write to a line of an admitted frame (R80, R83, R84, R104): the outcomes of its access are those of the read, where it
reads, then those of the write's bursts. A write that cannot be read or stored waits until the line has moved (R84, R85). -/
def writeLine (a : Acc) (f : Nat) (s : State) : Try :=
  let l := a.lineIn
  let fr := s.frame f
  let there := fr.st != .filling || fr.present.getLsbD l
  let moved (s : State) : Try := .hold { a with rd := [] } (.retire f) s
  let store (b : Acc) (v : Line) (s : State) : Try :=
    match lineSent f b.rd s with
    | (false, s) => moved s
    | (true, s) =>
      let s := poisonDel (lineDpa fr.billet l) false (putLine f l (.data v) s)
      ordered b (leaveFilling f (poisonCleared f (wrote f l s)))
  if devStalled s f then .hold a .stall s
  else if isFull a then store a (newLine a 0) s
  else
    let poisoned (s : State) : Try := match a.kind with
      | .coreAmo _ off n _ => .done (answerRead { a with kind := .coreRd off n false } .poison s)
      | _ => ordered a (raiseTo (poisonedWriter a s) 0x0802 (frameDev f) 0 (dirtiedRecord f (dirtyFrame f s)))
    let merge (rest : List RdRes) (old : Line) (s : State) : Try :=
      let b := { resolve a old with rd := rest }
      store b (newLine b old) (count 0x0823 (frameDev f) 0 1 s)
    if there then
      match ftReadRest f l a.rd s with
      | (.data v, rest, s) => merge rest v s
      | (.poison, _, s) => poisoned s
      | (.edc, _, s) => moved s
      | (.halted, _, s) => .done s
    else match fr.src with
      | .zeros => merge a.rd 0 s
      | .poison => poisoned s
      | _ => .hold a .line s

/-! ## Getting the frame -/

def waitsFrame (y : Why) : Bool :=
  match y with
  | .evict _ | .frame => true
  | _ => false

/-- Wait for a frame (R111): with an earlier access to the same billet; for the eviction begun for it, whose frame it then
takes; else by `take_frame`, which may begin an eviction or end in a shortage. -/
def needFrame (a : Acc) (t : TInfo) (prev : Why) (prior : List Wait) (k : Nat → State → Try) (s : State) : Try :=
  let ask : Try := match takeFrame t s with
    | .free f => k f s
    | .evict f => .hold a (.evict f) (s.modFrame f (fun x => { x with st := .evicting }))
    | .none => .hold a .frame (if prev == .frame then s else raise 0x0C00 0xFFFF 0 .nothing s)
  match prior.find? (fun w => waitsFrame w.why && w.acc.billet == a.billet) with
  | some w => .hold a w.why s
  | none => match prev with
    | .evict f =>
      if (s.frame f).st == .evicting then .hold a prev s
      else if frState s f == .free && !rawOn s f then k f s
      else ask
    | _ => ask

/-- The read of R104, R59 and R30. -/
def readPath (a : Acc) (prev : Why) (prior : List Wait) (s : State) : Try :=
  let b := a.billet
  let l := a.lineIn
  match s.te.map.get .unmapped b with
  | .unmapped => .done (answerRead a zeroLine s)
  | .poisoned => .done (answerRead a .poison s)
  | .media loc =>
    if fillBusy s ≥ 4096 then .hold a .line s
    else needFrame a (tinfo s a.dpa) prev prior (fun f s =>
      .hold a .line (enterFilling f b (tinfo s a.dpa).id .media (some loc) (l / 64) s)) s
  | .res f =>
    let fr := s.frame f
    let s := s.modFrame f (fun x => { x with touched := true, st := if x.st == .evicting then .clean else x.st })
    let serve (s : State) : Try := match ftRead f l a.rd s with
      | (.data v, s) => .done (answerRead a (.data v) s)
      | (.poison, s) => .done (answerRead a .poison s)
      | (.edc, s) => .done (answerRead a .poison s)
      | (.halted, s) => .done s
    if devStalled s f then .hold a .stall s
    else if fr.st == .filling && !fr.present.getLsbD l then
      match fr.src with
      | .zeros => .done (answerRead a zeroLine s)
      | .poison => .done (answerRead a .poison s)
      | _ => .hold a .line s
    else serve s

/-- Wait for admission: its count and, once for the episode, its event (R118) and record (R35). -/
def holdAdmit (a : Acc) (prev : Why) (s : State) : Try :=
  if prev == .admission then .hold a .admission s
  else
    let s := count 0x0C25 (tinfo s a.dpa).id 0 1 s
    .hold a .admission (if s.te.ceilEpisode then s
      else ledger 0x0C01 0 [] (raise 0x0C01 0xFFFF 0 .nothing { s with te := { s.te with ceilEpisode := true } }))

/-- An access reaches a frame before the commit point of its eviction: the eviction is abandoned (R102). -/
def keepFrame (f : Nat) (s : State) : State :=
  s.modFrame f (fun x => { x with st := if x.st == .evicting then .clean else x.st })

/-- The write at its home (R92, R102, R155). -/
def writePath (a : Acc) (prev : Why) (prior : List Wait) (s : State) : Try :=
  let b := a.billet
  let g := a.seg
  let t := tinfo s a.dpa
  let budget := budgetAtLeast s 1 && (!mirrored s g || decide (0 < s.tu.peerB64))
  let admitted (k : State → Try) (s : State) : Try :=
    if admitOk s g && (waitsFrame prev || admitTurn s prev prior t.id) then k s
    else holdAdmit a prev s
  let fresh (src : FillSrc) (loc : Option Nat) : Try :=
    if fillBusy s ≥ 4096 then .hold a .line s
    else admitted (fun s => needFrame a t prev prior (fun f s =>
      writeLine a f (countDirty f g t.id (prev == .admission) (enterFilling f b t.id src loc (a.lineIn / 64) s))) s) s
  match s.te.map.get .unmapped b with
  | .unmapped => if budget then fresh .zeros none else .done (discardWrite a s)
  | .poisoned =>
    if budget then fresh .poison none else .done (discardWrite a s)
  | .media loc => fresh .media (some loc)
  | .res f =>
    if (s.frame f).counted then writeLine a f s
    else admitted (fun s => writeLine a f (countDirty f g t.id (prev == .admission) s)) (keepFrame f s)

/-- A line of a replicated record finds its frame: the credit of its home admits it (R92, R118, R204). -/
def replicaPath (a : Acc) (prev : Why) (prior : List Wait) (s : State) : Try :=
  let b := a.billet
  let t := tinfo s a.dpa
  let counted (f : Nat) (s : State) : State := dirtiedRecord f (dirtyFrame f (s.modFrame f (fun x => { x with counted := true })))
  let fresh (src : FillSrc) (loc : Option Nat) : Try :=
    if fillBusy s ≥ 4096 then .hold a .line s
    else if dirtyRoom s then needFrame a t prev prior (fun f s =>
      writeLine a f (counted f (enterFilling f b t.id src loc (a.lineIn / 64) s))) s
    else holdAdmit a prev s
  match s.te.map.get .unmapped b with
  | .unmapped => fresh .zeros none
  | .poisoned => fresh .poison none
  | .media loc => fresh .media (some loc)
  | .res f =>
    if (s.frame f).counted then writeLine a f s
    else if dirtyRoom s then writeLine a f (counted f s)
    else holdAdmit a prev (keepFrame f s)

/-! ## Order and entry (R71, R109, R201, R207, R412) -/

/-- An earlier waiting access that this one must follow. -/
def mustFollow (s : State) (a : Acc) (w : Wait) : Bool :=
  let p := w.acc
  let sameSrc := p.who == a.who
  let dev := (tinfo s a.dpa).device
  if p.isWrite then
    if a.isWrite then
      (p.line == a.line && !w.ordered && !w.forwarded)
        || (sameSrc && p.seg == a.seg && !w.ordered && !w.forwarded)
        || (sameSrc && p.isBarWr && a.isBarWr && (!a.relaxed || dev) && p.seg != a.seg && !w.ordered)
    else sameSrc && !w.ordered && (p.seg == a.seg || w.forwarded || (p.isBar && a.isBar))
  else
    if a.isWrite then sameSrc
    else sameSrc && dev && p.seg == a.seg

/-- A source's number, for the last missed segments of R107. -/
def srcNum : Agent → Nat
  | .fn p f => p * 16 + f
  | _ => 255

/-- Past order, pause and lookaside. -/
def entered (y : Why) : Bool :=
  match y with
  | .pause | .before | .look | .blocked | .behind => false
  | _ => true

/-- Forward a write to its home (R205). -/
def forward (a : Acc) (s : State) : Try :=
  let tag := s.tu.fwdCnt + (if s.tu.isB then 2 ^ 63 else 0)
  .hold a (.fwd tag) (linkSend (.fwd tag a.dpa false (if isFull a then none else a.wr.map (·.2)) (a.wr.map (·.1)).toList none)
    { s with tu := { s.tu with fwdCnt := s.tu.fwdCnt + 1 } })

/-- What a line of a billet holds on this device, wherever it lies: the operand of an AMO whose segment the twin homes (R207,
R308), and what a copy or a reply to the twin carries (R207, R217). -/
def localLine (s : State) (b l : Nat) : LineVal :=
  match s.te.map.get .unmapped b with
  | .res f =>
    let x := s.frame f
    if x.st == .filling && !x.present.getLsbD l then
      (match x.src with
        | .media => (match x.mediaLoc with
          | some loc => s.mc.mlines.get zeroLine (loc * 1024 + l)
          | none => zeroLine)
        | .zeros => zeroLine
        | .poison => .poison
        | .copy => (match x.copyFrom with
          | some g => getLine s g l
          | none => zeroLine))
    else getLine s f l
  | .media loc => s.mc.mlines.get zeroLine (loc * 1024 + l)
  | .poisoned => .poison
  | .unmapped => zeroLine

/-- Serve an access that is past the lookaside: where it is ordered, and its path. `old`: taken before step 1 of R200. -/
def serve (old : Bool) (a : Acc) (prev : Why) (prior : List Wait) (s : State) : Try :=
  let g := a.seg
  match a.kind with
  | .replica _ _ _ => replicaPath a prev prior s
  | _ =>
  if a.host && notReady s then .done (answerNotReady a s)
  else if a.isWrite then
    if failingOver s then .hold a .failover s
    else if (s.seg g).migrating && s.tu.ps == .inSync && a.who != .twin && !(old && homedHere s g) then .hold a .seg s
    else if s.tp.copying == some g && s.tu.ps == .resyncSource then .hold a .seg s
    else if homedHere s g || a.who == .twin then writePath a prev prior s
    else match a.kind with
      | .coreAmo _ _ _ _ => (match localLine s a.billet a.lineIn with
        | .data v => forward (resolve a v) s
        | .poison => .done (coreDiscard a s))
      | _ => forward a s
  else
    let remote := (s.tu.ps == .inSync && (tinfo s a.dpa).device && !homedHere s g)
      || (s.tu.ps == .resyncTarget && !s.tp.synced.contains g)
    if remote && a.who != .twin then
      let u := s.tu.unitCnt
      .hold a (.unit u) (linkSend (.unitReq u a.billet (a.lineIn / 64) 1) { s with tu := { s.tu with unitCnt := (u + 1) % 2 ^ 32 } })
    else readPath a prev prior s

/-- A wait at the port's lookaside (R109). -/
def waitsLook (y : Why) : Bool :=
  match y with
  | .look | .blocked | .behind => true
  | _ => false

/-- The lookaside of the port, then the access itself: behind an earlier miss of its source, or behind a request that missed on
another segment, it is held (R109). -/
def enter (old : Bool) (a : Acc) (prev : Why) (prior : List Wait) (s : State) : Try :=
  if !a.host then serve old a .ready prior s
  else if prior.any (fun w => waitsLook w.why && w.acc.who == a.who) then .hold a .behind s
  else if prior.any (fun w => w.why == .blocked && w.acc.port == a.port) then .hold a .blocked s
  else match laLookup (prev != .look) a.port a.seg (srcNum a.who) s with
    | (.hit, s) => serve old a .ready prior s
    | (.pending, s) => .hold a .look s
    | (.blocked, s) => .hold a .blocked s

/-- One attempt at an access; `prior` are the accesses that arrived before it and still wait. The pause holds an operation at its
entry point, once (R39, R412). -/
def attempt (fresh : Bool) (prior : List Wait) (w : Wait) (s : State) : Try :=
  let a := w.acc
  match w.why with
  | .ack st =>
    if st ≤ s.tu.ackStamp || !(mirrored s a.seg || failingOver s || notReady s) then .done (answerWrite a s)
    else if a.host && notReady s then .done (answerNotReady a s) else .hold a (.ack st) s
  | .fwd tag =>
    if s.tp.rxFwd.contains tag then .done (answerWrite a s)
    else if homedHere s a.seg && !failingOver s then serve w.old a .ready prior s
    else if a.host && notReady s then .done (answerNotReady a s)
    else .hold a (.fwd tag) s
  | .unit u =>
    if (s.tu.ps == .inSync || s.tu.ps == .resyncTarget) then .hold a (.unit u) s else serve w.old a .ready prior s
  | .retire f =>
    if s.te.map.get .unmapped a.billet = .res f then .hold a (.retire f) s else serve w.old a .ready prior s
  | y =>
    if s.th.closedPhase && a.host && (fresh || y == .pause) then
      .hold a .pause (if fresh && !a.more then count 0x3C20 a.port 0 1 s else s)
    else if !fresh && entered y then serve w.old a y prior s
    else if prior.any (mustFollow s a) || s.te.unmaps.contains a.billet then .hold a .before s
    else enter w.old a (if fresh then .before else y) prior s

/-! ## The waiting list -/

def setWaits (f : List Wait → List Wait) (s : State) : State := { s with te := { s.te with waits := f s.te.waits } }

/-- Put a changed wait in the place of the old one. -/
def replaceWait (old new : Wait) : List Wait → List Wait
  | [] => []
  | w :: t => if w = old then new :: t else w :: replaceWait old new t

/-- The moment at which the TE detected a read's miss: its first wait for its frame or its line (R114). -/
def missTime (w : Wait) (y : Why) (s : State) : Option Nat :=
  match w.missAt with
  | some t => some t
  | none => if !w.acc.isWrite && (y == .line || waitsFrame y) then some s.tb.count else none

/-- Attempt one waiting access again, in its place. -/
def retryWait (s : State) (w : Wait) : State :=
  if !s.te.waits.contains w then s
  else match attempt false (s.te.waits.takeWhile (fun x => x != w)) w s with
    | .done s => setWaits (fun l => l.erase w) s
    | .hold a y s => if y = w.why ∧ a = w.acc then s else setWaits (replaceWait w { w with acc := a, why := y, missAt := missTime w y s }) s

def retryAll (s : State) : State := s.te.waits.foldl retryWait s

/-- The episode of R118 ends when no write waits for admission. -/
def endEpisode (s : State) : State :=
  if s.te.waits.any (fun w => w.why == .admission) then s else { s with te := { s.te with ceilEpisode := false } }

/-- Attempt the waiting accesses until none can go on. -/
def settleN : Nat → State → State
  | 0, s => s
  | n + 1, s =>
    let t := retryAll s
    if t.te.waits = s.te.waits then t else settleN n t

/-! ## The configuration segment (R62, R199) -/

/-- Every write ordered here is mirrored, that of the configuration segment among them. -/
def pairedNow (s : State) : Bool := s.tu.ps == .inSync || s.tu.ps == .resyncSource

/-- This device orders the writes of the configuration segment: twin A, or the device that is alone (R62). -/
def cfgHome (s : State) : Bool :=
  match s.tu.ps with
  | .inSync => !s.tu.isB
  | .resyncTarget => false
  | _ => true

/-- The configuration segment's number on the link: the first past the user DPA (DESIGN CHOICE, notes/assumptions/13.md). -/
def cfgSeg (s : State) : Nat := s.te.uGib * 512

/-- A write of the configuration segment takes effect in the tables. -/
def cfgPut (c : CfgWrite) (s : State) : State :=
  match c with
  | .turf id t => { s with te := { s.te with turfs := s.te.turfs.set none id t } }
  | .home base size policy =>
    homesMove base size policy { s with tp := { s.tp with homes := homesSet base size policy s.tp.homes } }
  | .homes l => { s with tp := { s.tp with homes := l } }

/-- The home orders a write of the configuration segment: it takes effect, and a pair mirrors it; `tag` of one the twin
forwarded. -/
def cfgOrdered (tag : Option Nat) (c : CfgWrite) (s : State) : State :=
  let s := cfgPut c s
  if pairedNow s then
    let st := s.tu.stamp
    let r : ReplRec := { first := 0, mask := none, fwdTag := tag, unmap := false, data := [], cfg := some c }
    linkSend (.repl (cfgSeg s) s.tu.record.pgen st [r])
      { s with tu := { s.tu with stamp := st + 1 }, tp := { s.tp with unackSegs := s.tp.unackSegs ++ [(st, cfgSeg s)] } }
  else s

/-- What is left of a command's wait: a forwarded write whose record has come back is done; where this device has become the
home, it is ordered here (R62: in failover it takes effect on the survivor). -/
def cfgRetry (r : CfgPend) (s : State) : State :=
  match r.fwd with
  | none => s
  | some (tag, c) =>
    if s.tp.rxFwd.contains tag then
      { s with te := { s.te with cfgPend := s.te.cfgPend.map (fun x => if x = r then { x with fwd := none } else x) } }
    else if cfgHome s && !failingOver s then
      let t := cfgOrdered none c s
      let st := if pairedNow s then s.tu.stamp else 0
      { t with te := { t.te with cfgPend := t.te.cfgPend.map (fun x => if x = r then { x with fwd := none, stamp := st } else x) } }
    else s

/-- A command's writes are durable on both twins, or on the survivor (R62, R63). -/
def cfgReady (s : State) (r : CfgPend) : Bool :=
  r.fwd.isNone && (!r.unmaps || s.te.unmaps.isEmpty) && (!pairedNow s || decide (r.stamp ≤ s.tu.ackStamp))

/-- Commands whose writes are durable complete. -/
def unmapsDone (s : State) : State :=
  let s := s.te.cfgPend.foldl (fun s r => cfgRetry r s) s
  (s.te.cfgPend.filter (cfgReady s)).foldl (fun s r => ok ⟨r.ch, r.tag⟩ [] s)
    { s with te := { s.te with cfgPend := s.te.cfgPend.filter (fun r => !cfgReady s r) } }

/-- A command writes the configuration segment: ordered here, or forwarded to the home. -/
def cfgAsk (rq : Rq) (unmaps : Bool) (c : CfgWrite) (s : State) : State :=
  if cfgHome s then
    let p : CfgPend := ⟨rq.ch, rq.tag, if pairedNow s then s.tu.stamp else 0, unmaps, none⟩
    let s := cfgOrdered none c s
    { s with te := { s.te with cfgPend := s.te.cfgPend ++ [p] } }
  else
    let tag := s.tu.fwdCnt + (if s.tu.isB then 2 ^ 63 else 0)
    linkSend (.fwd tag (cfgSeg s * 2 ^ 21) false none [] (some c))
      { s with tu := { s.tu with fwdCnt := s.tu.fwdCnt + 1 },
               te := { s.te with cfgPend := s.te.cfgPend ++ [⟨rq.ch, rq.tag, 0, unmaps, some (tag, c)⟩] } }

/-! ## Maps of windows (R67, R312) -/

/-- DPA base and length of a window's map. -/
def mapNow (s : State) (key : Nat) : Nat × Nat :=
  if key < 160 then s.te.winMap.get (0, 0) key else ((s.cc.wins.get {} (key - 160)).base, (s.cc.wins.get {} (key - 160)).len)

/-- The source that reaches the DPA through a window. -/
def mapUser (key : Nat) : Agent := if key < 160 then .fn (key / 16) (key % 16) else .ic

/-- An access accepted through the window's map is not complete. -/
def mapBusy (s : State) (key : Nat) : Bool :=
  let m := mapNow s key
  s.te.waits.any (fun w => w.acc.who == mapUser key && decide (m.1 < w.acc.dpa + 64) && decide (w.acc.dpa < m.1 + m.2))

/-- Set a window's map; length 0 unmaps it. -/
def mapPut (key base len : Nat) (rw : Bool) (s : State) : State :=
  if key < 160 then { s with te := { s.te with winMap := s.te.winMap.set (0, 0) key (if len = 0 then (0, 0) else (base, len)) } }
  else { s with cc := { s.cc with
    wins := s.cc.wins.set {} (key - 160) (if len = 0 then {} else { base := base, len := len, rw := rw }) } }

/-- A command maps a window, at once or after the accesses through the old map. -/
def mapAsk (rq : Rq) (key base len : Nat) (rw : Bool) (s : State) : State :=
  if mapBusy s key then { s with te := { s.te with mapPend := s.te.mapPend ++ [⟨rq.ch, rq.tag, key, base, len, rw⟩] } }
  else ok rq [] (mapPut key base len rw s)

/-- Maps that wait are made, in order, once nothing is left of the map they replace. -/
def mapsDone (s : State) : State :=
  s.te.mapPend.foldl (fun s m =>
    if mapBusy s m.key then s
    else ok ⟨m.ch, m.tag⟩ [] (mapPut m.key m.base m.len m.rw { s with te := { s.te with mapPend := s.te.mapPend.erase m } })) s

/-! ## What follows on the twin link (R200, R202, R204, R217) -/

/-- The least stamp of a replicated record that is not yet applied. -/
def replLow (s : State) : Option Nat :=
  let ws := s.te.waits.filterMap (fun w => match w.acc.kind with
    | .replica st _ _ => some st
    | _ => none)
  let us := (s.tp.replUnmap.filter (fun u => s.te.unmaps.contains u.1)).map (·.2)
  (ws ++ us).foldl (fun a n => match a with
    | none => some n
    | some m => some (min m n)) none

/-- No access, fill or destage of the billet is in flight. -/
def unmapIdle (s : State) (b : Nat) : Bool :=
  !s.te.waits.any (fun w => w.acc.billet == b && w.why != .before)
    && (match s.te.map.get .unmapped b with
      | .res f => (s.frame f).st != .filling && (s.frame f).st != .destaging
      | _ => true)

/-- Unmap records whose billet has nothing in flight are applied, and are on the media (R63, R204). -/
def replUnmapPump (s : State) : State :=
  let go := s.tp.replUnmap.filter (fun u => s.te.unmaps.contains u.1 && unmapIdle s u.1)
  let s := go.foldl (fun s u => journalWrite (unmapNow u.1 s)) s
  { s with tp := { s.tp with replUnmap := s.tp.replUnmap.filter (fun u => s.te.unmaps.contains u.1) } }

/-- `REPL_ACK` up to the last stamp whose records are all applied. -/
def ackPump (s : State) : State :=
  let hi := match replLow s with
    | none => s.tu.rxStamp
    | some m => m - 1
  if decide (s.tu.ackSent < hi) && linkUp s && !linkMute s (.replAck hi) then linkSend (.replAck hi) { s with tu := { s.tu with ackSent := hi } } else s

/-- A migration's old home has ordered all it took, and every stamp is covered (R200 steps 3 and 5). -/
def migReadyNow (s : State) (g : Nat) : Bool :=
  !s.tp.unackSegs.any (fun u => u.2 == g)
    && !s.te.waits.any (fun w => w.acc.seg == g && (w.ordered || w.acc.who == .twin || w.old))

def migEnd (g : Nat) (s : State) : State :=
  let s := s.modSeg g (fun x => { x with homeB := !x.homeB, migrating := false, lastMig := s.tb.count, everMig := true,
                                         writers := 0, writes := 0 })
  linkSend (.migDone g (s.tu.stamp - 1)) { s with tp := { s.tp with mig := s.tp.mig.filter (fun m => m.1 != g) } }

def migPump (s : State) : State :=
  match s.tp.mig.find? (fun m => m.2.1 && m.2.2 == 3 && migReadyNow s m.1) with
  | some m =>
    let s := migEnd m.1 s
    match s.tp.migQ with
    | g :: t => migBegin g { s with tp := { s.tp with migQ := t } }
    | [] => s
  | none => s

/-- Media budget of 32 bits in 64 KiB (R196). -/
def budgetSat (s : State) : Nat := min max32 (budget64k s)

/-- `PEER_STATUS` is sent whenever pool total, ceiling or budget changes (R202). -/
def statusMsg (s : State) : LinkMsg := .peerStatus s.te.pool (budget64k s / 16384) s.ft.ceilGib (budgetSat s)
def statusPump (s : State) : State :=
  let m := (s.te.pool, s.ft.ceilGib, budgetSat s)
  if linkUp s && !s.tp.haltSent && !s.tp.haltRx && m != s.tu.myStatus then linkSend (statusMsg s) { s with tu := { s.tu with myStatus := m } } else s

/-- A frame for a copy, at once: an eviction it needs is made here (R111). -/
def takeNow (b : Nat) (s : State) : Option (Nat × State) :=
  match takeFrame (tinfo s (b * 65536)) s with
  | .free f => some (f, s)
  | .evict f => some (f, evictCommit f (s.modFrame f (fun x => { x with st := .evicting })))
  | .none => none

/-- The frame a copied billet lies in, counted and dirty; it begins as zeros where unit 0 comes first (R217 step 4). -/
def copyFrame (b : Nat) (s : State) : Option (Nat × State) :=
  let fresh (f : Nat) (s : State) : State :=
    let s := enterFilling f b (tinfo s (b * 65536)).id .zeros none 0 s
    s.modFrame f (fun x => { x with st := .dirty, counted := true, slot := 0, order := s.te.orderCnt })
  match s.te.map.get .unmapped b with
  | .res f => some (f, s.modFrame f (fun x => { x with
      counted := true, st := match x.st with
        | .clean | .evicting => .dirty
        | st => st, redirty := x.redirty || x.st == .destaging }))
  | _ => (takeNow b s).map (fun x => (x.1, fresh x.1 x.2))

/-- The lines of a unit as a message carries them: poisoned lines by the mask. -/
def unitMask (ls : List LineVal) : BitVec 64 :=
  (ls.zipIdx.foldl (fun (m : BitVec 64) x => if x.1 = .poison then m ||| ((1#64) <<< x.2) else m) 0)
def unitData (ls : List LineVal) : List Line := ls.map (fun v => match v with
  | .data d => d
  | .poison => 0)

/-- The least stamp of a record of the segment that is received and not yet applied. -/
def segLow (s : State) (g : Nat) : Option Nat :=
  let ws := s.te.waits.filterMap (fun w => match w.acc.kind with
    | .replica st _ _ => if w.acc.seg == g then some st else none
    | _ => none)
  let us := (s.tp.replUnmap.filter (fun u => u.1 / 32 == g && s.te.unmaps.contains u.1)).map (·.2)
  (ws ++ us).foldl (fun a n => match a with
    | none => some n
    | some m => some (min m n)) none

/-- The stamp of a unit read here (R115): of the order counter at the segment's home; elsewhere of the records of the segment
that are applied. -/
def unitStamp (s : State) (g : Nat) : Nat :=
  if homedHere s g then s.tu.stamp - 1
  else match segLow s g with
    | some m => m - 1
    | none => s.tu.rxStamp

/-- One line of a billet as a fetch or a reply takes it: a stored line through the checks of R79, R81 and R85, with the outcomes
of its reads; the frame is touched (R101). -/
def lineTake (b l : Nat) (rd : List RdRes) (s : State) : LineVal × State :=
  match s.te.map.get .unmapped b with
  | .res f =>
    let s := s.modFrame f (fun x => { x with touched := true })
    if lineHeld s f l then
      (match ftRead f l rd s with
        | (.data v, s) => (.data v, s)
        | (_, s) => (.poison, s))
    else (localLine s b l, s)
  | _ => (localLine s b l, s)

/-- The outcomes given for a line's reads; a line that is not listed reads clean. -/
def outsOf (rds : List (Nat × List RdRes)) (l : Nat) : List RdRes :=
  match rds.find? (fun x => x.1 == l) with
  | some x => x.2
  | none => []

/-- `n` lines of a billet from line `l`, in order. -/
def linesTake (b : Nat) (rds : List (Nat × List RdRes)) : Nat → Nat → State → List LineVal × State
  | 0, _, s => ([], s)
  | n + 1, l, s =>
    let (v, s) := lineTake b l (outsOf rds l) s
    let (vs, s) := linesTake b rds n (l + 1) s
    (v :: vs, s)

/-- Answer a request of the twin with the lines of a unit of a billet (R196); a halt on the way leaves it unanswered. -/
def unitAnswer (utag b u : Nat) (rds : List (Nat × List RdRes)) (s : State) : State :=
  let (ls, s) := linesTake b rds 64 (u * 64) s
  let m := unitMask ls
  if s.sec.halt then s
  else linkSend (.unitReply utag (if m = 0 then 0 else 2) (unitStamp s (b / 32)) m (unitData ls)) s

/-- A line of a unit as a reply or a copy carries it. -/
def unitLine (mask : BitVec 64) (data : List Line) (i : Nat) : LineVal :=
  if mask.getLsbD i then .poison else .data ((data[i]?).getD 0)

def copyLinesIn (f u : Nat) (mask : BitVec 64) (data : List Line) (s : State) : State :=
  (List.range 64).foldl (fun s i =>
    let l := u * 64 + i
    let s := s.modFrame f (fun x => { x with present := if x.st == .filling then x.present ||| ((1#1024) <<< l) else x.present })
    match unitLine mask data i with
    | .poison => poisonLine f l s
    | v => poisonDel (lineDpa (s.frame f).billet l) false (putLine f l v s)) s

/-- Install what heads the queue, while the ceiling and the pool allow (R92, R217). -/
def copyStep (s : State) : Option State :=
  match s.tp.copyQ with
  | [] => none
  | c :: t =>
    let s' := { s with tp := { s.tp with copyQ := t } }
    match c with
    | .segDone g gen => some (linkSend (.segAck g) { s'.modSeg g (fun x => { x with gen := gen }) with
        tp := { s'.tp with synced := s'.tp.synced ++ [g], done := s'.tp.done + 1 } })
    | .unit b u st mask data =>
      if st = 1 then some (unmapNow b s')
      else if st = 2 then some (setPoisoned b (unmapNow b s'))
      else if dirtyRoom s || (match s.te.map.get .unmapped b with
          | .res f => (s.frame f).counted
          | _ => false) then
        (copyFrame b s').map (fun x => leaveFilling x.1 (dirtiedRecord x.1 (copyLinesIn x.1 u mask data x.2)))
      else none

def copyPumpN : Nat → State → State
  | 0, s => s
  | n + 1, s => match copyStep s with
    | some t => copyPumpN n t
    | none => s
def copyPump (s : State) : State := copyPumpN s.tp.copyQ.length s

/-- What every change of the waiting list is followed by. -/
def settleWaits (s : State) : State := mapsDone (unmapsDone (endEpisode (settleN (s.te.waits.length + 1) s)))
def settle (s : State) : State :=
  let a := settleWaits s
  let b := replUnmapPump a
  let t := ackPump (copyPump (if b.te.unmaps = a.te.unmaps then b else settleWaits b))
  let u := migPump t
  statusPump (if u.tp.mig = t.tp.mig then u else settleWaits u)

/-! ## Unmaps (R59, R62, R63, R102, R201) -/

/-- An unmap takes its place in the home order: `GEN`, journal record, and the record of kind unmap to the twin (R201). -/
def unmapOrdered (b : Nat) (s : State) : State :=
  let g := b / 32
  let s := if s.tu.record.pairId = 0 then s else s.modSeg g (fun x => { x with gen := s.tu.record.pgen })
  let s := journalWrite (unmapNow b s)
  let tag := (s.te.unmapFwd.find? (fun x => x.1 == b)).map (·.2)
  let s := { s with te := { s.te with unmapFwd := s.te.unmapFwd.filter (fun x => x.1 != b) } }
  if mirrored s g || (tag.isSome && s.tu.ps == .resyncSource) then
    let st := s.tu.stamp
    let r : ReplRec := { first := b % 32 * 1024, mask := none, fwdTag := tag, unmap := true, data := [] }
    linkSend (.repl g (s.seg g).gen st [r])
      { s with tu := { s.tu with stamp := st + 1 },
               tp := { s.tp with unackSegs := s.tp.unackSegs ++ [(st, g)], unackBillets := s.tp.unackBillets ++ [(st, b)] },
               te := { s.te with cfgPend := s.te.cfgPend.map (fun r => if r.unmaps then { r with stamp := st } else r) } }
  else if s.tu.ps == .resyncSource then { s with tu := { s.tu with stamp := s.tu.stamp + 1 } }
  else s

/-- An owed unmap is made once nothing is in flight on its billet, at the home of its segment. -/
def unmapStep (b : Nat) (s : State) : State :=
  let g := b / 32
  if s.te.unmaps.contains b && homedHere s g && !((s.seg g).migrating && s.tu.ps == .inSync) && unmapIdle s b
  then unmapOrdered b s else s

/-- Forward an unmap to the twin that homes its segment (R62, R196). -/
def unmapForward (b : Nat) (s : State) : State :=
  let tag := s.tu.fwdCnt + (if s.tu.isB then 2 ^ 63 else 0)
  linkSend (.fwd tag (b * 65536) true none [] none) { s with tu := { s.tu with fwdCnt := s.tu.fwdCnt + 1 } }

/-- Unmap every billet of a DPA range: idle billets at once, the others when what is in flight ends. -/
def unmapRange (lo hi : Nat) (s : State) : State :=
  let bs := (s.te.map.filter (fun kv => decide (lo ≤ kv.1 * 65536) && decide (kv.1 * 65536 < hi))).map (·.1)
  let new := bs.filter (fun b => !s.te.unmaps.contains b)
  let s := { s with te := { s.te with unmaps := s.te.unmaps ++ new } }
  new.foldl (fun s b => if homedHere s (b / 32) then unmapStep b s else unmapForward b s) s

/-- A new access arrives. -/
def submit (a : Acc) (s : State) : State :=
  let w : Wait := { acc := a, why := .before, t0 := s.tb.count }
  match attempt true s.te.waits w s with
  | .done s => if s.te.waits.isEmpty then s else settle s
  | .hold a y s => setWaits (fun l => l ++ [{ w with acc := a, why := y, missAt := missTime w y s }]) s

end Sys2Proof.Machine
end

