-- ==== Sys2Proof/Machine/PortOps.lean ====
section
/-! DEFINITION. The ports' operations: HDM routing (R65, R66), data windows (R67, R312), AER (R241), the reset of a
mailbox channel (R340), of a function (R230) and of a port (R231), lost consumers (R246), and the widths a port trains at
(R226, R227). -/

namespace Sys2Proof.Machine

open Sys2Proof

/-- U in bytes (R18, R58). -/
def uBytes (s : State) : Nat := s.te.uGib * 2 ^ 30

/-- The pool total that governs reserves: in a pair the smaller of the twins' (R61). -/
def pairPool (s : State) : Nat :=
  if s.tu.record.pairId ≠ 0 ∧ s.tu.peerPool ≠ 0 then min s.te.pool s.tu.peerPool else s.te.pool

/-! ## HDM decoders (R65, R66) -/

/-- Bytes of DPA a decoder serves. -/
def HdmDec.span (d : HdmDec) : Nat := d.size / 2 ^ d.ways

/-- The DPA at which a decoder serves an HPA, when it serves it (R65). -/
def HdmDec.dpa (d : HdmDec) (hpa : Nat) : Option Nat :=
  if d.committed && decide (d.base ≤ hpa) && decide (hpa < d.base + d.size)
      && decide ((hpa - d.base) / 2 ^ d.gran % 2 ^ d.ways = d.pos) then
    some (d.start + (hpa - d.base) / 2 ^ (d.gran + d.ways) * 2 ^ d.gran + (hpa - d.base) % 2 ^ d.gran)
  else none

/-- The DPA a logical device's decoders give an HPA. -/
def hdmRoute (s : State) (p l hpa : Nat) : Option Nat :=
  (List.range 8).findSome? (fun k => ((s.ld p l).decs.get {} k).dpa hpa)

/-- Where decoder `k` starts: the end of the previous decoder's DPA range plus the skip (R65). -/
def hdmStart (s : State) (p l k skip : Nat) : Nat :=
  if k = 0 then skip
  else
    let d := (s.ld p l).decs.get {} (k - 1)
    d.start + d.span + skip

/-- Every byte of `[lo, hi)` lies in turfs that satisfy a test; turfs are walked at most 256 times. -/
def coveredFrom (s : State) (p : Turf → Bool) : Nat → Nat → Nat → Bool
  | 0, _, _ => false
  | n + 1, lo, hi =>
    if hi ≤ lo then true
    else match turfAt s lo with
      | some (_, t) => p t && coveredFrom s p n (t.base + t.size) hi
      | none => false

def covered (s : State) (p : Turf → Bool) (lo hi : Nat) : Bool := coveredFrom s p 257 lo hi

/-- The agent holds a grant, with RW where that is asked. -/
def mayReach (ag : Agent) (rw : Bool) (t : Turf) : Bool :=
  match grantOf t ag with
  | some g => !rw || g.rw
  | none => false

/-- A committed decoder of a logical device reaches `[lo, hi)`. -/
def ldReaches (s : State) (p l lo hi : Nat) : Bool :=
  (s.ld p l).decs.any (fun kv => kv.2.committed && decide (kv.2.start < hi) && decide (lo < kv.2.start + kv.2.span))

/-- A mapped data window of a function reaches `[lo, hi)` (R67). -/
def winReaches (s : State) (key lo hi : Nat) : Bool :=
  let w := s.te.winMap.get (0, 0) key
  decide (w.2 ≠ 0) && decide (w.1 < hi) && decide (lo < w.1 + w.2)

/-- An integrator window reaches `[lo, hi)` (R312). -/
def icReaches (s : State) (lo hi : Nat) : Bool :=
  s.cc.wins.any (fun kv => decide (kv.2.len ≠ 0) && decide (kv.2.base < hi) && decide (lo < kv.2.base + kv.2.len))

/-- The source of a stream job lies in `[lo, hi)` in part. -/
def jobReaches (s : State) (lo hi : Nat) : Bool :=
  s.su.chans.any (fun kv => match kv.2.job with
    | some j => decide (j.base < hi) && decide (lo < j.base + j.len)
    | none => false)

/-- What an agent has mapped onto `[lo, hi)`. -/
def agentReaches (s : State) (ag : Agent) (lo hi : Nat) : Bool :=
  match ag with
  | .fn p f => ldReaches s p f lo hi || winReaches s (p * 16 + f) lo hi
  | .ic => icReaches s lo hi
  | _ => false

/-- What any agent has mapped onto `[lo, hi)`. -/
def anyReaches (s : State) (lo hi : Nat) : Bool :=
  s.px.lds.any (fun kv => ldReaches s (kv.1 / 16) (kv.1 % 16) lo hi)
    || s.te.winMap.any (fun kv => winReaches s kv.1 lo hi) || icReaches s lo hi

/-! ## AER (R241) -/

/-- Answer a non-posted request with Unsupported Request. -/
def answerUr (p f tag off : Nat) (s : State) : State :=
  emit (.cpl p f tag off .ur [] false) (logAer p f .unsupportedRequest s)

/-! ## Resets of a channel, a function and a port (R230, R231, R340) -/

/-- An update session that a channel holds is closed (R337). -/
def closeSession (ch : Nat) (s : State) : State :=
  match s.mb.sess with
  | some (k, _, _) => if k = ch then { s with mb := { s.mb with sess := none, sessDone := 0, sessLast := none } } else s
  | none => s

/-- Reset a mailbox channel (R340); its unlocks end (R363). -/
def chanReset (ch : Nat) (s : State) : State :=
  closeSession ch (s.modMbox ch (fun m =>
    { m with reqProd := 0, reqCons := 0, rplProd := 0, rplCons := 0, fifo := [], expect := none, dbRej := 0, unlocks := [],
             flights := (m.flights.filter (fun f => !f.replied)).map (fun f => { f with drop := true }) }))

/-- Dumps of a channel end (R230, R424). -/
def endDumps (ch : Nat) (s : State) : State :=
  if s.dump.target ≠ 0 ∧ s.dump.ch = ch then { s with dump := {} } else s

/-- Descriptor fetches in progress are abandoned: their commands end with no effect, and their replies are discarded (R230). -/
def endFetches (ch : Nat) (s : State) : State :=
  s.modMbox ch (fun m => { m with flights := startReady false (m.flights.filter (fun f => !f.area)) })

/-- What the masks and vectors of a channel return to. -/
def unroute (ch : Nat) (s : State) : State := s.modMbox ch (fun m => { m with mask := [] })

/-- Function-scoped state at its reset values (R436): configuration space, MSI-X, BAR0 registers. -/
def resetFn (x : FnState) : FnState := { errFatalSent := x.errFatalSent }

/-- Function Level Reset (R230). A request already taken is applied without a completion: see `dropAnswers`. -/
def fnReset (p f : Nat) (s : State) : State :=
  let s := s.modFn p f resetFn
  let s := s.modLd p f (fun x => { x with polMode := [], polNum := [] })
  match chanOf s (.fn p f) with
  | some ch => endFetches ch (endDumps ch (unroute ch (chanReset ch s)))
  | none => s

/-- Requests of a function that still wait are applied, but nothing answers them: they go on as the device's own, a write
as an access without an answer; a read is dropped (R230, R231). -/
def dropAnswers (sel : Agent → Bool) (s : State) : State :=
  setWaits (fun ws => ws.filterMap (fun w =>
    if sel w.acc.who && w.acc.host then
      (if w.acc.isWrite then some { w with acc := { w.acc with kind := .barWr w.acc.relaxed } } else none)
    else some w)) s

/-- Consumer `c` of a port is present and not lost. -/
def consumerHere (s : State) (p c : Nat) : Bool :=
  match (s.port p).consumers[c]? with
  | some x => !x.lost
  | none => false

/-- Consumer `c` of a port is lost: channels writing to it are held (R246, R251). -/
def consumerLost (p c : Nat) (s : State) : State :=
  if !consumerHere s p c then s
  else
    let s := s.modPort p (fun x => { x with consumers := x.consumers.modify c (fun k => { k with lost := true }) })
    let s := (List.range 64).foldl (fun s k => match (s.chan k).job with
      | some j => if j.port = p ∧ j.consumer = c then holdChan 0x10 k s else s
      | none => s) s
    raise 0x0008 p c .nothing s

def allConsumersLost (p : Nat) (s : State) : State :=
  (List.range (s.port p).consumers.length).foldl (fun s c => consumerLost p c s) s

/-- The lookaside and the victim cache of a port are invalidated (R109); requests that waited on a fill look up again. -/
def laInvalidate (p : Nat) (s : State) : State :=
  settle (s.modLook p (fun l => { streamDet := l.streamDet }))

/-- What a reset of port reach does to the port's blocks (R231): every function as FLR does, decoders, windows, lookaside;
the link goes down and trains again at `MAX_WIDTH`. -/
def portDown (p : Nat) (s : State) : State :=
  let q := s.port p
  if q.role = 0 then
    let s := dropAnswers (fun a => match a with
      | .fn x _ => x == p
      | _ => false) s
    let s := (portFns s p).foldl (fun s f =>
      (fnReset p f s).modLd p f (fun x => { x with decs := [] })) s
    let s := { s with te := { s.te with winMap := Tab.clear s.te.winMap (p * 16) (p * 16 + 16) } }
    let s := s.modPort p (fun x => { x with width := 0, rate := 0, flit := false, serving := false, disabled := false,
                                            attempts := 0, reversed := false, mld := false })
    laInvalidate p s
  else if q.role = 1 then
    (allConsumersLost p s).modPort p (fun x => { x with width := 0, rate := 0, flit := false, serving := false,
                                                        disabled := false, attempts := 0, reversed := false })
  else s

/-! ## Widths (R227) -/

/-- Lanes of `MAX_WIDTH`. -/
def maxLanes (q : Port) : Nat := if q.maxWidth = 2 then 4 else if q.maxWidth = 1 then 8 else 16

/-- The CDAT changes with the width of a host port's link, with pairing and with U (R236). -/
def cdatChange (s : State) : State := { s with px := { s.px with cdatChg := s.px.cdatChg + 1 } }

end Sys2Proof.Machine
end

