-- ==== Sys2Proof/Machine/DestageOps.lean ====
section
/-! DEFINITION. Destage (R113, R119, R133, R136): the choice of the frame, its slot, its begin and its end; background
eviction (R112); and what an access that dirties sets off. -/

namespace Sys2Proof.Machine

open Sys2Proof

/-- Background work of the media runs: in service, outside halt and the front-tier failed state (R161, R352). -/
def bgOk (s : State) : Bool := s.eu.phase == .service && !s.sec.halt && !s.ft.failed

/-- A DIRTY frame that may begin its destage: its device is active, its billet does not wait out R136 and every write to it
is covered by `REPL_ACK` (R206). -/
def destageable (s : State) (f : Nat) (x : Frame) : Bool :=
  x.st == .dirty && devActive s (frameDev f) && !s.mc.retry.contains x.billet
    && !s.tp.unackBillets.any (fun u => u.2 == x.billet)

/-- The oldest destageable frame that a test admits. -/
def oldestDirty (s : State) (p : Frame → Bool) : Option Nat :=
  (s.te.frames.foldl (fun (a : Option (Nat × Frame)) kv =>
    if destageable s kv.1 kv.2 && p kv.2 then
      (match a with
        | none => some kv
        | some b => if olderThan s kv.2 b.2 then some kv else a)
    else a) none).map (·.1)

/-- A destage or a read of the media ends its idleness (R140). -/
def mediaBusy (s : State) : State := { s with mctl := { s.mctl with idle := false, smoulder := false } }

/-- The lines of a frame, keyed by line. -/
def frameLines (s : State) (f : Nat) : Tab LineVal :=
  (s.ft.lines.filter (fun kv => kv.1 / 1024 == f)).map (fun kv => (kv.1 % 1024, kv.2))

/-- Begin the destage of a frame into a slot (R102, R133, R174). -/
def destageInto (ember : Bool) (f loc : Nat) (s : State) : State :=
  let (q, s) := takeSeq (mediaBusy (frameRead f s))
  let x := s.frame f
  let d : Destage := { frame := f, seq := q, loc := loc, gen := (s.seg (x.billet / 32)).gen, lines := frameLines s f, ember := ember }
  (s.modFrame f (fun x => { x with st := .destaging, redirty := false, dirtied := false })) |> fun s =>
    { s with mc := { s.mc with destages := s.mc.destages ++ [d] } }

/-- Begin the destage of a frame, when the media takes it (R137). -/
def destageStart (f : Nat) (s : State) : State :=
  match destageSlotNext false s with
  | some (loc, t) => destageInto false f loc t
  | none => s

/-- The dirty count exceeds half the ceiling: the oldest DIRTY frame begins its destage (R113). -/
def destagePump (s : State) : State :=
  if bgOk s && decide (ceilFrames s < 2 * dirtyCount s) then
    match oldestDirty s (fun _ => true) with
    | some f => destageStart f s
    | none => s
  else s

/-- The units of a frame that hold data or the marker (R127). -/
def unitsOf (lines : Tab LineVal) : BitVec 16 :=
  lines.foldl (fun (m : BitVec 16) kv => m ||| ((1#16) <<< (kv.1 / 64))) 0

/-- The units of a frame that hold the marker: their sectors carry `FLAGS` [3] (R128, R166). -/
def marksOf (lines : Tab LineVal) : BitVec 16 := unitsOf (lines.filter (fun kv => kv.2 == .poison))

/-- The slot a destage wrote, and the parity of its stripe once it is whole (R128, R133, R134). -/
def slotWrite (d : Destage) (b : Nat) (s : State) : State :=
  let m : MSlot := { billet := b, seq := d.seq, gen := d.gen, keyGen := mediaGen s, flags := b2n d.ember,
                     units := unitsOf d.lines, marks := marksOf d.lines, erase := 0, mode := 0 }
  parityAfter d.loc { s with mc := { s.mc with
      slots := s.mc.slots.set none d.loc (some (slotIn s d.loc m)),
      mlines := d.lines.foldl (fun t kv => t.set zeroLine (d.loc * 1024 + kv.1) kv.2)
        (Tab.clear s.mc.mlines (d.loc * 1024) (d.loc * 1024 + 1024)) } }

def findDestage (s : State) (f : Nat) : Option Destage := s.mc.destages.find? (fun d => d.frame == f)

def dropDestage (f : Nat) (s : State) : State :=
  { s with mc := { s.mc with destages := s.mc.destages.filter (fun d => d.frame != f) } }

/-- A line of a running destage's snapshot that has not been written since takes another value. -/
def snapLine (f l : Nat) (was v : LineVal) (s : State) : State :=
  { s with mc := { s.mc with destages := s.mc.destages.map (fun d =>
    if d.frame = f ∧ d.lines.get zeroLine l = was then { d with lines := d.lines.set zeroLine l v } else d) } }

/-- The outcome of one of a destage's reads: a line that is uncorrectable goes to the media as the marker (R83); one that fails
EDC three times leaves the frame to be destaged again (DESIGN CHOICE, notes/assumptions/104.md). A line written since the
destage read it is as it was read. -/
def destageRead (f : Nat) (s : State) (x : Nat × List RdRes) : State :=
  let put := snapLine f x.1 (getLine s f x.1) .poison
  if s.sec.halt || (findDestage s f).all (fun d => d.lines.get zeroLine x.1 != getLine s f x.1) then s
  else match ftRead f x.1 x.2 s with
    | (.poison, s) => put s
    | (.edc, s) => put (s.modFrame f (fun x => { x with redirty := true }))
    | (_, s) => s

/-- The frame after its destage (R102): CLEAN and no longer counted, or DIRTY where a write came in between. -/
def destaged (loc : Nat) (x : Frame) : Frame :=
  { x with st := if x.redirty then .dirty else .clean, mediaLoc := some loc, counted := x.redirty, redirty := false, fails := 0 }

/-- The twin is owed a credit for a frame freed below the ceiling: its writes to the segment are mirrored here (R118, R217). -/
def creditDue (s : State) (g : Nat) : Bool :=
  match s.tu.ps with
  | .inSync => true
  | .resyncTarget => s.tp.synced.contains g
  | _ => false

/-- A destage's program succeeds: location, journal record, counts; a dirty count lowered below the ceiling gives the twin a
credit in a pair (R118, R133). -/
def destageEnd (f : Nat) (s : State) : State :=
  match findDestage s f with
  | none => s
  | some d =>
    let b := (s.frame f).billet
    let was := (s.frame f).counted
    let s := (dropDestage f (slotWrite d b s)).modFrame f (destaged d.loc)
    let s := journalAdd b 0 d.loc s
    let s := { s with mctl := { s.mctl with destageCnt := satAdd (2 ^ 64 - 1) s.mctl.destageCnt 1 },
                      mc := { s.mc with retryRaised := s.mc.retryRaised.erase b } }
    let s := count 0x1025 0xFFFF 0 1 s
    if was && !(s.frame f).counted && decide (dirtyCount s < ceilFrames s) && creditDue s (b / 32) && linkUp s
    then linkSend (.credit 1) s else s

/-- A frame of a turf above its reserve that the background may evict (R112). -/
def bgEvict (s : State) : Option Nat :=
  if bgOk s && decide (freeCount s < shortfall s + 2048) then
    oldest s (fun x => decide (turfReserve s x.turf < held s x.turf))
  else none

/-- What follows an access: waiting accesses are tried again, destage and the media's levels follow (R113, R137). -/
def afterAccess (s : State) : State := mediaLevels (destagePump s)

end Sys2Proof.Machine
end

