-- ==== Sys2Proof/Machine/HostMem.lean ====
section
/-! DEFINITION. Requests of hosts: CXL.mem (R233, R235, R240), BAR2 of plain PCIe functions (R67, R68, R240, R241),
configuration (R228), the persistent flush (R235), FLR (R230) and port reset (R231). -/

namespace Sys2Proof.Machine

open Sys2Proof

/-! ## CXL.mem -/

/-- A port in CXL mode takes a CXL.mem request of this LD. -/
def cxlServes (s : State) (m : MReq) : Bool :=
  fnReached s m.port m.ld && !(s.port m.port).plain

/-- The DPA a request reaches through a decoder and a grant (R65, R105). -/
def cxlDpa (s : State) (m : MReq) : Option Nat :=
  match hdmRoute s m.port m.ld m.hpa with
  | some d => (match turfAt s d with
    | some (_, t) => if mayReach (.fn m.port m.ld) false t then some d else none
    | none => none)
  | none => none

def cxlAcc (m : MReq) (k : AccKind) (dpa : Nat) (wr : Option (Line × BitVec 64)) (rd : List RdRes) : Acc :=
  { who := .fn m.port m.ld, port := m.port, tag := m.tag, kind := k, dpa := dpa, wr := wr, rd := rd }

/-- The access of a request, as the rows that give it no effect name it; past U where it reaches no turf. -/
def cxlNone (m : MReq) (k : AccKind) (s : State) : Acc := cxlAcc m k ((cxlDpa s m).getD (uBytes s)) none []

/-- DevLoad of a response that reached no turf: what its port and the device wait for (R234). -/
def devLoadNone (s : State) (p : Nat) : Nat := devLoad s p 0xFFFF

/-- A CXL.mem line read (R233): an address no committed decoder covers reads as all ones with poison. -/
def memRead (m : MReq) (rd : List RdRes) (s : State) : State :=
  if !cxlServes s m then s
  else if notReady s then answerNotReady (cxlNone m .cxlRd s) s
  else match cxlDpa s m with
    | none => count 0x0023 m.port 0 1 (completed (cxlNone m .cxlRd s) 0 true
        (emit (.s2mAllOnes m.port m.ld m.tag (devLoadNone s m.port))
          (count 0x0021 m.port 1 64 (s.modPort m.port (fun p => { p with poisonOut := inc32 p.poisonOut })))))
    | some d => afterAccess (submit (cxlAcc m .cxlRd d none rd) s)
def execMemrd (m : MReq) (rd : List RdRes) (s : State) : Res := run (Instr.wf (.memrd m rd)) (memRead m rd s)

/-- MemRdData is served as MemRd (R233). -/
def memReadData (m : MReq) (rd : List RdRes) (s : State) : State := memRead m rd s
def execMemrddata (m : MReq) (rd : List RdRes) (s : State) : Res := run (Instr.wf (.memrddata m rd)) (memReadData m rd s)

/-- The completion of a CXL.mem write that has no effect; `PX_DISCARD` counts it (R68, R233). -/
def cxlWriteLost (m : MReq) (part : Bool) (s : State) : State :=
  emit (.s2mCmp m.port m.ld m.tag (devLoad s m.port (tinfo s ((cxlDpa s m).getD (uBytes s))).id))
    (completed (cxlNone m .cxlWr s) (if part then 2 else 1) false
      (s.modPort m.port (fun p => { p with discard := inc32 p.discard })))

/-- A write through a read-only grant: discarded, counted, reported to the grantee (R68): `PARAM` holds the DPA, and `AUX` the
number of the grantee, whose port is its upper part (notes/assumptions/100.md). -/
def denied (p f dpa : Nat) (s : State) : State :=
  (chanList s (.fn p f) ++ [31]).eraseDups.foldl (fun s ch => notePut ch 0x0005 (agentNum (.fn p f)) dpa s)
    (count 0x0005 p 0 1 s)

/-- A CXL.mem write of the enabled bytes of one line (R68, R84, R233, R240). One that carries poison counts as such where it would
have had an effect: memory is ready and a decoder covers its address (DESIGN CHOICE, notes/assumptions/101.md). -/
def memWrite (m : MReq) (data : Line) (mask : BitVec 64) (poison : Bool) (rd : List RdRes) (s : State) : State :=
  if !cxlServes s m then s
  else
    let s := count 0x0020 m.port 0 64 s
    let part := mask != fullMask
    if notReady s then answerNotReady (cxlNone m .cxlWr s) s
    else match cxlDpa s m with
      | none => cxlWriteLost m part s
      | some d =>
        if poison then
          raise 0x0004 m.port d (.dpa d) (emit (.s2mCmp m.port m.ld m.tag (devLoad s m.port (tinfo s d).id))
            (completed (cxlNone m .cxlWr s) (if part then 2 else 1) false
              (s.modPort m.port (fun p => { p with poisonIn := inc32 p.poisonIn }))))
        else match turfAt s d with
          | some (_, t) =>
            if mayReach (.fn m.port m.ld) true t then
              afterAccess (submit (cxlAcc m .cxlWr d (some (data, mask)) rd) s)
            else denied m.port m.ld d (cxlWriteLost m part s)
          | none => cxlWriteLost m part s

/-- MemWr: the whole line; `edcFails` sends of the line failed EDC (R85). -/
def memwr (m : MReq) (data : Line) (poison : Bool) (edcFails : Nat) (s : State) : State :=
  memWrite m data fullMask poison (List.replicate (min 3 edcFails) .edcFail) s
def execMemwr (m : MReq) (data : Line) (poison : Bool) (edcFails : Nat) (s : State) : Res :=
  run (Instr.wf (.memwr m data poison edcFails)) (memwr m data poison edcFails s)

/-- MemWrPtl: the enabled bytes, read-modify-write (R84). -/
def memwrptl (m : MReq) (data : Line) (mask : BitVec 64) (poison : Bool) (rd : List RdRes) (s : State) : State :=
  memWrite m data mask poison rd s
def execMemwrptl (m : MReq) (data : Line) (mask : BitVec 64) (poison : Bool) (rd : List RdRes) (s : State) : Res :=
  run (Instr.wf (.memwrptl m data mask poison rd)) (memwrptl m data mask poison rd s)

/-- MemSpecRd is accepted and dropped without a response (R233). -/
def memspecrd (_ : MReq) (s : State) : State := s
def execMemspecrd (m : MReq) (s : State) : Res := run (Instr.wf (.memspecrd m)) (memspecrd m s)

/-- Any other M2S opcode is answered as one the device does not support (R233). -/
def otherM2s (m : MReq) (opcode : Nat) (s : State) : State :=
  if cxlServes s m then emit (.s2mUnsupported m.port m.ld m.tag opcode) s else s
def execUnsupportedM2sOpcode (m : MReq) (opcode : Nat) (s : State) : Res :=
  run (Instr.wf (.unsupportedM2sOpcode m opcode)) (otherM2s m opcode s)

/-! ## BAR2 -/

/-- A function of a plain port takes a memory request. -/
def barServes (s : State) (p f : Nat) : Bool := fnReached s p f && (s.port p).plain

/-- The DPA of a BAR2 offset, inside the mapped length and a granted turf (R67). -/
def barDpa (s : State) (p f off len : Nat) : Option Nat :=
  let w := s.te.winMap.get (0, 0) (p * 16 + f)
  if off + len ≤ w.2 && covered s (mayReach (.fn p f) false) (w.1 + off) (w.1 + off + len) then some (w.1 + off) else none

/-- Cut `[dpa, dpa + n)` into the pieces of its lines: offset from the start, and length. -/
def linePieces : Nat → Nat → Nat → List (Nat × Nat)
  | 0, _, _ => []
  | k + 1, dpa, n =>
    if n = 0 then []
    else
      let m := min n (64 - dpa % 64)
      (dpa, m) :: linePieces k (dpa + m) (n - m)

/-- The accesses of a BAR2 read: one a line; the outcomes of the first line's reads are the operand's. -/
def barReadAccs (p f tag dpa n : Nat) (rd : List RdRes) : List Acc :=
  (linePieces 65 dpa n).map (fun x =>
    { who := .fn p f, port := p, tag := tag, kind := .barRd (x.1 % 64) x.2, dpa := x.1 / 64 * 64,
      rd := if x.1 = dpa then rd else [], more := x.1 != dpa })

/-- A BAR2 read (R67, R235, R240, R241). -/
def bar2Read (p f tag off len : Nat) (rd : List RdRes) (s : State) : State :=
  if !barServes s p f then s
  else if (s.fn p f).d3 then answerUr p f tag off s
  else if notReady s then answerNotReady { who := .fn p f, port := p, tag := tag, kind := .barRd 0 len, dpa := off } s
  else match barDpa s p f off len with
    | none => answerUr p f tag off s
    | some d => afterAccess ((barReadAccs p f tag d len rd).foldl (fun s a => submit a s) s)
def execBar2Read (port func tag off len : Nat) (rd : List RdRes) (s : State) : Res :=
  run (Instr.wf (.bar2Read port func tag off len rd)) (bar2Read port func tag off len rd s)

/-- The bytes of a piece as a line and its mask. -/
def pieceLine (dpa : Nat) (bs : List Byte) : Line × BitVec 64 :=
  (putBytes 0 (dpa % 64) bs, maskAt (dpa % 64) bs.length)

def barWriteAccs (p f dpa : Nat) (bs : List Byte) (relaxed : Bool) (rd : List RdRes) : List Acc :=
  (linePieces 65 dpa bs.length).map (fun x =>
    { who := .fn p f, port := p, kind := .barWr relaxed, dpa := x.1 / 64 * 64,
      wr := some (pieceLine x.1 ((bs.drop (x.1 - dpa)).take x.2)), rd := if x.1 = dpa then rd else [],
      more := x.1 != dpa })

/-- A posted write that is discarded and reported as an Unsupported Request (R67, R68). -/
def barWriteLost (p f : Nat) (s : State) : State :=
  logAer p f .unsupportedRequest (s.modPort p (fun q => { q with discard := inc32 q.discard }))

/-- A BAR2 write (R67, R68, R235, R240, R241). -/
def bar2Write (p f off : Nat) (bs : List Byte) (relaxed poison : Bool) (rd : List RdRes) (s : State) : State :=
  if !barServes s p f then s
  else
    let s := count 0x0020 p 0 bs.length s
    if (s.fn p f).d3 then logAer p f .unsupportedRequest s
    else if poison then
      logAer p f .poisonedTlp (s.modPort p (fun q => { q with poisonIn := inc32 q.poisonIn }))
    else if notReady s then answerNotReady { who := .fn p f, port := p, kind := .barWr relaxed, dpa := off } s
    else match barDpa s p f off bs.length with
      | none => logAer p f .unsupportedRequest s
      | some d =>
        if covered s (mayReach (.fn p f) true) d (d + bs.length) then
          afterAccess ((barWriteAccs p f d bs relaxed rd).foldl (fun s a => submit a s) s)
        else denied p f d (barWriteLost p f s)
def execBar2Write (port func off : Nat) (bytes : List Byte) (relaxed poison : Bool) (rd : List RdRes) (s : State) : Res :=
  run (Instr.wf (.bar2Write port func off bytes relaxed poison rd)) (bar2Write port func off bytes relaxed poison rd s)

/-- An AtomicOp request is answered with Unsupported Request (R228, R241). -/
def atomicOp (p f tag : Nat) (s : State) : State :=
  if fnReached s p f then answerUr p f tag 0 s else s
def execAtomicopRequest (port func tag : Nat) (s : State) : Res :=
  run (Instr.wf (.atomicopRequest port func tag)) (atomicOp port func tag s)

/-! ## Configuration space (R228; notes/assumptions/12.md places its capabilities) -/

/-- Pending vectors of a function that may fire now each fire once (R243). -/
def firePending (p f : Nat) (s : State) : State :=
  (List.range 64).foldl (fun s v =>
    let x := s.fn p f
    if x.pend.getLsbD v && x.msixEn && !x.msixMask && !(x.msix.get {} v).mask then
      emit (.msix p f v) (s.modFn p f (fun x => { x with pend := x.pend &&& ~~~((1#64) <<< v) }))
    else s) s

/-- The words of a host function's configuration space that the spec fixes; `none` where it fixes none. -/
def cfgFixed (s : State) (p f off : Nat) : Option Nat :=
  let q := s.port p
  let x := s.fn p f
  match off with
  | 0x00 => some 0x09601D5F
  | 0x04 => some (0x00100000 + 2 * b2n x.mse + 4 * b2n x.bme)
  | 0x08 => some ((if q.plain then 0x058000 else 0x050210) * 256 + 0xB1)
  | 0x0C => some (if (portFns s p).length ≤ 1 then 0 else 0x00800000)
  | 0x10 => some (x.cfg.get 0 off / 2 ^ 22 * 2 ^ 22 + 4)
  | 0x18 => some (if q.plain then x.cfg.get 0 off / 2 ^ min 32 q.bar2Log2 * 2 ^ min 32 q.bar2Log2 + 0xC else 0)
  | 0x1C => some (if q.plain then x.cfg.get 0 off / 2 ^ (q.bar2Log2 - 32) * 2 ^ (q.bar2Log2 - 32) else 0)
  | 0x14 => some (x.cfg.get 0 off)
  | 0x20 | 0x24 | 0x28 | 0x30 => some 0
  | 0x2C => some (s.pageNat 64 40 4)
  | 0x34 => some 0x40
  | 0x40 => some 0x00035001
  | 0x44 => some (if x.d3 then 3 else 0)
  | 0x50 => some (0x003F6011 + 0x40000000 * b2n x.msixMask + 0x80000000 * b2n x.msixEn)
  | 0x54 => some 0x1000
  | 0x58 => some 0x1800
  | 0x60 => some 0x00020010
  | 0x64 => some 0x10008022
  | 0x84 => some (0x0003001F)
  | 0x200 => if q.plain then none else some (0x24010023)
  | 0x204 => if q.plain then none else some 0x03C31E98
  | 0x218 => if q.plain then none else some (uBytes s / 2 ^ 32)
  | 0x21C => if q.plain then none else some (uBytes s % 2 ^ 32 + 1 + 2 * b2n (!notReady s))
  | 0x240 => if q.plain then none else some 0x00010023
  | 0x244 => if q.plain then none else some 0x01001E98
  | 0x248 => if q.plain then none else some 0x00000005
  | 0x24C => if q.plain then none else some 0
  | 0x104 => some (0x00400000 * b2n (x.aer.contains .internal) + 0x1000 * b2n (x.aer.contains .poisonedTlp)
      + 0x4000 * b2n (x.aer.contains .completionTimeout) + 0x8000 * b2n (x.aer.contains .completerAbort)
      + 0x00100000 * b2n (x.aer.contains .unsupportedRequest))
  | 0x108 => some (x.cfg.get 0 off / 2 ^ 23 * 2 ^ 23 + x.cfg.get 0 off % 2 ^ 22)
  | 0x10C => some ((x.cfg.get 0 off ^^^ 0x00462030) ||| 0x00400000)
  | 0x154 => some (s.board.serial % 2 ^ 32)
  | 0x158 => some (s.board.serial / 2 ^ 32)
  | _ => none

/-- The AER errors a write-one-to-clear of the uncorrectable status clears. -/
def aerCleared (v : Nat) (e : AerErr) : Bool :=
  match e with
  | .internal => v / 2 ^ 22 % 2 == 1
  | .poisonedTlp => v / 2 ^ 12 % 2 == 1
  | .completionTimeout => v / 2 ^ 14 % 2 == 1
  | .completerAbort => v / 2 ^ 15 % 2 == 1
  | .unsupportedRequest => v / 2 ^ 20 % 2 == 1
  | .receiver => false

/-- Write a configuration word. -/
def cfgWrite (p f off v : Nat) (s : State) : State :=
  match off with
  | 0x04 => s.modFn p f (fun x => { x with mse := v / 2 % 2 == 1, bme := v / 4 % 2 == 1 })
  | 0x44 => s.modFn p f (fun x => { x with d3 := v % 4 == 3 })
  | 0x50 => firePending p f (s.modFn p f (fun x =>
      { x with msixMask := v / 2 ^ 30 % 2 == 1, msixEn := v / 2 ^ 31 % 2 == 1 }))
  | 0x104 => s.modFn p f (fun x => { x with aer := x.aer.filter (fun e => !aerCleared v e) })
  | 0x00 | 0x08 | 0x0C | 0x20 | 0x24 | 0x28 | 0x2C | 0x30 | 0x34 | 0x40 | 0x54 | 0x58 | 0x60 | 0x64 | 0x84 | 0x154 | 0x158 => s
  | 0x200 | 0x204 | 0x218 | 0x21C | 0x240 | 0x244 | 0x248 | 0x24C => s
  | 0x10C => s.modFn p f (fun x => { x with cfg := x.cfg.set 0 off (v ^^^ 0x00462030) })
  | _ => s.modFn p f (fun x => { x with cfg := x.cfg.set 0 off v })

/-- Read a configuration word: a word that neither the spec fixes nor a write has set reads a free value. -/
def cfgRead (p f off : Nat) (s : State) : State :=
  match cfgFixed s p f off with
  | some v => emit (.cfgCpl p f off (some (BitVec.ofNat 32 v))) s
  | none =>
    let v := (s.fn p f).cfg.get 0 off
    if v ≠ 0 then emit (.cfgCpl p f off (some (BitVec.ofNat 32 v))) s
    else emit (.cfgCpl p f off (some (BitVec.ofNat 32 (Config.freeRead s.free)))) (draw s)

/-- A configuration request: served in D3hot too; a function the port does not have answers Unsupported Request. -/
def configRequest (p f off : Nat) (wr : Option Word) (s : State) : State :=
  if !portServes s p then s
  else if !(portFns s p).contains f then emit (.cfgCpl p f off none) s
  else match wr with
    | some v => emit (.cfgCpl p f off (some v)) (cfgWrite p f off v.toNat s)
    | none => cfgRead p f off s
def execConfigurationRequest (port func off : Nat) (wr : Option Word) (s : State) : Res :=
  run (Instr.wf (.configurationRequest port func off wr)) (configRequest port func off wr s)

/-! ## Flush and resets -/

/-- A Global Persistent Flush completes both phases at once (R21, R235). -/
def gpfFlush (p : Nat) (s : State) : State :=
  if portServes s p && !(s.port p).plain then emit (.gpf p) s else s
def execGlobalPersistentFlush (port : Nat) (s : State) : Res :=
  run (Instr.wf (.globalPersistentFlush port)) (gpfFlush port s)

/-- Function Level Reset (R230). -/
def flr (p f : Nat) (s : State) : State :=
  if fnReached s p f then
    fnReset p f (dropAnswers (fun a => a == .fn p f) s)
  else s
def execFunctionLevelReset (port func : Nat) (s : State) : Res :=
  run (Instr.wf (.functionLevelReset port func)) (flr port func s)


end Sys2Proof.Machine
end

