-- ==== Sys2Proof/Machine/Front.lean ====
section
/-! DEFINITION. The front tier (05): write-back, re-track, refresh bands, patrol, row sparing, retirement, raw access and the
front-tier commands and registers. -/

namespace Sys2Proof.Machine

open Sys2Proof

/-! ## Registers -/

/-- `FT_CFG`. -/
def ftCfgReg (s : State) : Nat :=
  b2n s.ft.trained + 2 * b2n s.ft.tested + 4 * s.ft.speed + 16 * s.ft.density + 64 * b2n s.ft.failed
    + 2 ^ 16 * retiredCount s

/-- `FT_DEV_STAT` of a device. -/
def ftDevReg (s : State) (d : Nat) : Nat :=
  let x := s.ftDev d
  x.margin + 2 ^ 10 * x.rband + 2 ^ 12 * spareUsed s d + 2 ^ 23 * spareMin s d + 2 ^ 30 * x.st

/-- `FT_SCRUB`: passes, and the progress of the pass in 1/65,536. -/
def ftScrubReg (s : State) : Nat :=
  s.ft.patPass * 2 ^ 16 + (s.ft.patFrame * 1024 + s.ft.patLine) * 65536 / (max 1 (numFrames s) * 1024)

def ftRetiredReg (s : State) : Nat :=
  (List.range 32).foldl (fun n d => n + b2n (devRetired s d) * 2 ^ d) 0

def ftRawCtlReg (s : State) : Nat := b2n s.ft.rawEn + 2 * s.ft.rawCmd + 16 * b2n s.ft.rawBusy + 2 ^ 31 * b2n s.ft.rawLock
def ftRawAddrReg (s : State) : Nat := s.ft.rawLine + 2 ^ 27 * s.ft.rawDev
def ftRawResultReg (s : State) : Nat := s.ft.rawPos * 2 ^ 20 + s.ft.rawOutcome * 2 ^ 26 + s.ft.rawStatus * 2 ^ 28

/-! ## Write-back and re-track -/

/-- A corrected line is written back by the two accesses of R80, unless a write superseded it (R82). -/
def correctedWriteBack (f l : Nat) (s : State) : State :=
  if s.ft.wb.contains (f, l) then
    checkWrite f l (ftAccess (frameDev f) 2 { s with ft := { s.ft with wb := s.ft.wb.erase (f, l) } })
  else s
def execCorrectedLineWriteBack (frame line : Nat) (s : State) : Res :=
  run (Instr.wf (.correctedLineWriteBack frame line)) (correctedWriteBack frame line s)

/-- The smallest eye margin accepted in a refresh band, in 1/100 UI (R86). -/
def minMargin (band : Nat) : Nat := if band = 0 then 30 else if band = 1 then 25 else 20

/-- A margin in 1/256 UI falls below the figure of the band. -/
def marginLow (band m : Nat) : Bool := decide (m * 100 < minMargin band * 256)

/-- Re-track of a device: a low pin is retrained once; still low, or no response, makes a candidate (R85, R86, R89). -/
def ftRetrack (d margin retrained : Nat) (responds : Bool) (s : State) : State :=
  if devRetired s d then s
  else if !responds then candidate d s
  else if marginLow s.ft.band margin then
    let s := s.modFtDev d (fun x => { x with margin := retrained })
    if marginLow s.ft.band retrained then candidate d s else s
  else s.modFtDev d (fun x => { x with margin := margin })
def execFtRetrack (dev margin retrained : Nat) (responds : Bool) (s : State) : Res :=
  run (Instr.wf (.ftRetrack dev margin retrained responds)) (ftRetrack dev margin retrained responds s)

/-! ## Refresh bands (R86) -/

/-- The refresh band of a reading in quarter degrees (R7). -/
def bandOfTemp (t : Int) : Nat := if t < 340 then 0 else if t < 400 then 1 else 2

/-- The readings of the GDDR6 devices. -/
def gddrTemps (temps : List Int) (s : State) : State :=
  let live := temps.zipIdx.filter (fun x => !devRetired s x.2)
  let s := live.foldl (fun s x => s.modFtDev x.2 (fun d => { d with rband := bandOfTemp x.1 })) s
  refreshSeen { s with ft := { s.ft with hotDev := live.foldl (fun m x => max m (bandOfTemp x.1)) 0 } }
def execGddr6TemperatureReading (temps : List Int) (s : State) : Res :=
  run (Instr.wf (.gddr6TemperatureReading temps)) (gddrTemps temps s)

/-- A refresh command: a hotter refresh band takes effect. -/
def perBankRefresh (s : State) : State := { s with ft := { s.ft with band := max s.ft.band s.ft.bandSeen } }
def execPerBankRefresh (s : State) : Res := run true (perBankRefresh s)

/-- A cooler refresh band that has held for 100 ms takes effect. -/
def refreshCooler (s : State) : State := { s with ft := { s.ft with band := min s.ft.band s.ft.bandSeen } }
def execRefreshBandCooler (s : State) : Res := run true (refreshCooler s)

/-! ## Patrol and sparing -/

/-- The patrol pointer moves on (FT_SCRUB). -/
def patrolNext (s : State) : State :=
  if s.ft.patLine < 1023 then { s with ft := { s.ft with patLine := s.ft.patLine + 1 } }
  else if s.ft.patFrame + 1 < numFrames s then { s with ft := { s.ft with patLine := 0, patFrame := s.ft.patFrame + 1 } }
  else { s with ft := { s.ft with patLine := 0, patFrame := 0, patPass := (s.ft.patPass + 1) % 2 ^ 16 } }

/-- The FT's background work runs: the front tier is trained, nothing has stopped it (R161, R352). -/
def ftWorks (s : State) : Bool := s.ft.trained && bgOk s

/-- One line of the patrol: every line of every active device, whatever its frame holds (R86). -/
def patrolStep (rd : List RdRes) (s : State) : State :=
  if !ftWorks s then s
  else
    let f := s.ft.patFrame
    let l := s.ft.patLine
    let s := patrolNext s
    if devActive s (frameDev f) then (ftRead f l rd s).2 else s
def execPatrolStep (rd : List RdRes) (s : State) : Res := run true (patrolStep rd s)

/-- The frame and line at place `i` of a pair-row of a device (R76). -/
def rowFrame (d rho i : Nat) : Nat := (rho * 56 + i) / 1024 * 32 + d
def rowLine (rho i : Nat) : Nat := (rho * 56 + i) % 1024

/-- A sparing that has copied its last line: the remap tables go to the media (R88). -/
def sparingDone (q : RowSpare) (s : State) : State :=
  let s := { s with ft := { s.ft with spareQ := s.ft.spareQ.erase q } }
  if s.mc.formatted then remapWrite s else s

/-- One line of a row sparing is copied; an uncorrectable line is copied as the marker (R87). -/
def rowSparingCopy (rd : List RdRes) (s : State) : State :=
  match s.ft.spareQ with
  | [] => s
  | q :: _ =>
    if devRetired s q.dev then { s with ft := { s.ft with spareQ := s.ft.spareQ.erase q } }
    else
      let f := rowFrame q.dev q.row q.next
      let l := rowLine q.row q.next
      let s := ftAccess q.dev 2 (ftRead f l rd s).2
      if 56 ≤ q.next + 1 then sparingDone q s
      else { s with ft := { s.ft with spareQ := s.ft.spareQ.map (fun x => if x = q then { q with next := q.next + 1 } else x) } }
def execRowSparingCopy (rd : List RdRes) (s : State) : Res := run true (rowSparingCopy rd s)

/-! ## Retirement (R90) -/

/-- A frame for the copy of a retirement: a free one, or the oldest clean frame evicted for it. -/
def frameForCopy (s : State) : Option (Nat × State) :=
  match freeFrame s with
  | some f => some (f, s)
  | none => match oldest s (fun _ => true) with
    | some f => some (f, releaseClean f s)
    | none => none

/-- The twin holds a copy of a billet: every write to its segment reaches both (R90, R91). -/
def twinHas (s : State) (b : Nat) : Bool := mirrored s (b / 32) || s.tu.ps == .resyncTarget

/-- A line of frame `f` that cannot be read is counted and reported (R83); in its copy `g` it is taken from the twin's copy in
a pair, and is the marker without one (R90). -/
def copyBad (f g : Nat) (twinLines : List (Nat × Line)) (s : State) (l : Nat) : State :=
  let b := (s.frame g).billet
  let dpa := lineDpa b l
  let s := ueReport f l s
  match (if twinHas s b then twinLines.find? (fun x => x.1 == l) else none) with
  | some x => putLine g l (.data x.2) s
  | none => cxlLog 2 1 0x0801 dpa (.dpa dpa) (poisonLine g l s)

/-- Put the billet, the record and the lines of frame `f` into frame `g`. -/
def frameInto (x : Frame) (f g : Nat) (t : State) : State :=
  let q := frameDev g * 2 ^ 26 + pairLine g 0
  { t with te := { t.te with frames := (t.te.frames.set {} g
                                          { x with st := .dirty, redirty := false, touched := true, fails := 0 }),
                             map := t.te.map.set .unmapped x.billet (.res g) },
           ft := { t.ft with lines := Tab.copy zeroLine t.ft.lines (f * 1024) (g * 1024) 1024,
                             rawSlots := Tab.clear t.ft.rawSlots q (q + 1024) } }

/-- The lines of a copied frame that could not be read and were not poisoned before. -/
def copyBads (f g : Nat) (bad : List Nat) (twinLines : List (Nat × Line)) (t : State) : State :=
  (bad.filter (fun l => decide (l < 1024) && getLine t g l != .poison)).foldl (copyBad f g twinLines) t

/-- Step 3 of R90: a dirty frame of a retiring device is copied to another device, and the tier map is switched. -/
def dirtyFrameCopy (f : Nat) (bad : List Nat) (twinLines : List (Nat × Line)) (s : State) : State :=
  let x := s.frame f
  if (s.ftDev (frameDev f)).st != 1 || !(x.st == .dirty || x.st == .destaging) then s
  else match frameForCopy s with
    | none => s
    | some (g, t) =>
      let t := frameInto x f g (ftAccess (frameDev g) 2048 (frameRead f (dropDestage f t)))
      settle (dirtiedRecord g (copyBads f g bad twinLines (dropFrame f t)))
def execDirtyFrameCopy (frame : Nat) (bad : List Nat) (twinLines : List (Nat × Line)) (s : State) : Res :=
  run (Instr.wf (.dirtyFrameCopy frame bad twinLines)) (dirtyFrameCopy frame bad twinLines s)

/-- Move table page `k` of a device that retires to a frame of another (R97); none while no frame can be had. -/
def moveTable (s : Option State) (k : Nat) : Option State :=
  (s.bind frameForCopy).map (fun x => { x.2 with te := { x.2.te with tindex := x.2.te.tindex.set 0 k (x.1 + 1) } })

/-- Table pages that a device holds: those placed at kindling, by rank, and those moved onto it. -/
def tablePages (s : State) (d : Nat) : List Nat :=
  let act := (List.range 32).filter (fun x => !s.te.kindRet.getLsbD x)
  let i := (act.filter (fun x => decide (x < d))).length
  (List.range (tablesPlaced s d)).map (fun r => r * act.length + i)
    ++ (s.te.tindex.filter (fun kv => kv.2 != 0 && frameDev (kv.2 - 1) == d)).map (·.1)

/-- Step 4 of R90: no frame of the device is in use any more, and every table page it held has moved. -/
def deviceRetired (d : Nat) (s : State) : State :=
  if (s.ftDev d).st != 1
      || s.te.frames.any (fun kv => frameDev kv.1 == d && frUsed kv.2.st && !(kv.2.st == .clean || kv.2.st == .evicting)) then s
  else
    let s' := s.te.frames.foldl (fun s kv => if frameDev kv.1 == d && frUsed kv.2.st then releaseClean kv.1 s else s) s
    match (tablePages s' d).foldl moveTable (some s') with
    | none => s
    | some s =>
    let s := s.modFtDev d (fun x => { x with st := 2 })
    let s := { s with te := { s.te with pool := s.te.pool - usable s.ft.density } }
    let s := ledger 0x0805 (srcDev d) [d] (raise 0x0805 d 0 .nothing s)
    let s := if s.ft.retireDev = some d then endBlock 0x0201 0 0 { s with ft := { s.ft with retireDev := none } } else s
    settle s
def execGddr6DeviceRetired (dev : Nat) (s : State) : Res :=
  run (Instr.wf (.gddr6DeviceRetired dev)) (deviceRetired dev s)

/-! ## Raw access (R94) -/

/-- Pair-lines of a device: the frame slots, then the spare rows (R75, R76). -/
def rawTarget (s : State) (d q : Nat) : Bool :=
  if q < usable s.ft.density * 1024 then !isTable s (q / 1024 * 32 + d) && !frUsed (s.frame (q / 1024 * 32 + d)).st
  else
    let rho := pairRow q
    decide (rowInBank rho < rowsPerBank s.ft.density)
      && decide (sparesTaken s d (rowBank rho) ≤ rowInBank rho - (rowsPerBank s.ft.density - 64))

def rawKey (d q : Nat) : Nat := d * 2 ^ 26 + q

/-- The stored bits of a raw slot: what a raw write left, else a free value. -/
def rawBits (s : State) (d q : Nat) : Line × BitVec 64 :=
  match s.ft.rawSlots.find? (fun kv => kv.1 == rawKey d q) with
  | some (_, x) => (x.data, x.check)
  | none => (Config.freeLine s.free, (Config.freeLine (s.free + 1)).setWidth 64)

/-- The poison marker of R83. -/
def isMarker (v : Line × BitVec 64) : Bool := v.1 == 0 && v.2 == 0xA5A5A5A5A5A5A5A5

/-- A raw command: 1 write, 2 read, 3 decode; `STATUS` 2 not enabled, 3 reserved, 4 retired, 1 in use. -/
def rawOp (cmd : Nat) (s : State) : State :=
  let d := s.ft.rawDev
  let q := s.ft.rawLine
  let stat (n : Nat) : State := { s with ft := { s.ft with rawStatus := n, rawCmd := cmd } }
  if !s.ft.rawEn then stat 2
  else if cmd = 0 ∨ 4 ≤ cmd then stat 3
  else if devRetired s d then stat 4
  else if !rawTarget s d q then stat 1
  else
    let v := rawBits s d q
    if cmd = 1 then
      { s with ft := { s.ft with rawStatus := 0, rawCmd := cmd,
                                 rawSlots := s.ft.rawSlots.insert (rawKey d q) ⟨s.ft.rawData, s.ft.rawCheck⟩ } }
    else if cmd = 2 then
      draw (draw { s with ft := { s.ft with rawStatus := 0, rawCmd := cmd, rawData := v.1, rawCheck := v.2 } })
    else
      let p0 : BitVec 16 := v.2.setWidth 16
      let p1 : BitVec 16 := (v.2 >>> 16).setWidth 16
      let sy := syndromes v.1 p0 p1
      let (o, pos) : Nat × Nat := if isMarker v then (3, 0) else match rsDecode v.1 p0 p1 with
        | .clean => (0, 0)
        | .corrected j => (1, j)
        | .uncorrectable => (2, 0)
      draw (draw { s with ft := { s.ft with rawStatus := 0, rawCmd := cmd, rawOutcome := o, rawPos := pos,
                                            rawSynd := sy.2.toNat * 2 ^ 16 + sy.1.toNat } })

/-- A firmware core writes `CMD` of `FT_RAW_CTL`. -/
def rawBy (i cmd : Nat) (s : State) : State := regWrite (.core i) (rawOp cmd) s

def ftRawWrite (i : Nat) (s : State) : State := rawBy i 1 s
def execFtRawWrite (core : Nat) (s : State) : Res := run (coreOk core) (ftRawWrite core s)
def ftRawRead (i : Nat) (s : State) : State := rawBy i 2 s
def execFtRawRead (core : Nat) (s : State) : Res := run (coreOk core) (ftRawRead core s)
def ftRawDecode (i : Nat) (s : State) : State := rawBy i 3 s
def execFtRawDecode (core : Nat) (s : State) : Res := run (coreOk core) (ftRawDecode core s)

/-- `LOCK` of `FT_RAW_CTL` is set: it blocks `EN` until cold reset. -/
def ftRawLock (i : Nat) (s : State) : State :=
  regWrite (.core i) (fun s => { s with ft := { s.ft with rawLock := true } }) s
def execFtRawLock (core : Nat) (s : State) : Res := run (coreOk core) (ftRawLock core s)

/-! ## Commands -/

/-- `FRONT_QUERY`. -/
def frontData (s : State) : List Byte :=
  pack (([Fld.n4 (ftCfgReg s)] ++ (List.range 32).map (fun d => Fld.n4 (ftDevReg s d))
    ++ (List.range 32).map (fun d => Fld.n4 (s.ftDev d).ce) ++ (List.range 32).map (fun d => Fld.n4 (s.ftDev d).ue))
    ++ [.n4 (dirtyCount s), .n4 (ceilFrames s), .n4 (ftScrubReg s)])
def frontQuery (rq : Rq) (s : State) : State := query 0x0200 rq frontData s
def execFrontQuery (rq : Rq) (s : State) : Res := run rq.wf (frontQuery rq s)

/-- `FRONT_RETIRE`: the reply is written when the device is retired (R90). -/
def frontRetire (rq : Rq) (dev : Nat) (s : State) : State :=
  atornQ 0x0201 rq
    (fun s => { params := [[.n4 dev]], bad := [decide (32 ≤ dev)],
                refuse := [(s.ftDev dev).st != 0, decide (2 ≤ retiredCount s), inEmber s] })
    (fun s => candidate dev { s with ft := { s.ft with retireDev := some dev } }) s
def execFrontRetire (rq : Rq) (dev : Nat) (s : State) : Res :=
  run (Instr.wf (.frontRetire rq dev)) (frontRetire rq dev s)

/-- `DIRTY_CEILING_SET`: a lowered ceiling governs at once, a raised one when it is written to the option bytes (R92). -/
def dirtyCeilingSet (rq : Rq) (gib : Nat) (s : State) : State :=
  atornQ 0x0202 rq
    (fun s => { params := [[.n4 gib]], bad := [gib == 0 || decide (16 < gib)], refuse := [false, decide (s.eu.ceilSupported < gib)] })
    (fun s => commit { page := 35, off := 4, bytes := leBytes 1 gib, act := .reply rq.ch rq.tag }
      (if gib < s.ft.ceilGib then { s with ft := { s.ft with ceilGib := gib } } else s)) s
def execDirtyCeilingSet (rq : Rq) (gib : Nat) (s : State) : Res :=
  run (Instr.wf (.dirtyCeilingSet rq gib)) (dirtyCeilingSet rq gib s)

/-- `FRONT_RAW` (operations 0 write, 1 read, 2 decode), refused under the conditions of R94 in its order. -/
def frontRaw (rq : Rq) (op dev line : Nat) (data : Line) (check : BitVec 64) (s : State) : State :=
  atornQ 0x0203 rq
    (fun s => { params := [[.n4 op], [.n4 dev], [.n4 line], [.raw (bytesOf data 0 64)], [.raw (leBytes 8 check.toNat)]], bad := [decide (3 ≤ op), decide (32 ≤ dev), decide (2 ^ 26 ≤ line)],
                refuse := [!s.ft.rawEn, devRetired s dev || !rawTarget s dev line] })
    (fun s =>
      let s := rawOp (op + 1) { s with ft := { s.ft with rawDev := dev, rawLine := line,
                                                         rawData := if op = 0 then data else s.ft.rawData,
                                                         rawCheck := if op = 0 then check else s.ft.rawCheck } }
      ok rq (pack [.n4 (ftRawResultReg s), .n4 s.ft.rawSynd, .raw (bytesOf s.ft.rawData 0 64),
        .n8 s.ft.rawCheck.toNat]) (setCommitted rq s)) s
def execFrontRaw (rq : Rq) (op dev line : Nat) (data : Line) (check : BitVec 64) (s : State) : Res :=
  run (Instr.wf (.frontRaw rq op dev line data check)) (frontRaw rq op dev line data check s)

end Sys2Proof.Machine
end

