-- ==== Sys2Proof/Machine/Tier.lean ====
section
/-! DEFINITION. The tier engine's own events (06): the age sweep, eviction, fills, the lookaside's fills, the cheaper path,
and the course of a destage. -/

namespace Sys2Proof.Machine

open Sys2Proof

/-! ## Registers -/

def teAgeReg (s : State) : Nat := s.te.period + s.te.destageAge * 2 ^ 14 + 2 ^ 31 * b2n s.te.firstDone

/-- `TE_THROTTLE`. -/
def teThrottleReg (s : State) : Nat :=
  (waitTurfs s).length + 2 ^ 30 * b2n (s.te.waits.any (fun w => w.why == .frame))
    + 2 ^ 31 * b2n (s.te.waits.any (fun w => w.why == .admission))

def teLaCtlReg (s : State) (p : Nat) : Nat := 2 * b2n (s.look p).streamDet

/-- `TE_LA_STAT`. -/
def teLaStatReg (s : State) (p : Nat) : Nat :=
  let l := s.look p
  (l.ents.filter (·.isSome)).length * 2 ^ 16 + l.victims.length * 2 ^ 8 + b2n l.miss.isSome

/-! ## Layouts of the tables (R98, R100, R101) -/

/-- A location in 31 bits; none is 0x7FFF_FFFF. -/
def locField : Option Nat → Nat
  | some l => l
  | none => 0x7FFFFFFF

/-- `DIRTY_MAP` of a segment: its billets that are dirty on this device. -/
def dirtyMap (s : State) (g : Nat) : Nat :=
  s.te.frames.foldl (fun n kv => if kv.2.counted && kv.2.billet / 32 == g then n + 2 ^ (kv.2.billet % 32) else n) 0

/-- The segment directory record. -/
def segRecord (s : State) (g : Nat) : Nat :=
  let x := s.seg g
  let t := turfAt s (g * 2 ^ 21)
  x.gen * 2 ^ 96 + dirtyMap s g * 2 ^ 64 + ((t.map (·.1)).getD 0) * 2 ^ 56 + b2n t.isSome * 2 ^ 55 + b2n x.homeB * 2 ^ 54
    + b2n x.migrating * 2 ^ 53 + x.streams * 2 ^ 46

def frStateNum : FrState → Nat
  | .free => 0 | .filling => 1 | .clean => 2 | .dirty => 3 | .destaging => 4 | .evicting => 5 | .table => 6 | .offline => 7

def fillSrcNum : FillSrc → Nat
  | .media => 0 | .zeros => 1 | .copy => 2 | .poison => 3

/-- The table page that a frame holds: a moved one, else the rank of the frame among those of kindling (R97). -/
def tablePage (s : State) (f : Nat) : Nat :=
  match s.te.tindex.find? (fun kv => kv.2 == f + 1) with
  | some kv => kv.1
  | none => frameRank s.te.kindRet f

/-- The frame table entry. -/
def frameEntry (s : State) (f : Nat) : Nat :=
  let x := s.frame f
  locField x.mediaLoc * 2 ^ 97 + b2n x.counted * 2 ^ 96 + x.age * 2 ^ 88 + x.turf * 2 ^ 80 + pins s x.billet * 2 ^ 72
    + b2n x.redirty * 2 ^ 71 + fillSrcNum x.src * 2 ^ 64 + frStateNum (frState s f) * 2 ^ 61 + x.slot * 2 ^ 30
    + (if isTable s f then tablePage s f else x.billet)

/-- The tier map entry. -/
def mapEntry : MapEnt → Nat
  | .unmapped => 0xFFFFFFFF
  | .poisoned => poisonedLoc
  | .media l => l
  | .res f => 2 ^ 31 + f

/-! ## The age sweep (R110, R113, R117) -/

/-- A resident frame at its visit. -/
def aged (x : Frame) : Frame :=
  match x.st with
  | .clean | .dirty | .destaging => { x with age := if x.touched then 0 else satAdd 255 x.age 1, touched := false }
  | _ => x

/-- Frames whose age has come are destaged (R113). -/
def destageAged (s : State) : State :=
  if bgOk s then
    s.te.frames.foldl (fun s kv =>
      let x := s.frame kv.1
      if destageable s kv.1 x && decide (s.te.destageAge ≤ x.age) then destageStart kv.1 s else s) s
  else s

/-- One whole sweep. -/
def ageSweep (s : State) : State :=
  if s.te.pool = 0 then s
  else
    let s := { s with te := { s.te with frames := s.te.frames.map (fun kv => (kv.1, aged kv.2)), firstDone := true } }
    settle (afterAccess (destageAged s))
def execAgeSweep (s : State) : Res := run true (ageSweep s)

/-! ## Eviction (R102, R111, R112) -/

def backgroundEviction (s : State) : State :=
  match bgEvict s with
  | some f => s.modFrame f (fun x => { x with st := .evicting })
  | none => s
def execBackgroundEviction (s : State) : Res := run true (backgroundEviction s)

/-- The access that an eviction was begun for takes the frame (R111). -/
def evictTaken (f : Nat) (s : State) : State :=
  match s.te.waits.find? (fun w => w.why == .evict f) with
  | some w => retryWait s w
  | none => s

/-- The commit point of an eviction. -/
def evictionCommit (f : Nat) (s : State) : State :=
  if (s.frame f).st == .evicting then settle (evictTaken f (evictCommit f s)) else s
def execEvictionCommitPoint (frame : Nat) (s : State) : Res :=
  run (Instr.wf (.evictionCommitPoint frame)) (evictionCommit frame s)

/-! ## Fills (R103, R104) -/

/-- A read of a unit goes to the recovery of R144, at a step. -/
def readBegin (loc unit frame step : Nat) (why : RdWhy) (s : State) : State :=
  { s with mc := { s.mc with
      reads := s.mc.reads ++ [{ id := s.mc.readCnt, loc := loc, unit := unit, frame := frame, step := step, why := why, second := false, utag := 0 }],
      readCnt := s.mc.readCnt + 1 } }

/-- The salt of the sector's key slot is held (R348). -/
def saltHeld (s : State) (loc : Nat) : Bool :=
  match s.mc.slots.get none loc with
  | some m => decide (m.keyGen = s.pageNat 0 36 4) || decide (m.keyGen = s.pageNat 1 32 4)
  | none => false

/-- The lines of a unit arrive in a frame. -/
def fillUnit (f u : Nat) (v : Nat → LineVal) (s : State) : State :=
  (List.range 64).foldl (fun s i => fillLine f (u * 64 + i) (v (u * 64 + i)) s) s

/-- The unit's lines as the media holds them. -/
def mediaLine (s : State) (loc l : Nat) : LineVal := s.mc.mlines.get zeroLine (loc * 1024 + l)

/-- A fill has brought lines: the frame may be whole, and those that waited are served. -/
def fillArrived (f : Nat) (s : State) : State := afterAccess (settle (leaveFilling f s))

/-- The next unit of a fill from the media (R103): `good` when its sector is accepted at step 1, else its recovery begins there.
The read may suspend what runs on its die (R146). -/
def mediaFillUnit (f u : Nat) (good : Bool) (susp : Susp) (s : State) : State :=
  let x := s.frame f
  match x.mediaLoc with
  | some loc =>
    if x.st == .filling && x.src == .media && x.todo.head? == some u && !ncStalled s loc then
      let s := suspends loc susp ((mediaBusy s).modFrame f (fun x => { x with todo := x.todo.drop 1 }))
      if good && saltHeld s loc then fillArrived f (fillUnit f u (mediaLine s loc) s)
      else readBegin loc u f (if good then 2 else 1) .fill s
    else s
  | none => s
def execMediaFillUnit (frame unit : Nat) (good : Bool) (susp : Susp) (s : State) : Res :=
  run (Instr.wf (.mediaFillUnit frame unit good susp)) (mediaFillUnit frame unit good susp s)

/-- A line of a fill from zeros, from the poison marker or from another frame. -/
def fillLineArrival (f l : Nat) (s : State) : State :=
  let x := s.frame f
  let v : LineVal := match x.src with
    | .poison => .poison
    | .copy => (match x.copyFrom with
      | some g => getLine s g l
      | none => zeroLine)
    | _ => zeroLine
  if x.st == .filling && x.src != .media then fillArrived f (fillLine f l v s) else s
def execFillLineArrival (frame line : Nat) (s : State) : Res :=
  run (frameOk frame && lineOk line) (fillLineArrival frame line s)

/-! ## Lookaside fills (R69, R70, R107-R109) -/

/-- Promotion ahead of demand: the first billet of the segment that follows, in a memory-region turf, into a free frame. -/
def promoteAhead (g : Nat) (s : State) : State :=
  let b := (g + 1) * 32
  match turfAt s (b * 65536), s.te.map.get .unmapped b with
  | some (i, t), .media loc =>
    if t.device || fillBusy s ≥ 4096 then s
    else (match takeFrame (tinfo s (b * 65536)) s with
      | .free f => enterFilling f b i .media (some loc) 0 s
      | _ => s)
  | _, _ => s

/-- The outstanding lookaside fill of a port ends: its entry goes in, and requests for the segment go on. -/
def lookasideFill (p : Nat) (s : State) : State :=
  match (s.look p).miss with
  | none => s
  | some (g, streaming) =>
    let e : LaEnt := ⟨g, !streaming, if streaming then 3 else 0, streaming, false⟩
    let s := s.modLook p (fun l => { laInsert e l with miss := none })
    let s := setWaits (fun ws => ws.map (fun w =>
      if w.why == .look && w.acc.port == p && w.acc.seg == g then { w with why := .ready } else w)) s
    afterAccess (settle (if streaming then promoteAhead g s else s))
def execLookasideFillComplete (port : Nat) (s : State) : Res :=
  run (Instr.wf (.lookasideFillComplete port)) (lookasideFill port s)

/-- `INVAL` of `TE_LA_CTL` (R109). -/
def teLaInval (ag : Agent) (p : Nat) (s : State) : State := regWrite ag (laInvalidate p) s
def execTeLaInval (ag : Agent) (port : Nat) (s : State) : Res :=
  run (Instr.wf (.teLaInval ag port)) (teLaInval ag port s)

/-! ## The cheaper path (R114, R115) -/

/-- A read that may ask the twin at the deadline: the pair in sync, D not 0, the line absent from a fill by the media. -/
def cheaperAsks (s : State) (f l : Nat) (w : Wait) : Bool :=
  let x := s.frame f
  let d := match turfAt s w.acc.dpa with
    | some (_, t) => t.deadline
    | none => 0
  s.tu.ps == .inSync && linkUp s && decide (d ≠ 0) && x.st == .filling && x.src == .media && !x.present.getLsbD l
    && w.why == .line && !w.acc.isWrite && !w.asked && w.acc.billet == x.billet && w.acc.lineIn == l
    && decide (w.missAt.getD w.t0 + d * 1000 ≤ s.tb.count)

/-- The deadline of a waiting read has passed: the twin is asked for its unit, from its front tier only. -/
def cheaperPath (f l : Nat) (s : State) : State :=
  if s.te.waits.any (cheaperAsks s f l) then
    let b := (s.frame f).billet
    let u := s.tu.unitCnt
    let s' := setWaits (fun ws => ws.map (fun w => if cheaperAsks s f l w then { w with asked := true } else w)) s
    linkSend (.unitReq u b (l / 64) 0)
      { s' with tu := { s'.tu with unitCnt := (u + 1) % 2 ^ 32 },
                tp := { s'.tp with unitAsk := s'.tp.unitAsk ++ [(u, b, l / 64)] } }
  else s
def execCheaperPathDeadline (frame line : Nat) (s : State) : Res :=
  run (Instr.wf (.cheaperPathDeadline frame line)) (cheaperPath frame line s)

/-! ## Destage (R102, R118, R133, R136) -/

/-- A destage's program succeeds; what waited for it goes on. `rds` are the outcomes of its reads, of the lines that did not read
clean; an integrity halt on the way leaves it unfinished. -/
def destageComplete (f : Nat) (rds : List (Nat × List RdRes)) (s : State) : State :=
  match findDestage s f with
  | some _ =>
    let halted := s.sec.halt
    let s := rds.foldl (destageRead f) s
    if s.sec.halt && !halted then s else afterAccess (settle (destageEnd f s))
  | none => s
def execDestageComplete (frame : Nat) (rds : List (Nat × List RdRes)) (s : State) : Res :=
  run (Instr.wf (.destageComplete frame rds)) (destageComplete frame rds s)

/-- The row a location's set belongs to; a new attempt takes another row: the row is closed. -/
def leaveRow (loc : Nat) (s : State) : State :=
  let r := (s.setRec (locSet s loc)).row
  match s.row (r - 1) with
  | some x => if r = 0 || x.closed then s else parityRest (r - 1) (closeRow (r - 1) s)
  | none => s

/-- A frame whose third program failed returns to DIRTY and waits 10 ms; *destage retry* is raised once for the billet. -/
def destageGiveUp (f : Nat) (s : State) : State :=
  let b := (s.frame f).billet
  let s := (dropDestage f s).modFrame f (fun x => { x with st := .dirty, redirty := false, fails := 0 })
  let s := { s with mc := { s.mc with retry := s.mc.retry ++ [b] } }
  if s.mc.retryRaised.contains b then s
  else raise 0x1000 0xFFFF b .nothing { s with mc := { s.mc with retryRaised := s.mc.retryRaised ++ [b] } }

/-- A program reports failure (R136): its set goes to ash once its current copies have moved, and the billet is destaged
again into another row with a new `SEQ`, at most three times. -/
def programFail (f : Nat) (s : State) : State :=
  match findDestage s f with
  | none => s
  | some d =>
    let k := locSet s d.loc
    let n := (s.frame f).fails + 1
    let s := dropDestage f s
    let s := toAsh k (parityAfter d.loc (leaveRow d.loc s))
    let s := s.modFrame f (fun x => { x with fails := n })
    if 3 ≤ n then mediaLevels (destageGiveUp f s)
    else match destageSlotNext d.ember s with
      | some (loc, t) =>
        let (q, t) := takeSeq t
        mediaLevels { t with mc := { t.mc with destages := t.mc.destages ++ [{ d with loc := loc, seq := q, susp := 0 }] } }
      | none => mediaLevels (destageGiveUp f s)
def execDestageProgramFail (frame : Nat) (s : State) : Res :=
  run (Instr.wf (.destageProgramFail frame)) (programFail frame s)

/-- The frame that holds a billet. -/
def frameOf (s : State) (b : Nat) : Option Nat :=
  match s.te.map.get .unmapped b with
  | .res f => some f
  | _ => none

/-- 10 ms after its third failure a billet is destaged again. -/
def destageRetry (b : Nat) (s : State) : State :=
  if !s.mc.retry.contains b then s
  else
    let s := { s with mc := { s.mc with retry := s.mc.retry.erase b } }
    match frameOf s b with
    | some f => if bgOk s && destageable s f (s.frame f) then destageStart f s else s
    | none => s
def execDestageRetry (billet : Nat) (s : State) : Res :=
  run (Instr.wf (.destageRetry billet)) (destageRetry billet s)

end Sys2Proof.Machine
end

