-- ==== Sys2Proof/Machine/Turfs.lean ====
section
/-! DEFINITION. Turfs and windows (R60-R67): the turf commands, the data window of a plain PCIe function, the commit of an
HDM decoder and the unmap of a billet. -/

namespace Sys2Proof.Machine

open Sys2Proof

/-! ## Facts of the turf table -/

def turfCount (s : State) : Nat := (s.te.turfs.filter (fun kv => kv.2.isSome)).length

/-- Grants over all turfs (R61). -/
def grantCount (s : State) : Nat :=
  s.te.turfs.foldl (fun n kv => match kv.2 with
    | some t => n + t.grants.length
    | none => n) 0

/-- The sum of the reserves of the turfs other than `id` (R61). -/
def otherReserves (s : State) (id : Nat) : Nat :=
  s.te.turfs.foldl (fun n kv => match kv.2 with
    | some t => if kv.1 = id then n else n + t.reserve
    | none => n) 0

/-- A turf other than `id` overlaps `[lo, hi)`. -/
def turfOverlaps (s : State) (id lo hi : Nat) : Bool :=
  s.te.turfs.any (fun kv => match kv.2 with
    | some t => decide (kv.1 ≠ id) && decide (t.base < hi) && decide (lo < t.base + t.size)
    | none => false)

def seg2M : Nat := 2 ^ 21

/-- A range that `TURF_CREATE` refuses (R63). -/
def badRange (s : State) (base size : Nat) : Bool :=
  size == 0 || size % seg2M != 0 || base % seg2M != 0 || decide (uBytes s < base + size)
    || turfOverlaps s 256 base (base + size)

def turfGet (s : State) (id : Nat) (p : Turf → Bool) : Bool :=
  match s.turf id with
  | some t => p t
  | none => false

/-- A command writes a turf's entry, and unmaps a DPA range where it names one; its reply waits for both (R62, R63). -/
def turfPut (rq : Rq) (id : Nat) (t : Option Turf) (range : Option (Nat × Nat)) (s : State) : State :=
  let s := cfgAsk rq range.isSome (.turf id t) (setCommitted rq s)
  settle (match range with
    | some (lo, hi) => unmapRange lo hi s
    | none => s)

/-- The same, of a turf that exists. -/
def turfMod (rq : Rq) (id : Nat) (f : Turf → Turf) (s : State) : State := turfPut rq id ((s.turf id).map f) none s

/-! ## Commands (R63) -/

/-- `TURF_CREATE`: the defaults of R60 over an unmapped range. -/
def turfCreate (rq : Rq) (id base size rtype : Nat) (s : State) : State :=
  atornQ 0x0100 rq
    (fun s => { params := [[.n4 id], [.n8 base], [.n8 size], [.n4 rtype]], bad := [decide (256 ≤ id), false, false, decide (2 ≤ rtype)],
                refuse := [(s.turf id).isSome, badRange s base size, decide (256 ≤ turfCount s)] })
    (fun s => turfPut rq id (some { base := base, size := size, device := rtype == 1, cap := pairPool s })
      (some (base, base + size)) s) s
def execTurfCreate (rq : Rq) (id base size rtype : Nat) (s : State) : Res :=
  run (Instr.wf (.turfCreate rq id base size rtype)) (turfCreate rq id base size rtype s)

/-- `TURF_DESTROY`: unmaps the whole range and removes the turf. -/
def turfDestroy (rq : Rq) (id : Nat) (s : State) : State :=
  atornQ 0x0101 rq
    (fun s => { params := [[.n4 id]], bad := [decide (256 ≤ id)],
                refuse := [(s.turf id).isNone, turfGet s id (fun t => !t.grants.isEmpty),
                           turfGet s id (fun t => jobReaches s t.base (t.base + t.size))] })
    (fun s => match s.turf id with
      | some t => turfPut rq id none (some (t.base, t.base + t.size)) s
      | none => s) s
def execTurfDestroy (rq : Rq) (id : Nat) (s : State) : Res :=
  run (Instr.wf (.turfDestroy rq id)) (turfDestroy rq id s)

/-- `TURF_RESIZE`: moves the upper end; a shrink unmaps what it drops. -/
def turfResize (rq : Rq) (id size : Nat) (s : State) : State :=
  atornQ 0x0102 rq
    (fun s => { params := [[.n4 id], [.n8 size]], bad := [decide (256 ≤ id), false],
                refuse := [(s.turf id).isNone,
                           turfGet s id (fun t => decide (t.size < size) && (decide (uBytes s < t.base + size)
                             || turfOverlaps s id (t.base + t.size) (t.base + size))),
                           turfGet s id (fun t => decide (size < t.size) &&
                             (anyReaches s (t.base + size) (t.base + t.size)
                               || jobReaches s (t.base + size) (t.base + t.size))),
                           size == 0 || size % seg2M != 0] })
    (fun s => match s.turf id with
      | some t =>
        turfPut rq id (some { t with size := size }) (if size < t.size then some (t.base + size, t.base + t.size) else none) s
      | none => s) s
def execTurfResize (rq : Rq) (id size : Nat) (s : State) : Res :=
  run (Instr.wf (.turfResize rq id size)) (turfResize rq id size s)

/-- A field that the presence mask of an "any of" parameter names (R331). -/
def picks (mask i : Nat) : Bool := mask / 2 ^ i % 2 == 1

/-- A bad "any of" parameter of `TURF_SET`: mask bits beyond its fields, an absent field not 0, a deadline or a region type
out of range (R60, R331). -/
def turfSetBad (mask reserve cap deadline rtype : Nat) : Bool :=
  decide (16 ≤ mask)
    || (!picks mask 0 && reserve != 0) || (!picks mask 1 && cap != 0) || (!picks mask 2 && deadline != 0)
    || (!picks mask 3 && rtype != 0)
    || (picks mask 2 && deadline != 0 && (decide (deadline < 10) || decide (1000 < deadline)))
    || (picks mask 3 && decide (2 ≤ rtype))

/-- The attributes `TURF_SET` leaves. A cap is at most the pool total (R60): none of R63's refusals names a greater one, so that
is what it then becomes (DESIGN CHOICE, notes/assumptions/102.md). -/
def turfSetTo (pool mask reserve cap deadline rtype : Nat) (t : Turf) : Turf :=
  { t with reserve := if picks mask 0 then reserve else t.reserve,
           cap := if picks mask 1 then min cap pool else t.cap,
           deadline := if picks mask 2 then deadline else t.deadline,
           device := if picks mask 3 then rtype == 1 else t.device }

/-- `TURF_SET`. -/
def turfSet (rq : Rq) (id mask reserve cap deadline rtype : Nat) (s : State) : State :=
  let f (t : Turf) : Turf := turfSetTo (pairPool s) mask reserve cap deadline rtype t
  atornQ 0x0103 rq
    (fun s => { params := [[.n4 id], [.n4 mask, .n4 reserve, .n4 cap, .n4 deadline, .n4 rtype]], bad := [decide (256 ≤ id), turfSetBad mask reserve cap deadline rtype],
                refuse := [(s.turf id).isNone,
                           turfGet s id (fun t => decide (t.reserve < (f t).reserve)
                             && decide (3 * pairPool s < 4 * (otherReserves s id + (f t).reserve))),
                           turfGet s id (fun t => decide ((f t).cap < (f t).reserve)),
                           turfGet s id (fun t => (f t).device != t.device && !t.grants.isEmpty)] })
    (turfMod rq id f) s
def execTurfSet (rq : Rq) (id mask reserve cap deadline rtype : Nat) (s : State) : Res :=
  run (Instr.wf (.turfSet rq id mask reserve cap deadline rtype)) (turfSet rq id mask reserve cap deadline rtype s)

/-- An agent that may be a grantee (R60). -/
def isGrantee : Agent → Bool
  | .fn p f => decide (p < 10) && decide (f < 16)
  | .ic => true
  | _ => false

/-- `TURF_GRANT`: adds a grant or changes its access (0 RW, 1 RO). -/
def turfGrant (rq : Rq) (id : Nat) (grantee : Agent) (access : Nat) (s : State) : State :=
  atornQ 0x0104 rq
    (fun s =>
      let new := turfGet s id (fun t => (grantOf t grantee).isNone)
      { params := [[.n4 id], [.n4 (agentNum grantee)], [.n4 access]], bad := [decide (256 ≤ id), !isGrantee grantee, decide (2 ≤ access)],
        refuse := [(s.turf id).isNone, new && turfGet s id (fun t => decide (64 ≤ t.grants.length)),
                   new && decide (1024 ≤ grantCount s), !granteePresent s grantee] })
    (turfMod rq id (fun t => { t with grants := t.grants.filter (fun g => g.who != grantee) ++ [⟨grantee, access == 0⟩] })) s
def execTurfGrant (rq : Rq) (id : Nat) (grantee : Agent) (access : Nat) (s : State) : Res :=
  run (Instr.wf (.turfGrant rq id grantee access)) (turfGrant rq id grantee access s)

/-- `TURF_REVOKE`. -/
def turfRevoke (rq : Rq) (id : Nat) (grantee : Agent) (s : State) : State :=
  atornQ 0x0105 rq
    (fun s => { params := [[.n4 id], [.n4 (agentNum grantee)]], bad := [decide (256 ≤ id), !isGrantee grantee],
                refuse := [(s.turf id).isNone, turfGet s id (fun t => (grantOf t grantee).isNone),
                           turfGet s id (fun t => agentReaches s grantee t.base (t.base + t.size))] })
    (turfMod rq id (fun t => { t with grants := t.grants.filter (fun g => g.who != grantee) })) s
def execTurfRevoke (rq : Rq) (id : Nat) (grantee : Agent) (s : State) : Res :=
  run (Instr.wf (.turfRevoke rq id grantee)) (turfRevoke rq id grantee s)

/-- Frames of a turf that count in the dirty count (TE_TURF_DIRTY). -/
def heldDirty (s : State) (t : Nat) : Nat :=
  (s.te.frames.filter (fun kv => kv.2.counted && kv.2.turf == t)).length

/-- One turf as `TURF_QUERY` returns it: attributes in the order of R60, frames held, dirty frames held, state. -/
def turfFlds (s : State) (id : Nat) (t : Turf) : List Fld :=
  [.n4 id, .n8 t.base, .n8 t.size, .n4 (b2n t.device), .n4 t.reserve, .n4 t.cap, .n4 t.deadline, .n4 t.grants.length]
    ++ t.grants.flatMap (fun g => [.n4 (agentNum g.who), .n4 (b2n (!g.rw))])
    ++ [.n4 (held s id), .n4 (heldDirty s id), .n4 (b2n t.preserve)]

/-- The turfs a sender may see (R332). -/
def turfSeen (s : State) (rq : Rq) (t : Turf) : Bool :=
  hasAdmin s rq.ch || (grantOf t (senderOf s rq.ch)).isSome

/-- `TURF_QUERY`. -/
def turfQuery (rq : Rq) (id : Nat) (s : State) : State :=
  atorn 0x0106 rq (fun _ => true)
    (fun s => match s.turf id with
      | some t => turfSeen s rq t
      | none => true)
    (fun s => { params := [[.n4 id]], bad := [decide (256 ≤ id) && id != allOnes], refuse := [id != allOnes && (s.turf id).isNone] })
    (fun s => ok rq (pack (s.te.turfs.flatMap (fun kv => match kv.2 with
      | some t => if (id == allOnes || id == kv.1) && turfSeen s rq t then turfFlds s kv.1 t else []
      | none => []))) s) s
def execTurfQuery (rq : Rq) (id : Nat) (s : State) : Res := run (Instr.wf (.turfQuery rq id)) (turfQuery rq id s)

/-- A plain PCIe function that the configuration provides. -/
def plainFn (s : State) : Agent → Bool
  | .fn p f => decide (p < 10) && (s.port p).plain && (portFns s p).contains f
  | _ => false

def winKey : Agent → Nat
  | .fn p f => p * 16 + f
  | _ => 159

/-- `WINDOW_MAP`, with the conditions of R67 in its order; it replaces the old map when no access through that is left. A function
that is not plain PCIe or that the port does not provide has no window: parameter 1 is bad (notes/assumptions/100.md). -/
def windowMap (rq : Rq) (fn : Agent) (base len : Nat) (s : State) : State :=
  let size (s : State) : Nat := match fn with
    | .fn p _ => 2 ^ (s.port p).bar2Log2
    | _ => 0
  atorn 0x0107 rq (fun _ => true) (fun s => hasAdmin s rq.ch || senderOf s rq.ch == fn)
    (fun s => { params := [[.n4 (agentNum fn)], [.n8 base], [.n8 len]], bad := [!plainFn s fn],
                refuse := [base % seg2M != 0, len % seg2M != 0 || decide (size s < len),
                           !covered s (mayReach fn false) base (base + len)] })
    (fun s => mapAsk rq (winKey fn) base len false (setCommitted rq s)) s
def execWindowMap (rq : Rq) (fn : Agent) (base len : Nat) (s : State) : Res :=
  run (Instr.wf (.windowMap rq fn base len)) (windowMap rq fn base len s)

/-! ## Unmaps and decoders -/

/-- An owed unmap whose billet is at rest is made (R102). -/
def billetUnmap (b : Nat) (s : State) : State := mediaLevels (settle (unmapStep b s))
def execBilletUnmap (b : Nat) (s : State) : Res := run (Instr.wf (.billetUnmap b)) (billetUnmap b s)

/-- The fields a decoder supports (R65). -/
def hdmFormOk (base size ways gran pos : Nat) : Bool :=
  base % 2 ^ 28 == 0 && size % 2 ^ 28 == 0 && decide (0 < size) && decide (ways ≤ 4) && decide (8 ≤ gran)
    && decide (gran ≤ 14) && decide (pos < 2 ^ ways)

/-- Decoder `k` may be committed now: those below it are, and its HPA range lies above theirs. -/
def hdmInOrder (s : State) (p l k base : Nat) : Bool :=
  (List.range k).all (fun i =>
    let d := (s.ld p l).decs.get {} i
    d.committed && decide (d.base + d.size ≤ base))

/-- A host writes the control of a decoder. Commit: it fails with Error Not Committed when a field is not supported or a DPA of
its range is not granted to the LD (R65, R66); a committed decoder keeps its fields. Commit clear: the highest committed
decoder is uncommitted unless *Lock On Commit* was set at its commit (CXL 3.1, which R65 has the decoders follow). -/
def hdmDecoderCommit (p l k base size ways gran pos skip : Nat) (lock commit : Bool) (s : State) : State :=
  if !fnReached s p l || (s.port p).plain then s
  else
    let old := (s.ld p l).decs.get {} k
    let put (d : HdmDec) : State := s.modLd p l (fun x => { x with decs := x.decs.set {} k d })
    if !commit then
      (if old.committed && !old.lock && !(s.ld p l).decs.any (fun kv => decide (k < kv.1) && kv.2.committed)
        then put { old with committed := false } else s)
    else if old.committed then s
    else
      let start := hdmStart s p l k skip
      let hi := start + size / 2 ^ ways
      let fine := hdmFormOk base size ways gran pos && hdmInOrder s p l k base && decide (hi ≤ uBytes s)
        && covered s (mayReach (.fn p l) false) start hi
      put ⟨fine, !fine, lock && fine, base, size, ways, gran, pos, skip, start⟩
def execHdmDecoderCommit (port ld dec base size ways gran pos skip : Nat) (lock commit : Bool) (s : State) : Res :=
  run (Instr.wf (.hdmDecoderCommit port ld dec base size ways gran pos skip lock commit))
    (hdmDecoderCommit port ld dec base size ways gran pos skip lock commit s)

end Sys2Proof.Machine
end

