-- ==== Sys2Proof/Machine/Media.lean ====
section
/-! DEFINITION. The media controller's own events and commands (07): verification, kiln, reclamation, drift, read recovery,
the block-set table, levelling, ash, journal and checkpoint, and the format. -/

namespace Sys2Proof.Machine

open Sys2Proof

/-! ## Registers -/

def mcCfgReg (s : State) : Nat :=
  s.mc.prof.luns * 2 ^ 6 + s.mc.prof.speed * 2 ^ 11 + s.mc.prof.cell * 2 ^ 13 + b2n s.mc.formatted * 2 ^ 15
    + s.mc.slcDiv * 2 ^ 16

/-- The main free fraction, per mille. -/
def mainFree (s : State) : Nat := if goodMain s = 0 then 0 else erasedMain s * 1000 / goodMain s

/-- `MC_STATE`. -/
def mcStateReg (s : State) : Nat :=
  let m := s.mctl
  mainFree s * 2 ^ 7 + (if s.mc.formatted then slcFill s else 0) * 2 ^ 17 + b2n m.sparesLow * 2 ^ 24
    + b2n (s.mc.luns.any (fun kv => kv.2.unlevelled)) * 2 ^ 25 + m.kiln * 2 ^ 26 + b2n m.smoulder * 2 ^ 28
    + b2n m.stokeEmerg * 2 ^ 29 + b2n m.stoke * 2 ^ 30 + b2n m.mediaFull * 2 ^ 31

def lunBits (s : State) (p : State → Nat → Bool) (c : Nat) : Nat :=
  (List.range 16).foldl (fun n l => n + b2n (p s (c * 16 + l)) * 2 ^ l) 0
def mcChReg (s : State) (c : Nat) : Nat := lunBits s lunGood c + lunBits s (fun s u => (s.lun u).ash) c * 2 ^ 16

/-- Listed good native sets (R149). -/
def nativeSets (s : State) : Tab BlkSet :=
  s.mc.sets.filter (fun kv => !inSlc s kv.1 && lunGood s (setLun kv.1) && !setAsh kv.2)

/-- Lowest and highest `ERASE_CNT` of a good native set: a set no erase has touched counts 0. -/
def wearMin (s : State) : Nat :=
  let l := nativeSets s
  if l.length < goodMain s then 0 else listMin (l.map (fun kv => kv.2.erase))
def wearMax (s : State) : Nat := (nativeSets s).foldl (fun m kv => max m kv.2.erase) 0

/-- The root mean of the wear tree. -/
def wearMean (s : State) : Nat :=
  let r := (List.range (cordCount s)).foldl (fun (a : Nat × Nat) c =>
    let w := cordWear s c
    (a.1 + w.1, a.2 + w.2)) (0, 0)
  if r.2 = 0 then 0 else r.1 / r.2

/-- Rows whose parity is not yet released. -/
def parityOpen (s : State) : Nat :=
  (s.mc.rows.filter (fun kv => match kv.2 with
    | some r => r.parityHeld
    | none => false)).length

/-- The band of R7 as a column of R142: C, N, W, H; outside every band, that of the nearer end. -/
def kColumn (s : State) : Nat := if s.th.band ≤ 3 then s.th.band else if s.th.max < -80 then 0 else 3

/-- *K* of R142 by cell type and band (0 C, 1 N, 2 W, 3 H). -/
def kBand (cell band : Nat) : Int :=
  if cell = 0 then (if band = 0 then 1 else if band = 1 then 0 else -1)
  else if cell = 1 then (if band = 0 then 3 else if band = 1 then 0 else if band = 2 then -2 else -4)
  else (if band = 0 then 2 else if band = 1 then 0 else if band = 2 then -2 else -3)

def mcKbandReg (s : State) : Nat :=
  (List.range 4).foldl (fun n b => n + (BitVec.ofInt 8 (kBand s.mc.prof.cell b)).toNat * 2 ^ (8 * b)) 0

/-- The step *S* of a LUN: the profile's, refined by the calibration of R154 within 2 steps, a free value. -/
def lunStep (s : State) (u : Nat) : Int :=
  s.mc.prof.step + (if s.mc.formatted then ((Config.freeLevel (s.mctl.calib + u) % 5 : Nat) : Int) - 2 else 0)

/-- Half away from zero. -/
def roundDiv (a : Int) (b : Nat) : Int :=
  if a < 0 then -((2 * (-a) + b) / (2 * b)) else (2 * a + b) / (2 * b)

/-- The read offset of level `j` of a set (R142). -/
def readOffset (s : State) (k j : Nat) : Int :=
  let x := s.setRec k
  let cell := if x.native then s.mc.prof.cell else 0
  let l := if cell = 0 then 1 else if cell = 1 then 7 else 15
  roundDiv ((x.drift : Int) * lunStep s (setLun k) * (j + 1)) l + kBand cell (kColumn s)

/-! ## Rows (R135) -/

/-- A verification read of a set is still running. -/
def verifying (s : State) (k : Nat) : Bool :=
  s.mc.reads.any (fun r => r.why == .verify && locSet s r.loc == k)

/-- A slot of a set waits for its relocation. -/
def relocWaits (s : State) (k : Nat) : Bool := s.mc.relocOwed.any (fun l => locSet s l == k)

/-- Relocations that are owed (R135, R144): a slot is copied once no read of it runs; one that finds no room stays owed. -/
def relocPump (s : State) : State :=
  s.mc.relocOwed.foldl (fun s l =>
    let gone (s : State) : State := { s with mc := { s.mc with relocOwed := s.mc.relocOwed.erase l } }
    if !isCurrent s l then gone s
    else if s.mc.reads.any (fun r => r.loc == l) then s
    else
      let t := moveSlot l 4 s
      if isCurrent t l then s else gone t) s

/-- Sets that go to ash once their failing sectors are relocated. -/
def ashPump (s : State) : State :=
  s.mc.sets.foldl (fun s kv =>
    if (s.setRec kv.1).ashOwed && !setAsh (s.setRec kv.1) && !verifying s kv.1 && !relocWaits s kv.1 then toAsh kv.1 s else s) s

/-- A row read back with no failure left gives up its parity, and its sets are closed and verified. -/
def verifyEnd (s : State) (rn : Nat) : State :=
  match s.row rn with
  | none => s
  | some r =>
    if !r.verified || !r.parityHeld || r.sets.any (fun k => verifying s k || relocWaits s k) then s
    else
      let s := (r.sets ++ r.parity).foldl (fun s k => s.modSet k (fun x => { x with st := if x.st = 2 then 3 else x.st })) s
      s.modRow rn (fun r => { r with parityHeld := false })

/-- What the end of a read, of an erase or of a move leaves to be done: relocations, ash, rows that pass. -/
def owedWork (s : State) : State :=
  let s := ashPump (relocPump s)
  mediaLevels ((s.mc.rows.map (·.1)).foldl verifyEnd s)

/-- Count of the failing sectors that lie in a set; an entry is location × 16 + unit. -/
def failingIn (s : State) (failing : List Nat) (k : Nat) : Nat :=
  (failing.filter (fun e => locSet s (e / 16) == k)).length

/-- A closed row is read back: what fails is rebuilt from parity, step 5 of R144, and relocated; two failures in a set send
it to ash. -/
def rowVerify (rn : Nat) (failing : List Nat) (s : State) : State :=
  match s.row rn with
  | none => s
  | some r =>
    if !bgOk s || !r.closed || !r.parityHeld || r.verified then s
    else
      let fs := (failing.filter (fun e => r.sets.contains (locSet s (e / 16)))).eraseDups
      let s := r.sets.foldl (fun s k => s.modSet k (fun x =>
        { x with ashOwed := x.ashOwed || (decide (2 ≤ failingIn s fs k) && !setAsh x) })) s
      let s := (fs.filter (fun e => isCurrent s (e / 16))).foldl (fun s e => readBegin (e / 16) (e % 16) 0 5 .verify s) s
      owedWork (s.modRow rn (fun r => { r with verified := true }))
def execRowVerification (row : Nat) (failing : List Nat) (s : State) : Res :=
  run (failing.all (fun x => decide (x < 2 ^ 35))) (rowVerify row failing s)

/-! ## Kiln and reclamation (R137-R141) -/

/-- Closed sets of a region with their current slots, where there are any. -/
def victims (s : State) (slc : Bool) : List (Nat × BlkSet × List Nat) :=
  s.mc.sets.filterMap (fun kv =>
    if inSlc s kv.1 == slc && (kv.2.st == 2 || kv.2.st == 3) && !isParitySet s kv.1 && !isLedgerSet s kv.1 then
      (match currentSlots s kv.1 with
        | [] => none
        | l => some (kv.1, kv.2, l))
    else none)

/-- The first best of a list. -/
def bestOf {α : Type} (better : α → α → Bool) : List α → Option α
  | [] => none
  | a :: t => match bestOf better t with
    | none => some a
    | some b => if better b a then some b else some a

/-- The kiln's next slot: the lowest current slot of the SLC set that closed first. -/
def kilnNext (s : State) : Option Nat :=
  (bestOf (fun a b => decide (a.2.1.order < b.2.1.order)) (victims s true)).bind (fun v => v.2.2.head?)

/-- Stoke's next slot: least valid fraction, ties to the lowest erase count. -/
def stokeNext (s : State) : Option Nat :=
  (bestOf (fun (a b : Nat × BlkSet × List Nat) =>
    decide (a.2.2.length < b.2.2.length) || (a.2.2.length == b.2.2.length && decide (a.2.1.erase < b.2.1.erase)))
    (victims s false)).bind (fun v => v.2.2.head?)

/-- Smoulder's weight of a victim: (1 − valid fraction) × age since program, over `P_n`. -/
def smoulderWeight (s : State) (v : Nat × BlkSet × List Nat) : Nat := (s.mc.prof.pn - v.2.2.length) * v.2.1.ageH

/-- Smoulder's next slot: a refresh first, else the greatest weight; ties to the set that closed first. -/
def smoulderNext (s : State) : Option Nat :=
  match (victims s false ++ victims s true).find? (fun v => v.2.1.refreshOwed) with
  | some v => v.2.2.head?
  | none =>
    if s.mctl.smoulder then
      (bestOf (fun a b => decide (smoulderWeight s b < smoulderWeight s a)
        || (smoulderWeight s a == smoulderWeight s b && decide (a.2.1.order < b.2.1.order))) (victims s false)).bind
        (fun v => v.2.2.head?)
    else none

/-- One slot copy of reclamation. -/
def reclaimCopy (s : State) : State :=
  let go (l : Nat) : State := if ncStalled s l then s else moveSlot l 4 (pauseWait (80 + locChan l) s)
  match (if s.mctl.stoke then stokeNext s else none) with
  | some l => go l
  | none => match smoulderNext s with
    | some l => go l
    | none => s

def smoulderStep (s : State) : State := if bgOk s then owedWork (reclaimCopy s) else s
def execSmoulder (s : State) : Res := run true (smoulderStep s)

/-- The kiln may fold now (R137, R139, R141). -/
def kilnRuns (s : State) : Bool :=
  bgOk s && s.mc.formatted && destageSlc s && !s.mctl.stokeEmerg && (s.mctl.idle || decide (0 < s.mctl.slcLevel))

/-- The block sets of the fold row that the kiln would open now, none while one is open (R141). -/
def foldRowSets (s : State) : Nat :=
  if s.mc.foldRow ≠ 0 then 0
  else match foldRowNow s with
    | some (rn, t) => (match t.row rn with
      | some r => r.sets.length + r.parity.length
      | none => 0)
    | none => 0

/-- Fold one current SLC slot; under stoke each block set of a fold row opens only once stoke has freed one. -/
def kilnFold (s : State) : State :=
  if !kilnRuns s then s
  else
    let need := if s.mctl.stoke then foldRowSets s else 0
    if s.mctl.stokeFreed < need then mediaLevels (reclaimCopy s)
    else match kilnNext s with
    | none => s
    | some l =>
      if ncStalled s l then s else
      let s := pauseWait (80 + locChan l) s
      let s := { s with mctl := { s.mctl with stokeFreed := s.mctl.stokeFreed - need } }
      let t := moveSlot l 2 s
      if isCurrent t l then t
      else afterAccess (settle (mediaLevels (count 0x1026 0xFFFF 0 1
        { t with mctl := { t.mctl with foldCnt := satAdd (2 ^ 64 - 1) t.mctl.foldCnt 1 } })))
def execKilnFold (s : State) : Res := run true (kilnFold s)

/-- The record of a set after its erase; of its refreshes it keeps what R152 looks back on. -/
def erasedRec (order : Nat) (x : BlkSet) : BlkSet :=
  { erase := satAdd (2 ^ 24 - 1) x.erase 1, order := order, lastRefresh := x.lastRefresh, prevRefresh := x.prevRefresh,
    refreshed := x.refreshOwed, refreshes := x.refreshes }

/-- An erase ends: the set is free, or goes to ash (R136, R138). In ember it is abandoned and owed (R164). -/
def eraseComplete (k : Nat) (good : Bool) (s : State) : State :=
  if !erasable s k || isLedgerSet s k then s
  else if inEmber s then s.modSet k (fun x => { x with eraseOwed := true })
  else
    let s := eraseSlots k s
    if good then
      let n := s.mc.orderCnt + 1
      let s := s.modSet k (erasedRec n)
      let s := { s with mc := { s.mc with orderCnt := n },
                        mctl := { s.mctl with stokeFreed := s.mctl.stokeFreed + b2n (s.mctl.stoke && !inSlc s k) } }
      afterAccess (settle (owedWork s))
    else owedWork (lunAshCheck (setLun k) (ashSet k s))
def execBlockSetEraseComplete (set : Nat) (ok : Bool) (s : State) : Res :=
  run (Instr.wf (.blockSetEraseComplete set ok)) (eraseComplete set ok s)

/-- The media is idle (R140). -/
def mediaIdle (s : State) : State := mediaLevels { s with mctl := { s.mctl with idle := true } }
def execMediaIdle (s : State) : Res := run true (mediaIdle s)

/-! ## Drift (R143, R152) -/

/-- A refresh is scheduled. -/
def refreshSchedule (k : Nat) (s : State) : State :=
  s.modSet k (fun x => { x with refreshOwed := true, lastRefresh := s.tb.count, prevRefresh := x.lastRefresh })

/-- A sample above half of the capacity raises the class, or schedules a refresh at class 15. -/
def driftUp (k : Nat) (s : State) : State :=
  if (s.setRec k).drift < 15 then s.modSet k (fun x => { x with drift := x.drift + 1 })
  else if (s.setRec k).refreshOwed then s else refreshSchedule k s

/-- The first sample of a set whose last erase followed a refresh: the second failure in a row, of refreshes at most 30 days of
powered time apart, sends the set to ash (R152; notes/assumptions/105.md). -/
def firstSample (k : Nat) (overHalf : Bool) (s : State) : State :=
  let x := s.setRec k
  if x.sampled then s
  else
    let n := if x.refreshed && overHalf then x.refreshes + 1 else 0
    let s := s.modSet k (fun x => { x with sampled := true, refreshes := n })
    if decide (2 ≤ n) && decide (x.lastRefresh ≤ x.prevRefresh + 30 * day) then toAsh k s else s

/-- One sample of a programmed set: `overHalf` for the page's sample, `again` for its repetition after the class is raised. -/
def driftSample (k : Nat) (overHalf again : Bool) (s : State) : State :=
  if !bgOk s || !setBusy (s.setRec k) then s
  else
    let s := firstSample k overHalf s
    if setAsh (s.setRec k) || !overHalf then mediaLevels s
    else if again then driftUp k (driftUp k s) else driftUp k s
def execDriftSample (set : Nat) (overHalf again : Bool) (s : State) : Res :=
  run (Instr.wf (.driftSample set overHalf again)) (driftSample set overHalf again s)

/-! ## Read recovery (R144, R145) -/

def dropRead (id : Nat) (s : State) : State :=
  { s with mc := { s.mc with reads := s.mc.reads.filter (fun r => r.id != id) } }

def putRead (r : MRead) (s : State) : State :=
  { s with mc := { s.mc with reads := s.mc.reads.map (fun x => if x.id = r.id then r else x) } }

def locBillet (s : State) (loc : Nat) : Nat :=
  match s.mc.slots.get none loc with
  | some m => m.billet
  | none => 0

/-- The frame a fill's read still serves; it completes against the location it obtained (R138). -/
def readFrame (s : State) (r : MRead) : Bool :=
  let x := s.frame r.frame
  r.why == .fill && x.st == .filling && x.src == .media && x.billet == locBillet s r.loc

/-- The parity of the row a location lies in is held. -/
def parityOf (s : State) (loc : Nat) : Bool :=
  let r := (s.setRec (locSet s loc)).row
  match s.row (r - 1) with
  | some x => decide (r ≠ 0) && x.parityHeld
  | none => false

/-- The class whose offsets succeeded at step 2 or 3: `cls` 0 c + 2, 1 c + 3, 2 c − 1, 3 a read-retry option. -/
def classAt (step cls c : Nat) : Nat :=
  if step = 2 then c + 1
  else if step = 3 then (if cls = 0 then c + 2 else if cls = 1 then c + 3 else if cls = 2 then c - 1 else c)
  else c

/-- Set the class; one past 15 schedules a refresh (R143). -/
def setClass (k c : Nat) (s : State) : State :=
  if c ≤ 15 then s.modSet k (fun x => { x with drift := c })
  else refreshSchedule k (s.modSet k (fun x => { x with drift := 15 }))

/-- What an accepted sector serves. -/
def readServes (r : MRead) (s : State) : State :=
  match r.why with
  | .fill => if readFrame s r then fillArrived r.frame (fillUnit r.frame r.unit (mediaLine s r.loc) s) else s
  | .verify => s
  | .twin t => unitAnswer t (locBillet s r.loc) r.unit [] s

/-- A relocated copy under R138 is owed to the slot of a sector recovered at steps 3 to 6 or failing its verification. -/
def relocate (r : MRead) (s : State) : State :=
  if isCurrent s r.loc && (r.step ≥ 3 || r.why == .verify) && !s.mc.relocOwed.contains r.loc then
    { s with mc := { s.mc with relocOwed := s.mc.relocOwed ++ [r.loc] } }
  else s

/-- A sector is accepted: class, counts, what it serves, its relocation. -/
def readAccept (r : MRead) (cls : Nat) (s : State) : State :=
  let k := locSet s r.loc
  let s := dropRead r.id s
  let s := if r.step = 2 ∨ (r.step = 3 ∧ cls ≤ 2) then setClass k (classAt r.step cls (s.setRec k).drift) s else s
  let s := if 3 ≤ r.step then { s with mctl := { s.mctl with recMid := inc32 s.mctl.recMid } } else s
  owedWork (readServes r (relocate r s))

/-- Step 7: the unit is poisoned, reported and counted. -/
def readPoison (r : MRead) (s : State) : State :=
  let s := unitLost (locBillet s r.loc) r.loc r.unit (dropRead r.id s)
  owedWork (readServes r (relocate { r with step := 6 } s))

/-- Step 6 asks the twin, while the twins are in sync; a read on the twin's behalf does not ask back. -/
def readAskTwin (r : MRead) (s : State) : State :=
  let forTwin := match r.why with
    | .twin _ => true
    | _ => false
  if s.tu.ps == .inSync && linkUp s && !forTwin then
    let u := s.tu.unitCnt
    linkSend (.unitReq u (locBillet s r.loc) r.unit 1)
      (putRead { r with step := 6, second := false, utag := u } { s with tu := { s.tu with unitCnt := (u + 1) % 2 ^ 32 } })
  else readPoison r s

/-- A sector that a step does not yield passes to the next. -/
def readNext (r : MRead) (s : State) : State :=
  let deep (s : State) : State :=
    count 0x1021 0xFFFF 0 1 { s with mctl := { s.mctl with recDeep := inc32 s.mctl.recDeep } }
  match r.step with
  | 1 => putRead { r with step := 2, second := false } s
  | 2 => putRead { r with step := 3, second := false } (deep s)
  | 3 => putRead { r with step := 4, second := false } s
  | 4 => if parityOf s r.loc then putRead { r with step := 5, second := false } s else readAskTwin r s
  | 5 => readAskTwin r s
  | _ => s

/-- A sector read of a recovery step ends (R144, R145, R348). Step 6 ends with the twin's reply. A read for a source or for the
twin may suspend what runs on its die (R146); verification stands still outside service (R164). -/
def readComplete (id : Nat) (res : SecRes) (cls : Nat) (susp : Susp) (s : State) : State :=
  match s.mc.reads.find? (fun r => r.id == id && r.step < 6 && !ncStalled s r.loc && (r.why != .verify || bgOk s)) with
  | none => s
  | some r =>
    let s := if r.why == .verify then s else suspends r.loc susp s
    let res := if r.step < 5 && !saltHeld s r.loc then .noDecode else res
    match res with
    | .good =>
      readAccept r cls (if r.second then raise 0x1004 0xFFFF (locBillet s r.loc + r.unit * 2 ^ 32) .nothing s else s)
    | .noDecode => if r.second then integrityHalt 2 (r.loc + r.unit * 2 ^ 32) s else readNext r s
    | .mismatch =>
      if r.second then integrityHalt 2 (r.loc + r.unit * 2 ^ 32) s else putRead { r with second := true } s
def execMediaReadComplete (id : Nat) (res : SecRes) (cls : Nat) (susp : Susp) (s : State) : Res :=
  run (Instr.wf (.mediaReadComplete id res cls susp)) (readComplete id res cls susp s)

/-! ## Block-set table and levelling (R148, R150, R151) -/

/-- An hour of powered retention. -/
def hourOlder (x : BlkSet) : BlkSet := if setBusy x then { x with ageH := satAdd (2 ^ 20 - 1) x.ageH 1 } else x

/-- A record of the LUN yields an uncorrectable check: the LUN is unlevelled until its rebuild, which starts afresh, and its open
rows are closed (R151). -/
def unlevel (s : State) (u : Nat) : State :=
  if lunGood s u then closeRowsOn u (s.modLun u (fun x => { x with unlevelled := true })) else s

/-- The hourly checkpoint of the whole table; `bad` are the LUNs of which a record yields an uncorrectable check. -/
def bstCheckpoint (bad : List Nat) (s : State) : State :=
  if !s.mc.formatted then s
  else
    let s := { s with mc := { s.mc with sets := s.mc.sets.map (fun kv => (kv.1, hourOlder kv.2)) } }
    mediaLevels (bstWrite (bad.foldl unlevel s))
def execBlockSetCheckpoint (bad : List Nat) (s : State) : Res :=
  run (bad.all (fun u => decide (u < 512))) (bstCheckpoint bad s)

/-- The first programmed slot of a set. -/
def firstSlot (s : State) (k : Nat) : Option MSlot :=
  (s.mc.slots.find? (fun kv => locSet s kv.1 == k && kv.2.isSome)).bind (·.2)

/-- The record of a set of an unlevelled LUN, rebuilt: the count from its first programmed sector, or the checkpointed one
plus 1; state and drift from the checkpoint, a programmed set being closed. -/
def rebuiltRec (s : State) (k : Nat) (x : BlkSet) : BlkSet :=
  let c := s.mc.bst.get {} k
  match firstSlot s k with
  | some m => { x with erase := m.erase, native := !inSlc s k, st := if setAsh c then c.st else if c.st = 3 then 3 else 2,
                       drift := c.drift, ageH := c.ageH }
  | none => { x with erase := satAdd (2 ^ 24 - 1) c.erase 1, st := if setAsh c then c.st else 0, drift := c.drift, ageH := c.ageH }

/-- The rebuild of a LUN's records completes; its unverified rows are verified afresh. -/
def wearRebuilt (u : Nat) (s : State) : State :=
  if !lunGood s u || !(s.lun u).unlevelled then s
  else
    let s := { s with mc := { s.mc with rows := s.mc.rows.map (fun (kv : Nat × Option Row) => (kv.1, kv.2.map (fun r : Row =>
      if r.sets.any (fun k => setLun k == u) then { r with verified := false } else r))) } }
    let t := s.mc.sets.map (fun (kv : Nat × BlkSet) =>
      if setLun kv.1 = u ∧ !isLedgerSet s kv.1 then (kv.1, rebuiltRec s kv.1 kv.2) else kv)
    let s := { s with mc := { s.mc with sets := t } }
    let s := s.modLun u (fun x => { x with unlevelled := false })
    mediaLevels (ledger 0x1005 (srcLun u) [u] (raise 0x1005 u u .nothing s))
def execWearTableRebuilt (lun : Nat) (s : State) : Res := run (decide (lun < 512)) (wearRebuilt lun s)

/-- The lowest-count closed native set that belongs to no open or unverified row. -/
def levelVictim (s : State) : Option Nat :=
  (bestOf (fun (a b : Nat × BlkSet) => decide (a.2.erase < b.2.erase))
    ((nativeSets s).filter (fun kv => kv.2.st == 3 && !(s.lun (setLun kv.1)).unlevelled && !isParitySet s kv.1))).map (·.1)

/-- Levelling: above 5 % of the native rated cycles while the media is idle, above 10 % always. -/
def levelMove (s : State) : State :=
  let gap := wearMax s - wearMin s
  if bgOk s && ((s.mctl.idle && decide (s.mc.prof.en < 20 * gap)) || decide (s.mc.prof.en < 10 * gap)) then
    match levelVictim s with
    | some k => mediaLevels (moveAll k 4 s)
    | none => s
  else s
def execLevellingMove (s : State) : Res := run true (levelMove s)

/-- A LUN that reports no status within 10 ms after a reset of its target (R153). -/
def lunTimeout (u : Nat) (lost : List Nat) (s : State) : State := afterAccess (settle (owedWork (lunRetire u lost s)))
def execLunStatusTimeout (lun : Nat) (lost : List Nat) (s : State) : Res :=
  run (Instr.wf (.lunStatusTimeout lun lost)) (lunTimeout lun lost s)

/-! ## Journal and checkpoint (R132) -/

def execJournalSectorTimer (s : State) : Res := run true (journalWrite s)

/-- The next chunk is written. -/
def checkpointChunk (s : State) : State :=
  if bgOk s && s.mc.formatted then
    let s := chunkWrite s.mc.chunkNext s
    { s with mc := { s.mc with chunkNext := (s.mc.chunkNext + 1) % 64 } }
  else s
def execCheckpointChunk (s : State) : Res := run true (checkpointChunk s)

/-! ## Commands -/

/-- `MEDIA_QUERY`. -/
def mediaData (s : State) : List Byte :=
  pack ([.n4 (mcCfgReg s), .n4 (mcStateReg s), .n4 (budget64k s / 16384), .n4 (wearMin s), .n4 (wearMax s), .n4 (wearMean s),
    .n4 s.mctl.ashSets, .n4 s.mctl.ashFactory, .n4 (lunAshCount s), .n8 s.mctl.destageCnt, .n8 s.mctl.foldCnt]
    ++ (List.range 32).map (fun c => Fld.n4 (mcChReg s c)))
def mediaQuery (rq : Rq) (s : State) : State := query 0x0300 rq mediaData s
def execMediaQuery (rq : Rq) (s : State) : Res := run rq.wf (mediaQuery rq s)

/-- The limit of R18 in GiB: the M field's, and half of the raw capacity present. -/
def userLimit (s : State) : Nat :=
  min (if s.board.mCode = 1 then 16384 else if s.board.mCode = 2 then 32768 else 65536)
    (32 * s.mc.prof.luns * s.mc.prof.blocks * s.mc.prof.pn / 16384 / 2)

/-- Pair states that refuse a format (R220). -/
def formatRefused (p : PState) : Bool :=
  match p with
  | .solo | .fenced | .left | .resyncSource | .resyncTarget => true
  | _ => false

/-- `MEDIA_FORMAT` (`slc` 0, 1, 2: 1/8, 1/16, 1/32): the MC carries it out; in a pair the twin formats too (R220). -/
def mediaFormat (rq : Rq) (gib slc : Nat) (s : State) : State :=
  atornQ 0x0301 rq
    (fun s => { params := [[.n4 gib], [.n4 slc]], bad := [gib == 0 || decide (65536 < gib), decide (3 ≤ slc)],
                refuse := [decide (turfCount s ≠ 0), decide (userLimit s < gib), !noStreamActive s, formatRefused s.tu.ps,
                           s.sec.rngFail] })
    (fun s =>
      let pair := s.tu.ps == .inSync && rq.ch != 30
      let s := { s with mctl := { s.mctl with formatRq := some (gib, slc + 3, b2n pair) } }
      if pair then twinCmd 0x0301 (leBytes 4 gib ++ leBytes 4 slc) s else s) s
def execMediaFormat (rq : Rq) (gib slc : Nat) (s : State) : Res :=
  run (Instr.wf (.mediaFormat rq gib slc)) (mediaFormat rq gib slc s)

/-- A LUN that exists, by channel and number. -/
def lunIndex (chan lun : Nat) : Nat := chan * 16 + lun

/-- `MEDIA_RETIRE`: its block ends the command. -/
def mediaRetire (rq : Rq) (chan lun : Nat) (lost : List Nat) (s : State) : State :=
  let u := lunIndex chan lun
  atornQ 0x0302 rq
    (fun s => { params := [[.n4 chan], [.n4 lun]], bad := [decide (32 ≤ chan), decide (s.mc.prof.luns ≤ lun)],
                refuse := [(s.lun u).ash, decide ((cordActive s (lunCord u)).length < 13), inEmber s] })
    (fun s => lunTimeout u lost { s with mctl := { s.mctl with retireLun := some u } }) s
def execMediaRetire (rq : Rq) (chan lun : Nat) (lost : List Nat) (s : State) : Res :=
  run (Instr.wf (.mediaRetire rq chan lun lost)) (mediaRetire rq chan lun lost s)

/-- `MC_REC_DEEP` is cleared by its read. -/
def recDeepRead (ag : Agent) (s : State) : State :=
  regRead ag s.mctl.recDeep 0 (fun s => { s with mctl := { s.mctl with recDeep := 0 } }) s
def execMcRecDeepRead (ag : Agent) (s : State) : Res := run ag.wf (recDeepRead ag s)

end Sys2Proof.Machine
end

