-- ==== Sys2Proof/Machine/ResetOps.lean ====
section
/-! DEFINITION. The operations of reset, power and shutdown (17): the power snapshot (R406), page 34 (R394, R396), the
reaches of a reset (R385-R388), the cluster reset (R316), the commit of the epoch record (R172), and the timed shutdown
(R407). -/

namespace Sys2Proof.Machine

open Sys2Proof

/-! ## Snapshots and page 34 -/

/-- A sensor's reading: the mean of its last four samples (R411). -/
def thReading (s : State) (i : Nat) : Int :=
  let l := s.th.samples.get [] i
  if l.isEmpty then 0 else (l.foldl (· + ·) 0) / (l.length : Int)

/-- A sensor in a snapshot: whole °C plus 64, rounded down, 0xFF when failed. -/
def snapTemp (s : State) (i : Nat) : Nat :=
  if s.th.failed.getLsbD i then 0xFF else (thReading s i / 4 + 64).toNat % 256

/-- The 40 bytes of a snapshot (R406). -/
def snapBytes (cause step ctx rail retry : Nat) (s : State) : List Byte :=
  [cause, step, ctx, rail, s.rpm.en.toNat, s.rpm.pgRaw.toNat, s.rpm.sup.toNat, retry].map (BitVec.ofNat 8)
    ++ (List.range 8).flatMap (fun i => leBytes 2 (s.rpmx.vmon.get 0 i))
    ++ (List.range 12).map (fun i => BitVec.ofNat 8 (snapTemp s i))
    ++ [BitVec.ofNat 8 s.th.band, BitVec.ofNat 8 (s.rpm.boot + 4 * b2n s.rpm.builtin), 0, 0]

/-- Words of a byte string. -/
def leWords : List Byte → List Nat
  | a :: b :: c :: d :: t => leNat [a, b, c, d] :: leWords t
  | _ => []

/-- A snapshot's event: in the ledger 4 records, bytes 0-39 and 8 zero bytes (R406). -/
def snapLedger (snap : List Byte) (s : State) : State :=
  let rail := ((snap[3]?).getD 0).toNat
  let s := raise 0x3801 (if rail = 0xFF then 0xFFFF else rail) 0 .nothing s
  ledger 0x3801 (if rail = 0xFF then 0 else srcRail rail) (leWords (snap ++ List.replicate 8 0)) s

/-- Record a snapshot: it is to be committed to page 34. -/
def snapTake (cause step ctx rail retry : Nat) (s : State) : State :=
  { s with rpm := { s.rpm with snapCause := cause },
           rpmx := { s.rpmx with snap := snapBytes cause step ctx rail retry s, snapPend := true } }

/-- Page 34 (R394). -/
structure FsPage where
  count : Nat
  cause : Nat
  pend : Nat
  starts : Nat
  fails : Nat
  snap : List Byte
  deriving DecidableEq, Repr

def fsPage (s : State) : FsPage :=
  { count := s.pageNat 34 0 1, cause := s.pageNat 34 1 1, pend := s.pageNat 34 2 1, starts := s.pageNat 34 4 4,
    fails := s.pageNat 34 8 4, snap := bytesOf (s.page 34) 12 40 }

def fsBytes (p : FsPage) : List Byte :=
  leBytes 1 p.count ++ leBytes 1 p.cause ++ leBytes 1 p.pend ++ [0] ++ leBytes 4 p.starts ++ leBytes 4 p.fails
    ++ (p.snap ++ List.replicate 40 0).take 40 ++ List.replicate 12 0

def fsCommit (act : OptAct) (f : FsPage → FsPage) (s : State) : State :=
  commit { page := 34, off := 0, bytes := fsBytes (f (fsPage s)), act := act } s

/-- The page with a snapshot that is to be committed; one already staged to the ledger is not pending there. -/
def withSnap (s : State) (p : FsPage) : FsPage :=
  if s.rpmx.snapPend then { p with snap := s.rpmx.snap, pend := if s.rpmx.snap.head? = some 3 then 0 else 1 } else p

/-- A failure of this start is being committed. -/
def failing (s : State) : Bool :=
  (s.opt.run.toList ++ s.opt.queue).any (fun c => match c.act with
    | .failStart _ => true
    | _ => false)

/-- A start fails (R396): counts and cause committed, a ledger record; the reset follows the commit, but for cause 0x04. -/
def startFail (cause : Nat) (s : State) : State :=
  if s.rpmx.startDone || failing s then s
  else
    let t := ledger 0x381F 0 [cause, s.pageNat 34 0 1 + 1] s
    { fsCommit (.failStart cause) (fun p =>
        withSnap s { p with count := satAdd 255 p.count 1, cause := cause, fails := satAdd max32 p.fails 1 }) t with
      rpmx := { t.rpmx with snapPend := false } }

/-! ## Records of pages 32 and 33 -/

/-- The epoch record as page 32 holds it (R172). -/
def epochOfPage (s : State) : Epoch :=
  { num := s.pageNat 32 0 4, st := s.pageNat 32 4 1, cause := s.pageNat 32 5 1, sealSeq := s.pageNat 32 8 8,
    locA := s.pageNat 32 16 4, locB := s.pageNat 32 20 4, openSeq := s.pageNat 32 24 8 }

def epochBytes (e : Epoch) : List Byte :=
  let b := leBytes 4 e.num ++ leBytes 1 e.st ++ leBytes 1 e.cause ++ leBytes 2 0 ++ leBytes 8 e.sealSeq ++ leBytes 4 e.locA
    ++ leBytes 4 e.locB ++ leBytes 8 e.openSeq ++ List.replicate 28 0
  b ++ leBytes 4 (crc32c b).toNat

/-- Commit an epoch record, ahead of every queued command (R370). -/
def epochCommit (act : OptAct) (e : Epoch) (s : State) : State :=
  commit { page := 32, off := 0, bytes := epochBytes e, act := act, prio := true } s

/-- Write OPEN of the next epoch (R172, R175 step 8). -/
def epochOpenCommit (s : State) : State :=
  epochCommit .epochOpen { num := (s.eu.epoch.num + 1) % 2 ^ 32, st := 1, openSeq := s.mc.seq } s

def pstateOf (n : Nat) : PState :=
  match n with
  | 1 => .pairing | 2 => .inSync | 3 => .solo | 4 => .fenced | 5 => .left | 6 => .resyncSource | 7 => .resyncTarget
  | 8 => .refused | _ => .unpaired

/-- The pair record as page 33 holds it (R190); a page never written gives the factory record. -/
def pairOfPage (s : State) : PairRec :=
  { pgen := s.pageNat 33 0 4, pstate := pstateOf (s.pageNat 33 4 1), token := s.pageNat 33 5 1 % 2 == 1,
    fullOwed := s.pageNat 33 5 1 / 2 % 2 == 1, pairId := s.pageNat 33 8 8, peerSerial := s.pageNat 33 16 8,
    session := s.pageNat 33 24 4, uGib := s.pageNat 33 28 4 }

/-! ## Cluster and warm reach (R316, R385) -/

/-- A core after a cluster reset: a failed core stays failed, counters of its TCMs stay, all else is lost. -/
def coreDown (c : Core) : Core :=
  { st := if c.st = 2 then 2 else 3, cause := c.cause, tcmCe := c.tcmCe, tcmUe := c.tcmUe, sparesOut := c.sparesOut }

def isCoreAgent : Agent → Bool
  | .core _ | .ic => true
  | _ => false

/-- Every unlock ends, and every update session (R337, R363). -/
def unlocksEnd (s : State) : State :=
  let s := (List.range 32).foldl (fun s k => s.modMbox k (fun m => { m with unlocks := [] })) s
  { s with mb := { s.mb with sess := none, sessDone := 0, sessLast := none } }

/-- A cluster reset: every core, its TCMs, stores and reservations, the shared SRAM and the integrator's windows (R316). -/
def clusterDown (s : State) : State :=
  let cores := (List.range 6).foldl (fun (t : Tab Core) i => Tab.set {} t i (coreDown (s.cpu i))) []
  let s := unlocksEnd s
  setWaits (fun ws => ws.filter (fun w => !isCoreAgent w.acc.who))
    { s with cc := { s.cc with cores := cores, sram := [], icSt := 0, icFault := 0, icWdt := 0, icEntry := 0, icKick := false, wins := [],
                               beats := [], served := false, rstOwed := true },
             latch := s.latch.filter (fun x => !isCoreAgent x.1) }

/-- Warm reach (R385): host and stream ports, stream channels, the cluster, every lookaside. -/
def warmDown (s : State) : State :=
  let s := holdAll 0x12 s
  let s := (List.range 10).foldl (fun s p => portDown p s) s
  clusterDown s

/-! ## Cold and power-on reach (R385) -/

/-- Cores that fail at the next self-test for want of a spare row (R310). -/
def sparesOwed (s : State) : Tab Core :=
  (List.range 6).foldl (fun (t : Tab Core) i => if (s.cpu i).sparesOut then Tab.set {} t i { sparesOut := true } else t) []

/-- What no reset changes: fuses and board, option store, NOR, what the media holds, the job and turf tables of the
configuration segment, password verifiers, what R89 and R91 count over starts (notes/assumptions/107.md), and the model's own
fields. -/
def durable (s : State) : State :=
  let r := State.reset
  let m := s.mc
  let c := s.mctl
  { r with
    board := s.board, nor := s.nor, norBytes := s.norBytes, out := s.out, free := s.free, pending := s.pending
    opt := { s.opt with locked := false, faulted := false }
    te := { r.te with turfs := s.te.turfs }
    tp := { r.tp with homes := s.tp.homes }
    su := { r.su with chans := s.su.chans }
    cc := { r.cc with cores := sparesOwed s }
    mc := { r.mc with fmt := m.fmt, luns := m.luns, slots := m.slots, mlines := m.mlines, rows := m.rows, rowCnt := m.rowCnt,
                      cordRows := m.cordRows, lastCord := m.lastCord, openRow := m.openRow, foldRow := m.foldRow,
                      rotCord := m.rotCord, orderCnt := m.orderCnt, journal := m.journal,
                      chunks := m.chunks, chunkNext := m.chunkNext, bst := m.bst, remapMedia := m.remapMedia, sets := m.sets,
                      sys := m.sys, parSlots := m.parSlots }
    ft := { r.ft with life := s.ft.life, cand := s.ft.cand, failedLast := s.ft.failedLast }
    mctl := { r.mctl with destageCnt := c.destageCnt, foldCnt := c.foldCnt, recPoison := c.recPoison, ashSets := c.ashSets,
                          ashFactory := c.ashFactory, calib := c.calib }
    eu := { r.eu with sealRec := s.eu.sealRec, pfw := s.eu.pfw, pfwHeld := s.eu.pfwHeld }
    lg := { r.lg with recs := s.lg.recs, copyA := s.lg.copyA, copyB := s.lg.copyB, setLoc := s.lg.setLoc,
                      mediaSeq := s.lg.mediaSeq }
    sec := { r.sec with verif := s.sec.verif, rollback := s.sec.rollback } }

/-- The RPM is in a power-up, which a cold reset does not touch: its blocks stay in reset until the program ends (R388). -/
def inPowerUp (s : State) : Bool :=
  s.rpm.st == .powerUp || s.rpm.st == .afterAbort || s.rpm.asserted.any (fun x => x == .por || x == .restart)

/-- Cold reach: the RPM island and the EU run on; a start begins anew. -/
def coldDown (s : State) : State :=
  { durable s with
    rpm := { s.rpm with st := if inPowerUp s then s.rpm.st else .osm, recovery := 0 }
    rpmx := { s.rpmx with plls := [], pllFail := [], entered := false, opened := false, startDone := false }
    th := s.th
    eu := { s.eu with phase := .service, deferred := [], drill := none, admitLow := false, startEnded := false, unusable := false,
                      flushing := [], scanned := false } }

/-- A commit that loss of power interrupts (R367): where it stood is a free value. -/
def commitCut (o : OptState) (free : Nat) : OptState :=
  let base : OptState := { pages := o.pages, sparesUsed := o.sparesUsed, commitW := o.commitW, commitPhys := o.commitPhys,
                           lowRaised := o.lowRaised, exhausted := o.exhausted }
  match o.run with
  | none => base
  | some c =>
    match Config.freeCommitPoint free with
    | 0 => base
    | 1 => { base with armed := some false }
    | _ => { base with armed := some true, run := some c }

/-- Power-on reach: the island too; its registers return to their reset values. -/
def powerDown (s : State) : State :=
  let t := durable s
  draw { t with opt := commitCut t.opt t.free }

/-! ## Sources (R386-R388) -/

/-- The bit of `RPM_RST` of a source. -/
def rstBit : RstSrc → Nat
  | .por => 11 | .restart => 10 | .resetN => 9 | .cmdCold => 8 | .peer => 7 | .failStart => 6
  | .cmdWarm => 5 | .coreFail => 4 | .fwAct => 3 | .cmdCluster => 2 | .port _ => 1

def isPowerOn : RstSrc → Bool
  | .por | .restart => true
  | _ => false
def isWarm : RstSrc → Bool
  | .cmdWarm => true
  | _ => false
def isCluster : RstSrc → Bool
  | .coreFail | .fwAct | .cmdCluster => true
  | _ => false
def isPort : RstSrc → Bool
  | .port _ => true
  | _ => false

/-- `REACH` of an interval, from the sources seen in it. -/
def reachOf (l : List RstSrc) : Nat :=
  if l.any isPowerOn then 5 else if l.any isCold then 4 else if l.any isWarm then 3
  else if l.any isCluster && l.any isPort then 6 else if l.any isCluster then 2 else 1

/-- The effect of a source's reach on the blocks it holds. -/
def reachDown (src : RstSrc) (s : State) : State :=
  match src with
  | .por | .restart => powerDown s
  | .resetN | .cmdCold | .peer | .failStart => coldDown s
  | .cmdWarm => warmDown s
  | .coreFail | .fwAct | .cmdCluster => clusterDown s
  | .port p => portDown p s

/-- A source takes effect: an interval begins or goes on; its bit of `RPM_RST` is set (the bits of an earlier interval hold
until cleared). A port source's port is named in the ledger. -/
def rstTake (src : RstSrc) (s : State) : State :=
  let fresh := s.rpm.asserted.isEmpty
  let seen := if fresh then [src] else s.rpm.seen ++ [src]
  let rst := s.rpm.rst ||| ((1#12) <<< rstBit src)
  let t := reachDown src s
  let t := { t with rpm := { t.rpm with asserted := (if fresh then [] else s.rpm.asserted).erase src ++ [src], seen := seen,
                                        rst := if isPowerOn src then (1#12) <<< rstBit src else rst, reach := reachOf seen } }
  match src with
  | .port p => ledger 0x381F (srcPort p) [p] t
  | _ => t

/-- Ember runs or has run and the device has not come back from it. -/
def euBusy (s : State) : Bool := inEmber s && s.eu.phase != .shutdown

/-- A port is held in reset (R388). -/
def portHeld (s : State) (p : Nat) : Bool := s.rpm.asserted.any (fun x => x == .port p || isWarm x || isCold x)

/-- A source is asserted (R185, R186, R386, R408). -/
def rstAssert (src : RstSrc) (s : State) : State :=
  if isPowerOn src then rstTake src s
  else if s.rpm.st == .timedShutdown || s.rpm.st == .shutdown || s.eu.phase == .shutdown then s
  else if euBusy s && !(isCold src && s.eu.phase == .sealedHold) then
    { s with eu := { s.eu with deferred := s.eu.deferred.erase src ++ [src] } }
  else if isCold src && epochOpen s && s.rpm.st == .service then
    let s := emberEnter (if src = .resetN then 4 else 5) s
    { s with eu := { s.eu with deferred := s.eu.deferred ++ [src] } }
  else rstTake src s

/-- A port's own condition for a reset: hot reset, link down, Disabled (R231, R386). It asserts its source for this moment: during
ember it has passed when ember ends (R185). -/
def portPulse (p : Nat) (s : State) : State :=
  if euBusy s then s
  else
    let t := rstAssert (.port p) s
    if s.rpm.asserted.contains (.port p) then t else { t with rpm := { t.rpm with asserted := t.rpm.asserted.erase (.port p) } }

/-! ## Timed shutdown (R407) -/

/-- Commits of the epoch record that wait or run are withdrawn: the record stays as it is (R183, R184, R414). -/
def epochWithdraw (s : State) : State :=
  let mine (a : OptAct) : Bool := a == .epoch || a == .epochOpen
  { s with opt := { s.opt with queue := s.opt.queue.filter (fun c => !mine c.act),
                               run := s.opt.run.filter (fun c => !mine c.act) } }

/-- Minimal recovery is entered (R397). -/
def recoveryEnter (why : Nat) (s : State) : State :=
  { s with rpm := { s.rpm with st := .service, recovery := why }, eu := { s.eu with epoch := {}, phase := .service } }

/-- The down half of the program begins (step 3). -/
def downHalf (s : State) : State :=
  { s with rpm := { s.rpm with step := 32, running := true, waiting := false, retry := 0, downLate := false } }

/-- The timed shutdown begins: `why` 1 warning, 2 thermal, 3 rail fault or abort. Steps 1 and 2; step 3 follows the commit of
page 34. One that stops a start writes no epoch record (R184). -/
def timedShutdown (why : Nat) (s : State) : State :=
  if s.rpm.st == .timedShutdown || s.rpm.st == .shutdown then s
  else
    let s := commitStart (if s.rpm.st == .kindling then epochWithdraw s else s)
    let s := { s with eu := { s.eu with phase := .shutdown, startEnded := s.eu.startEnded },
                      rpm := { s.rpm with st := .timedShutdown, pseqOut := false, pseqTu := false, running := false },
                      rpmx := { s.rpmx with downCause := why, lastDown := false },
                      th := { s.th with tripped := s.th.tripped || why == 2 } }
    let s := { s with rpmx := { s.rpmx with rstPin := min 1 s.rpmx.rstPin } }
    if s.rpmx.snapPend then
      { fsCommit .snap (withSnap s) s with rpmx := { s.rpmx with snapPend := false } }
    else downHalf s

end Sys2Proof.Machine
end

