-- ==== Sys2Proof/Machine/TwinOps.lean ====
section
/-! DEFINITION. The twin unit's operations (09): sessions and the receive side of the link (R193-R195, R208), pairing (R197,
R198), homes (R199), resync (R216, R217), takeover and fencing (R210-R213, R453), and partner channels (R214). -/

namespace Sys2Proof.Machine

open Sys2Proof

/-- Number of a pair state (R191). -/
def psNum : PState → Nat
  | .unpaired => 0 | .pairing => 1 | .inSync => 2 | .solo => 3 | .fenced => 4 | .left => 5
  | .resyncSource => 6 | .resyncTarget => 7 | .refused => 8

/-! ## Records and states -/

/-- What a change of pair state is followed by: READY_CHG, and the waiting accesses. -/
def pairChange (f : State → State) (s : State) : State := settle (readyWatch f s)

/-- A pair record is being written. -/
def pairBusy (s : State) : Bool :=
  s.opt.queue.any (fun c => c.page == 33) || (match s.opt.run with
    | some c => c.page == 33
    | none => false)

/-- The loss (`val` 0) or the return (1) of the twin in the CXL logs (R238). -/
def twinRecord (log val : Nat) (s : State) : State := cxlLog log 2 0x1800 val .nothing s

/-- Give up the copy: mark, record LEFT, FENCED, streams held (R191, R212, R251). -/
def becomeFenced (s : State) : State :=
  pairChange (fun s =>
    let s := twinRecord 1 0 s
    let s := if s.tu.ps = .inSync then markDiverged s else s
    pairWrite .pair (fun r => { r with pstate := .left }) (holdAll 0x14 (setPs .fenced
      { s with tp := { s.tp with deciding := false, taking := false } }))) s

/-- A resync target that lost its source: PAIRING, no memory request completed (R453). -/
def toPairing (s : State) : State := pairChange (fun s => setPs .pairing (holdAll 0x14 (twinRecord 1 0 s))) s

/-- The last pair generation (R190). -/
def lastPgen : Nat := 0x7FFFFFFE

/-- Step 3 of R211: the record of the takeover. At the last pair generation the device is FENCED in its place (R190). -/
def takeoverBegin (byNotice : Bool) (s : State) : State :=
  if s.tu.record.pgen = lastPgen then
    ledger 0x181F srcTwin [lastPgen] (raise 0x1800 0xFFFF 0 .nothing (becomeFenced s))
  else
    pairWrite .takeover (fun r => { r with pgen := r.pgen + 1, pstate := .solo, token := true })
      { s with tp := { s.tp with taking := true, deciding := false, byNotice := byNotice } }

/-! ## Partner channels (R214, R267) -/

/-- Channels in STANDBY whose partner is a channel of the twin. -/
def standbyFor (s : State) (p : Nat) : List Nat :=
  (List.range 64).filter (fun c => (s.chan c).st == .standby && (match (s.chan c).job with
    | some j => j.partner == p
    | none => false))

/-- A partner starts at the held line of a notice. -/
def partnerStart (e : StreamEnt) (s : State) : State :=
  if e.stopped then
    (standbyFor s e.ch).foldl (fun s c => streamNotify c (s.modChan c (fun x =>
      { x with st := .running, next := e.line, trackLine := e.line }))) s
  else s

/-- After a loss without a notice every partner waits for its resume command. -/
def partnersWait (s : State) : State :=
  ((List.range 64).filter (fun c => (s.chan c).st == .standby)).foldl (fun s c =>
    let p := match (s.chan c).job with
      | some j => j.partner
      | none => 64
    raise 0x1805 c (s.tp.peerLines.get 0 p - 1) (.stream c) s) s

/-- Steps 4 to 6 of R211, once the record is committed. -/
def takeoverDone (s : State) : State :=
  let notice := s.tp.byNotice
  let ents := s.tp.noticeEnts
  let s := (s.tp.unackSegs.map (·.2)).eraseDups.foldl (fun s g =>
    s.modSeg g (fun x => { x with gen := s.tu.record.pgen })) s
  let s := pairChange (fun s => setPs .solo
    { s with tu := { s.tu with takeovers := inc32 s.tu.takeovers, claimOut := false },
             tp := { s.tp with taking := false, deciding := false, unackSegs := [], unackBillets := [], mig := [], migQ := [],
                               copying := none, synced := [], todo := [], total := 0, noticeEnts := [] } }) s
  let code := if notice then 0x1801 else 0x1800
  let s := cdatChange (twinRecord 1 0 (ledger code srcTwin [s.tu.record.pgen] (raise code 0xFFFF 0 .nothing s)))
  let s := if notice then ents.foldl (fun s e => partnerStart e s) s else partnersWait s
  endBlock 0x0502 0 0 s

/-! ## Loss of the link (R208, R210, R453) -/

/-- Migrations end with the link: the survivor orders every segment (R200). -/
def migAbort (s : State) : State :=
  s.te.segs.foldl (fun s kv => if kv.2.migrating then s.modSeg kv.1 (fun x => { x with migrating := false }) else s)
    { s with tp := { s.tp with mig := [], migQ := [] } }

/-- Reads that asked the twin go on without it (R115, R144 step 6). -/
def asksLost (s : State) : State :=
  let s := { s with tp := { s.tp with unitAsk := [] } }
  (s.mc.reads.filter (fun r => r.step == 6)).foldl (fun s r => readPoison r s) s

/-- Both twin ports to electrical idle; the session is over (R208, R341). -/
def linkIdle (s : State) : State :=
  let t := { s.tu with idle := true, lo := {}, hi := {}, sent := [], helloRx := none, gap := false, credits := 0 }
  chanReset 30 (migAbort { s with tu := t })

/-- Quorum wiring, healthy (R209, R210). -/
def quorumOk (s : State) : Bool := s.tu.qwired && !s.tu.qfault

/-- A claim is driven and the takeover begins; where the last pair generation fences the device instead, it claims nothing. -/
def claimTake (s : State) : State :=
  takeoverBegin false (if s.tu.record.pgen = lastPgen then s else { s with tu := { s.tu with claimOut := true } })

/-- The decision of R210 in IN_SYNC. -/
def decide_ (s : State) : State :=
  let watch (s : State) : State := { s with tp := { s.tp with deciding := true } }
  if !quorumOk s then (if s.tu.isB then becomeFenced s else takeoverBegin false s)
  else if s.tu.record.token then (if s.tu.claimIn then becomeFenced s else watch s)
  else if s.tp.notLive1ms then claimTake s
  else watch s

/-- What follows the loss, by pair state. -/
def lossOutcome (s : State) : State :=
  if s.sec.halt || s.ft.failed || s.tp.taking || s.tp.deciding then s
  else match s.tu.ps with
    | .inSync => decide_ s
    | .resyncSource =>
      if inEmber s then { s with tp := { s.tp with lossOwed := true } } else takeoverBegin false s
    | .resyncTarget => toPairing s
    | _ => s

/-- The device declares a loss of the link. -/
def lossOfLink (s : State) : State :=
  if s.tu.idle || !(s.tu.lo.up || s.tu.hi.up) then s
  else settle (lossOutcome (asksLost (linkIdle s)))

/-! ## Sessions and `HELLO` (R194, R196, R197) -/

/-- This device's `HELLO`. -/
def myHello (s : State) : HelloP :=
  { serial := s.board.serial, fwVer := s.cc.fwVer, uGib := s.te.uGib, pairId := s.tu.record.pairId, pgen := s.tu.record.pgen,
    pstate := psNum s.tu.record.pstate, twinB := s.tu.isB, token := s.tu.record.token, qwired := s.tu.qwired,
    scanned := s.eu.scanned, fullOwed := s.tu.record.fullOwed, pool := s.te.pool, budgetGib := budget64k s / 16384,
    ceilGib := s.ft.ceilGib, budget64k := budgetSat s,
    peerSerial := if s.tu.record.pairId = 0 then 0 else s.tu.record.peerSerial }

/-- The counts of a new session (R194, R201, R329). -/
def freshSession (n : Nat) (s : State) : State :=
  let s := s.modMbox 30 (fun m => { m with expect := none })
  let t := { s.tu with session := n, txSeq := 0, rxSeq := 0, sent := [], gap := false, helloRx := none, stamp := 1, rxStamp := 0,
                       ackSent := 0, ackStamp := 0, fwdCnt := 0, unitCnt := 0, credits := 0, myStatus := (0, 0, 0) }
  { s with tu := t, tp := { s.tp with unackSegs := [], unackBillets := [], rxFwd := [], cmdSeq := 0, unitAsk := [],
                                      peerLines := [], peerRun := [], replUnmap := [], copyQ := [] } }

/-- Pair states that a training link leaves as they are (R197). -/
def standsAlone (p : PState) : Bool :=
  match p with
  | .unpaired | .solo => true
  | _ => false

/-- The pair state that the persisted one gives at a start, or when a refused device is released (R197). -/
def startState (p : PState) : PState :=
  match p with
  | .unpaired => .unpaired
  | .solo => .solo
  | _ => .pairing

/-- A session begins: twin A commits its number first (R194); twin B takes it from A's first frame. -/
def sessionBegin (s : State) : State :=
  let s := readyWatch (fun s => if standsAlone s.tu.ps then s else setPs (startState s.tu.record.pstate) s) s
  if s.tu.isB then freshSession s.tu.session s
  else pairWrite .session (fun r => { r with session := (r.session + 1) % 2 ^ 32 }) (freshSession s.tu.session s)

/-- The session number is committed: twin A sends `HELLO`. -/
def sessionCommitted (s : State) : State :=
  linkSend (.hello (myHello s)) { s with tu := { s.tu with session := s.tu.record.session } }

/-! ## Pairing (R198) -/

/-- An outcome of R198. `src`: the resync source is twin A. -/
inductive PairOut where
  | refused (reason : Nat)
  | newPair
  | sync (srcA full : Bool)
  deriving DecidableEq, Repr

/-- The codes of `PAIR_RESULT` (notes/assumptions/18.md). -/
def PairOut.code : PairOut → Nat
  | .refused _ => 0
  | .newPair => 1
  | .sync true true => 2
  | .sync true false => 3
  | .sync false true => 4
  | .sync false false => 5

def outOfCode (code reason : Nat) : PairOut :=
  match code with
  | 0 => .refused reason
  | 1 => .newPair
  | 2 => .sync true true
  | 3 => .sync true false
  | 4 => .sync false true
  | _ => .sync false false

/-- SOLO or RESYNC_SOURCE, in a `HELLO`. -/
def helloSolo (p : HelloP) : Bool := p.pstate == 3 || p.pstate == 6

/-- The first row of the table of R198 that applies; `a` and `b` are the `HELLO`s of twins A and B. -/
def pairDecide (a b : HelloP) : PairOut :=
  if a.twinB = b.twinB then .refused 1
  else if a.uGib ≠ b.uGib then .refused 2
  else if a.fwVer / 65536 ≠ b.fwVer / 65536 then .refused 3
  else if a.pairId ≠ 0 ∧ b.pairId ≠ 0 ∧ a.pairId ≠ b.pairId then .refused 4
  else if a.pairId = 0 ∧ b.pairId = 0 then .newPair
  else if a.pairId = 0 then (if b.peerSerial ≠ a.serial then .refused 6 else .sync false true)
  else if b.pairId = 0 then (if a.peerSerial ≠ b.serial then .refused 6 else .sync true true)
  else if a.pgen = b.pgen ∧ helloSolo a ∧ helloSolo b then .refused 5
  else if a.pgen < b.pgen ∧ a.pstate = 3 then .refused 5
  else if b.pgen < a.pgen ∧ b.pstate = 3 then .refused 5
  else if b.pgen < a.pgen then .sync true (b.fullOwed || b.scanned)
  else if a.pgen < b.pgen then .sync false (a.fullOwed || a.scanned)
  else if a.scanned && !b.scanned then .sync false true
  else if b.scanned && !a.scanned then .sync true true
  else .sync true (a.fullOwed || b.fullOwed || (a.scanned && b.scanned))

/-- The identity of a new pair (R198). -/
def newPairId (serialA session : Nat) : Nat := 2 ^ 63 + serialA % 2 ^ 32 * 2 ^ 16 + session % 2 ^ 16

/-- A refusal: REFUSED, the ports held down, a ledger record with both payloads (R198). -/
def pairRefuse (reason : Nat) (mine theirs : HelloP) (s : State) : State :=
  let s := if reason = 5 then raise 0x1802 0xFFFF 0 .nothing s else s
  let s := ledger 0x181F srcTwin (reason :: leWords (helloBytes mine) ++ leWords (helloBytes theirs)) s
  let s := { linkIdle s with tu := { (linkIdle s).tu with refuse := reason } }
  pairChange (setPs .refused) s

/-- What a resync starts from (R217). -/
def resyncClear (full : Bool) (t : TuPair) : TuPair :=
  { t with full := full, todo := [], copying := none, synced := [], genListAt := 0, done := 0, total := 0, haltRx := false,
           haltReason := 0, haltSent := false, copyQ := [], noticeEnts := [], taking := false, deciding := false }

/-- A degraded port retrains while the other carries the frames (R219). -/
def retrainPump (s : State) : State :=
  if !(s.tu.lo.up && s.tu.hi.up) then s
  else if s.tu.lo.owed then { s with tu := { s.tu with lo := { s.tu.lo with up := false, owed := false } } }
  else if s.tu.hi.owed then { s with tu := { s.tu with hi := { s.tu.hi with up := false, owed := false } } }
  else s

/-- Degraded ports are to retrain to their full width, at each pairing and by `TWIN_RETRAIN` (R219). -/
def retrainDegraded (s : State) : State :=
  let ask (p : TwinPort) : TwinPort := { p with owed := p.up && decide (p.width < 16) }
  retrainPump { s with tu := { s.tu with lo := ask s.tu.lo, hi := ask s.tu.hi } }

/-- A device takes its part in a resync (R191, R198): the source is SOLO in its record, the target RESYNC_TARGET. -/
def pairJoin (src full fresh : Bool) (pairId : Nat) (p : HelloP) (s : State) : State :=
  let s := retrainDegraded s
  let tu := { s.tu with credits := p.ceilGib * 16384, refuse := 0, takeovers := if fresh then 0 else s.tu.takeovers }
  let s := cdatChange { s with tp := resyncClear full s.tp, tu := tu }
  pairWrite .pair (fun r => { r with
      pgen := if fresh then 0 else r.pgen, pairId := pairId, peerSerial := p.serial, uGib := s.te.uGib, session := s.tu.session,
      token := if fresh then src else r.token,
      pstate := if src then .solo else .resyncTarget, fullOwed := if src then r.fullOwed else r.fullOwed || full })
    (pairChange (setPs (if src then .resyncSource else .resyncTarget)) s)

/-- Both devices act on the outcome. -/
def pairAct (o : PairOut) (pairId : Nat) (p : HelloP) (s : State) : State :=
  match o with
  | .refused r => pairRefuse r (myHello s) p s
  | .newPair => pairJoin (!s.tu.isB) true true pairId p s
  | .sync srcA full => pairJoin (srcA != s.tu.isB) full false pairId p s

/-- Twin A decides and sends `PAIR_RESULT`. -/
def pairLead (p : HelloP) (s : State) : State :=
  let mine := myHello s
  let o := pairDecide mine p
  let id := match o with
    | .newPair => newPairId s.board.serial s.tu.session
    | _ => if mine.pairId ≠ 0 then mine.pairId else p.pairId
  let reason := match o with
    | .refused r => r
    | _ => 0
  let pgen := match o with
    | .sync true _ => mine.pgen
    | .sync false _ => p.pgen
    | _ => 0
  pairAct o id p (linkSend (.pairResult o.code reason pgen id) s)

/-! ## Homes (R199) -/

/-- At every start and at the end of every resync each segment's home is set by its range, and `MIGRATING` to 0. -/
def setHomes (s : State) : State :=
  let segs := s.te.segs.map (fun kv => (kv.1, { kv.2 with homeB := false, migrating := false }))
  let s := { s with te := { s.te with segs := (segs.filter (fun kv => kv.2 != ({} : Seg))) }, tp := { s.tp with mig := [], migQ := [] } }
  (s.tp.homes.filter (fun h => policyHome h.policy)).foldl (fun s h =>
    (rangeSegs h).foldl (fun s g => s.modSeg g (fun x => { x with homeB := true })) s) s

/-! ## Resync (R216, R217) -/

def segTotal : Nat := 2 ^ 25

def segMapped (s : State) (g : Nat) : Bool := s.te.map.any (fun kv => kv.1 / 32 == g)

/-- The unit's lines as this device holds them. -/
def unitLines (s : State) (b u : Nat) : List LineVal := (List.range 64).map (fun i => localLine s b (u * 64 + i))

/-- Step 2 of R217 for one billet. -/
def copyBillet (b : Nat) (s : State) : State :=
  match s.te.map.get .unmapped b with
  | .unmapped => linkSend (.unitCopy b 0 1 0 []) s
  | .poisoned => linkSend (.unitCopy b 0 2 0 []) s
  | _ => (List.range 16).foldl (fun s u =>
      let ls := unitLines s b u
      linkSend (.unitCopy b u 0 (unitMask ls) (unitData ls)) s) s

/-- Steps 1 to 3 of R217 for a segment. -/
def copySegment (g : Nat) (s : State) : State :=
  let s := { s with tp := { s.tp with copying := some g } }
  let s := (List.range 32).foldl (fun s i => copyBillet (g * 32 + i) s) s
  linkSend (.segDone g (s.seg g).gen) s

/-- The source ends the resync. -/
def resyncFinish (s : State) : State :=
  let s := linkSend (.resyncDone s.tu.record.pgen) s
  pairWrite .pair (fun r => { r with pstate := .inSync, token := true })
    (pairChange (fun s => setHomes (setPs .inSync { twinRecord 0 1 s with tp := { s.tp with total := 0, todo := [], synced := [] } })) s)

/-- The source copies its next segment, or ends (R217). -/
def resyncNext (s : State) : State :=
  if s.tu.ps != .resyncSource || s.tp.copying.isSome then s
  else match s.tp.todo with
    | g :: t => copySegment g { s with tp := { s.tp with todo := t } }
    | [] => if s.tp.genListAt = segTotal then resyncFinish s else s

/-- A segment is to be copied: its `GEN` differs, or in a full resync it is mapped or has been written. -/
def toCopy (s : State) (g gen : Nat) : Bool :=
  if s.tp.full then segMapped s g || gen != 0 || (s.seg g).gen != 0 else (s.seg g).gen != gen

/-- Records of the configuration segment, in frames of 64. -/
def cfgSend (cs : List CfgWrite) (s : State) : State :=
  let st := s.tu.stamp
  let rs : List ReplRec := cs.map (fun c => ⟨0, none, none, false, [], some c⟩)
  linkSend (.repl (cfgSeg s) s.tu.record.pgen st rs) { s with tu := { s.tu with stamp := st + cs.length } }

/-- A resync carries the configuration segment: every entry of the turf table and the home table (R62; as a message,
notes/assumptions/13.md). -/
def cfgCopy (s : State) : State :=
  cfgSend [.homes s.tp.homes] ((List.range 4).foldl (fun s k =>
    cfgSend ((List.range 64).map (fun i => .turf (64 * k + i) (s.turf (64 * k + i)))) s) s)

/-- `GEN_LIST` at the source: the segments that follow those listed before. The configuration segment goes first. -/
def genListTake (first : Nat) (gens : List Nat) (s : State) : State :=
  if s.tu.ps != .resyncSource || first ≠ s.tp.genListAt then s
  else
    let s := if first = 0 then cfgCopy s else s
    let new := (gens.zipIdx.filter (fun x => toCopy s (first + x.2) x.1)).map (fun x => first + x.2)
    resyncNext { s with tp := { s.tp with todo := s.tp.todo ++ new, total := s.tp.total + new.length,
                                          genListAt := first + gens.length } }

/-- The target sends its next `GEN_LIST` once its record is written and what it sent before is covered. -/
def genListPump (s : State) : State :=
  if s.tu.ps == .resyncTarget && linkUp s && !pairBusy s && s.tu.sent.isEmpty && decide (s.tp.genListAt < segTotal) then
    let a := s.tp.genListAt
    linkSend (.genList a ((List.range 1024).map (fun i => (s.seg (a + i)).gen))) { s with tp := { s.tp with genListAt := a + 1024 } }
  else s

/-- `SEG_ACK`: the segment is synced and its held writes go on. -/
def segAcked (g : Nat) (s : State) : State :=
  if s.tp.copying = some g then
    resyncNext (settle { s with tp := { s.tp with copying := none, synced := s.tp.synced ++ [g], done := s.tp.done + 1 } })
  else s

/-- `RESYNC_DONE` at the target: in a full resync what the source did not copy is unmapped. -/
def resyncEnded (pgen : Nat) (s : State) : State :=
  if s.tu.ps != .resyncTarget then s
  else
    let left := if s.tp.full then
        (s.te.map.filter (fun kv => !s.tp.synced.contains (kv.1 / 32))).map (·.1) else []
    let s := left.foldl (fun s b => unmapNow b s) s
    pairWrite .pair (fun r => { r with pgen := pgen, pstate := .inSync, fullOwed := false, token := false })
      (pairChange (fun s => setHomes (setPs .inSync { twinRecord 0 1 s with tp := { s.tp with total := 0, synced := [] } })) s)

/-! ## The receive side (R193-R195, R208) -/

/-- What an `ACK` covers is forgotten. -/
def linkCover (ack : Nat) (s : State) : State :=
  { s with tu := { s.tu with sent := s.tu.sent.filter (fun f => decide (ack ≤ f.lseq)) } }

/-- A frame after a gap: `RETRY`, at most once per 2 µs. -/
def linkGap (s : State) : State :=
  let s := { s with tu := { s.tu with gap := true } }
  if s.tb.count < s.tu.retryAt then s
  else linkSend (.retry s.tu.rxSeq) { s with tu := { s.tu with retryAt := s.tb.count + 2000 } }

/-- A tag that fails (R195, R351). -/
def linkTagFail (data : Bool) (s : State) : State :=
  if s.tu.helloRx.isNone then
    lossOfLink (raise 0x2401 0xFFFF 0 .nothing { s with sec := { s.sec with tagFail := inc32 s.sec.tagFail } })
  else if data then integrityHalt 3 0 s else lossOfLink s

/-- The session number of a frame is the one in force; twin B takes that of the first frame of a session. -/
def sessionOk (h : LinkHdr) (s : State) : Bool :=
  h.session == s.tu.session || (s.tu.isB && s.tu.helloRx.isNone && s.tu.rxSeq == 0)

/-- A frame arrives with message `m`: what R194 and R195 ask of every frame, then the message's `body`. A device that sent
`HALT_NOTICE` takes only what R213 leaves the link. -/
def linkRx (h : LinkHdr) (m : LinkMsg) (body : State → State) (s : State) : State :=
  if s.tu.idle || !(s.tu.lo.up || s.tu.hi.up) || linkQuiet s then s
  else if !h.tagOk then linkTagFail (carriesData h.typ) s
  else if !formOk h m || !sessionOk h s then lossOfLink s
  else
    let s := linkCover h.ack { s with tu := { s.tu with session := h.session } }
    if hdrNum h < s.tu.rxSeq then s
    else if s.tu.rxSeq < hdrNum h then linkGap s
    else
      let s := { s with tu := { s.tu with rxSeq := s.tu.rxSeq + 1, gap := false } }
      genListPump (if s.tp.haltSent && !keptAfterHalt m then s else body s)

/-- `RETRY`: the frames from the expected number are sent again, unchanged but for `FLAGS` bit 0; one sent 16 times is a loss of
the link. -/
def linkResend (expected : Nat) (s : State) : State :=
  let again := s.tu.sent.filter (fun f => decide (expected ≤ f.lseq))
  if again.any (fun f => decide (16 ≤ f.sends)) then lossOfLink s
  else
    let s := again.foldl (fun s f => emit (.link { f.hdr with flags := 1 } f.msg) s) s
    count 0x1821 0xFFFF 1 again.length
      { s with tu := { s.tu with retx := satAdd max32 s.tu.retx again.length,
                                 sent := s.tu.sent.map (fun f => if expected ≤ f.lseq then { f with sends := f.sends + 1 } else f) } }

/-- A pair that exchanges writes. -/
def pairLive (s : State) : Bool :=
  match s.tu.ps with
  | .inSync | .resyncSource | .resyncTarget => !s.tp.taking && !s.tp.deciding
  | _ => false

/-- A notice arrives (R213, R453): the survivor takes over, unless it is itself in ember. -/
def noticeTaken (idle : Bool) (ents : List StreamEnt) (s : State) : State :=
  let s := { s with tp := { s.tp with noticeEnts := ents } }
  if inEmber s then leaveByNotice s
  else
    let s := if idle then asksLost (linkIdle s) else asksLost (migAbort s)
    match s.tu.ps with
    | .inSync | .resyncSource => if s.tp.taking then s else settle (takeoverBegin true s)
    | .resyncTarget => toPairing s
    | _ => s

end Sys2Proof.Machine
end

