-- ==== Sys2Proof/Machine/LedgerOps.lean ====
section
/-! DEFINITION. The ledger's operations (16): the counter at kindling (R377), the sets (R379), the programs of both copies
(R378, R380), and the ledger going online (R381). -/

namespace Sys2Proof.Machine

open Sys2Proof

/-- The group of a `SEQ` (R379). -/
def lgGroup (seq : Nat) : Nat := (seq - 1) / 2048

/-- The greatest `SEQ` of a group that a list of records reaches. -/
def lgUpTo (rs : List LgRec) (g : Nat) : Nat :=
  rs.foldl (fun n r => if lgGroup r.seq = g then max n r.seq else n) 0

/-- The latest slot of a group in a copy: the greatest `L_PROG` (R380). -/
def lgLatest (c : LgCopy) (g : Nat) : Option LgSlot :=
  (c.circ.flatten.filter (fun x => x.group == g)).foldl (fun a x => match a with
    | none => some x
    | some y => if y.prog ≤ x.prog then some x else some y) none

/-- The greatest circulating group a copy holds. -/
def lgTop (c : LgCopy) : Nat := c.circ.flatten.foldl (fun n x => max n x.group) 0

/-- The slots of the oldest circulating set that are copied forward before its erase: latest slots of the newest 33 groups. -/
def lgForward (c : LgCopy) : List LgSlot :=
  let old := (c.circ.getLast?).getD []
  old.filter (fun x => lgLatest c x.group == some x && decide (lgTop c < x.group + 33))

/-- The current circulating set is full: the oldest is erased and becomes the current one (R380). -/
def lgRotate (c : LgCopy) : LgCopy := { c with circ := lgForward c :: c.circ.dropLast }

/-- Write one slot into the current circulating set of a copy of `ps` slots a set; a complete founding group is also written
once into the founding set. -/
def lgSlotPut (ps : Nat) (seq g : Nat) (c : LgCopy) : LgCopy :=
  let c := if decide (ps ≤ ((c.circ.head?).getD []).length) then lgRotate c else c
  let x : LgSlot := ⟨g, c.prog + 1, seq⟩
  let c := { c with prog := c.prog + 1, circ := (((c.circ.head?).getD []) ++ [x]) :: c.circ.drop 1 }
  if g < 2 ∧ seq = 2048 * (g + 1) ∧ !c.founding.any (fun y => y.group == g) then { c with founding := c.founding ++ [x] } else c

/-- Groups that hold waiting records, in order. -/
def lgGroups (rs : List LgRec) : List Nat := (rs.map (fun r => lgGroup r.seq)).eraseDups

/-- Every group's slot in a copy (R380). -/
def lgCopyPut (ps : Nat) (rs : List LgRec) (c : LgCopy) : LgCopy :=
  (lgGroups rs).foldl (fun c g => lgSlotPut ps (lgUpTo rs g) g c) c

/-- A record is retained while a copy holds its group. -/
def lgKept (l : LgState) (seq : Nat) : Bool :=
  let g := lgGroup seq
  let has (c : LgCopy) : Bool := (lgLatest c g).isSome || c.founding.any (fun x => x.group == g)
  has l.copyA || has l.copyB

/-- A program of both copies completes: what was staged is on the media (R378, R380). -/
def lgProgrammed (s : State) : State :=
  let l := s.lg
  let rs := l.staged
  let ps := max 1 s.mc.prof.ps
  let l : LgState := { l with
    copyA := lgCopyPut ps rs l.copyA, copyB := lgCopyPut ps rs l.copyB, staged := [], programming := false,
    recs := rs.foldl (fun (t : Tab LgRec) (r : LgRec) => Tab.insert t r.seq r) l.recs,
    mediaSeq := rs.foldl (fun n (r : LgRec) => max n r.seq) l.mediaSeq }
  { s with lg := { l with recs := l.recs.filter (fun kv => lgKept l kv.1) } }

/-- Program what waits at once: within ember and before the epoch record (R378). -/
def lgFlush (s : State) : State := if s.lg.offline || s.lg.staged.isEmpty then s else lgProgrammed s

/-! ## The sets (R379) -/

/-- The lowest active LUN of a channel. -/
def lowLun (s : State) (c : Nat) : Option Nat := ((List.range 16).find? (fun l => lunGood s (c * 16 + l))).map (fun l => c * 16 + l)

/-- Five sets of a LUN: the lowest that no data holds. -/
def fiveSets (s : State) (u : Nat) : List Nat :=
  ((List.range 4096).filter (fun b => (s.setRec (u * 4096 + b)).st == 0)).take 5 |>.map (fun b => locOf s (u * 4096 + b) 0)

/-- The nearest channel to `c` that is not `no` and has a LUN (R380). -/
def nearChan (s : State) (c no : Nat) : Nat :=
  ((List.range 32).foldl (fun (a : Option Nat) d =>
    let ds := [c + d, c - d]
    match a with
    | some x => some x
    | none => ds.find? (fun k => decide (k < 32) && k != no && (lowLun s k).isSome)) none).getD c

/-- Five sets on a channel, or where that has no LUN left, on the nearest that the other copy does not use. -/
def copySets (s : State) (c no : Nat) : List Nat :=
  match lowLun s (nearChan s c no) with
  | some u => fiveSets s u
  | none => []

/-- The sets as area 0 holds them. -/
def lgLocs (s : State) : List Nat := (List.range 10).map (fun i => s.pageNat 4 (8 + 4 * i) 4)

/-- The sets are chosen at the first start whose population is accepted. -/
def lgChoose (s : State) : State :=
  if (lgLocs s).getD 5 0 ≠ 0 then { s with lg := { s.lg with setLoc := lgLocs s } }
  else
    let l := copySets s 0 16 ++ copySets s 16 0
    commit { page := 4, off := 8, bytes := l.flatMap (leBytes 4) } { s with lg := { s.lg with setLoc := l } }

/-- The ledger comes online and its buffer is programmed (R381). -/
def lgOnline (s : State) : State :=
  let s := lgChoose s
  { s with lg := { s.lg with offline := false, programming := !s.lg.staged.isEmpty } }

/-! ## The counter (R377) -/

/-- The option bytes are LOCKED: the counter resumes at the high-water, *ledger resumed* comes first, and what arose before
follows in order. -/
def lgResume (s : State) : State :=
  let h := s.pageNat 4 0 8
  let early := s.lg.early
  let s := { s with lg := { s.lg with known := true, next := h, high := h, early := [], waiting := [], raising := false } }
  let m := s.lg.mediaSeq
  let s := lgStage (lgRecs 0x3400 0 0 [m % 2 ^ 32, m / 2 ^ 32]) s
  if early.isEmpty then s else lgStage early s

/-- The high-water is raised: the records that waited are staged, as far as it reaches. -/
def lgDrain : Nat → State → State
  | 0, s => s
  | n + 1, s => match s.lg.waiting with
    | [] => s
    | rs :: t =>
      if s.lg.next + rs.length + 1 > s.lg.high then lgRaise s
      else lgDrain n (lgEvent rs { s with lg := { s.lg with waiting := t } })

def lgRaised (s : State) : State :=
  let s := { s with lg := { s.lg with high := s.pageNat 4 0 8, raising := false } }
  lgDrain (s.lg.waiting.length + 1) s

end Sys2Proof.Machine
end

