-- ==== Sys2Proof/Machine/Nolene.lean ====
section
/-! DEFINITION. The Nolene format (12): the header and its load checks (R270-R277, R283, R285), and the decode of one line
with its limits and checks (R278-R282, R284). -/

namespace Sys2Proof.Machine

open Sys2Proof

/-! ## Bytes of a file -/

/-- Byte `off` of the file at a DPA; `none` where its line is the poison marker. -/
def fileByte (s : State) (base off : Nat) : Option Byte :=
  let a := base + off
  match localLine s (a / 65536) (a / 64 % 1024) with
  | .data v => some (byteOf v (a % 64))
  | .poison => none

/-- A byte reader. -/
abbrev Rd := Nat → Option Byte

def rdBytes (rd : Rd) (off n : Nat) : List Byte := (List.range n).map (fun i => (rd (off + i)).getD 0)
def rdPoison (rd : Rd) (off n : Nat) : Bool := (List.range n).any (fun i => (rd (off + i)).isNone)

/-- A little-endian field of a byte string. -/
def fld (b : List Byte) (off n : Nat) : Nat := leNat ((b.drop off).take n)

/-- A signed 32-bit field. -/
def fldI (b : List Byte) (off : Nat) : Int := (BitVec.ofNat 32 (fld b off 4)).toInt

/-- Every byte of a range is 0. -/
def zeroAt (b : List Byte) (off n : Nat) : Bool := ((b.drop off).take n).all (· == 0)

def cdiv (a b : Nat) : Nat := (a + b - 1) / b

/-! ## Header (R272) -/

structure Hdr where
  width : Nat
  lines : Nat
  tileW : Nat
  tileH : Nat
  tilesX : Nat
  tilesY : Nat
  lev : Nat          -- `LEVEL_BITS`, s
  out : Nat          -- `OUT_BITS`, d
  cells : Nat
  indexOff : Nat
  cellOff : Nat
  cellLen : Nat
  lutOff : Nat
  bodyOff : Nat
  bodyLen : Nat
  fileLen : Nat
  fixedCrc : Nat
  deriving DecidableEq, Repr, Inhabited

def hdrOf (b : List Byte) : Hdr :=
  { width := fld b 8 4, lines := fld b 12 4, tileW := fld b 16 4, tileH := fld b 20 4, tilesX := fld b 24 4, tilesY := fld b 28 4,
    lev := fld b 32 1, out := fld b 33 1, cells := fld b 36 4, indexOff := fld b 40 8, cellOff := fld b 48 8, cellLen := fld b 56 8,
    lutOff := fld b 64 8, bodyOff := fld b 72 8, bodyLen := fld b 80 8, fileLen := fld b 88 8, fixedCrc := fld b 96 4 }

/-- Raster line bytes (R270). -/
def Hdr.lineBytes (h : Hdr) : Nat := h.width * h.out / 8

def depthOk (n : Nat) : Bool := n == 1 || n == 2 || n == 4 || n == 8

def geometryOk (h : Hdr) : Bool :=
  decide (1 ≤ h.width) && decide (h.width * h.out % 512 = 0) && decide (h.lineBytes ≤ 2 ^ 26) && decide (1 ≤ h.lines)
    && decide (1 ≤ h.tileW) && decide (h.tileW ≤ 65536) && decide (h.tileW * h.out % 32768 = 0)
    && decide (1 ≤ h.tileH) && decide (h.tileH ≤ 65536)
    && decide (h.tilesX = cdiv h.width h.tileW) && decide (h.tilesY = cdiv h.lines h.tileH)

/-- The regions of the fixed part. -/
def Hdr.regions (h : Hdr) : List (Nat × Nat) :=
  [(0, 128), (h.indexOff, h.indexOff + 16 * h.tilesX * h.tilesY), (h.cellOff, h.cellOff + h.cellLen),
   (h.lutOff, h.lutOff + 256)]

/-- Two byte ranges share no byte. -/
def apart (a b : Nat × Nat) : Bool :=
  decide (a.2 ≤ a.1) || decide (b.2 ≤ b.1) || decide (a.2 ≤ b.1) || decide (b.2 ≤ a.1)

def pairwiseApart : List (Nat × Nat) → Bool
  | [] => true
  | a :: t => t.all (apart a) && pairwiseApart t

def regionsOk (h : Hdr) (len : Nat) : Bool :=
  h.regions.all (fun r => decide (r.1 % 16 = 0) && decide (r.2 ≤ h.bodyOff)) && pairwiseApart h.regions
    && decide (16 * h.cells ≤ h.cellLen) && decide (h.cellLen % 16 = 0) && decide (h.bodyOff ≤ 2 ^ 28)
    && decide (h.fileLen = h.bodyOff + h.bodyLen) && decide (h.fileLen ≤ len)

/-- Checks 1 to 3 of R283 on the 128 header bytes: the code of the first that fails, or 0. -/
def headerCode (b : List Byte) (len : Nat) : Nat :=
  let h := hdrOf b
  if fld b 0 4 ≠ 0x314E4C4E ∨ fld b 5 1 ≠ 1 ∨ fld b 6 2 ≠ 128 then 0x0101
  else if fld b 124 4 ≠ (crc32c (b.take 124)).toNat then 0x0102
  else if !depthOk h.lev || !depthOk h.out || decide (65536 < h.cells) || !zeroAt b 34 2 || !zeroAt b 100 24 then 0x0104
  else if !geometryOk h then 0x0103
  else if !regionsOk h len then 0x0105
  else 0

/-- The LUT (R271). -/
def lutOk (h : Hdr) (lut : List Byte) : Bool :=
  lut.all (fun v => decide (v.toNat < 2 ^ h.out)) && (lut.drop (2 ^ h.lev)).all (· == 0)

/-! ## Tiles, cells, opcodes and repeat arrays (R273-R277) -/

structure Tile where
  off : Nat
  len : Nat
  ops : Nat
  bg : Nat
  empty : Bool
  deriving DecidableEq, Repr

def tileOf (e : List Byte) : Tile :=
  { off := fld e 0 8, len := fld e 8 4, ops := fld e 12 2, bg := fld e 14 1, empty := fld e 15 1 % 2 == 1 }

def tileOk (h : Hdr) (e : List Byte) : Bool :=
  let t := tileOf e
  decide (fld e 15 1 < 2) && decide (t.bg < 2 ^ h.lev) &&
    (if t.empty then decide (t.off = 0) && decide (t.len = 0) && decide (t.ops = 0)
     else decide (t.off % 16 = 0) && decide (t.len % 16 = 0) && decide (16 ≤ t.len) && decide (t.len ≤ 16384)
      && decide (1 ≤ t.ops) && decide (t.ops ≤ 1024) && decide (16 * t.ops ≤ t.len)
      && decide (h.bodyOff ≤ t.off) && decide (t.off + t.len ≤ h.bodyOff + h.bodyLen))

structure Cell where
  bitmap : Bool
  transp : Bool
  cw : Nat
  ch : Nat
  data : Nat
  ops : Nat
  deriving DecidableEq, Repr

/-- Bytes of one row of a bitmap cell. -/
def rowBytes (h : Hdr) (c : Cell) : Nat := cdiv (c.cw * h.lev) 8

/-- A cell entry, when it keeps R274. -/
def cellOf (h : Hdr) (e : List Byte) : Option Cell :=
  let c : Cell := { bitmap := fld e 0 1 == 1, transp := fld e 1 1 % 2 == 1, cw := fld e 4 2, ch := fld e 6 2, data := fld e 8 4,
                    ops := fld e 12 2 }
  let size := if c.bitmap then c.ch * rowBytes h c else 16 * c.ops
  if (c.bitmap || fld e 0 1 == 2) && decide (fld e 1 1 < 2) && (c.bitmap || !c.transp) && zeroAt e 2 2 && zeroAt e 14 2
      && decide (1 ≤ c.cw) && decide (1 ≤ c.ch) && decide (c.data % 16 = 0) && decide (16 * h.cells ≤ c.data)
      && (if c.bitmap then decide (c.ops = 0) else decide (1 ≤ c.ops) && decide (c.ops ≤ 1024))
      && decide (c.data + size ≤ h.cellLen)
  then some c else none

inductive Opc where
  | fill (level : Nat) (x y : Int) (w h : Nat)
  | place (cell : Nat) (x y : Int)
  | repeat_ (cell : Nat) (x y : Int) (off : Nat)
  deriving DecidableEq, Repr

/-- An opcode of 16 bytes (R276), of a tile or of composite `own`; or its code of R285. -/
def opcOf (h : Hdr) (own : Option Nat) (b : List Byte) : Except Nat Opc :=
  let k := fld b 0 1
  if k = 1 then
    (if !zeroAt b 2 2 || fld b 12 2 == 0 || fld b 14 2 == 0 then .error 0x0002
     else if 2 ^ h.lev ≤ fld b 1 1 then .error 0x0003
     else .ok (.fill (fld b 1 1) (fldI b 4) (fldI b 8) (fld b 12 2) (fld b 14 2)))
  else if k = 2 ∨ k = 3 then
    (if !zeroAt b 1 1 || (k == 2 && !zeroAt b 12 4) then .error 0x0002
     else
      let c := fld b 2 2
      let bad := match own with
        | some i => if i ≤ c then some 0x0109 else none
        | none => if h.cells ≤ c then some 0x0004 else none
      match bad with
      | some e => .error e
      | none => if k = 2 then .ok (.place c (fldI b 4) (fldI b 8)) else .ok (.repeat_ c (fldI b 4) (fldI b 8) (fld b 12 4)))
  else .error 0x0002

inductive Rep where
  | grid (nx ny px py : Nat)
  | list (pts : List (Int × Int))
  deriving DecidableEq, Repr

/-- Sorted by dy, then dx, ascending. -/
def repSorted : List (Int × Int) → Bool
  | a :: b :: t => (decide (a.2 < b.2) || (decide (a.2 = b.2) && decide (a.1 ≤ b.1))) && repSorted (b :: t)
  | _ => true

/-- The repeat array at an offset of a body or of the cell table, which lies in `[base + lo, base + hi)` (R277). -/
def repOf (rd : Rd) (base off lo hi : Nat) : Except Nat Rep :=
  if off % 16 ≠ 0 ∨ off < lo ∨ hi < off + 16 then .error 0x0005
  else
    let b := rdBytes rd (base + off) 16
    if !zeroAt b 1 3 then .error 0x0005
    else if fld b 0 1 = 1 then
      (if fld b 4 2 = 0 ∨ fld b 6 2 = 0 ∨ fld b 8 4 = 0 ∨ fld b 12 4 = 0 then .error 0x0005
       else .ok (.grid (fld b 4 2) (fld b 6 2) (fld b 8 4) (fld b 12 4)))
    else if fld b 0 1 = 2 then
      let n := fld b 4 4
      if !zeroAt b 8 8 || decide (n = 0) || decide (4096 < n) || decide (hi < off + 16 + 8 * n) then .error 0x0005
      else
        let pts := (List.range n).map (fun k =>
          let p := rdBytes rd (base + off + 16 + 8 * k) 8
          (fldI p 0, fldI p 4))
        if repSorted pts then .ok (.list pts) else .error 0x0006
    else .error 0x0005

/-- The bytes a repeat array takes. -/
def repLen : Rep → Nat
  | .grid .. => 16
  | .list p => 16 + 8 * p.length

/-! ## Load checks (R283) -/

/-- The opcodes of composite `i`, each followed by its repeat array; the depth they give it, or the code that fails. -/
def opsDepth (rd : Rd) (h : Hdr) (i : Nat) (depths : List Nat) : List Nat → Nat → Except Nat Nat
  | [], d => .ok d
  | a :: t, d =>
    match opcOf h (some i) (rdBytes rd a 16) with
    | .error e => .error e
    | .ok (.fill ..) => opsDepth rd h i depths t d
    | .ok (.place c _ _) => opsDepth rd h i depths t (max d (depths.getD c 0 + 1))
    | .ok (.repeat_ c _ _ o) =>
      match repOf rd h.cellOff o (16 * h.cells) h.cellLen with
      | .error e => .error e
      | .ok _ => opsDepth rd h i depths t (max d (depths.getD c 0 + 1))

/-- Addresses of `n` opcodes from `a`. -/
def opAddrs (a n : Nat) : List Nat := (List.range n).map (fun j => a + 16 * j)

/-- Check 6: the cells from `i` on, with the depths of those before them. -/
def cellsCode (rd : Rd) (h : Hdr) : Nat → Nat → List Nat → Nat
  | 0, _, _ => 0
  | n + 1, i, depths =>
    match cellOf h (rdBytes rd (h.cellOff + 16 * i) 16) with
    | none => 0x0108
    | some c =>
      if c.bitmap then cellsCode rd h n (i + 1) (depths ++ [0])
      else match opsDepth rd h i depths (opAddrs (h.cellOff + c.data) c.ops) 1 with
        | .error e => e
        | .ok d => if 4 < d then 0x010A else cellsCode rd h n (i + 1) (depths ++ [d])

/-- The load checks in order: the first failing code, or 0. -/
def loadCode (rd : Rd) (len : Nat) : Nat :=
  if rdPoison rd 0 128 then 0x010C
  else
    let b := rdBytes rd 0 128
    let h := hdrOf b
    let c := headerCode b len
    if c ≠ 0 then c
    else if rdPoison rd 128 (h.bodyOff - 128) then 0x010C
    else if h.fixedCrc ≠ (crc32c (rdBytes rd 128 (h.bodyOff - 128))).toNat then 0x0106
    else if !lutOk h (rdBytes rd h.lutOff 256) then 0x0107
    else
      let c := cellsCode rd h h.cells 0 []
      if c ≠ 0 then c
      else if (List.range (h.tilesX * h.tilesY)).all (fun k => tileOk h (rdBytes rd (h.indexOff + 16 * k) 16)) then 0
      else 0x010B

/-! ## Decode of a line (R278-R282, R284) -/

/-- A painted run of a tile's line: pixels `[lo, hi)` of the tile, one level or a row of a bitmap cell from `x0`. -/
structure Run where
  lo : Int
  hi : Int
  x0 : Int := 0
  row : List Byte := []
  transp : Bool := false
  level : Option Nat := none
  deriving DecidableEq, Repr

/-- Pixel `p` of a row packed at depth `b` (R270). -/
def pixelOf (row : List Byte) (b p : Nat) : Nat := (row.getD (p * b / 8) 0).toNat / 2 ^ (p * b % 8) % 2 ^ b

/-- What a run paints on a pixel. -/
def Run.at_ (r : Run) (lev : Nat) (p : Int) : Option Nat :=
  if p < r.lo ∨ r.hi ≤ p then none
  else match r.level with
    | some v => some v
    | none =>
      let v := pixelOf r.row lev (p - r.x0).toNat
      if r.transp && v == 0 then none else some v

/-- What decode gathers: the bytes read, whether one was poison, the failures (stick and code, oldest first), the counts of
each stick, and the runs of the present tile, newest first. -/
structure Dec where
  reads : List (Nat × Nat) := []
  poison : Bool := false
  fails : List (Nat × Nat) := []
  steps : Tab Nat := []
  spans : Tab Nat := []
  runs : List Run := []
  dead : Bool := false

/-- What is fixed while a tile is decoded: the reader, the header, the local line, the tile's first pixel, the pixels of the
window, its first byte, and the lowest stick that meets the tile. -/
structure TileCtx where
  rd : Rd
  h : Hdr
  yl : Int
  px : Nat
  wlo : Nat
  whi : Nat
  x : Nat
  stick : Nat

/-- Read a range. -/
def Dec.read (c : TileCtx) (off n : Nat) (d : Dec) : Dec :=
  { d with reads := (off, off + n) :: d.reads, poison := d.poison || rdPoison c.rd off n }

/-- A failure of the tile's own bytes, or of bytes reached through it, ends the tile. -/
def Dec.fail (c : TileCtx) (code : Nat) (d : Dec) : Dec := { d with fails := d.fails ++ [(c.stick, code)], dead := true }

/-- The stick of a raster pixel. -/
def TileCtx.stickAt (c : TileCtx) (p : Nat) : Nat := (p * c.h.out / 8 - c.x) / 4096

/-- The sticks that columns `[a, b)` of the tile meet, within a clip and the window. -/
def TileCtx.sticks (c : TileCtx) (a b lo hi : Int) : List Nat :=
  let a := max (max a lo + c.px) c.wlo
  let b := min (min b hi + c.px) c.whi
  if b ≤ a then []
  else
    let k := c.stickAt a.toNat
    (List.range (c.stickAt (b - 1).toNat + 1 - k)).map (fun i => k + i)

/-- Count in each stick; the one that passes 256 fails (R282). -/
def tally (code : Nat) (t : Tab Nat) (fails : List (Nat × Nat)) (ks : List Nat) : Tab Nat × List (Nat × Nat) :=
  ks.foldl (fun (a : Tab Nat × List (Nat × Nat)) k =>
    let n := a.1.get 0 k + 1
    (a.1.set 0 k n, if n = 257 then a.2 ++ [(k, code)] else a.2)) (t, fails)

def Dec.step (c : TileCtx) (a b lo hi : Int) (d : Dec) : Dec :=
  let r := tally 0x0008 d.steps d.fails (c.sticks a b lo hi)
  { d with steps := r.1, fails := r.2 }

/-- Paint a run, clipped. -/
def Dec.paint (c : TileCtx) (lo hi : Int) (r : Run) (d : Dec) : Dec :=
  let a := max r.lo lo
  let b := min r.hi hi
  if b ≤ a then d
  else
    let t := tally 0x0007 d.spans d.fails (c.sticks a b lo hi)
    { d with spans := t.1, fails := t.2, runs := { r with lo := a, hi := b } :: d.runs }

/-- The line lies in rows `[y, y + n)`. -/
def TileCtx.meets (c : TileCtx) (y : Int) (n : Nat) : Bool := decide (y ≤ c.yl) && decide (c.yl < y + n)

/-- Least and greatest copy origins of an array. -/
def repSpan : Rep → Int × Int × Int × Int
  | .grid nx ny px py => (0, ((nx - 1) * px : Nat), 0, ((ny - 1) * py : Nat))
  | .list pts => (pts.foldl (fun m p => min m p.1) (pts.headD (0, 0)).1, pts.foldl (fun m p => max m p.1) (pts.headD (0, 0)).1,
      (pts.headD (0, 0)).2, (pts.getLastD (0, 0)).2)

/-- Copy origins in painting order, those whose `n` rows meet the line (`y` the origin's row). -/
def repCopies (c : TileCtx) (y : Int) (n : Nat) : Rep → List (Int × Int)
  | .grid nx ny px py =>
    ((List.range ny).filter (fun j => c.meets (y + (j * py : Nat)) n)).flatMap (fun j =>
      (List.range nx).map (fun i => (((i * px : Nat) : Int), ((j * py : Nat) : Int))))
  | .list pts => pts.filter (fun p => c.meets (y + p.2) n)

/-- The opcodes of a tile (`own` none) or of a composite cell, run in order from an origin within a clip. The first argument
bounds the depth of composites at 4 (R275); `base`, `lo` and `hi` say where repeat arrays lie. -/
def runOps : Nat → TileCtx → Option Nat → Nat → Nat → Nat → List Nat → Int → Int → Int → Int → Dec → Dec
  | 0, c, _, _, _, _, _, _, _, _, _, d => d.fail c 0x010A
  | n + 1, c, own, base, lo, hi, ops, ox, oy, cl, cr, d =>
    ops.foldl (fun (d : Dec) a =>
      if d.dead then d
      else
        -- Paint a cell at an origin (R279).
        let cell (i : Nat) (e : Cell) (x y : Int) (d : Dec) : Dec :=
          let l := max cl x
          let r := min cr (x + e.cw)
          if r ≤ l then d
          else if e.bitmap then
            let at_ := c.h.cellOff + e.data + (c.yl - y).toNat * rowBytes c.h e
            let d := d.read c at_ (rowBytes c.h e)
            d.paint c cl cr { lo := x, hi := x + e.cw, x0 := x, row := rdBytes c.rd at_ (rowBytes c.h e), transp := e.transp }
          else
            let at_ := c.h.cellOff + e.data
            runOps n c (some i) c.h.cellOff (16 * c.h.cells) c.h.cellLen (opAddrs at_ e.ops) x y l r
              (d.read c at_ (16 * e.ops))
        -- A cell's entry.
        let entry (i : Nat) (d : Dec) (k : Cell → Dec → Dec) : Dec :=
          let d := d.read c (c.h.cellOff + 16 * i) 16
          match cellOf c.h (rdBytes c.rd (c.h.cellOff + 16 * i) 16) with
          | none => d.fail c 0x0108
          | some e => k e d
        match opcOf c.h own (rdBytes c.rd a 16) with
        | .error e => d.fail c e
        | .ok (.fill v x y w hh) =>
          if c.meets (oy + y) hh then
            (d.step c (ox + x) (ox + x + w) cl cr).paint c cl cr { lo := ox + x, hi := ox + x + w, level := some v }
          else d
        | .ok (.place i x y) =>
          entry i d (fun e d =>
            if c.meets (oy + y) e.ch then cell i e (ox + x) (oy + y) (d.step c (ox + x) (ox + x + e.cw) cl cr) else d)
        | .ok (.repeat_ i x y o) =>
          match repOf c.rd base o lo hi with
          | .error e => (d.read c (base + o) 16).fail c e
          | .ok r =>
            let d := if own.isSome then d.read c (base + o) (repLen r) else d
            entry i d (fun e d =>
              let (x0, x1, y0, y1) := repSpan r
              if c.meets (oy + y + y0) ((y1 - y0).toNat + e.ch) then
                let d := d.step c (ox + x + x0) (ox + x + x1 + e.cw) cl cr
                (repCopies c (oy + y) e.ch r).foldl (fun (d : Dec) p =>
                  let px := ox + x + p.1
                  if d.dead || decide (px + e.cw ≤ cl) || decide (cr ≤ px) then d
                  else cell i e px (oy + y + p.2) (d.step c px (px + e.cw) cl cr)) d
              else d)) d

/-- The pixels of a job's window (R280). -/
def winLo (h : Hdr) (x : Nat) : Nat := 8 * x / h.out
def winHi (h : Hdr) (x l : Nat) : Nat := 8 * (x + l) / h.out

/-- The tile columns decoded. -/
def winTiles (h : Hdr) (x l : Nat) : List Nat :=
  let a := winLo h x / h.tileW
  (List.range ((winHi h x l - 1) / h.tileW + 1 - a)).map (fun i => a + i)

/-- Decode the line in one tile: what decode gathered, the background, and the tile's runs. -/
def decodeTile (rd : Rd) (h : Hdr) (n x l tx : Nat) (d : Dec) : Dec × Nat × List Run :=
  let px := tx * h.tileW
  let first := max px (winLo h x)
  let c : TileCtx := { rd := rd, h := h, yl := (n % h.tileH : Nat), px := px, wlo := winLo h x, whi := winHi h x l, x := x,
                       stick := (first * h.out / 8 - x) / 4096 }
  let at_ := h.indexOff + 16 * (n / h.tileH * h.tilesX + tx)
  let d := { d with runs := [], dead := false }.read c at_ 16
  let e := rdBytes rd at_ 16
  let t := tileOf e
  if !tileOk h e then (d.fail c 0x010B, 0, [])
  else if t.empty then (d, t.bg, [])
  else
    let d := d.read c t.off t.len
    let d := runOps 5 c none t.off (16 * t.ops) t.len (opAddrs t.off t.ops) 0 0 0 h.tileW d
    (d, t.bg, d.runs)

/-- Insert a range by its start. -/
def rangeInsert (a : Nat × Nat) : List (Nat × Nat) → List (Nat × Nat)
  | [] => [a]
  | b :: t => if a.1 ≤ b.1 then a :: b :: t else b :: rangeInsert a t

/-- Bytes that ranges cover, each counted once. -/
def coverLen : Nat → List (Nat × Nat) → Nat
  | _, [] => 0
  | top, a :: t => (a.2 - max a.1 top) + coverLen (max top a.2) t

/-- The failure of the lowest stick, the first of it. -/
def firstFail (l : List (Nat × Nat)) : Option (Nat × Nat) :=
  l.foldl (fun (o : Option (Nat × Nat)) x => match o with
    | none => some x
    | some y => if x.1 < y.1 then some x else some y) none

/-- What a line decodes to: its bytes, or the reason and detail of its starve mark. -/
inductive NlRes where
  | bytes (b : List Byte)
  | bad (reason detail : Nat)
  deriving DecidableEq, Repr

/-- The output byte `i` of the raster line (R270, R280). -/
def outByte (h : Hdr) (lut : List Byte) (tiles : List (Nat × Nat × List Run)) (i : Nat) : Byte :=
  let k := 8 / h.out
  (List.range k).foldl (fun (v : Byte) j =>
    let p := i * k + j
    let lev := match tiles.find? (fun t => t.1 == p / h.tileW) with
      | none => 0
      | some (_, bg, rs) => (rs.findSome? (fun r => r.at_ h.lev ((p % h.tileW : Nat) : Int))).getD bg
    v ||| (lut.getD lev 0 <<< (j * h.out))) 0

/-- What the decode of line `n` of a window gathers over its tiles, and each tile's background and runs. -/
def decodeRun (rd : Rd) (h : Hdr) (n x l : Nat) : Dec × List (Nat × Nat × List Run) :=
  let d0 : Dec := { reads := [(0, 128), (h.lutOff, h.lutOff + 256)], poison := rdPoison rd 0 128 || rdPoison rd h.lutOff 256 }
  (winTiles h x l).foldl (fun (a : Dec × List (Nat × Nat × List Run)) tx =>
    let t := decodeTile rd h n x l tx a.1
    (t.1, a.2 ++ [(tx, t.2)])) (d0, [])

/-- The lines, by DPA / 64, that the decode of line `n` of a file at `base` reads: what its line fetch takes (R263). -/
def lineReads (rd : Rd) (hdr : List Byte) (base n x l : Nat) : List Nat :=
  ((decodeRun rd (hdrOf hdr) n x l).1.reads.flatMap (fun r =>
    (List.range ((base + r.2 + 63) / 64 - (base + r.1) / 64)).map (fun i => (base + r.1) / 64 + i))).eraseDups

/-- Decode line `n` of a window (R278-R281) of a file whose header was loaded as `hdr`; its checks are those of R284. -/
def decodeLine (rd : Rd) (hdr : List Byte) (n x l : Nat) : NlRes :=
  let h := hdrOf hdr
  let lut := rdBytes rd h.lutOff 256
  let r := decodeRun rd h n x l
  let d := r.1
  if d.poison then .bad 2 0
  else if rdBytes rd 0 128 ≠ hdr then .bad 3 0x0001
  else if !lutOk h lut then .bad 3 0x0107
  else if 131072 < coverLen 0 (d.reads.foldl (fun t a => rangeInsert a t) []) then .bad 3 0x0009
  else match firstFail d.fails with
    | some (_, code) => .bad 3 code
    | none => .bytes ((List.range l).map (fun i => outByte h lut r.2 (x + i)))

/-! ## Billets of lines (R281) -/

/-- The billets of a byte range of the file at `base`. -/
def billetsOf (base lo hi : Nat) : List Nat :=
  if hi ≤ lo then []
  else (List.range ((base + hi - 1) / 65536 + 1 - (base + lo) / 65536)).map (fun i => (base + lo) / 65536 + i)

/-- Billets of the fixed part. -/
def fixedBillets (h : Hdr) (base : Nat) : List Nat := billetsOf base 0 h.bodyOff

/-- Billets of the bodies that the lines of a tile row read. -/
def rowBillets (rd : Rd) (h : Hdr) (base x l row : Nat) : List Nat :=
  ((winTiles h x l).flatMap (fun tx =>
    let t := tileOf (rdBytes rd (h.indexOff + 16 * (row * h.tilesX + tx)) 16)
    if t.empty then [] else billetsOf base (max t.off h.bodyOff) (min (t.off + t.len) h.fileLen))).eraseDups

/-- The billets of line `n`. -/
def lineBillets (rd : Rd) (h : Hdr) (base x l n : Nat) : List Nat :=
  (fixedBillets h base ++ rowBillets rd h base x l (n / h.tileH)).eraseDups

/-- The billets of lines `m` to `last`, in line order, the fixed part first (R261). -/
def windowBillets (rd : Rd) (h : Hdr) (base x l m last : Nat) : List Nat :=
  (fixedBillets h base ++ (List.range (last / h.tileH + 1 - m / h.tileH)).flatMap (fun i =>
    rowBillets rd h base x l (m / h.tileH + i))).eraseDups

end Sys2Proof.Machine
end

