-- ==== Sys2Proof/Machine/StreamOps.lean ====
section
/-! DEFINITION. The stream unit's operations (11, 12): rates and lanes (R260, R286, R292), pins (R258, R261), the outcome of an
edge (R257), the release of a line and its end (R253, R264, R265), and the lanes' sticks (R287, R291). -/

namespace Sys2Proof.Machine

open Sys2Proof

/-! ## Rates (R227, R260, R292) -/

/-- Lanes that render sticks. -/
def activeLanes (s : State) : List Nat := if s.xe.up then (List.range 9).filter (fun i => (s.xe.lanes.get {} i).st == 0) else []

/-- Rated payload of a stream port at its width, bytes a second (R227). -/
def portPayload (s : State) (p : Nat) : Nat :=
  match (s.port p).width with
  | 16 => 118000000000
  | 8 => 59000000000
  | 4 => 29500000000
  | _ => 0

/-- What the device can carry: 1.0 TB/s, and 125 GB/s for each active lane. -/
def devPayload (s : State) : Nat := min 1000000000000 (125000000000 * (activeLanes s).length)

def rateOf (j : JobParams) : Nat := j.l * j.fmax

/-- Rates of the channels that run, but for one, of a port or of all. -/
def admitted (s : State) (skip : Option Nat) (port : Option Nat) : Nat :=
  s.su.chans.foldl (fun n kv => match kv.2.job with
    | some j => if chanActive kv.2.st && skip != some kv.1 && (port == none || port == some j.port) then n + rateOf j else n
    | none => n) 0

/-- *Stream over-admitted*, once, when a change takes a port's or the device's limit below what was admitted. -/
def admitWatch (f : State → State) (s : State) : State :=
  let t := f s
  let t := (List.range 10).foldl (fun t p =>
    if decide (admitted s none (some p) ≤ portPayload s p) && decide (portPayload t p < admitted t none (some p))
    then raise 0x1C04 p 0 .nothing t else t) t
  if decide (admitted s none none ≤ devPayload s) && decide (devPayload t < admitted t none none)
  then raise 0x1C04 0xFFFF 0 .nothing t else t

/-! ## Pins (R258, R261) -/

def jobRd (s : State) (j : JobParams) : Rd := fileByte s j.base

/-- The last line of a job. -/
def lastOf (j : JobParams) : Nat := j.first + j.count - 1

/-- The line a channel's window begins at: its next line, or in STANDBY the partner's. -/
def windowAt (x : Chan) : Nat := if x.st == .standby then x.trackLine else x.next

/-- The billets the fixed part and the window need. -/
def wantPins (s : State) (x : Chan) (j : JobParams) : List Nat :=
  let m := windowAt x
  let h := hdrOf x.header
  if lastOf j < m then fixedBillets h j.base
  else windowBillets (jobRd s j) h j.base j.x j.l m (min (lastOf j) (m + j.window - 1))

/-- Pins of a channel, and the promotion of a pinned billet that lies on the media. -/
def pinAcc (c b : Nat) : Acc := { who := .stream c, kind := .pin, dpa := b * 65536 }

def isPinWait (c : Nat) (w : Wait) : Bool := w.acc.who == .stream c && w.acc.kind == .pin

/-- Pinned billets not resident, which nothing promotes yet. -/
def pinOwed (c : Nat) (s : State) : List Nat :=
  (s.chan c).pinned.filter (fun b => (match s.te.map.get .unmapped b with
    | .media _ => true
    | _ => false) && !s.te.waits.any (fun w => isPinWait c w && w.acc.billet == b))

def pinFetch (c : Nat) (s : State) : State := (pinOwed c s).foldl (fun s b => submit (pinAcc c b) s) s

/-- A pin meets an eviction before its commit point: the pin wins (R116). -/
def pinHolds (b : Nat) (s : State) : State :=
  match s.te.map.get .unmapped b with
  | .res f => keepFrame f s
  | _ => s

/-- Pin the fixed part and the window as far as the pin limit goes, and promote what is not resident. -/
def pinWindow (c : Nat) (s : State) : State :=
  let x := s.chan c
  match x.job with
  | none => s
  | some j =>
    let want := wantPins s x j
    let short := decide (j.pinLimit < want.length)
    let first := short && !x.shortRaised
    let pins := want.take j.pinLimit
    let s := s.modChan c (fun x => { x with pinned := pins, winShort := short, shortRaised := x.shortRaised || short })
    let s := setWaits (fun ws => ws.filter (fun w => !isPinWait c w || pins.contains w.acc.billet)) s
    let s := if first then raise 0x1C05 c 0 (.stream c) s else s
    pinFetch c (pins.foldl (fun s b => pinHolds b s) s)

/-- A pinned billet needs no fill: it is held, unmapped, or poisoned (R258). -/
def billetReady (s : State) (b : Nat) : Bool :=
  match s.te.map.get .unmapped b with
  | .res f => (match (s.frame f).st with
    | .clean | .dirty | .destaging => true
    | _ => false)
  | .unmapped | .poisoned => true
  | .media _ => false

/-- Line `n` of a channel is ready. -/
def lineReady (s : State) (x : Chan) (j : JobParams) (n : Nat) : Bool :=
  (lineBillets (jobRd s j) (hdrOf x.header) j.base j.x j.l n).all (fun b => x.pinned.contains b && billetReady s b)

/-- The fixed part and the window are resident and pinned. -/
def windowResident (s : State) (c : Nat) : Bool := (s.chan c).pinned.all (billetReady s)

/-! ## Ends of a run (R251) -/

/-- Pins released. -/
def unpin (c : Nat) (s : State) : State :=
  setWaits (fun ws => ws.filter (fun w => !isPinWait c w)) (s.modChan c (fun x => { x with pinned := [] }))

/-- HELD for a starve mark or for a priming that took too long. -/
def heldFor (cause c : Nat) (s : State) : State :=
  streamNotify c (unpin c (s.modChan c (fun x =>
    { x with st := .held, cause := cause, heldValid := true, stopping := none, lastLine := false })))

/-- DONE: the entry of the last line is valid. -/
def jobDone (c : Nat) (s : State) : State :=
  raise 0x1C02 c 0 (.stream c) (unpin c (s.modChan c (fun x =>
    { x with st := .done, heldValid := false, stopping := none, lastLine := false })))

/-- A starve mark of this reason stops the channel (R264); a withdrawn line does as the line before it did. -/
def markStops (j : JobParams) (reason : Nat) : Bool :=
  reason == 2 || reason == 3 || ((reason == 1 || reason == 4 || reason == 7) && j.onStarve == 1)

/-- No outcome waits any more: a stop that was decided takes effect. -/
def relEmpty (c : Nat) (s : State) : State :=
  let x := s.chan c
  if !x.rel.isEmpty || !chanActive x.st then s
  else match x.stopping with
    | none => s
    | some r =>
      if r == 5 || r == 6 then unpin c (stopEnd r c s)
      else raise 0x1C03 c 0 (.stream c) (heldFor r c s)

/-! ## Releases (R253, R264, R265) -/

/-- The outcome at the head is written: a line into its slot and entry, or a starve mark, which reverts the next line and
withdraws the lines behind it. -/
def headEnd (c : Nat) (s : State) : State :=
  let x := s.chan c
  match x.rel, x.job with
  | r :: t, some j =>
    (match r.bad with
    | none =>
      let slot := j.dataBase + (r.seq - 1) % j.entries * j.slotSize
      let crc := (crc32c r.data).toNat
      let late := s.tb.count - r.stamp
      let s := ringEntry j r.seq r.line 1 0 0 r.stamp j.l crc (emit (.ring j.port j.consumer slot r.data) s)
      let s := s.modChan c (fun x => { x with rel := t, lines := (x.lines + 1) % 2 ^ 64, lateMax := max x.lateMax (min late max32) })
      let s := sampleLat late 0x1C20 c r.line r.stamp (count 0x1C20 c 0 1 s)
      if r.line = lastOf j then jobDone c s else s
    | some (reason, det) =>
      let back (o : Release) : Release := if o.mark then { o with line := r.line } else { o with line := r.line, todo := [], bad := some (8, 0) }
      let s := s.modChan c (fun x => { x with
        rel := if r.mark then t else t.map back, next := if r.mark then x.next else r.line, lastLine := x.lastLine && r.mark,
        stopping := if markStops j reason && x.stopping.isNone then some reason else x.stopping })
      let s := if reason = 3 then { s with xe := { s.xe with decodeErr := inc32 s.xe.decodeErr, lastErr := c * 2 ^ 16 + det } } else s
      streamNotify c (starveEntry c j r.seq r.line reason det r.stamp s))
  | _, _ => s

/-- The head needs no more rendering of its own: a starve mark, or a withdrawn line. -/
def headNow (x : Chan) : Bool :=
  match x.rel with
  | r :: _ => r.mark || r.bad == some (8, 0)
  | [] => false

def headsEnd : Nat → Nat → State → State
  | 0, _, s => s
  | n + 1, c, s => if headNow (s.chan c) then headsEnd n c (headEnd c s) else s

/-- Outcomes that wait for nothing are written, and a stop takes effect. -/
def relFlush (c : Nat) (s : State) : State := relEmpty c (headsEnd (s.chan c).rel.length c s)

/-- The head's line has been rendered, or its failure is known: its release ends. -/
def lineEnd (c : Nat) (s : State) : State :=
  match (s.chan c).rel with
  | r :: _ => if r.todo.isEmpty then relFlush c (headEnd c s) else s
  | [] => s

/-- Lines in release are completed (R161 step 2, R251): each is rendered and its entry made valid. -/
def relFinishN : Nat → Nat → State → State
  | 0, _, s => s
  | n + 1, c, s =>
    if (s.chan c).rel.isEmpty then s
    else relFinishN n c (lineEnd c (s.modChan c (fun x => { x with rel := x.rel.map (fun o => { o with todo := [] }) })))

def relFinish (c : Nat) (s : State) : State := relFinishN (s.chan c).rel.length c s

/-! ## Decision (R257) -/

/-- Lines in release. -/
def inRelease (x : Chan) : Nat := (x.rel.filter (fun r => !r.mark)).length

/-- The fetch of a line's bytes (R263): its stored lines pass the checks of every read, with the outcomes given by DPA / 64; what
cannot be corrected is poison from here on, and a halt ends the fetch. -/
def streamFetch (rds : List (Nat × List RdRes)) (ls : List Nat) (s : State) : State :=
  ls.foldl (fun s l => if s.sec.halt then s else (lineTake (l / 1024) (l % 1024) (outsOf rds l) s).2) s

/-- The outcome of one edge in one channel. A halt or a failure of the front tier in the fetch has held the channel: the edge has taken
its credit and no line (notes/assumptions/110.md). -/
def chanDecide (rds : List (Nat × List RdRes)) (stamp c : Nat) (s : State) : State :=
  let x := s.chan c
  match x.job with
  | none => s
  | some j =>
    if credit j x = 0 then count 0x1C22 c 0 1 (s.modChan c (fun x => { x with tloss := inc32 x.tloss }))
    else
      let q := x.produced + 1
      let take (r : Release) (s : State) : State :=
        s.modChan c (fun x => { x with produced := q % 2 ^ 32, rel := x.rel ++ [r] })
      let mark (reason : Nat) : State :=
        let s := take ⟨q, x.next, stamp, true, [], [], some (reason, 0)⟩ s
        relFlush c (s.modChan c (fun x => { x with
          stopping := if markStops j reason && x.stopping.isNone then some reason else x.stopping }))
      if 2 ≤ inRelease x then mark 4
      else if !lineReady s x j x.next then mark 1
      else
        let s := streamFetch rds (lineReads (jobRd s j) x.header j.base x.next j.x j.l) (pauseWait (16 + c) s)
        let r : Release :=
          if (activeLanes s).isEmpty then ⟨q, x.next, stamp, false, [], [], some (7, 0)⟩
          else match decodeLine (jobRd s j) x.header x.next j.x j.l with
            | .bytes b => ⟨q, x.next, stamp, false, List.range (cdiv j.l 4096), b, none⟩
            | .bad reason det => ⟨q, x.next, stamp, false, [], [], some (reason, det)⟩
        if s.sec.halt || s.ft.failed then s.modChan c (fun x => { x with produced := q % 2 ^ 32 })
        else pinWindow c ((take r s).modChan c (fun x => { x with next := x.next + 1, lastLine := decide (x.next = lastOf j) }))

/-- A channel takes outcomes from edges of an input. -/
def takesEdge (s : State) (input c : Nat) : Bool :=
  let x := s.chan c
  x.st == .running && !x.lastLine && x.stopping.isNone && (match x.job with
    | some j => j.trig == input
    | none => false)

/-! ## Lanes (R287, R290, R291) -/

/-- Sticks not yet rendered, in the order of dispatch: first sticks by stamp and channel, the others by deadline, stamp and
channel, each with its channel, sequence and index. -/
structure Dispatch where
  first : Bool
  deadline : Nat
  stamp : Nat
  c : Nat
  seq : Nat
  stick : Nat
  deriving DecidableEq, Repr

def stickBefore (a b : Dispatch) : Bool :=
  if a.first != b.first then a.first
  else if a.first then decide (a.stamp < b.stamp) || (a.stamp == b.stamp && decide (a.c ≤ b.c))
  else if a.deadline ≠ b.deadline then decide (a.deadline < b.deadline)
  else if a.stamp ≠ b.stamp then decide (a.stamp < b.stamp)
  else if a.c ≠ b.c then decide (a.c < b.c)
  else decide (a.stick ≤ b.stick)

def stickInsert (a : Dispatch) : List Dispatch → List Dispatch
  | [] => [a]
  | b :: t => if stickBefore a b then a :: b :: t else b :: stickInsert a t

def sticksInOrder (s : State) : List Dispatch :=
  (s.su.chans.flatMap (fun kv => match kv.2.job with
    | some j => kv.2.rel.flatMap (fun r => r.todo.map (fun k =>
        (⟨k == 0, r.stamp + cdiv 1000000000 j.fmax, r.stamp, kv.1, r.seq, k⟩ : Dispatch)))
    | none => [])).foldr stickInsert []

/-- The stick a lane holds: the lanes that render take the sticks in their order. -/
def laneHolds (s : State) (lane : Nat) : Option Dispatch :=
  match (activeLanes s).findIdx? (· == lane) with
  | some i => (sticksInOrder s)[i]?
  | none => none

/-- A line ends as a starve mark of reason 0x07. -/
def engineFault (c seq : Nat) (s : State) : State :=
  s.modChan c (fun x => { x with rel := x.rel.map (fun r =>
    if r.seq = seq ∧ !r.mark ∧ r.bad.isNone then { r with todo := [], bad := some (7, 0) } else r) })

/-- Lanes retired. -/
def retiredSet (s : State) : Nat :=
  (List.range 9).foldl (fun n i => n + b2n ((s.xe.lanes.get {} i).st == 2) * 2 ^ i) 0

/-- A lane is retired (R291): the option bytes, the event and the ledger record; an active place is left to a spare. -/
def laneRetire (lane cause : Nat) (s : State) : State :=
  let l := s.xe.lanes.get {} lane
  if l.st = 2 then s
  else
    let s := admitWatch (fun s => { s with xe := { s.xe with
      lanes := s.xe.lanes.set {} lane { l with st := 2, cause := cause }, retiring := s.xe.retiring.erase lane,
      spareOwed := s.xe.spareOwed + b2n (l.st == 0) } }) s
    let s := commit { page := 35, off := 0, bytes := leBytes 2 (retiredSet s) } s
    ledger 0x2000 (srcLane lane) [lane, cause] (raise 0x2000 lane 0 .nothing s)

/-- A lane is found faulty. -/
def laneFault (lane cause : Nat) (s : State) : State :=
  if (s.xe.lanes.get {} lane).st = 2 then s
  else laneRetire lane cause { s with xe := { s.xe with laneFaults := inc32 s.xe.laneFaults } }

/-- The lanes as kindling starts them (R290, R291): the retired set of the option bytes, X8 in the place of a retired lane. -/
def lanesStart (retired : Nat) (s : State) : State :=
  let any := decide (retired % 256 ≠ 0)
  let st (i : Nat) : Nat := if retired.testBit i then 2 else if i = 8 ∧ !any then 1 else 0
  let put (t : Tab Lane) (i : Nat) : Tab Lane :=
    let l := s.xe.lanes.get {} i
    Tab.set {} t i { l with st := st i }
  { s with xe := { s.xe with up := true, spareOwed := 0, retiring := [], lanes := (List.range 9).foldl put [] } }

end Sys2Proof.Machine
end

