-- ==== Sys2Proof/Machine/EmberOps.lean ====
section
/-! DEFINITION. The operations of ember and of every start (08): quiesce, flush and seal (R162-R167), what follows the seal
(R168), the front tier's start (R85, R93), the map and the generations rebuilt (R130, R132, R178, R215), the return of
stream jobs (R268), and the opening of the ports (R175 step 9). -/

namespace Sys2Proof.Machine

open Sys2Proof

/-! ## Quiesce (R162, R316, R342) -/

/-- Commands whose commit is running: it completes within step 6, so their effect is durable (R370). -/
def commitOwner : OptAct → Option (Nat × Nat)
  | .reply ch tag | .rekey ch tag | .verifier _ _ ch tag | .unpair ch tag | .part ch tag | .wrote ch tag _ => some (ch, tag)
  | _ => none

/-- A queued commit of a command is abandoned with its command; others wait for the return (R162, R370). -/
def commitsAbandoned (s : State) : State :=
  { s with opt := { s.opt with queue := s.opt.queue.filter (fun c => (commitOwner c.act).isNone) } }

/-- Every command in flight ends: OK when its effect is durable, else ABANDONED; the drill's own goes on (R188, R342). -/
def commandsEnd (s : State) : State :=
  let owner := s.opt.run.bind (fun c => commitOwner c.act)
  (List.range 32).foldl (fun s ch =>
    (s.mbox ch).flights.foldl (fun s f =>
      if f.replied || s.eu.drill == some (ch, f.tag) then s
      else reply ⟨ch, f.tag⟩ (if f.committed || owner == some (ch, f.tag) then 0 else 0x0400) 0 [] s) s) s

/-- A core is halted: its buffered stores are discarded and its reservation lost. -/
def coreHalt (c : Core) : Core :=
  { c with st := if c.st = 0 then 3 else c.st, sb := [], resv := none, exc := [], loadWait := false }

def coresHalt (s : State) : State :=
  let cores := (List.range 6).foldl (fun (t : Tab Core) i => Tab.set {} t i (coreHalt (s.cpu i))) []
  setWaits (fun ws => ws.filter (fun w => !isCoreAgent w.acc.who)) { s with cc := { s.cc with cores := cores } }

/-- A halted core runs on at ember return. -/
def coresResume (s : State) : State :=
  let go (c : Core) : Core := { c with st := if c.st = 3 then 0 else c.st }
  { s with cc := { s.cc with cores := (List.range 6).foldl (fun (t : Tab Core) i => Tab.set {} t i (go (s.cpu i))) [] } }

/-- Evictions that have begun come to their commit points, and those that waited for them go on. -/
def evictionsEnd (s : State) : State :=
  settle ((s.te.frames.map (·.1)).foldl (fun s f => evictCommit f s) s)

/-- A wait that goes on from step 7: a write of the home order until its acknowledgement, and one whose line the flush brings.
What else is left of the requests taken is dropped there (notes/assumptions/98.md). -/
def keptAtFlush (w : Wait) : Bool :=
  match w.why with
  | .ack _ | .fwd _ | .failover => true
  | .line => w.acc.isWrite
  | .before => w.acc.isReplica
  | _ => false

/-- A wait that the seal leaves. -/
def keptAtSeal (w : Wait) : Bool :=
  match w.why with
  | .ack _ | .fwd _ | .failover => true
  | _ => false

/-- Steps 4 to 7 of R161; the cause that the quiesce ends with goes to the ledger (R158). -/
def quiesceEnd (us : Nat) (s : State) : State :=
  if s.eu.phase != .quiesce then s
  else
    let s := evictionsEnd ((List.range 64).foldl (fun s c => relFinish c s) s)
    let s := coresHalt (commandsEnd (commitsAbandoned s))
    let s := ledger 0x1400 0 [s.eu.cause] s
    let s := sendNotice (.emberNotice s.eu.cause (streamEnts s)) s
    setWaits (fun ws => ws.filter keptAtFlush) { s with eu := { s.eu with phase := .flush, tQuiesce := us } }

/-! ## Flush (R165, R166) -/

/-- A FILLING frame first completes its fill. -/
def fillWhole (f : Nat) (s : State) : State :=
  let b := (s.frame f).billet
  let s := (List.range 1024).foldl (fun s l =>
    if (s.frame f).present.getLsbD l then s else fillLine f l (localLine s b l) s) s
  leaveFilling f s

/-- One destage of the flush, to its end. -/
def flushOnce (f : Nat) (s : State) : State :=
  match destageSlotNext true s with
  | some (loc, t) => destageEnd f (destageInto true f loc t)
  | none => s

/-- The flush of one counted frame. -/
def flushFrame (f : Nat) (s : State) : State :=
  if !(s.frame f).counted then s
  else
    let s := if (s.frame f).st == .filling then fillWhole f s else s
    let s := if (s.frame f).st == .destaging then destageEnd f s else s
    let s := if (s.frame f).st == .dirty then flushOnce f s else s
    if (s.frame f).counted then s else { s with eu := { s.eu with flushed := s.eu.flushed + 1 } }

/-- The front-tier failed state takes the lines it cannot read from the twin, when paired (R91). -/
def twinHelps (s : State) : Bool := s.ft.failed && s.tu.record.pairId != 0

/-- A line that R79 and R81 do not yield: it is reported as R83 states, and goes to the media as the twin's line or as the poison
marker (R91, R166); a destage under way takes it too, where the line has not been written since. -/
def flushBad (tw : List (Nat × Line)) (s : State) (k : Nat) : State :=
  let f := k / 1024
  let l := k % 1024
  let was := getLine s f l
  if !(s.frame f).counted || !lineHeld s f l || was == .poison then s
  else
    let s := onUncorrectable f l s
    let put (v : LineVal) (s : State) : State := snapLine f l was v s
    match (if twinHelps s then tw.find? (fun x => x.1 == k) else none) with
    | some x => put (.data x.2) (poisonDel (lineDpa (s.frame f).billet l) false (putLine f l (.data x.2) s))
    | none => put .poison { s with eu := { s.eu with pois := s.eu.pois + 1 } }

def flushPoison (bad : List Nat) (tw : List (Nat × Line)) (s : State) : State := bad.eraseDups.foldl (flushBad tw) s

/-- Fills come first, and the writes that waited for them are served (R165). -/
def flushFills (s : State) : State :=
  settle ((s.te.frames.filter (fun kv => kv.2.st == .filling && kv.2.counted)).foldl (fun s kv => fillWhole kv.1 s) s)

/-- Every counted frame, then the journal, the parity of every partial stripe and the ledger (R134, R165, R378). -/
def flushAll (bad : List Nat) (tw : List (Nat × Line)) (s : State) : State :=
  let s := flushFills (flushPoison bad tw s)
  let s := (s.te.frames.map (·.1)).foldl (fun s f => flushFrame f s) s
  lgFlush (parityAll (journalWrite (setWaits (fun ws => ws.filter keptAtSeal) s)))

/-! ## Seal (R167, R173) -/

/-- Least `SEQ` among the newest chunk copies. -/
def chunkLow (s : State) : Nat :=
  (List.range 64).foldl (fun n m => min n (s.mc.chunks.get {} m).seq) (s.mc.chunks.get {} 0).seq

/-- The bytes of page 2: the media boundary, the pause and the scope (R357, R359, R371). -/
def boundBytes (s : State) : List Byte := leBytes 4 s.sec.mBound ++ leBytes 4 (b2n (s.sec.rekey == 2) + 2 * s.sec.scope)

/-- Record the media boundary in the option store (R357). -/
def boundRecord (s : State) : State :=
  commit { page := 2, off := 0, bytes := boundBytes s, prio := true } { s with sec := { s.sec with movedGib := 0 } }

/-- The media part of a sweep has billets to visit. -/
def mediaSweeps (s : State) : Bool := s.sec.rekey != 0 && !s.sec.mDone

/-- A place of what the system area holds. -/
def sysLoc (s : State) (key : Nat) : Nat := (s.mc.sys.get (0, 0, 0) key).2.1

/-- Write the tables and both seal copies, and begin the commit of the SEALED record. `ember` counts an ember, `scan` a
start by full scan. The seal's `SEQ` is the greatest of the epoch. -/
def sealWrite (ember scan : Bool) (cause : Nat) (s : State) : State :=
  let (q, s) := takeSeq (remapWrite (bstWrite (parityAll s)))
  let r := s.eu.sealRec
  let ab := twoLocs (2 * q)
  let r : Seal := { r with
    epoch := s.eu.epoch.num, cause := cause, seqHigh := q, journalFrom := chunkLow s, billets := s.eu.flushed,
    poisoned := s.eu.pois, tQuiesce := s.eu.tQuiesce, tFlush := s.eu.tFlush,
    emberCnt := satAdd max32 r.emberCnt (b2n ember), unsealedCnt := satAdd max32 r.unsealedCnt (b2n scan),
    journalLoc := Config.freeLoc s.free % 2 ^ 31, bstLoc := sysLoc s 65, remapLoc := sysLoc s 66,
    chunkSeq := (List.range 64).map (fun m => (s.mc.chunks.get {} m).seq), chunkLoc := (List.range 64).map (sysLoc s) }
  let s := draw { s with eu := { s.eu with sealRec := r } }
  let s := if mediaSweeps s then boundRecord s else s
  epochCommit .epoch { s.eu.epoch with
    st := 2, cause := cause, sealSeq := q, locA := ab.1, locB := ab.2 } (lgFlush s)

/-- Steps 7 to 9 of R161. -/
def flushEnd (us : Nat) (bad : List Nat) (tw : List (Nat × Line)) (s : State) : State :=
  if s.eu.phase != .flush then s
  else
    let s := flushAll bad tw { s with eu := { s.eu with tFlush := us } }
    if dirtyCount s ≠ 0 then s
    else sealWrite true false s.eu.cause { s with eu := { s.eu with phase := .seal } }

/-! ## After the seal (R168, R185) -/

/-- The OPEN record of a start or of an ember return is being committed. -/
def opening (s : State) : Bool := (s.opt.run.toList ++ s.opt.queue).any (fun c => c.act == .epochOpen)

/-- The ember return's conditions: no cause but a warning or a drill, the warning released for 10 ms, every power-good good. -/
def returnOk (s : State) : Bool :=
  s.eu.phase == .sealedHold && s.eu.causes.all (fun c => c == 1 || c == 6) && s.eu.pfwHeld && !s.eu.pfw
    && s.rpm.pgGood == 0xFF && !opening s

/-- Begin the ember return: its OPEN record. -/
def returnTry (s : State) : State := if returnOk s then epochOpenCommit s else s

/-- The timed shutdown of an ember, by its cause: 1 warning, 2 thermal, 3 rail fault, 4 the front-tier failed state. -/
def shutdownOf (s : State) : Option Nat :=
  if s.eu.causes.contains 2 then some 2
  else if s.eu.causes.contains 3 then some 3
  else if s.eu.causes.contains 7 then some 4
  else none

/-- The seal completes: SEALED_HOLD, then the timed shutdown, a deferred cold reset, or the return where its conditions hold. -/
def sealedNow (s : State) : State :=
  let s := { s with eu := { s.eu with phase := .sealedHold, epoch := epochOfPage s } }
  match shutdownOf s with
  | some w => timedShutdown w s
  | none => match s.eu.deferred.find? isCold with
    | some src => rstTake src s
    | none => returnTry s

/-- Replies that ember held are written before any new request is taken (R342). -/
def heldReplies (s : State) : State :=
  s.mb.held.foldl (fun s h => reply ⟨h.1, h.2.1⟩ h.2.2 0 [] s) { s with mb := { s.mb with held := [] } }

/-- `EMBER_DRILL` completes with `T_QUIESCE` and `T_FLUSH` (R188). -/
def drillReply (s : State) : State :=
  match s.eu.drill with
  | some (ch, tag) =>
    ok ⟨ch, tag⟩ (pack [.n4 s.eu.sealRec.tQuiesce, .n4 s.eu.sealRec.tFlush]) { s with eu := { s.eu with drill := none } }
  | none => s

/-- The ember return, once its OPEN record is committed (R168, R177, R185). -/
def emberReturned (s : State) : State :=
  let c := s.eu.cause
  let later := s.eu.deferred
  let s := { s with eu := { s.eu with phase := .service, epoch := epochOfPage s, scanned := false, deferred := [],
                                      admitLow := !reserveFree s } }
  let s := (List.range 10).foldl (fun s p => laInvalidate p s) (coresResume s)
  let s := drillReply (heldReplies s)
  let s := intCauseAll 1 (raise 0x1401 0xFFFF c .nothing s)
  let s := if s.tp.lossOwed then takeoverBegin false { s with tp := { s.tp with lossOwed := false } } else s
  let s := later.foldl (fun s src => rstTake src s) s
  afterAccess (settle (commitStart s))

/-! ## The front tier at a start (R85, R89, R93, R96, R97) -/

/-- Devices that give no response. -/
def silentDevs (s : State) : List Nat :=
  (List.range 32).filter (fun d => !s.board.gddr.getLsbD d || s.rpmx.pllFail.contains (.ft (d / 4)))

/-- Pool frames with `n` devices retired (R96). -/
def poolOf (density n : Nat) : Nat := (32 - n) * usable density - tableCount density

/-- Devices retired earlier in the life of the part. -/
def lifeDevs (s : State) : List Nat := (List.range 32).filter (fun d => s.ft.life.getLsbD d)

/-- Devices that are retired at a start (R89): those of earlier, those that give no response, the candidates that an ember left, and
those that fail the self-test. -/
def retiredAt (s : State) (fails : List Nat) : List Nat := (lifeDevs s ++ silentDevs s ++ s.ft.cand ++ fails).eraseDups

/-- The spare rows of the self-test (R93): the devices whose bank has none left. -/
def spareRows (rows : List (Nat × Nat)) (s : State) : List Nat × State :=
  rows.foldl (fun a r =>
    if s.ft.life.getLsbD r.1 then a
    else match spareBegin r.1 r.2 a.2 with
      | (true, t) => (a.1, t)
      | (false, t) => (a.1 ++ [r.1], t)) ([], s)

/-- A device is retired at a start, before any frame is in use. -/
def retireNow (s : State) (d : Nat) : State :=
  ledger 0x0804 (srcDev d) [d] (raise 0x0804 d 0 .nothing { s.modFtDev d (fun x => { x with st := 2 }) with
    ft := { (s.modFtDev d (fun x => { x with st := 2 })).ft with life := s.ft.life ||| ((1#32) <<< d) } })

/-- Training and self-test: devices that fail are retired, at most two over the life of the part; a third fails the front tier, and
where the start before failed too, the device enters minimal recovery (R89, R91, R93). -/
def ftStart (t : SelfTest) (s : State) : State :=
  let old := lifeDevs s
  let (more, s) := spareRows t.rows s
  let bad := retiredAt s (t.devs ++ more)
  let again := s.ft.failedLast
  let s := old.foldl (fun (s : State) d => s.modFtDev d (fun x => { x with st := 2 })) s
  let s := ((bad.filter (fun d => !old.contains d)).take (2 - old.length)).foldl retireNow s
  let s := { s with
    ft := { s.ft with trained := true, tested := true, density := s.board.density, speed := s.board.speed,
                      lines := [], rawSlots := [], wb := [], cand := [], failedLast := false },
    te := { s.te with frames := [], tindex := [], kindRet := s.ft.life, pool := poolOf s.board.density bad.length } }
  let s := ledger 0x081F 0 [bad.length] s
  if bad.length < 3 then s else if again then recoveryEnter 3 { s with ft := { s.ft with failedLast := true } } else frontFailed s

/-- A start whose front tier failed serves nothing (R91). -/
def unlessFailed (f : State → State) (s : State) : State :=
  if s.rpm.recovery != 0 then s
  else if s.ft.failed then
    { s with eu := { s.eu with phase := .service, epoch := { s.eu.epoch with st := 0 } }, rpm := { s.rpm with st := .service } }
  else f s

/-! ## The map and the generations (R132, R179, R215) -/

/-- A chunk's entry for a billet and the chunk's `SEQ`. -/
def chunkEvent (s : State) (b : Nat) : Nat × MapEnt :=
  let c := s.mc.chunks.get {} (b / 2 ^ 24)
  (c.seq, c.ents.get .unmapped b)

/-- A journal record over an entry (R132): a dirtied record changes nothing. -/
def replay (a : Nat × MapEnt) (r : JRec) : Nat × MapEnt :=
  if r.kind = 3 ∨ r.seq ≤ a.1 then a
  else (r.seq, if r.kind = 0 then .media r.val else if r.kind = 1 then .unmapped else .poisoned)

/-- Records of the media in ascending order. -/
def journalUp (s : State) : List JRec := s.mc.journal.reverse

/-- Billets that the checkpoint or the journal names. -/
def namedBillets (s : State) : List Nat :=
  ((List.range 64).flatMap (fun m => (s.mc.chunks.get {} m).ents.map (·.1)) ++ s.mc.journal.map (·.billet)).eraseDups

/-- The map of a sealed restart (R175 steps 5 and 6). -/
def sealedMap (s : State) : Tab MapEnt :=
  (namedBillets s).foldl (fun (t : Tab MapEnt) b =>
    t.set .unmapped b (((journalUp s).filter (fun r => r.billet == b)).foldl replay (chunkEvent s b)).2) []

/-- The newest of two `GEN` events. -/
def newer (a b : Nat × Nat) : Nat × Nat := if a.1 < b.1 then b else a

/-- A segment's `GEN`, from the newest of its events (R215). -/
def genOf (s : State) (map : Tab MapEnt) (g : Nat) : Nat :=
  let c := s.mc.chunks.get {} (g / 2 ^ 19)
  let base := (c.seq, c.gens.get 0 g)
  let js := (s.mc.journal.filter (fun r => r.billet / 32 == g && (r.kind == 1 || r.kind == 2))).map (fun r => (r.seq, r.val))
  let cs := (map.filter (fun kv => kv.1 / 32 == g)).filterMap (fun kv => match kv.2 with
    | .media l => (s.mc.slots.get none l).map (fun m => (m.seq, m.gen))
    | _ => none)
  ((js ++ cs).foldl newer base).2

/-- Segments that any event names. -/
def namedSegs (s : State) (map : Tab MapEnt) : List Nat :=
  let gs : List Nat := (List.range 64).flatMap (fun m => ((s.mc.chunks.get ({} : Chunk) m).gens).map (fun (x : Nat × Nat) => x.1))
  let js : List Nat := s.mc.journal.map (fun (r : JRec) => r.billet / 32)
  let ms : List Nat := map.map (fun (kv : Nat × MapEnt) => kv.1 / 32)
  (gs ++ js ++ ms).eraseDups

def rebuiltSegs (s : State) (map : Tab MapEnt) : Tab Seg :=
  (namedSegs s map).foldl (fun (t : Tab Seg) g => t.upd {} g (fun x => { x with gen := genOf s map g })) []

/-- The poison index as the media gives it (R238). -/
def rebuiltIdx (s : State) (map : Tab MapEnt) : List (Nat × Bool) :=
  map.flatMap (fun kv => match kv.2 with
    | .poisoned => [(kv.1 * 65536, true)]
    | .media l => (s.mc.mlines.filter (fun x => x.1 / 1024 == l && x.2 == .poison)).map
        (fun x => (lineDpa kv.1 (x.1 % 1024), false))
    | _ => [])

/-- Put the map, the directory and the index in place. -/
def mapLoad (map : Tab MapEnt) (s : State) : State :=
  let idx := rebuiltIdx s map
  { s with te := { s.te with map := map, segs := rebuiltSegs s map },
           px := { s.px with poisonIdx := idx.take 65536, poisonOver := decide (65536 < idx.length) } }

/-! ## Stream jobs at a start (R268) -/

def chanRestart (scan : Bool) (x : Chan) : Chan :=
  if x.job.isNone then {}
  else if scan then
    { x with st := .held, heldValid := false, rel := [], pinned := [], stopping := none, lastLine := false, lines := 0,
             starve := 0, tloss := 0, dbRej := 0, lateMax := 0 }
  else if chanActive x.st then
    { x with st := .held, heldValid := true, next := heldLine x, rel := [], pinned := [], stopping := none, lastLine := false }
  else { x with pinned := [] }

/-- Jobs return, and their segments count their streams (R250). -/
def jobsReturn (scan : Bool) (s : State) : State :=
  let cs : Tab Chan := (s.su.chans.map (fun (kv : Nat × Chan) => (kv.1, chanRestart scan kv.2))).filter
    (fun (kv : Nat × Chan) => kv.2 != ({} : Chan))
  let s : State := { s with su := { s.su with chans := cs, edges := [] } }
  s.su.chans.foldl (fun s kv => match kv.2.job with
    | some j => (List.range (((j.base + j.len - 1) / 2 ^ 21 + 1) - j.base / 2 ^ 21)).foldl (fun s i =>
        s.modSeg (j.base / 2 ^ 21 + i) (fun x => { x with streams := x.streams + 1 })) s
    | none => s) s

/-- A block-set record as a start takes it: what R152 looks back on is forgotten (notes/assumptions/105.md). -/
def setAtStart (x : BlkSet) : BlkSet :=
  { x with lastRefresh := 0, prevRefresh := 0, refreshed := false, refreshes := 0, sampled := false, susp := 0 }

/-- Step 7 of R175; the media controller's rows that no read-back has passed are read back afresh. -/
def tablesReturn (scan : Bool) (s : State) : State :=
  let rows : Tab (Option Row) := s.mc.rows.map (fun (kv : Nat × Option Row) => (kv.1, kv.2.map (fun r : Row => { r with verified := false })))
  setHomes (jobsReturn scan { s with mc := { s.mc with
    rows := rows, sets := s.mc.sets.map (fun (kv : Nat × BlkSet) => (kv.1, setAtStart kv.2)) } })

/-! ## Full scan (R178-R181) -/

/-- A copy, an unmap or a poison record of a billet, with its `SEQ`. -/
def scanEvent (s : State) (b : Nat) : Nat × MapEnt :=
  let base : Nat × MapEnt := match chunkEvent s b with
    | (_, .media _) => (0, .unmapped)
    | (q, e) => (q, e)
  let a := ((journalUp s).filter (fun r => r.billet == b && r.kind != 0)).foldl replay base
  s.mc.slots.foldl (fun (a : Nat × MapEnt) kv => match kv.2 with
    | some m => if m.billet = b ∧ a.1 < m.seq then (m.seq, .media kv.1) else a
    | none => a) a

/-- `SEQ` of the newest dirtied record of a billet. -/
def dirtiedSeq (s : State) (b : Nat) : Nat :=
  s.mc.journal.foldl (fun n r => if r.billet = b ∧ r.kind = 3 then max n r.seq else n) 0

def scanBillets (s : State) : List Nat :=
  (namedBillets s ++ s.mc.slots.filterMap (fun kv => kv.2.map (·.billet))).eraseDups

/-- Billets whose newest data never reached the media. -/
def scanLost (s : State) : List Nat := (scanBillets s).filter (fun b => decide ((scanEvent s b).1 < dirtiedSeq s b))

/-- The map that pass 2 decides. -/
def scanMap (s : State) : Tab MapEnt :=
  (scanBillets s).foldl (fun (t : Tab MapEnt) b => t.set .unmapped b (scanEvent s b).2) []

/-- The greatest `SEQ` found: of data and parity sectors, of the journal, of the system area and of the seal. -/
def scanHigh (s : State) : Nat :=
  let a := s.mc.slots.foldl (fun n kv => match kv.2 with
    | some m => max n m.seq
    | none => n) 0
  let b := s.mc.journal.foldl (fun n r => max n r.seq) a
  let c := s.mc.parSlots.foldl (fun n kv => max n (kv.2.seq + 15)) b
  s.mc.sys.foldl (fun n kv => max n kv.2.1) (max c s.eu.sealRec.seqHigh)

/-- The slots of a billet's copies of one `SEQ` (R130). -/
def scanCopies (s : State) (b q : Nat) : List Nat :=
  s.mc.slots.filterMap (fun kv => match kv.2 with
    | some m => if m.billet = b ∧ m.seq = q then some kv.1 else none
    | none => none)

/-- A unit of a slot is taken from another slot of the same `SEQ`. -/
def unitCopied (src dst u : Nat) (s : State) : State :=
  { s with mc := { s.mc with mlines := Tab.copy zeroLine s.mc.mlines (src * 1024 + u * 64) (dst * 1024 + u * 64) 64 } }

/-- The copy a billet keeps (R130): a slot whose 16 units all pass; else the units are joined in a relocated copy, and one that no
slot yields is poison. `bad` are the units that do not pass, location × 16 + unit. -/
def scanBillet (bad : List Nat) (s : State) (kv : Nat × MapEnt) : State :=
  match kv.2 with
  | .media l =>
    let cs := match s.mc.slots.get none l with
      | some m => scanCopies s kv.1 m.seq
      | none => []
    let fails (c : Nat) : List Nat := (List.range 16).filter (fun u => bad.contains (c * 16 + u))
    (match cs.find? (fun c => (fails c).isEmpty) with
      | some c => { s with te := { s.te with map := s.te.map.set .unmapped kv.1 (.media c) } }
      | none => moveSlot l 4 ((fails l).foldl (fun s u =>
          match cs.find? (fun c => !bad.contains (c * 16 + u)) with
          | some c => unitCopied c l u s
          | none => poisonUnit l u s) s))
  | _ => s

def scanUnits (bad : List Nat) (s : State) : State := s.te.map.foldl (scanBillet bad) s

/-- The block-set table, rebuilt for every LUN; open rows are closed (R151, R178). -/
def scanSets (s : State) : State :=
  let s := s.mc.rows.foldl (fun s kv => if (kv.2.map (·.closed)).getD true then s else closeRow kv.1 s) s
  let keys := (s.mc.bst.map (·.1) ++ s.mc.slots.map (fun kv => locSet s kv.1) ++ s.mc.sets.map (·.1)).eraseDups
  let t := keys.foldl (fun (t : Tab BlkSet) k =>
    if isLedgerSet s k then t else t.set {} k (rebuiltRec s k (s.mc.sets.get {} k))) []
  { s with mc := { s.mc with sets := t } }

/-- A checkpoint of all 64 chunks. -/
def checkpointAll (s : State) : State := (List.range 64).foldl (fun s m => chunkWrite m s) s

/-! ## Opening (R175 step 9, R177, R181, R197, R235) -/

/-- The pair state at a start: a device with no port in twin role is standalone (R12, R14; notes/assumptions/106.md). -/
def startOf (s : State) : PState :=
  let p := startState s.tu.record.pstate
  if (List.range 10).any (fun k => (s.port k).role == 2) || p == .solo then p else .unpaired

/-- Step 9: the ports open, and pairing begins where the twin link has trained. -/
def portsOpen (s : State) : State :=
  let s := readyWatch (fun s =>
    let s := { s with px := { s.px with open_ := true }, rpmx := { s.rpmx with opened := true },
                      rpm := { s.rpm with st := .service },
                      eu := { s.eu with phase := .service, admitLow := s.mc.formatted && !reserveFree s } }
    setPs (startOf s) s) s
  let s := if s.eu.ceilSupported = 0 then raise 0x1402 0xFFFF 0 .nothing s else s
  let s := if s.eu.scanned then
      raiseTo ((hostFns s).flatMap (fun pf => chanList s (.fn pf.1 pf.2))) 0x1403 0xFFFF s.eu.scanPoison
        (ledger 0x1403 0 [s.eu.scanPoison] (cxlLog 1 2 0x1403 s.eu.scanPoison .nothing s)) else s
  let s := mediaLevels s
  if s.tu.lo.up || s.tu.hi.up then sessionBegin s else s

/-- The OPEN record of a start is committed: the ports open, or the device halts for a sector rejected in the scan (R180). -/
def startOpened (s : State) : State :=
  let s := { s with eu := { s.eu with epoch := epochOfPage s } }
  match s.eu.scanBad with
  | some l => integrityHalt 4 l { s with eu := { s.eu with phase := .service, scanBad := none }, rpm := { s.rpm with st := .service } }
  | none => portsOpen s

/-- A start without a formatted media: nothing to recover (R154). -/
def startBare (s : State) : State :=
  if s.eu.pfw || !s.eu.pfwHeld || s.rpmx.opened then s
  else unlessFailed (fun s => portsOpen (tablesReturn false s)) (ftStart s.board.bareTest s)

/-! ## Format (R154, R172, R220) -/

/-- What a format leaves of a block set: every count 0 (R154), ash, and the sets that hold the ledger. -/
def formatSet (s : State) (kv : Nat × BlkSet) : Nat × BlkSet :=
  (kv.1, { st := if isLedgerSet s kv.1 || setAsh kv.2 then kv.2.st else 0, native := isLedgerSet s kv.1 && kv.2.native })

/-- The block sets of a format: the factory's marks make factory ash (R152). -/
def formatSets (s : State) : Tab BlkSet :=
  let t := (s.mc.sets.map (formatSet s)).filter (fun kv => kv.2 != ({} : BlkSet))
  s.board.factoryBad.foldl (fun (t : Tab BlkSet) k => t.upd {} k (fun x => if setAsh x then x else { x with st := 5 })) t

/-- Salts and generation of the media key at a format (R345, R348, R358): a random salt, the generation one above. -/
def formatKeys (s : State) : State :=
  let g := mediaGen s + 1
  let salt := Config.freeRandom s.free % 2 ^ 256
  let s := draw s
  let s := commit { page := 0, off := 4, bytes := leBytes 32 salt ++ leBytes 4 g } s
  let s := commit { page := 1, off := 0, bytes := List.replicate 64 0 } s
  commit { page := 2, off := 0, bytes := List.replicate 64 0 } s

/-- The media of a format: erased, an empty map, a complete checkpoint, a seal of cause 0x00 and the records of R172. -/
def formatDone (gib slc : Nat) (s : State) : State :=
  let sets := formatSets s
  let calib := s.free
  let s := draw s
  let mc : McState := { s.mc with
    formatted := true, slcDiv := slc, fmt := some (gib, slc), sets := sets, slots := [], mlines := [], rows := [], rowCnt := 0,
    cordRows := [], lastCord := 0, openRow := [], foldRow := 0, rotCord := 0, seq := 1, jPend := [], journal := [],
    chunks := [], chunkNext := 0, destages := [], retry := [], retryRaised := [], reads := [], sys := [], parSlots := [],
    relocOwed := [] }
  let s := { s with mc := mc, mctl := { s.mctl with recPoison := 0, calib := calib,
                                                    ashFactory := (sets.filter (fun kv => kv.2.st == 5)).length },
                    te := { s.te with map := [], segs := [], frames := [], uGib := gib },
                    ft := { s.ft with lines := [], rawSlots := [], wb := [] },
                    px := { s.px with poisonIdx := [], poisonOver := false },
                    sec := { s.sec with mDone := true, mPassed := false, mBound := 0, movedGib := 0 },
                    eu := { s.eu with epoch := {}, sealRec := {}, flushed := 0, pois := 0, tQuiesce := 0, tFlush := 0 } }
  let s := cdatChange (checkpointAll (formatKeys s))
  epochOpenCommit (sealWrite false false 0 s)

/-- In a pair the format re-forms the pair with a new identity (R198, R220). -/
def formatPair (s : State) : State :=
  if s.tu.record.pairId = 0 then s
  else
    let serialA := if s.tu.isB then s.tu.record.peerSerial else s.board.serial
    pairWrite .pair (fun r => { r with
      pairId := newPairId serialA s.tu.session, pgen := 0, uGib := s.te.uGib, token := !s.tu.isB, fullOwed := false }) s

/-- The format's own end: its OPEN record is committed, and in a pair the twin has replied. -/
def formatReply (s : State) : State :=
  match s.mctl.formatRq with
  | some (_, _, 2) => mediaLevels (endBlock 0x0301 0 0 { s with mctl := { s.mctl with formatRq := none } })
  | _ => s

/-- The OPEN record is committed (R168, R172, R175). A format marks its own part done: 0 waits for it alone, 1 for the twin's
reply too; 2 done, 3 done here. -/
def openedNow (s : State) : State :=
  let s := { s with lg := { s.lg with confSeqs := [] } }
  match s.eu.phase with
  | .sealedHold => emberReturned s
  | .restart | .scanSeal => startOpened s
  | _ =>
    let s := { s with eu := { s.eu with epoch := epochOfPage s } }
    match s.mctl.formatRq with
    | some (g, k, 0) => formatReply (formatPair { s with mctl := { s.mctl with formatRq := some (g, k, 2) } })
    | some (g, k, 1) => formatPair { s with mctl := { s.mctl with formatRq := some (g, k, 3) } }
    | _ => s

/-- The SEALED record is committed (R167): of an ember, of a scan, or of a format. -/
def sealedRecord (s : State) : State :=
  if s.eu.phase == .seal then sealedNow s else { s with eu := { s.eu with epoch := epochOfPage s } }

end Sys2Proof.Machine
end

