-- ==== Sys2Proof/Machine/ClusterOps.lean ====
section
/-! DEFINITION. The operations of the control cluster (13): roles (R295), TCM spare rows (R310), images (R336, R360-R362),
the firmware's load, the integrator core's load and fault (R313, R314), and what a cluster reset leaves of the commands
in flight (R339). -/

namespace Sys2Proof.Machine

open Sys2Proof

/-! ## Option pages of the cluster -/

/-- Bytes of the option store from a byte of a page, across pages (R371). -/
def optBytes (s : State) (page off n : Nat) : List Byte :=
  (List.range n).map (fun k => byteOf (s.page (page + (off + k) / 64)) ((off + k) % 64))

/-- The failed set of page 35 (R295). -/
def failedSet (s : State) : BitVec 6 := BitVec.ofNat 6 (s.pageNat 35 2 1)

/-- The preferred firmware slot (R336). -/
def preferred (s : State) : Nat := s.pageNat 35 3 1 % 2

/-- A page as it will read once every commit queued for it is done. -/
def pageSoon (s : State) (k : Nat) : BitVec 512 :=
  ((s.opt.run.toList ++ s.opt.queue).filter (fun c => c.page == k)).foldl (fun v c => putBytes v c.off c.bytes) (s.page k)

/-- Spare `r` of TCM `t` of a core: used, and the row it replaces (R310, R371). -/
def tcmSpare (s : State) (i t r : Nat) : Nat :=
  let o := (i * 32 + t * 16 + r) * 2
  leNat (bytesOf (pageSoon s (36 + o / 64)) (o % 64) 2)
def tcmFree (s : State) (i t : Nat) : List Nat := (List.range 16).filter (fun r => tcmSpare s i t r < 2 ^ 15)

/-! ## Images (R360) -/

/-- Bytes of the NOR; an erased byte reads 0xFF. -/
def norRead (s : State) (addr n : Nat) : List Byte := (List.range n).map (fun k => s.norBytes.get 0xFF (addr + k))

/-- Where a slot lies in the NOR, and its size (R336). -/
def slotBase (k : Nat) : Nat := if k = 2 then 0x800000 else k * 0x400000
def slotSize (k : Nat) : Nat := if k = 2 then 0x100000 else 0x400000

/-- The fields of an image header. -/
structure ImgHdr where
  keyIdx : Nat
  version : Nat
  rollback : Nat
  code : Nat
  data : Nat
  entry : Nat
  serial : Nat
  deriving DecidableEq, Repr

def imgHdr (b : List Byte) : ImgHdr :=
  let f (o n : Nat) : Nat := leNat ((b.drop o).take n)
  { keyIdx := f 5 1, version := f 8 4, rollback := f 12 4, code := f 16 4, data := f 20 4, entry := f 24 4, serial := f 32 8 }

/-- `MAGIC`, `KIND` and `HDR_LEN` are correct and every reserved byte is 0. -/
def imgForm (kind : Nat) (b : List Byte) : Bool :=
  let f (o n : Nat) : Nat := leNat ((b.drop o).take n)
  f 0 4 == 0x474D4953 && f 4 1 == kind && f 6 2 == 512 && f 28 4 == 0 && f 40 56 == 0 && f 288 224 == 0

def serialOk (s : State) (h : ImgHdr) : Bool := h.serial == 0 || h.serial == s.board.serial

/-- A firmware key that the fuses accept (R361). -/
def fwKeyOk (s : State) (key : Nat) : Bool := key == s.board.rootHash1 || (key == s.board.rootHash0 && !s.board.root0Revoked)

/-- The integrator key hash of a slot (R362). -/
def icKey (s : State) (j : Nat) : Nat := leNat (optBytes s 193 (48 * j) 48)
def icKeyOk (s : State) (j key : Nat) : Bool := decide (j < 4) && icKey s j != 0 && icKey s j == key
def icRollback (s : State) : Nat := s.pageNat 196 0 4

/-- The firmware check (R361), of an image whose first bytes are `b`. -/
def fwImageOk (s : State) (b : List Byte) (chk : ImgChk) : Bool :=
  let h := imgHdr b
  imgForm 1 b && decide (512 + h.code + h.data ≤ 0x400000) && fwKeyOk s chk.keyHash && decide (s.sec.rollback ≤ h.rollback)
    && serialOk s h && chk.sigOk

/-- Sizes an integrator image may have (R313, R362). -/
def icSizesOk (h : ImgHdr) : Bool := decide (h.code ≤ 0x40000) && decide (h.data ≤ 0x40000)

/-- The integrator check (R362), of an image of `len` bytes whose first bytes are `b`. -/
def icImageOk (s : State) (b : List Byte) (len : Nat) (chk : ImgChk) : Bool :=
  let h := imgHdr b
  imgForm 2 b && icSizesOk h && decide (h.entry < h.code) && decide (512 + h.code + h.data ≤ len)
    && icKeyOk s h.keyIdx chk.keyHash && decide (icRollback s ≤ h.rollback) && serialOk s h && chk.sigOk

def norSlot (s : State) (k : Nat) : NorSlot := s.nor.get {} k

/-- A slot is valid: its whole image passed the check, and what the check asks of fuses and option bytes still holds (R336). -/
def slotValid (s : State) (k : Nat) : Bool :=
  let x := norSlot s k
  x.valid && (if k = 2 then
    icKeyOk s (imgHdr (norRead s (slotBase 2) 6)).keyIdx x.key && decide (icRollback s ≤ x.rollback)
      && (match s.mb.sess with
          | some (_, true, _) => false
          | _ => true)
  else fwKeyOk s x.key && decide (s.sec.rollback ≤ x.rollback))

/-- The slot the boot ROM loads (R336). -/
def bootSlot (s : State) : Option Nat :=
  if slotValid s (preferred s) then some (preferred s)
  else if slotValid s (1 - preferred s) then some (1 - preferred s) else none

/-- Load firmware: a fallback raises its event and a ledger record; with no valid slot nothing serves. -/
def fwLoad (s : State) : State :=
  match bootSlot s with
  | some k =>
    let s := { s with cc := { s.cc with served := true, fwSlot := k, fwVer := (norSlot s k).ver } }
    if k = preferred s then s else ledger 0x2804 0 [preferred s] (raise 0x2804 0xFFFF 0 .nothing s)
  | none => { s with cc := { s.cc with served := false, fwVer := 0 } }

/-! ## Roles (R295) -/

/-- Roles while they are assigned: cores of F0-F3 and of the integrator role (7 none), the spares that pass, and the failures of
role holders as (role, core). -/
structure Roles where
  f : List Nat
  ic : Nat
  spares : List Nat
  lost : List (Nat × Nat)
  deriving DecidableEq, Repr

/-- One firmware role: it keeps its core if that passes, else takes a spare. -/
def roleTake (bad : Nat → Bool) (x : Roles) (r : Nat) : Roles :=
  let c := x.f.getD r 7
  if c = 7 || bad c then
    let lost := if c = 7 then x.lost else x.lost ++ [(r, c)]
    match x.spares with
    | [] => { x with f := x.f.set r 7, lost := lost }
    | p :: t => { x with f := x.f.set r p, spares := t, lost := lost }
  else x

/-- Steps 1 to 3 of R295. -/
def rolesOf (kindling : Bool) (bad : Nat → Bool) (f : List Nat) (ic : Nat) : Roles :=
  let spares := (List.range 6).filter (fun c => !f.contains c && c != ic && !bad c)
  let x := (List.range 4).foldl (roleTake bad) { f := f, ic := ic, spares := spares, lost := [] }
  if ic = 7 || !bad ic then x
  else
    let x := { x with lost := x.lost ++ [(4, ic)] }
    match kindling, x.spares with
    | true, p :: t => { x with ic := p, spares := t }
    | _, _ => { x with ic := 7 }

/-- A core holds a role. -/
def roleHeld (x : Roles) (i : Nat) : Bool := x.f.contains i || x.ic == i

/-- A core as the assignment leaves it. -/
def coreSet (x : Roles) (bad : Nat → Bool) (ok : Nat → Bool) (i : Nat) (c : Core) : Core :=
  if bad i then
    { c with st := 2, cause := if c.st = 2 then c.cause else if c.sparesOut then 5 else if ok i then c.cause else 1 }
  else { c with st := if roleHeld x i then 0 else 1 }

/-- The self-test's outcomes and the roles that follow (R295, R297). -/
def rolesAssign (kindling : Bool) (ok : List Bool) (s : State) : State :=
  let pass (i : Nat) : Bool := ok.getD i false
  let bad (i : Nat) : Bool := (failedSet s).getLsbD i || (s.cpu i).st == 2 || (s.cpu i).sparesOut || !pass i
  let x := rolesOf kindling bad s.cc.fCore s.cc.icCore
  let n := (x.f.filter (· != 7)).length
  let cores := (List.range 6).foldl (fun (t : Tab Core) i => Tab.set {} t i (coreSet x bad pass i (s.cpu i))) []
  let s1 := { s with cc := { s.cc with cores := cores, fCore := x.f, icCore := x.ic, degraded := decide (n < 4),
                                       exhausted := n == 0 && !kindling } }
  let set := (List.range 6).foldl (fun a i => a + (if bad i then 2 ^ i else 0)) 0
  let s1 := if set = (failedSet s).toNat then s1 else commit { page := 35, off := 2, bytes := leBytes 1 set } s1
  let s1 := x.lost.foldl (fun s rc =>
    let cause := (s.cpu rc.2).cause
    ledger 0x2800 (srcCore rc.2) [rc.1, rc.2, cause] (raise 0x2800 rc.2 (rc.1 + cause * 2 ^ 32) .nothing s)) s1
  if n = 0 && !kindling then
    (List.range 32).foldl (fun s ch => if chanBound s ch then notePut ch 0x2801 0xFFFF 0 s else s) (count 0x2801 0xFFFF 0 1 s1)
  else s1

/-! ## The integrator core (R313, R314) -/

/-- The sparse bytes of a list, from an offset. -/
def bytesAt (off : Nat) (bs : List Byte) : Tab Byte :=
  (bs.zipIdx.filter (fun x => x.1 != 0)).map (fun x => (off + x.2, x.1))

/-- Write an image into the TCMs: code and data, the rest zeroed; the core is left loaded and stopped. -/
def icInstall (h : ImgHdr) (code data : List Byte) (s : State) : State :=
  let s := s.modCpu s.cc.icCore (fun c =>
    { c with tcm := bytesAt 0 code ++ bytesAt (2 ^ 18) data, badBytes := [], inTrap := false })
  { s with cc := { s.cc with icSt := 1, icFault := 0, icWdt := 0, icKick := false, icEntry := h.entry } }

/-- The image of the NOR's integrator slot. -/
def icFromNor (s : State) : State :=
  let b := norRead s (slotBase 2) 512
  let h := imgHdr b
  icInstall h (norRead s (slotBase 2 + 512) h.code) (norRead s (slotBase 2 + 512 + h.code) h.data) s

/-- A stopped integrator core: its buffered stores are abandoned, and its accesses that wait (R303, R316). -/
def icHalt (s : State) : State :=
  setWaits (fun ws => ws.filter (fun w => w.acc.who != .ic))
    (s.modCpu s.cc.icCore (fun c => { c with sb := [], resv := none, exc := [], loadWait := false }))

/-- The integrator core faults (R314): it stops, the event and the record follow, and M29 is drained. -/
def icFaultNow (cause : Nat) (s : State) : State :=
  if s.cc.icSt ≠ 2 then s
  else
    let i := s.cc.icCore
    let s := chanReset 29 (icHalt { s with cc := { s.cc with icSt := 3, icFault := cause } })
    ledger 0x2803 (srcCore i) [cause] (raise 0x2803 i cause .nothing s)

/-- `IC_AUTOSTART` (R313). -/
def icAutostart (s : State) : State :=
  if s.pageNat 64 48 1 % 2 == 1 && s.cc.icCore != 7 && slotValid s 2 then
    let s := icFromNor s
    { s with cc := { s.cc with icSt := 2 } }
  else s

/-! ## Run-time failures (R296) -/

/-- The failure of a core in a firmware role: marked, written to the option bytes, and a cluster reset; before the start is
complete the start fails too (R396). -/
def coreFail (i cause : Nat) (s : State) : State :=
  if !s.cc.fCore.contains i || (s.cpu i).st = 2 then s
  else
    let s := s.modCpu i (fun c => { c with st := 2, cause := cause })
    let set := (List.range 6).foldl (fun a j => a + (if (failedSet s).getLsbD j || (s.cpu j).st = 2 then 2 ^ j else 0)) 0
    let t := rstAssert .coreFail (commit { page := 35, off := 2, bytes := leBytes 1 set } s)
    if s.rpm.boot = 2 || s.rpm.recovery ≠ 0 then t else startFail 5 t

/-- A TCM yields an uncorrectable byte to a fetch or a load: counted, recorded, and the core fails or faults (R309). -/
def tcmBadCount (i t off : Nat) (s : State) : State :=
  ledger 0x281F (srcCore i) [t, off] (s.modCpu i (fun c => { c with tcmUe := inc32 c.tcmUe }))
def tcmBadFails (i : Nat) (s : State) : State := if i = s.cc.icCore then icFaultNow 3 s else coreFail i 2 s

/-- Spare a row of a TCM: the remap goes to the option bytes; with no spare left the core fails its next self-test (R310). -/
def rowSpare (i t row : Nat) (s : State) : State :=
  match (tcmFree s i t).head? with
  | some r =>
    let at_ := (i * 32 + t * 16 + r) * 2
    commit { page := 36 + at_ / 64, off := at_ % 64, bytes := leBytes 2 (2 ^ 15 + row) } s
  | none =>
    if (s.cpu i).sparesOut then s
    else raise 0x2802 i 0 .nothing (s.modCpu i (fun c => { c with sparesOut := true }))

/-- An uncorrectable byte of a TCM: counted and recorded; where it is new it stays unusable until it is written, and its row is
spared (R309, R310). -/
def tcmBadMet (i t off : Nat) (s : State) : State :=
  let key := t * 2 ^ 18 + off
  if (s.cpu i).badBytes.contains key then tcmBadCount i t off s
  else rowSpare i t (off / 256) (tcmBadCount i t off (s.modCpu i (fun c => { c with badBytes := c.badBytes ++ [key] })))

/-- Its use by a fetch or a load fails the core or faults it (R296, R309). -/
def tcmBadUse (i t off : Nat) (s : State) : State := tcmBadFails i (tcmBadMet i t off s)

/-- A day of timebase. -/
def dayNs : Nat := 86400000000000

/-- A corrected byte: counted, and its row is spared at the second correction within 24 h. -/
def tcmCorrected (i t off : Nat) (s : State) : State :=
  let key := t * 1024 + off / 256
  let old := ((s.cpu i).rowHits.get [] key).filter (fun x => decide (s.tb.count < x + dayNs))
  let s1 := s.modCpu i (fun c => { c with
    tcmCe := inc32 c.tcmCe, rowHits := c.rowHits.set [] key (if old.isEmpty then [s.tb.count] else []) })
  if old.isEmpty then s1 else rowSpare i t (off / 256) s1

/-! ## Commands in flight after a cluster reset (R339) -/

/-- A commit that belongs to a command which no block carries out. -/
def commitLost (s : State) (c : Commit) : Bool :=
  match commitOwner c.act with
  | some (ch, tag) => (s.mbox ch).flights.any (fun f => f.tag == tag && !f.replied && !f.block)
  | none => false

/-- Settle one command: OK where its effect is durable or it is the reset's own, ABANDONED otherwise. A command whose page write
is already running ends with it. -/
def settleFlight (ch : Nat) (s : State) (f : Flight) : State :=
  let owner := s.opt.run.bind (fun c => commitOwner c.act)
  if f.replied || f.block || owner == some (ch, f.tag) || (f.opcode == 0x0502 && s.tp.taking) then s
  else reply ⟨ch, f.tag⟩ (if f.committed || f.opcode == 0x0014 || f.opcode == 0x0C00 then 0 else 0x0400) 0 [] s

def settleFlights (s : State) : State :=
  let s := { s with opt := { s.opt with queue := s.opt.queue.filter (fun c => !commitLost s c) } }
  (List.range 32).foldl (fun s ch => (s.mbox ch).flights.foldl (settleFlight ch) s) s

end Sys2Proof.Machine
end

