-- ==== Sys2Proof/Machine/Cluster.lean ====
section
/-! DEFINITION. Meanings of the control cluster's family (13) but for its memory instructions (CoreMem.lean): heartbeats and
failures (R296, R297), the cluster reset (R316, R339), the integrator core (R311-R314), the TCM patrol (R310), the
cluster commands and registers (R317). -/

namespace Sys2Proof.Machine

open Sys2Proof

/-! ## Registers -/

def ccRoleReg (s : State) : Nat :=
  b2n s.cc.degraded * 2 ^ 15 + s.cc.icCore * 2 ^ 12 + s.cc.fCore.getD 3 7 * 2 ^ 9 + s.cc.fCore.getD 2 7 * 2 ^ 6
    + s.cc.fCore.getD 1 7 * 2 ^ 3 + s.cc.fCore.getD 0 7
def ccCoreStatReg (s : State) (i : Nat) : Nat :=
  (s.cpu i).st * 2 ^ 30 + (s.cpu i).cause * 2 ^ 16 + min (tcmFree s i 0).length (tcmFree s i 1).length
def ccSterrInfoReg (s : State) (i : Nat) : Nat :=
  let c := s.cpu i
  b2n c.sterrValid * 2 ^ 31 + c.sterrMore * 2 ^ 8 + c.sterrKind
def ccIcCtlReg (s : State) : Nat := s.cc.icSt * 2 ^ 30 + s.cc.icFault * 2 ^ 16 + s.cc.icWdt
def icWin (s : State) (w : Nat) : IcWin := s.cc.wins.get {} w
def ccIcWinmapReg (s : State) : Nat :=
  (List.range 16).foldl (fun a w =>
    let x := icWin s w
    if x.len = 0 then a else a + 2 ^ w + b2n x.rw * 2 ^ (16 + w)) 0

/-- The CC block is held in reset (R388): a source of its reach is asserted. -/
def ccHeld (s : State) : Bool := s.rpm.asserted.any (fun x => !isPort x)

/-- A write to the CC block: a host's write to the block in reset is ignored and counted (R434). -/
def ccWrite (ag : Agent) (body : State → State) (s : State) : State :=
  match ag with
  | .fn p f => if ccHeld s then fnWrite p f (countAccErr p f) s else regWrite ag body s
  | _ => regWrite ag body s

/-- A write to a register that hosts cannot reach (R428): ignored from a host, and counted without `ADMIN` (R429). -/
def coreOnlyWrite (ag : Agent) (body : State → State) (s : State) : State :=
  match ag with
  | .core i => if i < 5 then body s else s
  | .fn p f => fnWrite p f (fun s => if fnAdmin s p f then s else countAccErr p f s) s
  | _ => s

/-! ## Register writes -/

/-- `VALID` cleared, `MORE` with it. -/
def sterrClear (i : Nat) (s : State) : State := s.modCpu i (fun c => { c with sterrValid := false, sterrMore := 0 })

/-- W1C of `CC_STERR_INFO`: by firmware or an admin function for any core; by the integrator core for its own (R438). -/
def ccSterrInfoClear (ag : Agent) (core : Nat) (s : State) : State :=
  match ag with
  | .ic => if core = s.cc.icCore then sterrClear core s else s
  | _ => ccWrite ag (sterrClear core) s
def execCcSterrInfoClear (ag : Agent) (core : Nat) (s : State) : Res := run (ag.wf && coreOk core) (ccSterrInfoClear ag core s)

/-- A heartbeat of a firmware role: the role's 100 ms hold one. -/
def ccHeartbeatWrite (ag : Agent) (role : Nat) (s : State) : State :=
  coreOnlyWrite ag (fun s => { s with cc := { s.cc with beats := s.cc.beats.erase role ++ [role] } }) s
def execCcHeartbeatWrite (ag : Agent) (role : Nat) (s : State) : Res :=
  run (ag.wf && decide (role < 4)) (ccHeartbeatWrite ag role s)

/-- `CC_IC_KICK`, written by the integrator core alone: the watchdog interval holds a kick. -/
def ccIcKickWrite (ag : Agent) (s : State) : State :=
  match ag with
  | .ic => if s.cc.icSt = 2 then { s with cc := { s.cc with icKick := true } } else s
  | .fn _ _ => coreOnlyWrite ag (fun s => s) s
  | _ => s
def execCcIcKickWrite (ag : Agent) (s : State) : Res := run ag.wf (ccIcKickWrite ag s)

/-! ## Failures -/

/-- The 100 ms of a firmware role end: a role without a heartbeat in them fails its core. -/
def heartbeatMissed (role : Nat) (s : State) : State :=
  let c := s.cc.fCore.getD role 7
  if c = 7 || !s.cc.served then s
  else if s.cc.beats.contains role then { s with cc := { s.cc with beats := s.cc.beats.erase role } }
  else coreFail c 3 s
def execHeartbeatMissed (role : Nat) (s : State) : Res := run (decide (role < 4)) (heartbeatMissed role s)

/-- The logic check bits of a core report a fault: a firmware role's core fails. -/
def coreLogicFault (core : Nat) (s : State) : State := coreFail core 4 s
def execCoreLogicFault (core : Nat) (s : State) : Res := run (coreOk core) (coreLogicFault core s)

/-- A byte the patrol finds uncorrectable: counted, recorded, its row spared; it stays unusable until it is written. -/
def patrolBad (core tcm off : Nat) (s : State) : State :=
  if (s.cpu core).badBytes.contains (tcm * 2 ^ 18 + off) then s else tcmBadMet core tcm off s

/-- One pass over a TCM (R310): corrected and uncorrectable bytes, by offset. -/
def tcmPatrol (core tcm : Nat) (corrected bad : List Nat) (s : State) : State :=
  bad.foldl (fun s off => patrolBad core tcm off s) (corrected.foldl (fun s off => tcmCorrected core tcm off s) s)
def execTcmPatrol (core tcm : Nat) (corrected bad : List Nat) (s : State) : Res :=
  run (coreOk core && decide (tcm < 2) && (corrected ++ bad).all (fun o => decide (o < 2 ^ 18))) (tcmPatrol core tcm corrected bad s)

/-- The cluster's reset ends: self-test, roles, firmware, the commands in flight, and the integrator core (R295, R313, R336,
R339). With no core left or no valid slot, nothing is served. -/
def clusterResetComplete (stOk : List Bool) (s : State) : State :=
  if !s.cc.rstOwed || ccHeld s then s
  else
    let s := rolesAssign false stOk { s with cc := { s.cc with rstOwed := false } }
    if s.cc.exhausted then { s with cc := { s.cc with fwVer := 0 } }
    else
      let s := fwLoad s
      if s.cc.served then icAutostart (settleFlights s) else s
def execClusterResetComplete (stOk : List Bool) (s : State) : Res :=
  run (decide (stOk.length = 6)) (clusterResetComplete stOk s)

/-- `WDT` ms end: without a kick in them the integrator core faults. -/
def icWatchdogExpiry (s : State) : State :=
  if s.cc.icSt ≠ 2 ∨ s.cc.icWdt = 0 then s
  else if s.cc.icKick then { s with cc := { s.cc with icKick := false } }
  else icFaultNow 1 s
def execIcWatchdogExpiry (s : State) : Res := run true (icWatchdogExpiry s)

/-! ## Commands (R317) -/

/-- `CORE_QUERY`. -/
def coreData (s : State) : List Byte :=
  let cs := List.range 6
  pack ([.n4 (ccRoleReg s)] ++ cs.map (fun i => .n4 (ccCoreStatReg s i)) ++ cs.map (fun i => .n4 (s.cpu i).tcmCe)
    ++ cs.map (fun i => .n4 (s.cpu i).tcmUe) ++ [.n4 (ccIcCtlReg s)]
    ++ (List.range 16).flatMap (fun w => [.n8 (icWin s w).base, .n8 (icWin s w).len, .n4 (b2n (icWin s w).rw)]))
def coreQuery (rq : Rq) (s : State) : State := query 0x0900 rq coreData s
def execCoreQuery (rq : Rq) (s : State) : Res := run rq.wf (coreQuery rq s)

/-- The bytes an `IC_LOAD` reads: a DPA range or the integrator slot; a byte that is poison reads none. -/
def icSource (s : State) (src base len : Nat) : Nat × Rd :=
  if src = 0 then (len, fileByte s base) else (0x100000, fun o => some (s.norBytes.get 0xFF (slotBase 2 + o)))

/-- The image of a source, its header, and whether it holds poison. -/
def icSrcHdr (s : State) (src base len : Nat) : List Byte := rdBytes (icSource s src base len).2 0 512
def icSrcOk (s : State) (src base len : Nat) (chk : ImgChk) : Bool :=
  let r := icSource s src base len
  let b := rdBytes r.2 0 512
  let h := imgHdr b
  (decide (src = 0) || slotValid s 2) && icImageOk s b r.1 chk && !rdPoison r.2 0 (512 + h.code + h.data)

/-- A sender holds a grant on the whole source range. -/
def icGranted (s : State) (rq : Rq) (src base len : Nat) : Bool :=
  src != 0 || covered s (mayReach (senderOf s rq.ch) false) base (base + len)

/-- `IC_LOAD` (R313): an image that fails the check leaves the core with no image. -/
def icLoad (rq : Rq) (src base len : Nat) (chk : ImgChk) (s : State) : State :=
  atornQ 0x0901 rq
    (fun s => {
      params := [[.n4 src, .n8 base, .n8 len]],
      bad := [decide (2 ≤ src) || (src == 1 && (base != 0 || len != 0))],
      refuse := [s.cc.icSt == 2, s.cc.icCore == 7, !icGranted s rq src base len, !icSizesOk (imgHdr (icSrcHdr s src base len))] })
    (fun s =>
      if icSrcOk s src base len chk then
        let rd := (icSource s src base len).2
        let h := imgHdr (rdBytes rd 0 512)
        ok rq [] (icInstall h (rdBytes rd 512 h.code) (rdBytes rd (512 + h.code) h.data) s)
      else reply rq 0x0301 5 [] { s with cc := { s.cc with icSt := 0 } }) s
def execIcLoad (rq : Rq) (src base len : Nat) (chk : ImgChk) (s : State) : Res :=
  run (rq.wf && u32 src && u64 base && u64 len) (icLoad rq src base len chk s)

/-- `IC_START`. -/
def icStart (rq : Rq) (wdt : Nat) (s : State) : State :=
  atornQ 0x0902 rq
    (fun s => { params := [[.n4 wdt]], bad := [decide (10000 < wdt)], refuse := [s.cc.icSt == 0, s.cc.icSt == 2] })
    (fun s =>
      let s := s.modCpu s.cc.icCore (fun c => { c with inTrap := false })
      ok rq [] { s with cc := { s.cc with icSt := 2, icFault := 0, icWdt := wdt, icKick := false } }) s
def execIcStart (rq : Rq) (wdt : Nat) (s : State) : Res := run (rq.wf && u32 wdt) (icStart rq wdt s)

/-- `IC_STOP` (R316). -/
def icStop (rq : Rq) (s : State) : State :=
  atornQ 0x0903 rq (fun s => { refuse := [s.cc.icSt != 2] })
    (fun s => ok rq [] (icHalt { s with cc := { s.cc with icSt := 1 } })) s
def execIcStop (rq : Rq) (s : State) : Res := run rq.wf (icStop rq s)

/-- Base and length of an integrator window are well placed (R312). -/
def icWinForm (base len : Nat) : Bool := base % 2 ^ 21 == 0 && len % 2 ^ 21 == 0 && decide (len ≤ 2 ^ 36)

/-- `IC_WINDOW_MAP` (R312). -/
def icWindowMap (rq : Rq) (w base len access : Nat) (s : State) : State :=
  atornQ 0x0904 rq
    (fun s => {
      params := [[.n4 w], [.n8 base], [.n8 len], [.n4 access]],
      bad := [decide (16 ≤ w), false, false, decide (2 ≤ access)],
      refuse := [!icWinForm base len,
                 len != 0 && !covered s (mayReach .ic (access == 1)) base (base + len)] })
    (fun s => mapAsk rq (160 + w) base len (access == 1) (setCommitted rq s)) s
def execIcWindowMap (rq : Rq) (w base len access : Nat) (s : State) : Res :=
  run (rq.wf && u32 w && u64 base && u64 len && u32 access) (icWindowMap rq w base len access s)

end Sys2Proof.Machine
end

