-- ==== Sys2Proof/Machine/Ember.lean ====
section
/-! DEFINITION. Meanings of the ember family (08): the power-fail warning (R159, R184), the steps of ember (R161-R168),
the starts (R175-R181), and the ember commands (R188). -/

namespace Sys2Proof.Machine

open Sys2Proof

/-! ## Registers -/

/-- `PHASE` of EU_STAT. -/
def phaseNum : Phase → Nat
  | .service => 0 | .quiesce => 1 | .flush => 2 | .seal => 3 | .sealedHold => 4 | .shutdown => 5
  | .restart => 8 | .scan1 => 9 | .scan2 => 10 | .scanSeal => 11

def euStatReg (s : State) : Nat :=
  phaseNum s.eu.phase * 2 ^ 28 + s.eu.cause * 2 ^ 20 + b2n s.eu.pfw * 2 ^ 19 + b2n s.eu.scanned * 2 ^ 18
    + b2n (decide (s.pageNat 35 8 4 ≠ 0)) * 2 ^ 17
def euBudgetReg (s : State) : Nat := s.eu.ceilSupported * 2 ^ 16 + s.eu.flushRate
def euEpochReg (s : State) : Nat := s.eu.epoch.num
def euScanReg (s : State) : Nat := s.eu.scanPass * 2 ^ 16 + s.eu.scanProg

/-! ## The warning (R159, R160, R184) -/

/-- A start that a warning stops. -/
def startPhase (p : Phase) : Bool :=
  match p with
  | .restart | .scan1 | .scan2 | .scanSeal => true
  | _ => false

/-- The warning is accepted. -/
def warnAccepted (s : State) : State :=
  if s.eu.pfw then s
  else
    let s := { s with eu := { s.eu with pfw := true, pfwHeld := false } }
    if inEmber s then (if s.eu.phase == .quiesce then emberEnter 1 s else s)
    else match s.rpm.st with
      | .service => if epochOpen s then emberEnter 1 s else timedShutdown 1 s
      | .kindling =>
        if startPhase s.eu.phase then timedShutdown 1 { s with eu := { s.eu with startEnded := true } } else s
      | _ => s
def execPfWarnAccepted (s : State) : Res := run true (warnAccepted s)

/-- The warning is released. -/
def warnReleased (s : State) : State := { s with eu := { s.eu with pfw := false } }
def execPfWarnReleased (s : State) : Res := run true (warnReleased s)

/-- Kindling is complete and the media was never formatted: the ports may open once no warning stands. -/
def bareReady (s : State) : Bool :=
  s.rpm.st == .kindling && s.rpmx.entered && s.eu.phase == .service && !s.mc.formatted

/-- The warning has been released for 10 ms without a break. -/
def warnReleaseHeld (s : State) : State :=
  if s.eu.pfw then s
  else
    let s := { s with eu := { s.eu with pfwHeld := true } }
    if bareReady s then startBare s else returnTry s
def execPfWarnReleaseHeld (s : State) : Res := run true (warnReleaseHeld s)

/-! ## The steps of ember -/

def execEmberQuiesceComplete (us : Nat) (s : State) : Res := run (u32 us) (quiesceEnd us s)

def execEmberFlushComplete (us : Nat) (badLines : List Nat) (twinLines : List (Nat × Line)) (s : State) : Res :=
  run (Instr.wf (.emberFlushComplete us badLines twinLines)) (flushEnd us badLines twinLines s)

/-- 100 ms after the seal: the return where its conditions hold, or did and its record is being committed; else the timed
shutdown. -/
def holdTimeout (s : State) : State :=
  if s.eu.phase != .sealedHold || opening s then s
  else if returnOk s then returnTry s
  else timedShutdown ((shutdownOf s).getD 1) s
def execSealedHoldTimeout (s : State) : Res := run true (holdTimeout s)

/-! ## Starts -/

/-- A start may run its phase: the warning has been released for 10 ms. -/
def startMay (p : Phase) (s : State) : Bool := s.eu.phase == p && !s.eu.pfw && s.eu.pfwHeld

/-- Steps 4 to 8 of R175. -/
def restartLoad (s : State) : State :=
  let s := mapLoad (sealedMap s) { s with mc := { s.mc with sets := s.mc.bst } }
  let s := tablesReturn false s
  epochOpenCommit { s with mc := { s.mc with seq := s.eu.sealRec.seqHigh + 1 }, eu := { s.eu with scanned := false } }

/-- The structure that a ledger record of R176 names, and where it lies: 1 the seal copies, 2 the remap tables, 3 the block-set table,
4 a chunk, 5 the journal; 0 none (notes/assumptions/108.md). -/
def lostNamed (s : State) : SealLost → Nat × Nat
  | .none => (0, 0)
  | .copies => (1, s.eu.epoch.locA)
  | .remap => (2, s.eu.sealRec.remapLoc)
  | .sets => (3, s.eu.sealRec.bstLoc)
  | .chunk m => (4, s.eu.sealRec.chunkLoc.getD m 0)
  | .journal => (5, s.eu.sealRec.journalLoc)

/-- The sealed restart: where the seal or a structure it names is not usable, the start becomes a full scan (R176). -/
def sealedRestart (lost : SealLost) (t : SelfTest) (s : State) : State :=
  if !startMay .restart s then s
  else if lost = .none then unlessFailed restartLoad (ftStart t { s with ft := { s.ft with remap := s.mc.remapMedia } })
  else
    let n := lostNamed s lost
    ledger 0x141F 0 [n.1, n.2] { s with eu := { s.eu with phase := .scan1, unusable := true, scanPass := 0, scanProg := 0 } }
def execSealedRestart (lost : SealLost) (fail : SelfTest) (s : State) : Res :=
  run (lost.wf && fail.wf) (sealedRestart lost fail s)

/-- A rejected sector as the halt's cause names it: location, and the unit above it. -/
def rejectedLoc (e : Nat) : Nat := e / 16 + e % 16 * 2 ^ 32

/-- Passes 1 and 2 of the scan, the checkpoint and the seal; `bad` are the units that do not pass, of them `rejected` by their MAC or
header (R180). -/
def scanLoad (bad rejected : List Nat) (s : State) : State :=
  let lost := scanLost s
  let s := mapLoad (scanMap s) { s with mc := { s.mc with seq := scanHigh s + 1 } }
  let s := scanSets s
  let s := lost.foldl (fun s b => setPoisoned b s) s
  let s := scanUnits (bad ++ rejected) s
  let s := tablesReturn true s
  let s := { s with eu := { s.eu with phase := .scanSeal, scanned := true, scanBad := rejected.head?.map rejectedLoc, scanPoison := min max32 lost.length,
                                      scanPass := 2, scanProg := 0xFFFF, flushed := 0, pois := 0, tQuiesce := 0, tFlush := 0 } }
  epochOpenCommit (sealWrite false true 0 (checkpointAll (journalWrite s)))

/-- The full scan (R178): each sector that it rejects is recorded (R180), as 16 and its place. -/
def fullScan (bad rejected : List Nat) (t : SelfTest) (s : State) : State :=
  if !startMay .scan1 s then s
  else
    let s := rejected.foldl (fun s e => ledger 0x141F 0 [16, e / 16, e % 16] s) s
    unlessFailed (scanLoad bad rejected) (ftStart t { s with ft := { s.ft with remap := s.mc.remapMedia } })
def execFullScan (unreadable rejected : List Nat) (fail : SelfTest) (s : State) : Res :=
  run (Instr.wf (.fullScan unreadable rejected fail)) (fullScan unreadable rejected fail s)

/-! ## Commands (R188) -/

/-- The fields of a seal before its `CRC`, in its own layout (R173). -/
def sealFields (r : Seal) : List Byte :=
  leBytes 4 r.epoch ++ leBytes 1 r.cause ++ leBytes 3 0 ++ leBytes 8 r.seqHigh ++ leBytes 8 r.journalFrom
    ++ leBytes 4 r.journalLoc ++ leBytes 4 r.bstLoc ++ leBytes 4 r.remapLoc ++ leBytes 4 r.billets ++ leBytes 4 r.poisoned
    ++ leBytes 4 r.tQuiesce ++ leBytes 4 r.tFlush ++ leBytes 4 r.emberCnt ++ leBytes 4 r.unsealedCnt ++ leBytes 4 0
    ++ (List.range 64).flatMap (fun m => leBytes 8 (r.chunkSeq.getD m 0))
    ++ (List.range 64).flatMap (fun m => leBytes 4 (r.chunkLoc.getD m 0)) ++ List.replicate 3260 0

/-- The 4,096 data bytes of a seal sector (R173). -/
def sealBytes (r : Seal) : List Byte := sealFields r ++ leBytes 4 (crc32c (sealFields r)).toNat

/-- The header of a seal sector (R128, R173), by its `SEQ` and the `ERASE_CNT` of its set. -/
def sealHeader (s : State) (ember : Bool) (seq erase : Nat) : List Byte :=
  leBytes 4 0 ++ leBytes 1 0 ++ leBytes 1 6 ++ leBytes 1 (mediaGen s) ++ leBytes 1 (b2n ember) ++ leBytes 8 seq
    ++ leBytes 3 erase ++ leBytes 1 0 ++ leBytes 4 0

/-- `EMBER_QUERY`. -/
def emberData (s : State) : List Byte :=
  pack [.n4 (euStatReg s), .n4 (euBudgetReg s), .n4 (euEpochReg s), .raw (sealBytes s.eu.sealRec)]
def emberQuery (rq : Rq) (s : State) : State := query 0x0400 rq emberData s
def execEmberQuery (rq : Rq) (s : State) : Res := run rq.wf (emberQuery rq s)

/-- The ceiling that a declaration would support, held at 1 GiB where none fits. -/
def declaredCeil (mj mw : Nat) (s : State) : Nat := max 1 (ceilSupportedOf (flushRateBytes s) mj mw)

/-- `HOLDUP_SET`: both fields are written as one page write, and the ceiling follows it. -/
def holdupSet (rq : Rq) (mj mw : Nat) (s : State) : State :=
  atornQ 0x0401 rq
    (fun s => { params := [[.n4 mj], [.n4 mw]], bad := [mj != 0 && (decide (mj < 1000) || decide (1000000 < mj)), decide (500000 < mw)],
                refuse := [false, decide (declaredCeil mj mw s < s.ft.ceilGib), inEmber s] })
    (fun s => commit { page := 35, off := 8, bytes := leBytes 4 mj ++ leBytes 4 mw, act := .reply rq.ch rq.tag } s) s
def execHoldupSet (rq : Rq) (mj mw : Nat) (s : State) : Res := run (rq.wf && u32 mj && u32 mw) (holdupSet rq mj mw s)

/-- `EMBER_DRILL`: completes after the return. With no open epoch there is no ember, and it reports zeros. -/
def emberDrill (rq : Rq) (s : State) : State :=
  atornQ 0x0402 rq
    (fun s => { refuse := [(List.range 64).any (fun c => (s.chan c).st == .running), inEmber s, s.rpm.recovery != 0] })
    (fun s =>
      if epochOpen s then emberEnter 6 { s with eu := { s.eu with drill := some (rq.ch, rq.tag) } }
      else ok rq (pack [.n4 0, .n4 0]) s) s
def execEmberDrill (rq : Rq) (s : State) : Res := run rq.wf (emberDrill rq s)

end Sys2Proof.Machine
end

