-- ==== Sys2Proof/Machine/Twin.lean ====
section
/-! DEFINITION. Meanings of the twin family (09): the messages of the link (R196), its timers and its quorum (R194, R205,
R208-R210), width and training (R192, R219), and the twin commands (R221). -/

namespace Sys2Proof.Machine

open Sys2Proof

/-! ## Registers -/

def tuStatReg (s : State) : Nat :=
  psNum s.tu.ps * 2 ^ 28 + b2n s.tu.isB * 2 ^ 27 + b2n s.tu.record.token * 2 ^ 26 + b2n s.tu.qwired * 2 ^ 25
    + b2n s.tu.qfault * 2 ^ 24 + b2n s.tu.live * 2 ^ 23 + b2n s.tu.claimIn * 2 ^ 22 + s.tu.refuse * 2 ^ 16
    + b2n s.tu.record.fullOwed * 2 ^ 15
def tuLinkReg (s : State) : Nat :=
  s.tu.hi.width * 2 ^ 16 + s.tu.lo.width * 2 ^ 11 + b2n s.tu.hi.up * 2 ^ 10 + b2n s.tu.lo.up * 2 ^ 9

/-! ## Ports of the link (R192, R208, R219) -/

/-- The two ports of twin role, the lower first (R12). -/
def twinPorts (s : State) : List Nat := (List.range 10).filter (fun p => (s.port p).role == 2)

def twinPortNo (hi : Bool) (s : State) : Nat := (twinPorts s).getD (b2n hi) 15

def setTwinPort (hi : Bool) (p : TwinPort) (s : State) : State :=
  if hi then { s with tu := { s.tu with hi := p } } else { s with tu := { s.tu with lo := p } }

/-- Widths at which a twin port trains (R192). -/
def twinWidth (w : Nat) : Bool := w == 4 || w == 8 || w == 16

/-- A twin port trains and carries frames; the first of the two begins a session. Ports in electrical idle do not train, and none
trains at another width. -/
def portTrained (hi : Bool) (width : Nat) (s : State) : State :=
  if !twinWidth width || s.tu.idle || (twinPorts s).isEmpty || s.rpm.recovery != 0 || !(s.port (twinPortNo hi s)).pllOk then s
  else
    let was := s.tu.lo.up || s.tu.hi.up
    let s := retrainPump (setTwinPort hi { up := true, width := width } s)
    if was || !s.px.open_ || s.sec.halt || s.ft.failed then s else sessionBegin s
def execTwinPortTrained (hi : Bool) (width : Nat) (s : State) : Res := run (decide (width < 32)) (portTrained hi width s)

/-- The other twin port carries frames. -/
def otherUp (hi : Bool) (s : State) : Bool := if hi then s.tu.lo.up else s.tu.hi.up

/-- A port passes no valid flit for 50 µs. -/
def portSilent (hi : Bool) (s : State) : State :=
  let p := if hi then s.tu.hi else s.tu.lo
  if !p.up then s
  else if otherUp hi s then setTwinPort hi { p with up := false } s
  else lossOfLink s
def execTwinPortSilent (hi : Bool) (s : State) : Res := run true (portSilent hi s)

/-- A port retrains at a lower width, or is dropped (`width` 0). -/
def portDegrade (hi : Bool) (width : Nat) (s : State) : State :=
  let p := twinPortNo hi s
  let was := if hi then s.tu.hi else s.tu.lo
  if !was.up || decide (was.width ≤ width) || !(width == 0 || twinWidth width) then s
  else
    let s := ledger 0x1804 (srcPort p) [p, width] (raise 0x1804 p 0 .nothing s)
    if width ≠ 0 then setTwinPort hi { was with width := width } s
    else if otherUp hi s then setTwinPort hi {} s
    else lossOfLink s
def execTwinPortDegrade (hi : Bool) (width : Nat) (s : State) : Res := run (decide (width < 32)) (portDegrade hi width s)

/-- Training is attempted again once the outcome of the loss is committed (R208). -/
def retrainAttempt (s : State) : State :=
  if s.tu.idle && !s.tp.deciding && !s.tp.taking && !s.tp.lossOwed && !pairBusy s && s.tu.ps != .refused
  then { s with tu := { s.tu with idle := false } } else s
def execTwinRetrainAttempt (s : State) : Res := run true (retrainAttempt s)

/-! ## Pairing (R196-R198) -/

/-- `HELLO`: twin A decides; twin B answers with its own, and refuses a twin of its own identity. -/
def helloTaken (p : HelloP) (s : State) : State :=
  let s := { s with tu := { s.tu with helloRx := some p, peerPool := p.pool, peerB64 := p.budget64k } }
  if !s.tu.isB then pairLead p s
  else
    let s := linkSend (.hello (myHello s)) s
    if p.twinB then pairRefuse 1 (myHello s) p s else s

/-- A frame of a second twin A carries a session number of its own; its `HELLO` is what tells the two apart. -/
def helloHdr (h : LinkHdr) (p : HelloP) (s : State) : LinkHdr :=
  if !s.tu.isB && !p.twinB && s.tu.helloRx.isNone then { h with session := s.tu.session } else h
def helloRx (h : LinkHdr) (p : HelloP) (s : State) : State := linkRx (helloHdr h p s) (.hello p) (helloTaken p) s
def execHello (h : LinkHdr) (p : HelloP) (s : State) : Res := run h.wf (helloRx h p s)

/-- A device that a pairing may still change. -/
def pairOpen (p : PState) : Bool :=
  match p with
  | .unpaired | .pairing | .solo => true
  | _ => false

/-- `PAIR_RESULT` at twin B. -/
def pairResultTaken (outcome reason pairId : Nat) (s : State) : State :=
  match s.tu.helloRx with
  | some p => if s.tu.isB && pairOpen s.tu.ps then pairAct (outOfCode outcome reason) pairId p s else s
  | none => s
def pairResultRx (h : LinkHdr) (outcome reason pgen pairId : Nat) (s : State) : State :=
  linkRx h (.pairResult outcome reason pgen pairId) (pairResultTaken outcome reason pairId) s
def execPairResult (h : LinkHdr) (outcome reason pgen pairId : Nat) (s : State) : Res :=
  run (Instr.wf (.pairResult h outcome reason pgen pairId)) (pairResultRx h outcome reason pgen pairId s)

/-! ## Keeping the link (R194, R202, R208) -/

def keepaliveRx (h : LinkHdr) (s : State) : State := linkRx h .keepalive (fun s => s) s
def execKeepalive (h : LinkHdr) (s : State) : Res := run h.wf (keepaliveRx h s)

def retryRx (h : LinkHdr) (expected : Nat) (s : State) : State := linkRx h (.retry expected) (linkResend expected) s
def execRetry (h : LinkHdr) (expected : Nat) (s : State) : Res := run (Instr.wf (.retry h expected)) (retryRx h expected s)

def peerStatusTaken (pool b64 : Nat) (s : State) : State := { s with tu := { s.tu with peerPool := pool, peerB64 := b64 } }
def peerStatusRx (h : LinkHdr) (pool budgetGib ceilGib b64 : Nat) (s : State) : State :=
  linkRx h (.peerStatus pool budgetGib ceilGib b64) (peerStatusTaken pool b64) s
def execPeerStatus (h : LinkHdr) (pool budgetGib ceilGib budget64k : Nat) (s : State) : Res :=
  run (Instr.wf (.peerStatus h pool budgetGib ceilGib budget64k)) (peerStatusRx h pool budgetGib ceilGib budget64k s)

/-! ## Replication (R201-R206) -/

/-- One record of a `REPL` frame; its stamp is received once its lines are on their way. -/
def replRec (g gen stamp : Nat) (r : ReplRec) (s : State) : State :=
  let s :=
    if r.cfg.isSome then
      let s := match r.cfg with
        | some c => cfgPut c s
        | none => s
      { s with tp := { s.tp with rxFwd := s.tp.rxFwd ++ r.fwdTag.toList } }
    else if r.unmap then
      let b := g * 32 + r.first / 1024
      let s := s.modSeg g (fun x => { x with gen := gen })
      { s with te := { s.te with unmaps := if s.te.unmaps.contains b then s.te.unmaps else s.te.unmaps ++ [b] },
               tp := { s.tp with replUnmap := s.tp.replUnmap ++ [(b, stamp)] } }
    else
      r.data.zipIdx.foldl (fun s x =>
        submit { who := .twin, kind := .replica stamp gen (if x.2 + 1 = r.data.length then r.fwdTag else none),
                 dpa := g * 2 ^ 21 + (r.first + x.2) * 64, wr := some (x.1, r.mask.getD fullMask) } s) s
  { s with tu := { s.tu with rxStamp := stamp } }

/-- A device that applies records. -/
def isReplica (p : PState) : Bool :=
  match p with
  | .inSync | .resyncTarget => true
  | _ => false

/-- `REPL`. -/
def replTaken (g gen stamp : Nat) (recs : List ReplRec) (s : State) : State :=
  if isReplica s.tu.ps && pairLive s then
    afterAccess (settle (recs.zipIdx.foldl (fun s x => replRec g gen (stamp + x.2) x.1 s) (pauseWait 10 s)))
  else s
def replRx (h : LinkHdr) (seg gen stamp : Nat) (recs : List ReplRec) (s : State) : State :=
  linkRx h (.repl seg gen stamp recs) (replTaken seg gen stamp recs) s
def execRepl (h : LinkHdr) (seg gen stamp : Nat) (recs : List ReplRec) (s : State) : Res :=
  run (Instr.wf (.repl h seg gen stamp recs)) (replRx h seg gen stamp recs s)

/-- `REPL_ACK`: every stamp up to this one is applied on the twin. -/
def replAcked (stamp : Nat) (s : State) : State :=
  let left (l : List (Nat × Nat)) : List (Nat × Nat) := l.filter (fun u => decide (stamp < u.1))
  afterAccess (settle { s with
    tu := { s.tu with ackStamp := max s.tu.ackStamp stamp },
    tp := { s.tp with unackSegs := left s.tp.unackSegs, unackBillets := left s.tp.unackBillets } })
def replAckRx (h : LinkHdr) (stamp : Nat) (s : State) : State := linkRx h (.replAck stamp) (replAcked stamp) s
def execReplAck (h : LinkHdr) (stamp : Nat) (s : State) : Res := run (Instr.wf (.replAck h stamp)) (replAckRx h stamp s)

/-- The home finds no grant under which a source of the twin may write (R68). -/
def fwdDenied (s : State) (dpa : Nat) : Bool :=
  match turfAt s dpa with
  | some (_, t) => t.grants.all (fun g => !g.rw)
  | none => false

/-- `FWD` at the home. -/
def fwdTaken (tag dpa : Nat) (unmap : Bool) (mask : Option (BitVec 64)) (data : List Line) (cfg : Option CfgWrite) (s : State) :
    State :=
  if !pairLive s then s
  else if cfg.isSome then (match cfg with
    | some c => if cfgHome s then settle (cfgOrdered (some tag) c s) else s
    | none => s)
  else if unmap then
    let b := dpa / 65536
    let s := pauseWait 10 s
    settle (unmapStep b { s with te := { s.te with
      unmaps := if s.te.unmaps.contains b then s.te.unmaps else s.te.unmaps ++ [b],
      unmapFwd := s.te.unmapFwd ++ [(b, tag)] } })
  else if fwdDenied s dpa then linkSend (.fwdResult tag 2) s
  else afterAccess (data.zipIdx.foldl (fun s x =>
    submit { who := .twin, kind := .twinFwd tag, dpa := dpa / 64 * 64 + x.2 * 64, wr := some (x.1, mask.getD fullMask) } s) (pauseWait 10 s))
def fwdRx (h : LinkHdr) (tag dpa : Nat) (unmap : Bool) (mask : Option (BitVec 64)) (data : List Line) (cfg : Option CfgWrite)
    (s : State) : State :=
  linkRx h (.fwd tag dpa unmap mask data cfg) (fwdTaken tag dpa unmap mask data cfg) s
def execFwd (h : LinkHdr) (tag dpa : Nat) (unmap : Bool) (mask : Option (BitVec 64)) (data : List Line) (cfg : Option CfgWrite)
    (s : State) : Res :=
  run (Instr.wf (.fwd h tag dpa unmap mask data cfg)) (fwdRx h tag dpa unmap mask data cfg s)

/-- A forwarded write that the home denied is reported to its source (R68). -/
def deniedReport (a : Acc) (s : State) : State :=
  match a.kind, a.who with
  | .cxlWr, .fn p f => denied p f a.dpa (answerWrite a (s.modPort p (fun q => { q with discard := inc32 q.discard })))
  | .barWr _, .fn p f =>
    denied p f a.dpa (logAer p f .unsupportedRequest (s.modPort p (fun q => { q with discard := inc32 q.discard })))
  | _, _ => coreDiscard a s

/-- `FWD_RESULT`: the write is reported and never acknowledged (R205). -/
def fwdResultTaken (tag result : Nat) (s : State) : State :=
  let mine := s.te.waits.filter (fun w => w.why == .fwd tag)
  let s := setWaits (fun ws => ws.filter (fun w => w.why != .fwd tag)) s
  settle (mine.foldl (fun s w => if result = 1 then discardReport w.acc s else deniedReport w.acc s) s)
def fwdResultRx (h : LinkHdr) (tag result : Nat) (s : State) : State := linkRx h (.fwdResult tag result) (fwdResultTaken tag result) s
def execFwdResult (h : LinkHdr) (tag result : Nat) (s : State) : Res :=
  run (Instr.wf (.fwdResult h tag result)) (fwdResultRx h tag result s)

/-- `CREDIT` (R118). -/
def creditTaken (n : Nat) (s : State) : State := afterAccess (settle { s with tu := { s.tu with credits := s.tu.credits + n } })
def creditRx (h : LinkHdr) (n : Nat) (s : State) : State := linkRx h (.credit n) (creditTaken n) s
def execCredit (h : LinkHdr) (frames : Nat) (s : State) : Res := run (Instr.wf (.credit h frames)) (creditRx h frames s)

/-! ## Units (R114, R115, R144, R207) -/

/-- Every line of a unit is in the frame. -/
def unitHere (x : Frame) (u : Nat) : Bool :=
  x.st != .filling || (List.range 64).all (fun i => x.present.getLsbD (u * 64 + i))

def unitStatus (tag st b : Nat) (s : State) : State := linkSend (.unitReply tag st (unitStamp s (b / 32)) 0 []) s

/-- `UNIT_REQ`: from the front tier alone in mode 0, else from the media too. A frame chosen for eviction still serves it. -/
def unitReqTaken (tag b u mode : Nat) (rds : List (Nat × List RdRes)) (s : State) : State :=
  if !pairLive s then s
  else match s.te.map.get .unmapped b with
    | .unmapped => unitStatus tag 3 b s
    | .poisoned => unitStatus tag 4 b s
    | .res f => if unitHere (s.frame f) u || mode ≠ 0 then unitAnswer tag b u rds s else unitStatus tag 1 b s
    | .media loc => if mode = 0 then unitStatus tag 1 b s else readBegin loc u 0 1 (.twin tag) (mediaBusy s)
def unitReqRx (h : LinkHdr) (tag billet unit mode : Nat) (rds : List (Nat × List RdRes)) (s : State) : State :=
  linkRx h (.unitReq tag billet unit mode) (fun s => unitReqTaken tag billet unit mode rds (pauseWait 10 s)) s
def execUnitReq (h : LinkHdr) (tag billet unit mode : Nat) (rds : List (Nat × List RdRes)) (s : State) : Res :=
  run (Instr.wf (.unitReq h tag billet unit mode rds)) (unitReqRx h tag billet unit mode rds s)

/-- A read that waited for this reply. -/
def unitRead (st : Nat) (mask : BitVec 64) (data : List Line) (s : State) (w : Wait) : State :=
  let a := w.acc
  if st = 3 then answerRead a zeroLine s
  else if st = 4 then answerRead a .poison s
  else answerRead a (unitLine mask data (a.lineIn % 64)) s

/-- A replicated line at or before the unit's stamp brings nothing new to a line that the unit installs. -/
def replicaStale (b u stamp : Nat) (x : Frame) (w : Wait) : Wait :=
  match w.acc.kind with
  | .replica st _ _ =>
    if decide (st ≤ stamp) && w.acc.billet == b && w.acc.lineIn / 64 == u && !x.present.getLsbD w.acc.lineIn
    then { w with acc := { w.acc with wr := some (0, 0) } } else w
  | _ => w

/-- The cheaper path: a unit with no poison is installed where lines are absent. -/
def unitInstall (b u stamp : Nat) (data : List Line) (s : State) : State :=
  match s.te.map.get .unmapped b with
  | .res f =>
    let x := s.frame f
    if x.st == .filling && x.src == .media then
      let s := setWaits (fun ws => ws.map (replicaStale b u stamp x)) s
      fillArrived f (fillUnit f u (fun l => unitLine 0 data (l % 64)) (count 0x0C24 x.turf 0 1 s))
    else s
  | _ => s

/-- Step 6 of R144 ends with the twin's copy of the unit, or without it. -/
def unitRecover (st : Nat) (mask : BitVec 64) (data : List Line) (s : State) (r : MRead) : State :=
  if st = 0 ∨ st = 2 then
    let b := locBillet s r.loc
    let put (s : State) (i : Nat) : State :=
      let l := r.unit * 64 + i
      let v := unitLine mask data i
      let s := { s with mc := { s.mc with mlines := s.mc.mlines.set zeroLine (r.loc * 1024 + l) v } }
      if v = .poison then poisonAdd (lineDpa b l) false s else s
    readAccept r 3 ((List.range 64).foldl put s)
  else readPoison r s

/-- `UNIT_REPLY`. -/
def unitReplyTaken (tag st stamp : Nat) (mask : BitVec 64) (data : List Line) (s : State) : State :=
  let mine := s.te.waits.filter (fun w => w.why == .unit tag)
  let s := if st = 1 then setWaits (fun ws => ws.map (fun w => if w.why = .unit tag then { w with why := .ready } else w)) s
    else mine.foldl (unitRead st mask data) (setWaits (fun ws => ws.filter (fun w => w.why != .unit tag)) s)
  let s := (s.mc.reads.filter (fun r => r.step == 6 && r.utag == tag)).foldl (unitRecover st mask data) s
  let asks := s.tp.unitAsk.filter (fun x => x.1 == tag)
  let s := { s with tp := { s.tp with unitAsk := s.tp.unitAsk.filter (fun x => x.1 != tag) } }
  let s := if st = 0 ∧ mask = 0 then asks.foldl (fun s x => unitInstall x.2.1 x.2.2 stamp data s) s else s
  afterAccess (settle s)
def unitReplyRx (h : LinkHdr) (tag status stamp : Nat) (mask : BitVec 64) (data : List Line) (s : State) : State :=
  linkRx h (.unitReply tag status stamp mask data) (unitReplyTaken tag status stamp mask data) s
def execUnitReply (h : LinkHdr) (tag status stamp : Nat) (mask : BitVec 64) (data : List Line) (s : State) : Res :=
  run (Instr.wf (.unitReply h tag status stamp mask data)) (unitReplyRx h tag status stamp mask data s)

/-! ## Migration (R200) -/

/-- Step 2, at the new home. -/
def migBeginTaken (g : Nat) (s : State) : State :=
  if s.tu.ps != .inSync then s
  else linkSend (.migReady g) { s.modSeg g (fun x => { x with migrating := true }) with
    tp := { s.tp with mig := s.tp.mig ++ [(g, false, 2)] } }
def migBeginRx (h : LinkHdr) (g : Nat) (s : State) : State := linkRx h (.migBegin g) (migBeginTaken g) s
def execMigBegin (h : LinkHdr) (seg : Nat) (s : State) : Res := run (Instr.wf (.migBegin h seg)) (migBeginRx h seg s)

/-- Step 3, at the old home. -/
def migReadyTaken (g : Nat) (s : State) : State :=
  settle { s with tp := { s.tp with mig := s.tp.mig.map (fun m => if m.1 = g ∧ m.2.1 then (g, true, 3) else m) } }
def migReadyRx (h : LinkHdr) (g : Nat) (s : State) : State := linkRx h (.migReady g) (migReadyTaken g) s
def execMigReady (h : LinkHdr) (seg : Nat) (s : State) : Res := run (Instr.wf (.migReady h seg)) (migReadyRx h seg s)

/-- Step 4, at the new home. -/
def migDoneTaken (g : Nat) (s : State) : State :=
  if s.tp.mig.any (fun m => m.1 == g && !m.2.1) then
    let s := s.modSeg g (fun x => { x with homeB := s.tu.isB, migrating := false, lastMig := s.tb.count, everMig := true,
                                           writers := 0, writes := 0 })
    afterAccess (settle { s with tp := { s.tp with mig := s.tp.mig.filter (fun m => m.1 != g) } })
  else s
def migDoneRx (h : LinkHdr) (g stamp : Nat) (s : State) : State := linkRx h (.migDone g stamp) (migDoneTaken g) s
def execMigDone (h : LinkHdr) (seg stamp : Nat) (s : State) : Res := run (Instr.wf (.migDone h seg stamp)) (migDoneRx h seg stamp s)

/-! ## Resync (R216, R217) -/

def genListRx (h : LinkHdr) (first : Nat) (gens : List Nat) (s : State) : State :=
  linkRx h (.genList first gens) (genListTake first gens) s
def execGenList (h : LinkHdr) (first : Nat) (gens : List Nat) (s : State) : Res :=
  run (Instr.wf (.genList h first gens)) (genListRx h first gens s)

/-- A copy at the target is installed in its turn. -/
def copyTaken (c : CopyIn) (s : State) : State :=
  if s.tu.ps != .resyncTarget then s
  else afterAccess (settle { s with tp := { s.tp with copyQ := s.tp.copyQ ++ [c] } })
def unitCopyRx (h : LinkHdr) (billet unit st : Nat) (mask : BitVec 64) (data : List Line) (s : State) : State :=
  linkRx h (.unitCopy billet unit st mask data) (copyTaken (.unit billet unit st mask data)) s
def execUnitCopy (h : LinkHdr) (billet unit st : Nat) (mask : BitVec 64) (data : List Line) (s : State) : Res :=
  run (Instr.wf (.unitCopy h billet unit st mask data)) (unitCopyRx h billet unit st mask data s)

def segDoneRx (h : LinkHdr) (g gen : Nat) (s : State) : State := linkRx h (.segDone g gen) (copyTaken (.segDone g gen)) s
def execSegDone (h : LinkHdr) (seg gen : Nat) (s : State) : Res := run (Instr.wf (.segDone h seg gen)) (segDoneRx h seg gen s)

def segAckRx (h : LinkHdr) (g : Nat) (s : State) : State := linkRx h (.segAck g) (segAcked g) s
def execSegAck (h : LinkHdr) (seg : Nat) (s : State) : Res := run (Instr.wf (.segAck h seg)) (segAckRx h seg s)

def resyncDoneRx (h : LinkHdr) (pgen : Nat) (s : State) : State := linkRx h (.resyncDone pgen) (resyncEnded pgen) s
def execResyncDone (h : LinkHdr) (pgen : Nat) (s : State) : Res := run (Instr.wf (.resyncDone h pgen)) (resyncDoneRx h pgen s)

/-! ## Commands across the link (R341) -/

/-- Requests of M30 posted and not yet answered. -/
def m30InFlight (s : State) : Nat :=
  let m := s.mbox 30
  (m.reqProd + 256 - m.reqCons) % 256 + m.flights.length

/-- `CMD`: a posted request of M30, or the answer BUSY. -/
def cmdTaken (slot : List Byte) (s : State) : State :=
  if 4 ≤ m30InFlight s then
    let op := leNat (slot.take 2)
    count 0x2C21 30 (statusQual 0x0106) 1 (linkSend (.cmdReply
      (replySlot op ((slot[2]?).getD 0).toNat (leNat ((slot.drop 4).take 2)) 0x0106 (leNat ((slot.drop 8).take 4)) 0 [])) s)
  else s.modMbox 30 (fun m => { m with slots := m.slots.set [] (m.reqProd % 4) slot, reqProd := (m.reqProd + 1) % 256 })
def cmdRx (h : LinkHdr) (slot : List Byte) (s : State) : State := linkRx h (.cmd slot) (cmdTaken slot) s
def execCmd (h : LinkHdr) (slot : List Byte) (s : State) : Res := run (Instr.wf (.cmd h slot)) (cmdRx h slot s)

/-- `CMD_REPLY`: the twin's part of a format is done, or refused (R220). -/
def cmdReplyTaken (slot : List Byte) (s : State) : State :=
  let st := leNat ((slot.drop 6).take 2)
  if leNat (slot.take 2) ≠ 0x0301 then s
  else match s.mctl.formatRq with
    | some (g, k, 1) =>
      if st = 0 then { s with mctl := { s.mctl with formatRq := some (g, k, 0) } }
      else endBlock 0x0301 st 0 { s with mctl := { s.mctl with formatRq := none } }
    | some (g, k, 3) => formatReply { s with mctl := { s.mctl with formatRq := some (g, k, 2) } }
    | _ => s
def cmdReplyRx (h : LinkHdr) (slot : List Byte) (s : State) : State := linkRx h (.cmdReply slot) (cmdReplyTaken slot) s
def execCmdReply (h : LinkHdr) (slot : List Byte) (s : State) : Res := run (Instr.wf (.cmdReply h slot)) (cmdReplyRx h slot s)

/-! ## Notices and partner channels (R213, R214, R267, R453) -/

def emberNoticeRx (h : LinkHdr) (cause : Nat) (ents : List StreamEnt) (s : State) : State :=
  linkRx h (.emberNotice cause ents) (noticeTaken true ents) s
def execEmberNotice (h : LinkHdr) (cause : Nat) (ents : List StreamEnt) (s : State) : Res :=
  run (Instr.wf (.emberNotice h cause ents)) (emberNoticeRx h cause ents s)

def haltNoticeTaken (reason : Nat) (ents : List StreamEnt) (s : State) : State :=
  noticeTaken false ents { s with tp := { s.tp with haltRx := true, haltReason := reason } }
def haltNoticeRx (h : LinkHdr) (reason : Nat) (ents : List StreamEnt) (s : State) : State :=
  linkRx h (.haltNotice reason ents) (haltNoticeTaken reason ents) s
def execHaltNotice (h : LinkHdr) (reason : Nat) (ents : List StreamEnt) (s : State) : Res :=
  run (Instr.wf (.haltNotice h reason ents)) (haltNoticeRx h reason ents s)

/-- One entry of `STREAM_STATE`: channels in STANDBY track their partner. -/
def streamSeen (s : State) (e : StreamEnt) : State :=
  let s := { s with tp := { s.tp with peerLines := s.tp.peerLines.set 0 e.ch (e.line + 1),
                                      peerRun := s.tp.peerRun.set 0 e.ch (1 + b2n e.stopped) } }
  (standbyFor s e.ch).foldl (fun s c => s.modChan c (fun x => { x with trackLine := e.line })) s
def streamStateTaken (ents : List StreamEnt) (s : State) : State := ents.foldl streamSeen s
def streamStateRx (h : LinkHdr) (ents : List StreamEnt) (s : State) : State := linkRx h (.streamState ents) (streamStateTaken ents) s
def execStreamState (h : LinkHdr) (ents : List StreamEnt) (s : State) : Res :=
  run (Instr.wf (.streamState h ents)) (streamStateRx h ents s)

/-- `PEER_RESET`: a halted device makes a cold reset by command (R213). -/
def peerResetTaken (s : State) : State := if s.sec.halt || s.ft.failed then rstAssert .peer s else s
def peerResetRx (h : LinkHdr) (s : State) : State := linkRx h .peerReset peerResetTaken s
def execPeerReset (h : LinkHdr) (s : State) : Res := run h.wf (peerResetRx h s)

/-! ## Timers -/

/-- A gap is not closed within 200 µs. -/
def linkGapTimeout (s : State) : State := if s.tu.gap then lossOfLink s else s
def execLinkGapTimeout (s : State) : Res := run true (linkGapTimeout s)

/-- A write ordered in IN_SYNC is not covered within 1 ms. -/
def replAckTimeout (s : State) : State := if s.tu.ps == .inSync && !s.tp.unackSegs.isEmpty then lossOfLink s else s
def execReplAckTimeout (s : State) : Res := run true (replAckTimeout s)

/-- The link has been idle for 10 µs. -/
def keepaliveTimer (s : State) : State := if linkUp s && !linkQuiet s then linkSend .keepalive s else s
def execKeepaliveTimer (s : State) : Res := run true (keepaliveTimer s)

/-- The link carries more than what R213 leaves it. -/
def linkFull (s : State) : Bool := linkUp s && !linkQuiet s && !s.tp.haltSent && !s.tp.haltRx

/-- A second has passed since the last `PEER_STATUS`. -/
def peerStatusTimer (s : State) : State := if linkFull s && pairLive s then linkSend (statusMsg s) s else s
def execPeerStatusTimer (s : State) : Res := run true (peerStatusTimer s)

/-- Running channels with a partner. -/
def runningPartners (s : State) : List Nat := (List.range 64).filter (fun c => hasPartner s c && (s.chan c).st == .running)

/-- 100 µs have passed since the last `STREAM_STATE`. -/
def streamStateTimer (s : State) : State :=
  if linkFull s && s.tu.ps == .inSync && !(runningPartners s).isEmpty
  then linkSend (.streamState ((runningPartners s).map (streamEnt s))) s else s
def execStreamStateTimer (s : State) : Res := run true (streamStateTimer s)

/-! ## Quorum (R209, R210) -/

/-- PSEQ_IN stops being live, or has not been live for 1 ms. -/
def pseqNotLive (forOneMs : Bool) (s : State) : State :=
  let s := { s with tu := { s.tu with live := false } }
  if !forOneMs then s
  else
    let s := { s with tp := { s.tp with notLive1ms := true } }
    if s.tp.deciding && !s.tu.record.token then claimTake s
    else if linkUp s && s.tu.ps == .inSync && s.tu.qwired && !s.tu.qfault then
      raise 0x1803 0xFFFF 0 .nothing { s with tu := { s.tu with qfault := true } }
    else s
def execPseqInNotLive (forOneMs : Bool) (s : State) : Res := run true (pseqNotLive forOneMs s)

/-- PSEQ_IN reads claim. -/
def pseqClaim (s : State) : State :=
  let s := { s with tu := { s.tu with live := false, claimIn := true } }
  if s.tp.deciding && s.tu.record.token then becomeFenced s else s
def execPseqInClaim (s : State) : Res := run true (pseqClaim s)

/-- The 2 ms window ends. -/
def quorumEnd (s : State) : State :=
  if !s.tp.deciding then s else if s.tu.record.token then takeoverBegin false s else becomeFenced s
def execQuorumWindowEnd (s : State) : Res := run true (quorumEnd s)

/-- PSEQ_IN reads live; held for 1 s it ends a wiring fault. -/
def pseqLive (heldOneSec : Bool) (s : State) : State :=
  { s with tu := { s.tu with live := true, claimIn := false, qfault := s.tu.qfault && !heldOneSec },
           tp := { s.tp with notLive1ms := false } }
def execPseqInLive (heldOneSec : Bool) (s : State) : Res := run true (pseqLive heldOneSec s)

/-! ## Commands (R221) -/

/-- `TWIN_QUERY`. -/
def twinData (s : State) : List Byte :=
  pack [.raw (pairBytes s.tu.record), .n4 (tuStatReg s), .n4 (tuLinkReg s), .n4 s.tp.done, .n4 s.tp.total]
def twinQuery (rq : Rq) (s : State) : State := query 0x0500 rq twinData s
def execTwinQuery (rq : Rq) (s : State) : Res := run rq.wf (twinQuery rq s)

/-- `TWIN_HOME_SET`. -/
def twinHomeSet (rq : Rq) (base size policy : Nat) (s : State) : State :=
  atornQ 0x0501 rq
    (fun s =>
      let same := s.tp.homes.any (sameRange base size)
      { params := [[.n8 base], [.n8 size], [.n4 policy]], bad := [false, false, decide (4 ≤ policy)],
        refuse := [base % 2 ^ 21 != 0 || size % 2 ^ 21 != 0, !same && s.tp.homes.any (rangesMeet base size),
                   !same && policy != 3 && decide (64 ≤ s.tp.homes.length), size == 0, policy == 3 && !same] })
    (fun s => settle (cfgAsk rq false (.home base size policy) (setCommitted rq s))) s
def execTwinHomeSet (rq : Rq) (base size policy : Nat) (s : State) : Res :=
  run (rq.wf && u64 base && u64 size && u32 policy) (twinHomeSet rq base size policy s)

/-- A state from which `TWIN_TAKEOVER` takes over. -/
def mayTakeOver (s : State) : Bool :=
  match s.tu.ps with
  | .fenced | .left | .pairing => true
  | .refused => (match s.tu.record.pstate with
    | .inSync | .left | .resyncTarget => true
    | _ => false)
  | _ => false

/-- `TWIN_TAKEOVER`: from step 3 of R211; its reply follows step 5. -/
def twinTakeover (rq : Rq) (s : State) : State :=
  atornQ 0x0502 rq
    (fun s => { refuse := [linkUp s, !mayTakeOver s, s.tu.record.pgen == lastPgen] })
    (fun s => takeoverBegin false s) s
def execTwinTakeover (rq : Rq) (s : State) : Res := run rq.wf (twinTakeover rq s)

/-- `TWIN_UNPAIR`: the session number of the new record is random (R351). -/
def twinUnpair (rq : Rq) (s : State) : State :=
  atornQ 0x0503 rq
    (fun s => { refuse := [noticeState s.tu.ps, s.sec.rngFail] })
    (fun s =>
      let r := Config.freeRandom s.free % 2 ^ 32
      pairWrite (.unpair rq.ch rq.tag) (fun x => { x with pstate := .unpaired, pairId := 0, session := r }) (draw s)) s
def execTwinUnpair (rq : Rq) (s : State) : Res := run rq.wf (twinUnpair rq s)

/-- The record is written: the device runs standalone. -/
def unpaired (ch tag : Nat) (s : State) : State :=
  ok ⟨ch, tag⟩ [] (setCommitted ⟨ch, tag⟩ (pairChange (setPs .unpaired) s))

/-- `TWIN_PEER_RESET`. -/
def twinPeerReset (rq : Rq) (s : State) : State :=
  atornQ 0x0504 rq (fun s => { refuse := [!linkUp s, !s.tp.haltRx] }) (fun s => ok rq [] (linkSend .peerReset s)) s
def execTwinPeerReset (rq : Rq) (s : State) : Res := run rq.wf (twinPeerReset rq s)

/-- `TWIN_RETRAIN`: a refused device releases its ports; degraded ports retrain, one at a time (R219). -/
def twinRetrain (rq : Rq) (s : State) : State :=
  atornQ 0x0505 rq (fun s => { refuse := [(twinPorts s).isEmpty] })
    (fun s => ok rq [] (if s.tu.ps = .refused then { s with tu := { s.tu with idle := false } } else retrainDegraded s)) s
def execTwinRetrain (rq : Rq) (s : State) : Res := run rq.wf (twinRetrain rq s)

end Sys2Proof.Machine
end

