-- ==== Sys2Proof/Machine/Streams.lean ====
section
/-! DEFINITION. Meanings of the stream family (11): jobs (R248-R250), start, stop and resume (R251, R260, R262, R266, R267),
edges and releases (R253, R257), credits (R255, R440), and the registers of a channel. -/

namespace Sys2Proof.Machine

open Sys2Proof

/-! ## Registers -/

def chStNum : ChSt → Nat
  | .empty => 0 | .loaded => 1 | .priming => 2 | .armed => 3 | .running => 4 | .standby => 5 | .held => 6 | .done => 7

def suStatReg (x : Chan) : Nat :=
  let j := x.job.getD default
  let job := b2n x.job.isSome
  chStNum x.st * 2 ^ 28 + x.cause * 2 ^ 20 + b2n x.heldValid * 2 ^ 19 + b2n x.srcWritten * 2 ^ 18 + b2n x.winShort * 2 ^ 17
    + b2n (x.job.isSome && decide (j.partner < 64)) * 2 ^ 16 + min 2 (inRelease x) * 2 ^ 14
    + job * (j.trig * 2 ^ 8 + j.port * 2 ^ 4 + j.consumer)
def suCreditReg (x : Chan) : Nat :=
  match x.job with
  | some j => credit j x * 2 ^ 16 + x.pinned.length
  | none => 0

/-- `SU_ADMIT` and `SU_PORT_ADMIT`, in 100 MB/s. -/
def suAdmitReg (s : State) (port : Option Nat) : Nat := admitted s none port / 100000000

/-! ## Jobs (R248-R250) -/

def pow2 (n : Nat) : Bool := (List.range 64).any (fun k => n == 2 ^ k)

/-- The parameters of a job, in the order of R248 (R331). -/
def jobFields (c : Nat) (j : JobParams) : List Fld :=
  [.n4 c, .n8 j.base, .n8 j.len, .n4 j.first, .n4 j.count, .n8 j.x, .n8 j.l, .n4 j.port, .n4 j.consumer, .n8 j.entryBase,
   .n4 j.entries, .n8 j.dataBase, .n8 j.slotSize, .n4 j.trig, .n4 j.fmax, .n4 j.window, .n4 j.pinLimit, .n4 j.onStarve,
   .n4 j.partner]

/-- Parameters outside their own ranges (R248), by position. -/
def jobBad (s : State) (c : Nat) (j : JobParams) : List Bool :=
  [decide (64 ≤ c), j.base % 4096 != 0, decide (j.len < 4096) || decide (2 ^ 46 < j.len), false, decide (j.count = 0),
   j.x % 64 != 0, j.l % 64 != 0 || decide (j.l < 64) || decide (2 ^ 20 < j.l),
   decide (10 ≤ j.port) || (s.port j.port).role != 1, decide (8 ≤ j.consumer) || !consumerHere s j.port j.consumer,
   j.entryBase % 64 != 0, !pow2 j.entries || decide (j.entries < 4) || decide (4096 < j.entries), j.dataBase % 4096 != 0,
   j.slotSize % 4096 != 0 || decide (j.slotSize < j.l), decide (16 ≤ j.trig), decide (j.fmax = 0) || decide (2000000 < j.fmax),
   decide (j.window = 0) || decide (65536 < j.window), decide (j.pinLimit = 0) || decide (16384 < j.pinLimit),
   decide (2 ≤ j.onStarve), decide (64 ≤ j.partner) && j.partner != allOnes]

/-- A range lies wholly within one turf on which the agent holds a grant. -/
def rangeGranted (s : State) (ag : Agent) (base len : Nat) : Bool :=
  match turfAt s base with
  | some (_, t) => decide (base + len ≤ t.base + t.size) && (grantOf t ag).isSome
  | none => false

/-- Line and window against the file (R248): known once its header has passed. -/
def fileRange (h : Hdr) (j : JobParams) : Bool := decide (j.first + j.count ≤ h.lines) && decide (j.x + j.l ≤ h.lineBytes)

/-- The byte ranges of a ring: the entry array and the slots. -/
def ringRanges (j : JobParams) : List (Nat × Nat) :=
  [(j.entryBase, j.entryBase + 32 * j.entries), (j.dataBase, j.dataBase + j.slotSize * j.entries)]

/-- A range lies within the BARs assigned to a consumer; walked over at most its BARs. -/
def inBarsFrom (bars : List (Nat × Nat)) : Nat → Nat → Nat → Bool
  | 0, lo, hi => decide (hi ≤ lo)
  | n + 1, lo, hi =>
    if hi ≤ lo then true
    else match bars.find? (fun b => decide (b.1 ≤ lo) && decide (lo < b.1 + b.2)) with
      | some b => inBarsFrom bars n (b.1 + b.2) hi
      | none => false

def inBars (s : State) (p c lo hi : Nat) : Bool :=
  match (s.port p).consumers[c]? with
  | some k => inBarsFrom k.bars (k.bars.length + 1) lo hi
  | none => false

/-- Position 5 of R249. -/
def ringPlaced (s : State) (j : JobParams) : Bool :=
  (ringRanges j).all (fun r => inBars s j.port j.consumer r.1 r.2) && pairwiseApart (ringRanges j)

/-- Position 6 of R249. -/
def ringAlone (s : State) (j : JobParams) : Bool :=
  s.su.chans.all (fun kv => match kv.2.job with
    | some k => (ringRanges k).all (fun a => (ringRanges j).all (apart a))
    | none => true)

/-- Change `STREAMS` of every segment of a source (R250). -/
def countStreams (f : Nat → Nat) (j : JobParams) (s : State) : State :=
  (List.range ((j.base + j.len - 1) / 2 ^ 21 + 1 - j.base / 2 ^ 21)).foldl (fun s i =>
    s.modSeg (j.base / 2 ^ 21 + i) (fun x => { x with streams := f x.streams })) s

def setChan (c : Nat) (x : Chan) (s : State) : State := s.modChan c (fun _ => x)

/-- The file checks and the ring's place, and the load itself. -/
def jobLoad (rq : Rq) (c : Nat) (j : JobParams) (s : State) : State :=
  let code := loadCode (jobRd s j) j.len
  let hdr := rdBytes (jobRd s j) 0 128
  if code ≠ 0 then reply rq 0x0302 code [] s
  else if !fileRange (hdrOf hdr) j then reply rq 0x0301 2 [] s
  else if !ringPlaced s j then reply rq 0x0301 5 [] s
  else if !ringAlone s j then reply rq 0x0301 6 [] s
  else
    ok rq [] (setCommitted rq (countStreams (· + 1) j
      (setChan c { st := .loaded, job := some j, owner := rq.ch, next := j.first, header := hdr } s)))

def streamJobLoad (rq : Rq) (c : Nat) (j : JobParams) (s : State) : State :=
  atornQ 0x0700 rq (fun s => {
    params := (jobFields c j).map (fun x => [x]),
    bad := jobBad s c j,
    refuse := [hasJob s c, false, !rangeGranted s (senderOf s rq.ch) j.base j.len] }) (jobLoad rq c j) s
def execStreamJobLoad (rq : Rq) (c : Nat) (p : JobParams) (s : State) : Res := run (rq.wf && u32 c && p.wf) (streamJobLoad rq c p s)

/-- The right S (R249). -/
def ownsJob (rq : Rq) (c : Nat) (s : State) : Bool := hasJob s c && (s.chan c).owner == rq.ch

def streamJobUnload (rq : Rq) (c : Nat) (s : State) : State :=
  let idle (s : State) : Bool := match (s.chan c).st with
    | .loaded | .held | .done => true
    | _ => false
  atorn 0x0701 rq (ownsJob rq c) (fun _ => true) (fun s => { params := [[.n4 c]], bad := [decide (64 ≤ c)], refuse := [!idle s] })
    (fun s =>
      let s := match (s.chan c).job with
        | some j => countStreams (· - 1) j s
        | none => s
      ok rq [] (setCommitted rq (s.modChan c (fun x =>
        { x with st := .empty, job := none, heldValid := false, header := [], produced := 0, consumed := 0 })))) s
def execStreamJobUnload (rq : Rq) (c : Nat) (s : State) : Res := run (rq.wf && u32 c) (streamJobUnload rq c s)

/-! ## Start, stop and resume -/

/-- The pin limit breaks the reserve of the source's turf (R262). -/
def pinsOver (s : State) (c : Nat) (j : JobParams) : Bool :=
  match turfAt s j.base with
  | none => true
  | some (i, t) =>
    let n := s.su.chans.foldl (fun n kv => match kv.2.job with
      | some k => if chanActive kv.2.st && kv.1 != c && (turfAt s k.base).map (·.1) == some i then n + k.pinLimit else n
      | none => n) 0
    decide (t.reserve < n + j.pinLimit)

/-- The two conditions of R260. -/
def rateOver (s : State) (c : Nat) (j : JobParams) : List Bool :=
  [decide (portPayload s j.port < admitted s (some c) (some j.port) + rateOf j),
   decide (devPayload s < admitted s (some c) none + rateOf j)]

/-- The three conditions of R267, in standby mode; `peer` is the twin's job of the channel named as partner. -/
def standbyBad (s : State) (mode : Nat) (j : JobParams) (peer : Option JobParams) : List Bool :=
  if mode = 0 then [false, false, false]
  else
    [decide (64 ≤ j.partner) || peer.isNone, s.tu.ps != .inSync,
     match peer with
      | some k => k.base != j.base || k.len != j.len || k.first != j.first || k.count != j.count || k.x != j.x || k.l != j.l
      | none => false]

/-- Conditions that a start and a resume share: R260, R262, R267, the grant, ember, minimal recovery. -/
def startBad (s : State) (c mode : Nat) (peer : Option JobParams) : List Bool :=
  let x := s.chan c
  let j := x.job.getD default
  rateOver s c j ++ [pinsOver s c j] ++ standbyBad s mode j peer
    ++ [!rangeGranted s (senderOf s x.owner) j.base j.len, inEmber s, s.rpm.recovery != 0]

/-- Entry to PRIMING: window pinned, `STEP_EN` cleared. -/
def prime (c line stamp mode : Nat) (s : State) : State :=
  let x := s.chan c
  let p := match x.job with
    | some j => j.partner
    | none => 64
  let last := s.tp.peerLines.get 0 p
  let s := stepEnClear s
  let s := s.modChan c (fun x => { x with
    st := .priming, next := line, stamp := stamp, standbyMode := mode == 1, heldValid := false, srcWritten := false,
    shortRaised := false, winShort := false, rel := [], stopping := none, lastLine := false,
    trackLine := if last = 0 then line else last - 1 })
  streamNotify c (pinWindow c s)

/-- Every entry of the ring is written with `VALID` 0. -/
def ringClear (c : Nat) (s : State) : State :=
  match (s.chan c).job with
  | some j => (List.range j.entries).foldl (fun s i => emit (.ring j.port j.consumer (j.entryBase + 32 * i + 28) [0, 0, 0, 0]) s) s
  | none => s

def streamStart (rq : Rq) (c stamp mode : Nat) (peer : Option JobParams) (s : State) : State :=
  atorn 0x0702 rq (ownsJob rq c) (fun _ => true)
    (fun s => { params := [[.n4 c], [.n8 stamp], [.n4 mode]], bad := [decide (64 ≤ c), false, decide (2 ≤ mode)],
                refuse := [(s.chan c).st != .loaded] ++ startBad s c mode peer })
    (fun s => ok rq [] (setCommitted rq (prime c (s.chan c).next stamp mode (ringClear c s)))) s
def execStreamStart (rq : Rq) (c stamp mode : Nat) (peer : Option JobParams) (s : State) : Res :=
  run (rq.wf && u32 c && u64 stamp && u32 mode) (streamStart rq c stamp mode peer s)

def streamStop (rq : Rq) (c : Nat) (s : State) : State :=
  atorn 0x0703 rq (ownsJob rq c) (fun _ => true)
    (fun s => { params := [[.n4 c]], bad := [decide (64 ≤ c)], refuse := [!chanActive (s.chan c).st] })
    (fun s =>
      let s := relFinish c (stopChan 6 c s)
      ok rq [] (setCommitted rq (unpin c s))) s
def execStreamStop (rq : Rq) (c : Nat) (s : State) : Res := run (rq.wf && u32 c) (streamStop rq c s)

def streamResume (rq : Rq) (c line stamp mode : Nat) (peer : Option JobParams) (s : State) : State :=
  let idle (s : State) : Bool := match (s.chan c).st with
    | .held | .done | .standby => true
    | _ => false
  let out (s : State) : Bool := match (s.chan c).job with
    | some j => line != allOnes && (decide (line < j.first) || decide (lastOf j < line))
    | none => false
  atorn 0x0704 rq (ownsJob rq c) (fun _ => true)
    (fun s => { params := [[.n4 c], [.n4 line], [.n8 stamp], [.n4 mode]], bad := [decide (64 ≤ c), false, false, decide (2 ≤ mode)],
                refuse := [!idle s, out s, line == allOnes && !(s.chan c).heldValid] ++ startBad s c mode peer })
    (fun s => ok rq [] (setCommitted rq (prime c (if line = allOnes then (s.chan c).next else line) stamp mode s))) s
def execStreamResume (rq : Rq) (c line stamp mode : Nat) (peer : Option JobParams) (s : State) : Res :=
  run (rq.wf && u32 c && u32 line && u64 stamp && u32 mode) (streamResume rq c line stamp mode peer s)

/-- Registers of a channel after its job parameters, as `STREAM_QUERY` returns them. -/
def chanFields (s : State) (c : Nat) : List Fld :=
  let x := s.chan c
  jobFields c (x.job.getD default) ++
    [.n4 (suStatReg x), .n4 x.next, .n4 (suCreditReg x), .n4 x.produced, .n4 x.consumed, .n8 x.lines, .n4 x.starve, .n4 x.tloss,
     .n4 x.dbRej, .n4 x.lateMax]

def streamQuery (rq : Rq) (c : Nat) (s : State) : State :=
  atornQ 0x0705 rq (fun _ => { params := [[.n4 c]], bad := [decide (64 ≤ c) && c != allOnes] })
    (fun s => ok rq (pack ((if c = allOnes then List.range 64 else [c]).flatMap (chanFields s))) s) s
def execStreamQuery (rq : Rq) (c : Nat) (s : State) : Res := run (rq.wf && u32 c) (streamQuery rq c s)

/-! ## The states' own events (R251) -/

/-- The timebase has reached the start stamp; a stamp of 0 passes at once. -/
def armedRun (c : Nat) (s : State) : State :=
  if (s.chan c).st == .armed && decide ((s.chan c).stamp ≤ s.tb.count)
  then streamNotify c (s.modChan c (fun x => { x with st := .running })) else s

/-- The fixed part and the window are resident and pinned. -/
def channelArmed (c : Nat) (s : State) : State :=
  if (s.chan c).st == .priming && windowResident s c then
    let s := raise 0x1C00 c 0 (.stream c) (s.modChan c (fun x => { x with st := if x.standbyMode then .standby else .armed }))
    armedRun c s
  else s
def execChannelArmed (c : Nat) (s : State) : Res := run (chanNoOk c) (channelArmed c s)

/-- PRIMING lasted 10 s. -/
def primeTimeout (c : Nat) (s : State) : State :=
  if (s.chan c).st == .priming then raise 0x1C01 c 0 (.stream c) (heldFor 0x13 c s) else s
def execPrimeTimeout (c : Nat) (s : State) : Res := run (chanNoOk c) (primeTimeout c s)

def execStartStampReached (c : Nat) (s : State) : Res := run (chanNoOk c) (armedRun c s)

/-- The oldest captured edge of an input arrives at the stream unit (R257). -/
def triggerDecision (input : Nat) (rds : List (Nat × List RdRes)) (s : State) : State :=
  match s.su.edges.find? (fun e => e.1 == input) with
  | none => s
  | some e =>
    let s := { s with su := { s.su with edges := s.su.edges.erase e } }
    ((List.range 64).filter (takesEdge s input)).foldl (fun s c => chanDecide rds e.2 c s) s
def execTriggerDecisionPoint (input : Nat) (rds : List (Nat × List RdRes)) (s : State) : Res :=
  run (Instr.wf (.triggerDecisionPoint input rds)) (triggerDecision input rds s)

/-- The oldest line in release of a channel ends: its entry becomes valid, as a line or as a starve mark. -/
def lineReleaseComplete (c : Nat) (s : State) : State := if chanActive (s.chan c).st then lineEnd c s else s
def execLineReleaseComplete (c : Nat) (s : State) : Res := run (chanNoOk c) (lineReleaseComplete c s)

/-! ## Credits (R255, R440) -/

/-- A write to a channel's doorbell in the inbound window of a stream port. -/
def creditDoorbell (c p k : Nat) (v : Word) (be : Nat) (s : State) : State :=
  let x := s.chan c
  let good := match x.job with
    | some j => j.port == p && j.consumer == k && decide (be = 15)
        && decide ((v.toNat + 2 ^ 32 - x.consumed) % 2 ^ 32 ≤ (x.produced + 2 ^ 32 - x.consumed) % 2 ^ 32)
    | none => false
  if good then s.modChan c (fun x => { x with consumed := v.toNat }) else s.modChan c (fun x => { x with dbRej := inc32 x.dbRej })
def execStreamCreditDoorbell (c port consumer : Nat) (v : Word) (be : Nat) (s : State) : Res :=
  run (chanNoOk c && portOk port && decide (consumer < 16) && decide (be < 16)) (creditDoorbell c port consumer v be s)

/-- `SU_CH_LATE_MAX`: a write restarts the mark at the value written (R433). -/
def lateMaxWrite (ag : Agent) (c : Nat) (v : Word) (s : State) : State :=
  regWrite ag (fun s => s.modChan c (fun x => { x with lateMax := v.toNat })) s
def execSuChLateMaxWrite (ag : Agent) (c : Nat) (v : Word) (s : State) : Res :=
  run (ag.wf && chanNoOk c) (lateMaxWrite ag c v s)

end Sys2Proof.Machine
end

