-- ==== Sys2Proof/Machine/Expand.lean ====
section
/-! DEFINITION. Meanings of the expansion engine's family (12): sticks and lanes (R286-R292), `NOLENE_CHECK`, and the XE
commands and registers (R293). -/

namespace Sys2Proof.Machine

open Sys2Proof

/-! ## Registers -/

def xeStatReg (s : State) : Nat :=
  let n := (activeLanes s).length
  b2n (s.xe.up && n == 0) * 2 ^ 16 + n * 2 ^ 12 + retiredSet s
def xeLimitReg (s : State) : Nat := devPayload s / 100000000
def xeLaneReg (s : State) (i : Nat) : Nat :=
  let l := s.xe.lanes.get {} i
  l.st * 2 ^ 30 + l.cause * 2 ^ 16 + l.tests

/-! ## Sticks and lanes -/

/-- A lane renders sticks: it is active, or finishes what it holds. -/
def laneWorks (s : State) (lane : Nat) : Bool := (activeLanes s).contains lane

/-- The oldest line in release of a channel that still needs a stick. -/
def stickOwner (s : State) (c stick : Nat) : Option Release := (s.chan c).rel.find? (fun r => r.todo.contains stick)

/-- A lane finishes a stick, or its own checks find it faulty before a byte of it leaves. -/
def stickRendered (c stick lane : Nat) (laneOk : Bool) (s : State) : State :=
  match stickOwner s c stick with
  | none => s
  | some r =>
    if !laneWorks s lane then s
    else if laneOk then
      count 0x2020 lane 0 1 { s.modChan c (fun x => { x with
          rel := x.rel.map (fun o => if o.seq = r.seq then { o with todo := o.todo.erase stick } else o) }) with
        xe := { s.xe with sticks := (s.xe.sticks + 1) % 2 ^ 64 } }
    else laneFault lane 1 (engineFault c r.seq s)
def execStickRendered (c stick lane : Nat) (laneOk : Bool) (s : State) : Res :=
  run (chanNoOk c && decide (stick < 2 ^ 20) && decide (lane < 9)) (stickRendered c stick lane laneOk s)

/-- The stick that a lane holds is discarded with its line. -/
def laneDrops (lane : Nat) (s : State) : State :=
  match laneHolds s lane with
  | some d => engineFault d.c d.seq s
  | none => s

/-- The test stick of one lane. -/
def laneTest (lane : Nat) (good : Bool) (s : State) : State :=
  let l := s.xe.lanes.get {} lane
  if !s.xe.up || l.st = 2 then s
  else if good then { s with xe := { s.xe with lanes := s.xe.lanes.set {} lane { l with tests := (l.tests + 1) % 2 ^ 16 } } }
  else laneFault lane 2 (laneDrops lane s)

def testStick (results : List Bool) (s : State) : State :=
  results.zipIdx.foldl (fun s x => laneTest x.2 x.1 s) s
def execTestStick (results : List Bool) (s : State) : Res := run (decide (results.length = 9)) (testStick results s)

/-- A lane fails to accept or return a stick within 1 µs. -/
def laneTimeout (lane : Nat) (s : State) : State :=
  if !s.xe.up || (s.xe.lanes.get {} lane).st = 2 then s else laneFault lane 3 (laneDrops lane s)
def execLaneResponseTimeout (lane : Nat) (s : State) : Res := run (decide (lane < 9)) (laneTimeout lane s)

/-- A healthy spare takes the place of a retired lane. -/
def spareActivate (s : State) : State :=
  match (List.range 9).find? (fun i => (s.xe.lanes.get {} i).st == 1) with
  | some i =>
    if s.xe.spareOwed = 0 then s
    else
      let l := s.xe.lanes.get {} i
      { s with xe := { s.xe with lanes := s.xe.lanes.set {} i { l with st := 0 }, spareOwed := s.xe.spareOwed - 1 } }
  | none => s
def execSpareLaneActivation (s : State) : Res := run true (spareActivate s)

/-! ## Commands -/

/-- `NOLENE_CHECK`: the load checks on a range, without a job. -/
def noleneCheck (rq : Rq) (base len : Nat) (s : State) : State :=
  atornQ 0x0800 rq (fun s => {
    params := [[.n8 base], [.n8 len]],
    bad := [false, decide (len < 4096) || decide (2 ^ 46 < len)],
    refuse := [!rangeGranted s (senderOf s rq.ch) base len, base % 4096 != 0] })
    (fun s =>
      let rd := fileByte s base
      let body := if rdPoison rd 0 128 then 0 else (hdrOf (rdBytes rd 0 128)).bodyOff
      ok rq (pack [.n4 (loadCode rd len), .n8 body]) s) s
def execNoleneCheck (rq : Rq) (base len : Nat) (s : State) : Res := run (rq.wf && u64 base && u64 len) (noleneCheck rq base len s)

def xeQuery (rq : Rq) (s : State) : State :=
  query 0x0801 rq (fun s => pack ([.n4 (xeStatReg s)] ++ (List.range 9).map (fun i => .n4 (xeLaneReg s i))
    ++ [.n8 s.xe.sticks, .n4 s.xe.decodeErr, .n4 s.xe.laneFaults])) s
def execXeQuery (rq : Rq) (s : State) : Res := run rq.wf (xeQuery rq s)

/-- `XE_LANE_RETIRE`: the lane finishes the sticks it holds; the XE then ends the command. -/
def xeLaneRetire (rq : Rq) (lane : Nat) (s : State) : State :=
  let l (s : State) : Lane := s.xe.lanes.get {} lane
  atornQ 0x0802 rq (fun s => {
    params := [[.n4 lane]],
    bad := [decide (9 ≤ lane)],
    refuse := [(l s).st == 2, (l s).st == 0 && decide ((activeLanes s).length ≤ 1), inEmber s] })
    (fun s => { s with xe := { s.xe with retiring := s.xe.retiring ++ [lane] } }) s
def execXeLaneRetire (rq : Rq) (lane : Nat) (s : State) : Res := run (rq.wf && u32 lane) (xeLaneRetire rq lane s)

/-- The lane has finished: it is retired. -/
def xeLaneRetired (s : State) : State := s.xe.retiring.foldl (fun s l => laneRetire l 4 s) s

end Sys2Proof.Machine
end

