-- ==== Sys2Proof/Machine/Ports.lean ====
section
/-! DEFINITION. Meanings of the port family (10): links and widths (R224-R227), stream hierarchies (R244-R246), the CXL primary
mailbox (R237, R238, R243), the fabric-manager LD (R239), MSI-X (R243), and the port commands and registers (R247). -/

namespace Sys2Proof.Machine

open Sys2Proof

/-! ## Registers -/

def pxCfgReg (s : State) (p : Nat) : Nat :=
  let q := s.port p
  q.maxWidth * 2 ^ 18 + (if q.role = 0 && q.plain then q.bar2Log2 else 0) * 2 ^ 12 + q.nfunc * 2 ^ 8 + b2n q.mld * 2 ^ 7
    + b2n q.replaced * 2 ^ 6 + b2n q.twinRefused * 2 ^ 5 + b2n (notReady s) * 2 ^ 4 + b2n q.plain * 2 ^ 3 + q.role
def pxLinkReg (s : State) (p : Nat) : Nat :=
  let q := s.port p
  q.width * 2 ^ 27 + q.rate * 2 ^ 24 + b2n q.flit * 2 ^ 23 + b2n q.serving * 2 ^ 22 + b2n q.disabled * 2 ^ 21
    + q.attempts * 2 ^ 19 + b2n q.reversed * 2 ^ 18
    + (if q.role = 1 then (List.range 8).foldl (fun n c => n + b2n (consumerHere s p c) * 2 ^ c) 0 else 0)
def pxCounters (s : State) (p : Nat) : List Nat :=
  let q := s.port p
  [q.degradeCnt, q.poisonOut, q.poisonIn, q.discard, q.urInbound, q.consCor, q.policyFix, q.dumpSkip]

/-! ## Links (R224-R227, R232) -/

/-- A port of host or stream role may train now (R175 step 9, R224, R389). -/
def portTrains (s : State) (p : Nat) : Bool :=
  let q := s.port p
  q.role != 2 && s.px.open_ && s.rpm.recovery == 0 && q.pllOk && !q.disabled && q.rate == 0 && !portHeld s p

def widthOk (w : Nat) : Bool := w == 16 || w == 8 || w == 4

/-- The width of a host port's link changed: its CDAT is rebuilt (R236). -/
def hostWidth (p : Nat) (s : State) : State := if (s.port p).role = 0 && !(s.port p).plain then cdatChange s else s

/-- A link reaches L0 below what R226 asks: Disabled. -/
def linkRefused (p : Nat) (s : State) : State :=
  raise 0x0000 p 0 .nothing (s.modPort p (fun q =>
    { q with disabled := true, attempts := min 3 (q.attempts + 1), width := 0, rate := 0, flit := false, serving := false,
             reversed := false }))

/-- A link reaches L0. -/
def portLinkUp (p rate width : Nat) (flit reversed mldOk : Bool) (s : State) : State :=
  let q := s.port p
  if !portTrains s p then s
  else if rate != 6 || !flit || !widthOk width || decide (maxLanes q < width) then linkRefused p s
  else
    let multi := q.role == 0 && !q.plain && q.nfunc != 0
    let s := s.modPort p (fun q => { q with width := width, rate := rate, flit := flit, reversed := reversed, serving := true,
                                            mld := multi && mldOk })
    let s := if width < 16 then raise 0x0001 p 0 .nothing s else s
    let s := if multi && !mldOk then raise 0x0002 p 0 .nothing s else s
    hostWidth p s
def execPortLinkUp (port rate width : Nat) (flit reversed mldOk : Bool) (s : State) : Res :=
  run (portOk port && decide (rate < 8) && decide (width < 32)) (portLinkUp port rate width flit reversed mldOk s)

/-- 100 ms in Disabled have passed: training is attempted again, up to three attempts. -/
def disabledRetry (p : Nat) (s : State) : State :=
  if (s.port p).disabled && decide ((s.port p).attempts < 3) then s.modPort p (fun q => { q with disabled := false }) else s
def execPortDisabledRetry (port : Nat) (s : State) : Res := run (portOk port) (disabledRetry port s)

/-- A lane fails: the link retrains at the next lower width, and below x4 goes to Disabled, a reset of the port (R231). -/
def laneFailed (p : Nat) (s : State) : State :=
  let q := s.port p
  if q.role == 2 || !q.serving then s
  else
    let s := s.modPort p (fun q => { q with degradeCnt := inc32 q.degradeCnt })
    if q.width = 4 then linkRefused p (admitWatch (portPulse p) s)
    else
      let s := admitWatch (fun s => s.modPort p (fun q => { q with width := q.width / 2 })) s
      hostWidth p (raise 0x0001 p 0 .nothing s)
def execPortLaneFailed (port : Nat) (s : State) : Res := run (portOk port) (laneFailed port s)

/-- The partner widens the link, no wider than `MAX_WIDTH`. -/
def upconfigure (p width : Nat) (s : State) : State :=
  let q := s.port p
  if !widthOk width || decide (maxLanes q < width) then s
  else if q.role = 2 then
    let hi := decide (twinPortNo true s = p)
    let t := if hi then s.tu.hi else s.tu.lo
    if t.up && decide (t.width < width) then setTwinPort hi { t with width := width } s else s
  else if q.serving && decide (q.width < width) then hostWidth p (s.modPort p (fun q => { q with width := width }))
  else s
def execLinkUpconfigure (port width : Nat) (s : State) : Res := run (portOk port && decide (width < 32)) (upconfigure port width s)

/-! ## Stream hierarchies (R244-R246) -/

def alignUp (a n : Nat) : Nat := if n = 0 then a else (a + n - 1) / n * n

/-- BARs placed in order from an address, each naturally aligned. -/
def placeBars : Nat → List Nat → List (Nat × Nat)
  | _, [] => []
  | a, n :: t => (alignUp a n, n) :: placeBars (alignUp a n + n) t

/-- The window of consumer BARs below a stream port. -/
def barBase (p : Nat) : Nat := 2 ^ 40 + p * 2 ^ 36

/-- What enumeration has found so far: the consumers in order, the next free address, and the functions left disabled. -/
structure EnumSt where
  cons : List Consumer := []
  at_ : Nat := 0
  off : List FoundFn := []

/-- The next function found: numbered while fewer than 8 are; one whose BARs do not fit keeps its number, left disabled. -/
def enumStep (p : Nat) (e : EnumSt) (f : FoundFn) : EnumSt :=
  if !f.configurable || decide (8 ≤ e.cons.length) then { e with off := e.off ++ [f] }
  else
    let bars := placeBars e.at_ f.bars
    let end_ := bars.foldl (fun n b => max n (b.1 + b.2)) e.at_
    if end_ ≤ barBase p + 2 ^ 36 then
      { e with cons := e.cons ++ [⟨f.bus, f.dev, f.func, bars, false⟩], at_ := end_ }
    else { e with cons := e.cons ++ [⟨f.bus, f.dev, f.func, [], true⟩], off := e.off ++ [f] }

/-- Enumeration below a stream port has ended. -/
def enumerated (p : Nat) (found : List FoundFn) (s : State) : State :=
  if (s.port p).role != 1 || !(s.port p).serving then s
  else
    let e := found.foldl (enumStep p) { at_ := barBase p }
    let s := s.modPort p (fun q => { q with consumers := e.cons })
    let s := e.off.foldl (fun s f => ledger 0x0006 (srcPort p) [p, f.bus, f.dev, f.func] (raise 0x0006 p 0 .nothing s)) s
    if s.px.rescan = some p then endBlock 0x0602 0 0 { s with px := { s.px with rescan := none } } else s
def execStreamPortEnumeration (port : Nat) (found : List FoundFn) (s : State) : Res := run (portOk port) (enumerated port found s)

/-- The port has a consumer of this number. -/
def hasConsumer (s : State) (p c : Nat) : Bool := (s.port p).role == 1 && decide (c < (s.port p).consumers.length)

def consumerCor (p c : Nat) (s : State) : State :=
  if hasConsumer s p c then s.modPort p (fun q => { q with consCor := inc32 q.consCor }) else s
def execConsumerErrCor (port consumer : Nat) (s : State) : Res := run (portOk port && decide (consumer < 8)) (consumerCor port consumer s)

def consumerFatal (p c : Nat) (s : State) : State := consumerLost p c s
def execConsumerErrFatal (port consumer : Nat) (s : State) : Res := run (portOk port && decide (consumer < 8)) (consumerFatal port consumer s)

def pathDown (p c : Nat) (s : State) : State := consumerLost p c s
def execStreamPathLinkDown (port consumer : Nat) (s : State) : Res := run (portOk port && decide (consumer < 8)) (pathDown port consumer s)

/-- Any inbound request but a doorbell or an interrupt is answered with Unsupported Request. -/
def inboundUr (p : Nat) (s : State) : State :=
  if (s.port p).role == 1 && (s.port p).serving
  then count 0x0024 p 0 1 (s.modPort p (fun q => { q with urInbound := inc32 q.urInbound })) else s
def execInboundRequest (port : Nat) (s : State) : Res := run (portOk port) (inboundUr port s)

def consumerInt (p c : Nat) (s : State) : State := if hasConsumer s p c then raise 0x0007 p c .nothing s else s
def execConsumerInterrupt (port consumer : Nat) (s : State) : Res := run (portOk port && decide (consumer < 8)) (consumerInt port consumer s)

/-! ## Primary mailbox (R237, R238, R243) -/

/-- Return codes of the CXL specification. -/
def cxlOk : Nat := 0
def cxlInvalid : Nat := 2
def cxlUnsupported : Nat := 3

/-- A logical device of a CXL port whose mailbox answers. -/
def ldServes (s : State) (p l : Nat) : Bool := fnReached s p l && !(s.port p).plain

/-- A command completes: its code and data, and vector 2. -/
def cxlDone (p l code : Nat) (data : List Nat) (s : State) : State := fire p l 2 (emit (.cxlMbox p l code data) s)

def cxlCmd (p l : Nat) (body : State → State) (s : State) : State := if ldServes s p l then fnWrite p l body s else s

def recFields (r : EvRec) : List Nat := [r.handle, r.kind, r.code, r.val]

def getRecords (p l log : Nat) (s : State) : State :=
  cxlCmd p l (fun s =>
    let x := s.ld p l
    if 4 ≤ log then cxlDone p l cxlInvalid [] s
    else cxlDone p l cxlOk ([x.overCnt.get 0 log, (x.logs.get [] log).length] ++ (x.logs.get [] log).flatMap recFields) s) s
def execGetEventRecords (port ld log : Nat) (s : State) : Res := run (fnOk port ld && u8 log) (getRecords port ld log s)

/-- Records are cleared by handle, or all of a log; its overflow count restarts. -/
def clearRecords (p l log : Nat) (all : Bool) (handles : List Nat) (s : State) : State :=
  cxlCmd p l (fun s =>
    let recs := (s.ld p l).logs.get [] log
    if decide (4 ≤ log) || (!all && !handles.all (fun h => recs.any (fun r => r.handle == h))) then cxlDone p l cxlInvalid [] s
    else
      let left := if all then [] else recs.filter (fun r => !handles.contains r.handle)
      cxlDone p l cxlOk [] (s.modLd p l (fun x => { x with logs := x.logs.set [] log left, overCnt := x.overCnt.set 0 log 0 }))) s
def execClearEventRecords (port ld log : Nat) (all : Bool) (handles : List Nat) (s : State) : Res :=
  run (fnOk port ld && u8 log && handles.all u16) (clearRecords port ld log all handles s)

/-- The vector of a log: its message number, or its default. -/
def logVector (x : LdState) (log : Nat) : Nat := x.polNum.get (3 + log) log

def getPolicy (p l : Nat) (s : State) : State :=
  cxlCmd p l (fun s =>
    let x := s.ld p l
    cxlDone p l cxlOk ((List.range 4).flatMap (fun i => [x.polMode.get 0 i, logVector x i])) s) s
def execGetEventInterruptPolicy (port ld : Nat) (s : State) : Res := run (fnOk port ld) (getPolicy port ld s)

/-- Message numbers of 64 and above are replaced by the defaults and counted. -/
def setPolicy (p l : Nat) (modes nums : List Nat) (s : State) : State :=
  cxlCmd p l (fun s =>
    if modes.any (fun m => decide (3 ≤ m)) then cxlDone p l cxlInvalid [] s
    else
      let bad := (nums.filter (fun n => decide (64 ≤ n))).length
      let num (i : Nat) : Nat := if nums.getD i 0 < 64 then nums.getD i 0 else 3 + i
      let s := s.modLd p l (fun x => { x with
        polMode := (List.range 4).foldl (fun (t : Tab Nat) i => t.set 0 i (modes.getD i 0)) [],
        polNum := (List.range 4).foldl (fun (t : Tab Nat) i => t.set (3 + i) i (num i)) [] })
      cxlDone p l cxlOk [] (s.modPort p (fun q => { q with policyFix := satAdd max32 q.policyFix bad }))) s
def execSetEventInterruptPolicy (port ld : Nat) (modes nums : List Nat) (s : State) : Res :=
  run (fnOk port ld && decide (modes.length = 4) && decide (nums.length = 4)) (setPolicy port ld modes nums s)

/-- The commands of R237, each with no effect listed: the Command Effects Log. -/
def cxlOpcodes : List Nat := [0x0100, 0x0101, 0x0102, 0x0103, 0x0400, 0x0401, 0x4000, 0x4200, 0x4300]

def supportedLogs (p l : Nat) (s : State) : State := cxlCmd p l (cxlDone p l cxlOk [1, 4 * cxlOpcodes.length]) s
def execGetSupportedLogs (port ld : Nat) (s : State) : Res := run (fnOk port ld) (supportedLogs port ld s)

def effectsLog (p l : Nat) (s : State) : State := cxlCmd p l (cxlDone p l cxlOk (cxlOpcodes.flatMap (fun o => [o, 0]))) s
def execGetLog (port ld : Nat) (s : State) : Res := run (fnOk port ld) (effectsLog port ld s)

/-- Total, volatile and persistent capacity, partition alignment, LSA size, log sizes, poison records a call, inject limit. -/
def identifyMem (p l : Nat) (s : State) : State :=
  cxlCmd p l (fun s => cxlDone p l cxlOk [4 * s.te.uGib, 0, 4 * s.te.uGib, 0, 0, 64, 64, 64, 64, 256, 0] s) s
def execIdentifyMemoryDevice (port ld : Nat) (s : State) : Res := run (fnOk port ld) (identifyMem port ld s)

/-- V of R157, in billets; on SLC dies the SLC region takes one byte for each eight destaged. -/
def ratedVolume (s : State) : Nat :=
  let m := s.mc.prof
  let luns := 32 * m.luns
  min (luns * (m.blocks - slcBlocks s) * m.pn * m.en / 2)
    (luns * slcBlocks s * m.ps * m.es * (if destageSlc s then 1 else 8))

/-- The CDAT that the Table Access DOE serves (R236): of its DSMAS entry, DPA base, length and the non-volatile flag; of its DSLBIS
entries, read and write latency in ns and read and write bandwidth in GB/s. -/
def cdat (s : State) : List Nat := [0, uBytes s, 4, 350, if s.tu.record.pairId = 0 then 400 else 1600, 118, 118]

/-- The rated payload of a port in each direction, in units of 0.1 GB/s (R227). -/
def ratedPayload (width : Nat) : Nat := if width = 16 then 1180 else if width = 8 then 590 else if width = 4 then 295 else 0

def percent (a b : Nat) : Nat := if b = 0 then (if a = 0 then 0 else 100) else min 100 (100 * a / b)

/-- Life used, as R237 puts it: the spares are the billets above 1.25 × U that the population was made with. -/
def lifeUsed (s : State) : Nat :=
  let m := s.mc.prof
  let made := (32 * m.luns * (m.blocks - slcBlocks s) - s.mctl.ashFactory) * m.pn * 98 / 100
  max (percent s.mctl.destageCnt (ratedVolume s)) (percent (s.mctl.ashSets * m.pn) (made - 5 * s.te.uGib * 4096))

/-- Corrected persistent errors. -/
def correctedCnt (s : State) : Nat := min max32 (s.ft.dev.foldl (fun n kv => n + kv.2.ce) s.mctl.recMid)

/-- Health Status is a free value: R237 names it and gives no content. -/
def healthInfo (p l : Nat) (s : State) : State :=
  cxlCmd p l (fun s => cxlDone p l cxlOk
    [Config.freeRead s.free, b2n (notReady s), lifeUsed s, (s.th.max / 4).toNat, s.eu.sealRec.unsealedCnt, correctedCnt s] (draw s)) s
def execGetHealthInfo (port ld : Nat) (s : State) : Res := run (fnOk port ld) (healthInfo port ld s)

/-- Entries of the poison index within a range and within the LD's grants: the first 256, and whether more follow. -/
def poisonList (p l base len : Nat) (s : State) : State :=
  cxlCmd p l (fun s =>
    let size (e : Nat × Bool) : Nat := if e.2 then 65536 else 64
    let mine := s.px.poisonIdx.filter (fun e => decide (e.1 < base + len) && decide (base < e.1 + size e)
      && (match turfAt s e.1 with
        | some (_, t) => (grantOf t (.fn p l)).isSome
        | none => false))
    cxlDone p l cxlOk ([b2n s.px.poisonOver, b2n (decide (256 < mine.length)), min 256 mine.length]
      ++ (mine.take 256).flatMap (fun e => [e.1, size e])) s) s
def execGetPoisonList (port ld base len : Nat) (s : State) : Res := run (fnOk port ld && u64 base && u64 len) (poisonList port ld base len s)

/-- Every other opcode. -/
def cxlOther (p l opcode : Nat) (s : State) : State :=
  if cxlOpcodes.contains opcode then s else cxlCmd p l (cxlDone p l cxlUnsupported []) s
def execPrimaryMailboxUnsupported (port ld opcode : Nat) (s : State) : Res :=
  run (fnOk port ld && u16 opcode) (cxlOther port ld opcode s)

/-! ## The FM-owned LD (R239) -/

/-- A command reaches the FM-owned LD of an MLD port. -/
def fmCmd (p : Nat) (body : State → State) (s : State) : State := if portServes s p && (s.port p).mld then body s else s

def lds (s : State) (p : Nat) : Nat := (s.port p).nfunc + 1

def ldInfo (p : Nat) (s : State) : State := fmCmd p (fun s => emit (.fmLd p cxlOk [lds s p, uBytes s]) s) s
def execGetLdInfo (port : Nat) (s : State) : Res := run (portOk port) (ldInfo port s)

def ldAllocs (s : State) (p : Nat) : List Nat := List.replicate (lds s p) (uBytes s)
def getAllocs (p : Nat) (s : State) : State := fmCmd p (fun s => emit (.fmLd p cxlOk (ldAllocs s p)) s) s
def execGetLdAllocations (port : Nat) (s : State) : Res := run (portOk port) (getAllocs port s)

/-- Accepted only when it gives every LD the whole of U. -/
def setAllocs (p : Nat) (sizes : List Nat) (s : State) : State :=
  fmCmd p (fun s => emit (.fmLd p (if sizes = ldAllocs s p then cxlOk else cxlInvalid) []) s) s
def execSetLdAllocations (port : Nat) (sizes : List Nat) (s : State) : Res := run (portOk port) (setAllocs port sizes s)

def getQos (p : Nat) (s : State) : State := fmCmd p (fun s => emit (.fmLd p cxlOk (s.px.qos.get [] p)) s) s
def execGetQosControl (port : Nat) (s : State) : Res := run (portOk port) (getQos port s)

def setQos (p : Nat) (vals : List Nat) (s : State) : State :=
  fmCmd p (fun s => emit (.fmLd p cxlOk []) { s with px := { s.px with qos := s.px.qos.set [] p vals } }) s
def execSetQosControl (port : Nat) (vals : List Nat) (s : State) : Res := run (portOk port) (setQos port vals s)

/-- The status is a free value: R239 gives it no content. -/
def qosStatus (p : Nat) (s : State) : State := fmCmd p (fun s => emit (.fmLd p cxlOk [Config.freeRead s.free]) (draw s)) s
def execGetQosStatus (port : Nat) (s : State) : Res := run (portOk port) (qosStatus port s)

/-! ## MSI-X (R243) -/

/-- A vector's mask bit is cleared: its pending bit produces one message. -/
def vectorUnmask (p f v : Nat) (s : State) : State :=
  fnWrite p f (fun s => firePending p f
    (s.modFn p f (fun x => { x with msix := x.msix.upd {} v (fun e => { e with mask := false }) }))) s
def execMsixVectorUnmask (port func vec : Nat) (s : State) : Res :=
  run (fnOk port func && decide (vec < 64)) (vectorUnmask port func vec s)

/-! ## Commands (R247) -/

def consumerFields (k : Consumer) : List Fld :=
  [.n4 k.bus, .n4 k.dev, .n4 k.func, .n4 k.bars.length] ++ k.bars.flatMap (fun b => [Fld.n8 b.1, Fld.n8 b.2]) ++ [.n4 (b2n k.lost)]

def portFields (s : State) (p : Nat) : List Fld :=
  [.n4 (pxCfgReg s p), .n4 (pxLinkReg s p)] ++ (pxCounters s p).map Fld.n4
    ++ (if (s.port p).role = 1 then Fld.n4 (s.port p).consumers.length :: (s.port p).consumers.flatMap consumerFields else [])

def portQuery (rq : Rq) (p : Nat) (s : State) : State :=
  atornQ 0x0600 rq (fun _ => { params := [[.n4 p]], bad := [decide (10 ≤ p) && p != allOnes] })
    (fun s => ok rq (pack ((if p = allOnes then List.range 10 else [p]).flatMap (portFields s))) s) s
def execPortQuery (rq : Rq) (port : Nat) (s : State) : Res := run (rq.wf && u32 port) (portQuery rq port s)

/-- The port of the function that sent a command. -/
def senderPort (s : State) (ch : Nat) : Option Nat :=
  match senderOf s ch with
  | .fn p _ => some p
  | _ => none

def portRetrain (rq : Rq) (p : Nat) (s : State) : State :=
  atornQ 0x0601 rq (fun s => {
    params := [[.n4 p]],
    bad := [decide (10 ≤ p)], refuse := [(s.port p).role == 2, senderPort s rq.ch == some p, inEmber s] })
    (fun s => ok rq [] (setCommitted rq (rstAssert (.port p) s))) s
def execPortRetrain (rq : Rq) (port : Nat) (s : State) : Res := run (rq.wf && u32 port) (portRetrain rq port s)

/-- A stream channel runs on a port. -/
def streamOn (s : State) (p : Nat) : Bool :=
  s.su.chans.any (fun kv => kv.2.st == .running && (match kv.2.job with
    | some j => j.port == p
    | none => false))

/-- `PORT_RESCAN` ends with the enumeration; a port whose link is down has nothing to enumerate. -/
def portRescan (rq : Rq) (p : Nat) (s : State) : State :=
  atornQ 0x0602 rq (fun s => { params := [[.n4 p]], bad := [decide (10 ≤ p)], refuse := [(s.port p).role != 1, streamOn s p] })
    (fun s => if (s.port p).serving then { s with px := { s.px with rescan := some p } } else ok rq [] s) s
def execPortRescan (rq : Rq) (port : Nat) (s : State) : Res := run (rq.wf && u32 port) (portRescan rq port s)

end Sys2Proof.Machine
end

