-- ==== Sys2Proof/Machine/Mailbox.lean ====
section
/-! DEFINITION. Meanings of the mailboxes' family (14): doorbells (R321, R322), the taking of a request (R324, R328-R334),
descriptors (R330), notifications (R326), the management port (R327), identification (R335), firmware update (R336,
R337), and the ends of commands that blocks carry out (R338). -/

namespace Sys2Proof.Machine

open Sys2Proof

/-! ## Registers of the sender window -/

/-- Commands in flight: taken, their reply not released (R322). -/
def inFlight (s : State) (ch : Nat) : Nat := (s.mbox ch).flights.length

def mbStatReg (s : State) (ch : Nat) : Nat :=
  let m := s.mbox ch
  b2n (decide (30 ≤ ch) || bindBound m.bind_) * 2 ^ 31 + b2n (hasAdmin s ch) * 2 ^ 30 + ch * 2 ^ 25 + inFlight s ch * 2 ^ 22
    + b2n (m.reqCons == m.reqProd) * 2 ^ 21 + b2n (chanServed s ch) * 2 ^ 20
def mbCountsReg (s : State) (ch : Nat) : Nat :=
  let m := s.mbox ch
  m.rplCons * 2 ^ 24 + m.rplProd * 2 ^ 16 + m.reqCons * 2 ^ 8 + m.reqProd
def mbCtlReg (s : State) (ch : Nat) : Nat := 2 * b2n (s.mbox ch).irqEmpty + b2n (s.mbox ch).irqRpl
def mbNoteStatReg (s : State) (ch : Nat) : Nat :=
  let m := s.mbox ch
  m.lost * 2 ^ 16 + b2n m.underrun * 2 ^ 10 + b2n m.fifo.isEmpty * 2 ^ 9 + m.fifo.length

/-- The window of a channel that an agent has: every one for a core, else that of its own channel (R320). -/
def windowOf (s : State) (ch : Nat) (ag : Agent) : Bool :=
  match ag with
  | .core i => decide (i < 5)
  | .fn p f => fnReached s p f && chanOf s ag == some ch
  | .ic => ch == 29
  | _ => false

/-- An agent's access to the window of a channel; that of a function in D3hot is an Unsupported Request (R241). -/
def winAccess (ch : Nat) (ag : Agent) (body : State → State) (s : State) : State :=
  if !windowOf s ch ag then s
  else match ag with
    | .fn p f => fnWrite p f body s
    | _ => body s

/-- The sender of a channel accesses its window. -/
def senderAccess (ch : Nat) (body : State → State) (s : State) : State := winAccess ch (senderOf s ch) body s

/-! ## Doorbells (R321, R322, R440) -/

def dbReject (ch : Nat) (s : State) : State := s.modMbox ch (fun m => { m with dbRej := inc32 m.dbRej })

/-- A new producer count. -/
def reqDb (ch v : Nat) (s : State) : State :=
  let m := s.mbox ch
  if (v + 256 - m.reqCons) % 256 ≤ 4 ∧ (v + 256 - m.reqProd) % 256 ≤ 4 then s.modMbox ch (fun m => { m with reqProd := v })
  else dbReject ch s

/-- Drop the first `n` replied records. -/
def release : Nat → List Flight → List Flight
  | _, [] => []
  | n, f :: t => if f.replied then (match n with
      | 0 => f :: t
      | k + 1 => release k t) else f :: release n t

/-- A new consumer count: the replies below it are released. -/
def rplDb (ch w : Nat) (s : State) : State :=
  let m := s.mbox ch
  let n := (w + 256 - m.rplCons) % 256
  if n ≤ (m.rplProd + 256 - m.rplCons) % 256 then
    s.modMbox ch (fun m => { m with rplCons := w, flights := release n m.flights })
  else dbReject ch s

/-- A doorbell write with its byte enables. -/
def doorbell (ch be : Nat) (body : State → State) (s : State) : State :=
  senderAccess ch (fun s => if be % 2 = 1 then body s else dbReject ch s) s

def execMbReqDbWrite (ch : Nat) (v : Word) (be : Nat) (s : State) : Res :=
  run (mbOk ch && decide (be < 16)) (doorbell ch be (reqDb ch (v.toNat % 256)) s)
def execMbRplDbWrite (ch : Nat) (v : Word) (be : Nat) (s : State) : Res :=
  run (mbOk ch && decide (be < 16)) (doorbell ch be (rplDb ch (v.toNat % 256)) s)

/-! ## Taking a request (R324, R328-R333) -/

/-- The slot of the next request not taken. -/
def reqSlot (s : State) (ch : Nat) : List Byte :=
  let m := s.mbox ch
  (m.slots.get [] (m.reqCons % 4) ++ List.replicate 256 0).take 256

/-- A channel whose next request firmware can take. -/
def takeable (s : State) (ch : Nat) : Bool := canTake s ch && (s.mbox ch).reqCons != (s.mbox ch).reqProd

/-- The channel served next: M30, M31, then M0-M29 in rotation. -/
def nextChan (s : State) : Option Nat :=
  if takeable s 30 then some 30 else if takeable s 31 then some 31
  else ((List.range 30).map (fun k => (s.mb.rot + k) % 30)).find? (takeable s)

/-- A request as its slot frames it (R328). -/
structure Frm where
  opcode : Nat
  flags : Nat
  len : Nat
  tag : Nat
  cseq : Nat
  payload : List Byte
  deriving DecidableEq, Repr

def frmOf (b : List Byte) : Frm :=
  let f (o n : Nat) : Nat := leNat ((b.drop o).take n)
  { opcode := f 0 2, flags := f 2 1, len := f 3 1, tag := f 4 2, cseq := f 8 4, payload := (b.drop 16).take (f 3 1) }

/-- The slot offset of a frame's first fault (BAD_FRAME). -/
def frameFault (x : Frm) : Option Nat :=
  let need := match opRow x.opcode with
    | some r => r.len + (if x.flags % 2 = 1 then 32 else 0)
    | none => 0
  if x.flags / 8 ≠ 0 ∨ x.flags / 2 % 2 = 1 then some 2 else if 240 < x.len ∨ x.len < need then some 3 else none

/-- The descriptor of a payload (R330). -/
structure Desc where
  inAddr : Nat
  inLen : Nat
  outLen : Nat
  outAddr : Nat
  dflags : Nat
  inCrc : Nat
  deriving DecidableEq, Repr

def descOf (b : List Byte) : Desc :=
  let f (o n : Nat) : Nat := leNat ((b.drop o).take n)
  { inAddr := f 0 8, inLen := f 8 4, outLen := f 12 4, outAddr := f 16 8, dflags := f 24 4, inCrc := f 28 4 }

/-- Aligned, and lengths in range. -/
def descForm (d : Desc) : Bool :=
  d.inAddr % 4 == 0 && d.outAddr % 4 == 0 && d.inLen % 4 == 0 && d.outLen % 4 == 0
    && decide (d.inLen ≤ 2 ^ 24) && decide (d.outLen ≤ 2 ^ 24)

/-- A range of core addresses lies within an integrator window with the access needed. -/
def inIcWin (s : State) (addr len : Nat) (rw : Bool) : Bool :=
  len == 0 ||
  (decide (2 ^ 40 ≤ addr) && decide (addr < 2 ^ 41) &&
    (let w := icWin s (addr % 2 ^ 40 / 2 ^ 36)
     decide (addr % 2 ^ 36 + len ≤ w.len) && (!rw || w.rw)))

/-- The status and detail of a descriptor that cannot be used. -/
def descFault (s : State) (ch : Nat) (d : Desc) : Option (Nat × Nat) :=
  if 30 ≤ ch then some (0x0200, 0)
  else
    let off := match senderOf s ch with
      | .fn p f => !(s.fn p f).bme
      | _ => false
    if off then some (0x0201, 0)
    else if !descForm d then some (0x0202, 1)
    else if ch = 29 && !(inIcWin s d.inAddr d.inLen false && inIcWin s d.outAddr d.outLen true) then some (0x0202, 3)
    else if d.dflags / 2 ≠ 0 then some (0x0300, 1)
    else none

/-- The first check of R333 that a taken request fails, up to its descriptor. -/
def takeFault (s : State) (ch : Nat) (x : Frm) : Option (Nat × Nat) :=
  let m := s.mbox ch
  if m.flights.any (fun f => f.tag == x.tag) then some (0x0102, 0)
  else match opRow x.opcode with
    | none => some (0x0103, 0)
    | some r => match gate s ⟨ch, x.tag⟩ r true true with
      | some e => some e
      | none => if x.flags % 2 = 1 then descFault s ch (descOf x.payload) else none

/-- The in-flight record of a frame. -/
def flightOf (ch : Nat) (s : State) (x : Frm) : Flight :=
  let area := decide (x.flags % 2 = 1) && decide ((descOf x.payload).inLen ≠ 0)
  let wait := x.flags / 4 % 2 == 1 && (s.mbox ch).flights.any (fun f => !f.replied)
  { tag := x.tag, cseq := x.cseq, opcode := x.opcode, flags := x.flags, payload := x.payload, area := area,
    started := !(area || wait),
    block := match opRow x.opcode with
      | some r => r.block
      | none => false }

/-- One request is taken: its slot is copied, `REQ_CONS` advances, and it starts or is answered. -/
def takeFrom (ch : Nat) (s0 : State) : State :=
  let x := frmOf (reqSlot s0 ch)
  let s := count 0x2C20 ch 0 1 (s0.modMbox ch (fun m =>
    { m with reqCons := (m.reqCons + 1) % 256, taken := recentTakes s0 m.taken ++ [s0.tb.count] }))
  let s := if ch < 30 then { s with mb := { s.mb with rot := (ch + 1) % 30 } } else s
  let f := flightOf ch s x
  let others := (s.mbox ch).flights
  let bad (st det : Nat) (s : State) : State := replyWith ch f others st det [] s
  emptied ch s0 (match frameFault x with
    | some off => bad 0x0100 off s
    | none => match (s.mbox ch).expect with
      | some e =>
        if e ≠ x.cseq then count 0x2C22 ch 0 1 (bad 0x0101 e s) else takeOn s x f others bad
      | none => takeOn s x f others bad)
where
  /-- A request that passed the sequence check. -/
  takeOn (s : State) (x : Frm) (f : Flight) (others : List Flight) (bad : Nat → Nat → State → State) : State :=
    let t := s.modMbox ch (fun m => { m with expect := some ((x.cseq + 1) % 2 ^ 32) })
    match takeFault s ch x with
    | some (st, det) => if st = 0x0102 then count 0x2C23 ch 0 1 (bad st det t) else bad st det t
    | none => t.modMbox ch (fun m => { m with flights := others ++ [f] })

def requestTaken (s : State) : State :=
  match nextChan s with
  | some ch => takeFrom ch s
  | none => s
def execRequestTaken (s : State) : Res := run true (requestTaken s)

/-! ## Descriptor areas (R330) -/

/-- A piece of M29's out area, written as the integrator core's ordinary write. -/
def icAreaWrite (s : State) (addr : Nat) (data : List Byte) : State :=
  let w := icWin s (addr % 2 ^ 40 / 2 ^ 36)
  let dpa := w.base + addr % 2 ^ 36
  (linePieces (data.length / 64 + 2) dpa data.length).foldl (fun s x =>
    submit { who := .ic, kind := .dump, dpa := x.1 / 64 * 64,
             wr := some (pieceLine x.1 ((data.drop (x.1 - dpa)).take x.2)) } s) s

/-- The in area of a command has been read, or could not be. -/
def inAreaEnd (rq : Rq) (f : Flight) (good : Bool) (area : List Byte) (s : State) : State :=
  let d := descOf f.payload
  if !good then reply rq 0x0202 2 [] s
  else if d.dflags % 2 = 1 ∧ (crc32c area).toNat ≠ d.inCrc then reply rq 0x0202 4 [] s
  else s.modMbox rq.ch (fun m =>
    let l := m.flights.map (fun x => if x = f then { x with area := false } else x)
    { m with flights := startReady false l })

/-- The out area of a command of M29 has been written, and its reply follows. -/
def outAreaEnd (rq : Rq) (f : Flight) (r : Nat × Nat × List Byte) (good : Bool) (s : State) : State :=
  let d := descOf f.payload
  let others := (s.mbox rq.ch).flights.erase f
  if good then afterAccess (replyNow rq.ch f others r.1 r.2.1 r.2.2 (icAreaWrite s d.outAddr (r.2.2.take d.outLen)))
  else replyNow rq.ch f others 0x0202 2 [] s

/-- The reading of an in area or the writing of an out area ends. -/
def descArea (rq : Rq) (good : Bool) (area : List Byte) (s : State) : State :=
  match findFlight s rq.ch rq.tag with
  | none => s
  | some f =>
    if f.area then inAreaEnd rq f good area s
    else match f.reply with
      | some r => outAreaEnd rq f r good s
      | none => s
def execDescriptorAreaComplete (rq : Rq) (ok : Bool) (inArea : List Byte) (s : State) : Res :=
  run rq.wf (descArea rq ok inArea s)

/-! ## Notifications (R326) -/

/-- The 128 bits of an entry (R325). -/
def noteNat (e : Note) : Nat := e.code + e.aux * 2 ^ 16 + e.nseq * 2 ^ 32 + e.param * 2 ^ 64

/-- A pop: the oldest entry, or the last one again with `UNDERRUN`. -/
def popNote (ch : Nat) (s : State) : Note × State :=
  match (s.mbox ch).fifo with
  | e :: t => (e, s.modMbox ch (fun m => { m with fifo := t, last := e }))
  | [] => ((s.mbox ch).last, s.modMbox ch (fun m => { m with underrun := true }))

/-- An agent pops a channel's FIFO; the entry is latched for it. -/
def mbNotePop (ch : Nat) (ag : Agent) (s : State) : State :=
  winAccess ch ag (fun s =>
    let (e, t) := popNote ch s
    emit (.regRead ag (noteNat e)) { t with
      noteLatch := (ag, ch, e) :: t.noteLatch.filter (fun x => !(x.1 == ag && x.2.1 == ch)) }) s
def execMbNotePop (ch : Nat) (ag : Agent) (s : State) : Res := run (mbOk ch && ag.wf) (mbNotePop ch ag s)

/-- `LOST` reads and clears. -/
def lostClear (ch : Nat) (s : State) : State := s.modMbox ch (fun m => { m with lost := 0 })

/-- A sender reads `MB_NOTE_STAT`. -/
def mbNoteStatRead (ch : Nat) (s : State) : State :=
  senderAccess ch (fun s => emit (.regRead (senderOf s ch) (mbNoteStatReg s ch)) (lostClear ch s)) s
def execMbNoteStatRead (ch : Nat) (s : State) : Res := run (mbOk ch) (mbNoteStatRead ch s)

/-- A sender sets `RESET` (R340). -/
def mbCtlReset (ch : Nat) (s : State) : State := senderAccess ch (chanReset ch) s
def execMbCtlReset (ch : Nat) (s : State) : Res := run (mbOk ch) (mbCtlReset ch s)

/-- `MB_BIND_LOCK`: it lies outside every host window. -/
def mbBindLockSet (ag : Agent) (s : State) : State :=
  match ag with
  | .core i => if i < 5 then { s with mb := { s.mb with lock := true } } else s
  | _ => s
def execMbBindLockSet (ag : Agent) (s : State) : Res := run ag.wf (mbBindLockSet ag s)

/-! ## Management port (R327) -/

/-- The management port answers: its address is held in the option bytes (R327, R393). -/
def smbusUp (s : State) : Bool := (s.opt.locked || s.opt.faulted) && s.rpm.en.getLsbD 7

/-- A transaction that passes PEC, or that the controller sends without one. -/
def smbusDo (pecOk : Bool) (body : State → State) (s : State) : State := if smbusUp s && pecOk then body s else s

/-- Code 0x10: bytes into the request slot `REQ_PROD` mod 4. -/
def smbusSlotWrite (off : Nat) (bytes : List Byte) (s : State) : State :=
  if 256 < off + bytes.length then dbReject 31 s
  else s.modMbox 31 (fun m =>
    let k := m.reqProd % 4
    let old := (m.slots.get [] k ++ List.replicate 256 0).take 256
    { m with slots := m.slots.set [] k (old.take off ++ bytes ++ old.drop (off + bytes.length)) })
def execSmbusSlotWrite (off : Nat) (bytes : List Byte) (pecOk : Bool) (s : State) : Res :=
  run (u8 off && decide (0 < bytes.length) && decide (bytes.length < 32)) (smbusDo pecOk (smbusSlotWrite off bytes) s)

def execSmbusRequestDoorbell (v : Nat) (pecOk : Bool) (s : State) : Res := run (u8 v) (smbusDo pecOk (reqDb 31 v) s)

/-- Code 0x12: three registers; the read of `MB_NOTE_STAT` clears `LOST`. -/
def smbusStatus (s : State) : State :=
  emit (.smbus (leBytes 4 (mbStatReg s 31) ++ leBytes 4 (mbCountsReg s 31) ++ leBytes 4 (mbNoteStatReg s 31))) (lostClear 31 s)
def execSmbusStatusRead (pecOk : Bool) (s : State) : Res := run true (smbusDo pecOk smbusStatus s)

def smbusOffset (off : Nat) (s : State) : State := { s with mb := { s.mb with smbOff := off } }
def execSmbusReplyOffset (off : Nat) (pecOk : Bool) (s : State) : Res := run (u8 off) (smbusDo pecOk (smbusOffset off) s)

/-- Code 0x14: 32 bytes of the reply slot `RPL_CONS` mod 4; the offset stops at 256. -/
def smbusReply (s : State) : State :=
  let m := s.mbox 31
  let slot := (m.slots.get [] (4 + m.rplCons % 4) ++ List.replicate 256 0).take 256 ++ List.replicate 32 0
  emit (.smbus ((slot.drop s.mb.smbOff).take 32)) { s with mb := { s.mb with smbOff := min 256 (s.mb.smbOff + 32) } }
def execSmbusReplyRead (pecOk : Bool) (s : State) : Res := run true (smbusDo pecOk smbusReply s)

def execSmbusReplyDoorbell (v : Nat) (pecOk : Bool) (s : State) : Res := run (u8 v) (smbusDo pecOk (rplDb 31 v) s)

/-- Code 0x16: one entry, popped. -/
def smbusPop (s : State) : State :=
  let (e, t) := popNote 31 s
  emit (.smbus (leBytes 16 (noteNat e))) t
def execSmbusNotificationPop (pecOk : Bool) (s : State) : Res := run true (smbusDo pecOk smbusPop s)

def smbusReset (v : Nat) (s : State) : State := if v = 1 then chanReset 31 s else s
def execSmbusChannelReset (v : Nat) (pecOk : Bool) (s : State) : Res := run (u8 v) (smbusDo pecOk (smbusReset v) s)

/-- Any code but 0x10 to 0x17 is answered with NACK. -/
def smbusOther (code : Nat) (s : State) : State :=
  if smbusUp s && !(decide (0x10 ≤ code) && decide (code ≤ 0x17)) then emit .smbusNack s else s
def execSmbusOtherCode (code : Nat) (s : State) : Res := run (u8 code) (smbusOther code s)

/-! ## Identification and the mailbox's own commands -/

/-- Rights of a sender, as byte 35 of `IDENTIFY` codes them. -/
def rightsByte (s : State) (ch : Nat) : Nat :=
  let r (x : Right) : Nat := b2n (rightOk s ch false false x)
  r .a + 2 * r .i + 4 * r .w + 8 * r .l

/-- Raw media capacity in GiB: pages of 16 KiB over every LUN. -/
def rawGib (s : State) : Nat := 32 * s.mc.prof.luns * s.mc.prof.blocks * s.mc.prof.pn / 16384

/-- The 64 bytes of `IDENTIFY` (R335). -/
def identifyData (s : State) (ch : Nat) : List Byte :=
  leBytes 2 0x1D5F ++ leBytes 2 0x0960 ++ [0xB1] ++ leBytes 1 s.board.fCode ++ leBytes 1 s.board.mCode ++ leBytes 1 ch
    ++ leBytes 8 s.board.serial ++ leBytes 4 s.cc.fwVer ++ leBytes 4 s.board.romVer ++ leBytes 4 s.te.uGib ++ leBytes 4 (pairPool s)
    ++ leBytes 1 (b2n s.tu.isB) ++ leBytes 1 (psNum s.tu.ps) ++ leBytes 1 (deviceMode s) ++ leBytes 1 (rightsByte s ch)
    ++ [4] ++ leBytes 1 s.th.band ++ leBytes 2 0
    ++ (List.range 10).flatMap (fun p => leBytes 1 ((s.port p).role + 4 * b2n (s.port p).plain))
    ++ leBytes 1 s.ft.density ++ leBytes 1 s.ft.speed ++ leBytes 1 s.mc.prof.luns ++ leBytes 1 s.mc.prof.cell ++ leBytes 2 0
    ++ leBytes 4 (rawGib s) ++ leBytes 4 0

def identify (rq : Rq) (s : State) : State := query 0x0001 rq (fun s => identifyData s rq.ch) s
def execIdentify (rq : Rq) (s : State) : Res := run rq.wf (identify rq s)

def nop (rq : Rq) (s : State) : State := query 0x0002 rq (fun _ => []) s
def execNop (rq : Rq) (s : State) : Res := run rq.wf (nop rq s)

/-- What `MB_QUERY` returns of one channel. -/
def mbData (s : State) (k : Nat) : List Byte :=
  pack [.n4 (s.mbox k).bind_, .n4 (mbStatReg s k), .n4 (mbCountsReg s k), .n4 (mbNoteStatReg s k), .n4 (s.mbox k).dbRej,
    .n4 (recentTakes s (s.mbox k).taken).length]

/-- `MB_QUERY`: one channel, or all. -/
def mbQuery (rq : Rq) (k : Nat) (s : State) : State :=
  atornQ 0x0003 rq
    (fun s => { params := [[.n4 k]], bad := [decide (32 ≤ k) && k != allOnes], refuse := [k != rq.ch && !hasAdmin s rq.ch] })
    (fun s => ok rq (if k = allOnes then (List.range 32).flatMap (mbData s) else mbData s k) s) s
def execMbQuery (rq : Rq) (channel : Nat) (s : State) : Res := run (rq.wf && u32 channel) (mbQuery rq channel s)

/-! ## Firmware (R336, R337) -/

/-- `FW_QUERY`. -/
def fwData (s : State) : List Byte :=
  let x := s.mb.sess.getD (0, false, 0)
  pack ([.n4 s.cc.fwVer, .n4 s.cc.fwSlot] ++ (List.range 3).flatMap (fun k => [.n4 (norSlot s k).ver, .n4 (b2n (slotValid s k))])
    ++ [.n4 (preferred s), .n4 (b2n s.mb.sess.isSome), .n4 x.1, .n4 (b2n x.2.1), .n8 x.2.2, .n4 s.mb.sessDone])
def fwQuery (rq : Rq) (s : State) : State := query 0x0010 rq fwData s
def execFwQuery (rq : Rq) (s : State) : Res := run rq.wf (fwQuery rq s)

/-- The slot an update writes: the firmware slot that is not running, or the integrator slot. -/
def updateSlot (s : State) (ic : Bool) : Nat := if ic then 2 else 1 - s.cc.fwSlot

/-- A slot's bytes are erased and it is not valid. -/
def slotErase (k : Nat) (s : State) : State :=
  { s with nor := s.nor.set {} k { norSlot s k with valid := false },
           norBytes := s.norBytes.clear (slotBase k) (slotBase k + slotSize k) }

def slotMax (ic : Bool) : Nat := if ic then 0x100000 else 0x400000

/-- `FW_UPDATE_BEGIN`: the erase ends the command (R338). -/
def fwUpdateBegin (rq : Rq) (target len : Nat) (s : State) : State :=
  let other (s : State) : Bool := match s.mb.sess with
    | some (k, _, _) => k != rq.ch
    | none => false
  atornQ 0x0011 rq
    (fun s => { params := [[.n4 target], [.n8 len]], bad := [decide (2 ≤ target)], refuse := [len == 0 || decide (slotMax (target == 1) < len), other s] })
    (fun s => slotErase (updateSlot s (target == 1))
      { s with mb := { s.mb with sess := some (rq.ch, target == 1, len), sessDone := 0, sessLast := none } }) s
def execFwUpdateBegin (rq : Rq) (target len : Nat) (s : State) : Res :=
  run (rq.wf && u32 target && u64 len) (fwUpdateBegin rq target len s)

/-- The session of a channel. -/
def sessionOf (s : State) (ch : Nat) : Option (Bool × Nat) :=
  match s.mb.sess with
  | some (k, ic, len) => if k = ch then some (ic, len) else none
  | none => none

/-- Program bytes of the NOR from an address. -/
def norWrite (addr : Nat) (data : List Byte) (s : State) : State :=
  { s with norBytes := (data.zipIdx).foldl (fun (t : Tab Byte) x => t.set 0xFF (addr + x.2) x.1) s.norBytes }

/-- A length that a chunk of `FW_UPDATE_DATA` may not have: inline, through a descriptor, or as a row alone presents it. -/
def chunkBad (rq : Rq) (n : Nat) (s : State) : Bool :=
  decide (65536 < n) || (match findFlight s rq.ch rq.tag with
    | some f =>
      if f.payload.isEmpty then decide (224 < n) && n % 4 != 0
      else if f.flags % 2 = 1 ∧ (descOf f.payload).inLen ≠ 0 then n % 4 != 0
      else decide (224 < n)
    | none => false)

/-- `FW_UPDATE_DATA`. -/
def fwUpdateData (rq : Rq) (off : Nat) (data : List Byte) (s : State) : State :=
  let again (s : State) : Bool := s.mb.sessLast == some (off, data)
  atornQ 0x0012 rq
    (fun s => {
      params := [[.n4 off], [.n4 data.length, .raw data]],
      bad := [false, chunkBad rq data.length s],
      refuse := [(sessionOf s rq.ch).isNone, off != s.mb.sessDone && !again s,
                 !again s && decide ((((sessionOf s rq.ch).getD (false, 0)).2) < off + data.length)] })
    (fun s =>
      if off ≠ s.mb.sessDone then ok rq [] s
      else
        let ic := ((sessionOf s rq.ch).getD (false, 0)).1
        let s := norWrite (slotBase (updateSlot s ic) + off) data s
        ok rq [] { s with mb := { s.mb with sessDone := off + data.length, sessLast := some (off, data) } }) s
def execFwUpdateData (rq : Rq) (off : Nat) (data : List Byte) (s : State) : Res :=
  run (rq.wf && u32 off && decide (data.length ≤ 2 ^ 20)) (fwUpdateData rq off data s)

/-- The session of the device is closed (R337). -/
def sessionClose (s : State) : State := { s with mb := { s.mb with sess := none, sessDone := 0, sessLast := none } }

/-- The slot of a session passes its check (R361, R362). -/
def slotCheck (s : State) (ic : Bool) (len : Nat) (chk : ImgChk) : Bool :=
  let b := norRead s (slotBase (updateSlot s ic)) 512
  if ic then icImageOk s b len chk
  else fwImageOk s b chk && decide (512 + (imgHdr b).code + (imgHdr b).data ≤ len)

/-- A slot is marked valid, with what its image says of itself. -/
def slotMark (k : Nat) (chk : ImgChk) (s : State) : State :=
  let h := imgHdr (norRead s (slotBase k) 512)
  { s with nor := s.nor.set {} k { valid := true, ver := h.version, rollback := h.rollback, key := chk.keyHash } }

/-- `FW_UPDATE_END`: a firmware slot becomes the preferred one with its page write. -/
def fwUpdateEnd (rq : Rq) (chk : ImgChk) (s : State) : State :=
  atornQ 0x0013 rq
    (fun s => { refuse := [(sessionOf s rq.ch).isNone, decide (s.mb.sessDone < ((sessionOf s rq.ch).getD (false, 0)).2)] })
    (fun s =>
      let x := (sessionOf s rq.ch).getD (false, 0)
      let k := updateSlot s x.1
      if !slotCheck s x.1 x.2 chk then reply rq 0x0301 3 [] (sessionClose s)
      else
        let s := sessionClose (slotMark k chk s)
        if x.1 then ok rq [] s else commit { page := 35, off := 3, bytes := leBytes 1 k, act := .reply rq.ch rq.tag } s) s
def execFwUpdateEnd (rq : Rq) (chk : ImgChk) (s : State) : Res := run rq.wf (fwUpdateEnd rq chk s)

/-- `FW_ACTIVATE`: a cluster reset that loads the preferred slot; the reply follows it. -/
def fwActivate (rq : Rq) (s : State) : State :=
  atornQ 0x0014 rq
    (fun s => { refuse := [s.cc.served && preferred s == s.cc.fwSlot, s.mb.sess.isSome, s.rpm.recovery != 0] })
    (fun s => rstAssert .fwAct s) s
def execFwActivate (rq : Rq) (s : State) : Res := run rq.wf (fwActivate rq s)

/-- 10 min without a command of the session: it closes, and its slot stays not valid. -/
def execUpdateSessionTimeout (s : State) : Res := run true (sessionClose s)

/-! ## Commands that blocks carry out (R338) -/

/-- The OPEN record of a format is queued or being written. -/
def formatOpening (s : State) : Bool := (s.opt.queue ++ s.opt.run.toList).any (fun c => c.act == .epochOpen)

/-- The block's part of a command ends. `FRONT_RETIRE` ends with the device's retirement, `EMBER_DRILL` with the return and
`REKEY_START` with its page write, at their own rows. -/
def blockEnd (rq : Rq) (s : State) : State :=
  match findFlight s rq.ch rq.tag with
  | none => s
  | some f => if !f.ran then s else match f.opcode with
    | 0x0011 => ok rq [] s
    | 0x0301 => match s.mctl.formatRq with
      | some (g, k, n) => if n < 2 && !formatOpening s then formatDone g k s else s
      | none => s
    | 0x0302 => ok rq [] { s with mctl := { s.mctl with retireLun := none } }
    | 0x0802 => let t := xeLaneRetired s
                ok rq [] { t with xe := { t.xe with retiring := [] } }
    | _ => s
def execBlockRunCommandEnd (rq : Rq) (s : State) : Res := run rq.wf (blockEnd rq s)

end Sys2Proof.Machine
end

