-- ==== Sys2Proof/Machine/Security.lean ====
section
/-! DEFINITION. Meanings of the security family (15): the re-key sweeps (R355-R359), the closure of an area (R363), and the
security commands and registers (R364). -/

namespace Sys2Proof.Machine

open Sys2Proof

/-! ## Registers -/

def pairSecretHeld (s : State) : Bool := s.pageNat 192 0 32 != 0
def secStatReg (s : State) : Nat :=
  b2n s.sec.halt * 2 ^ 31 + b2n s.sec.rngFail * 2 ^ 30 + b2n (pairSecretHeld s) * 2 ^ 29 + b2n s.board.root0Revoked * 2 ^ 28
    + s.sec.rekey * 2 ^ 26 + s.sec.scope * 2 ^ 24 + mediaGen s % 256 * 2 ^ 16 + s.sec.rollback
def secHaltReg (s : State) : Nat := s.sec.cause * 2 ^ 24
def secFrontBoundReg (s : State) : Nat := s.sec.fFrame * 2 ^ 10 + s.sec.fLine
def secFrontGen (s : State) : Nat := s.pageNat 0 0 4

/-! ## Sweeps (R355-R359) -/

/-- A sweep runs and is not paused, stopped by ember, halt or a failed front tier. -/
def sweepRuns (s : State) : Bool := s.sec.rekey == 1 && bgOk s

/-- Both parts are complete: the sweep is over. -/
def sweepOver (s : State) : State :=
  if s.sec.rekey ≠ 0 && s.sec.fDone && s.sec.mDone then
    boundRecord { s with sec := { s.sec with rekey := 0, scope := 0, mBound := 0, mPassed := false } }
  else s

/-- The front pointer's next frame that is in use, and its line; FREE and OFFLINE frames are passed over. -/
def frontNext (s : State) : Option (Nat × Nat) :=
  (s.te.frames.find? (fun kv => decide (s.sec.fFrame ≤ kv.1) && frUsed kv.2.st)).map (fun kv =>
    (kv.1, if kv.1 = s.sec.fFrame then s.sec.fLine else 0))

/-- The front part is complete: the old front keys are erased. -/
def frontSwept (s : State) : State := sweepOver { s with sec := { s.sec with fDone := true, fFrame := 0, fLine := 0 } }

/-- One line of the front sweep: read, checked and written back under the new generation. -/
def frontSweepStep (rd : List RdRes) (s : State) : State :=
  if !sweepRuns s || s.sec.fDone || !s.ft.trained then s
  else match frontNext s with
    | none => frontSwept s
    | some (f, l) =>
      let s := if lineHeld s f l then (ftRead f l rd s).2 else s
      if s.sec.halt then s
      else
        let s := count 0x2420 0xFFFF 0 1 s
        let s := { s with sec := { s.sec with fFrame := if l = 1023 then f + 1 else f, fLine := if l = 1023 then 0 else l + 1 } }
        if (frontNext s).isNone then frontSwept s else s
def execFrontSweepStep (rd : List RdRes) (s : State) : Res := run true (frontSweepStep rd s)

/-- The current copy of a billet on the media. -/
def currentLoc (s : State) : MapEnt → Option Nat
  | .media l => some l
  | .res f => (s.frame f).mediaLoc
  | _ => none

/-- A billet whose current copy names another generation than the one in force. -/
def oldKey (s : State) (e : MapEnt) : Option Nat :=
  match currentLoc s e with
  | some l => (match s.mc.slots.get none l with
    | some m => if m.keyGen ≠ mediaGen s then some l else none
    | none => none)
  | none => none

/-- The next billet from the boundary that the media sweep moves, and its copy. -/
def mediaSweepNext (s : State) : Option (Nat × Nat) :=
  s.te.map.findSome? (fun kv => if s.sec.mBound ≤ kv.1 then (oldKey s kv.2).map (fun l => (kv.1, l)) else none)

/-- The boundary has passed the last billet: chunks, tables and journal are written anew (R358). -/
def mediaPassed (s : State) : State :=
  remapWrite (bstWrite (checkpointAll (journalWrite { s with sec := { s.sec with mPassed := true, mBound := 2 ^ 30 - 1 } })))

/-- 1 GiB of billets. -/
def gibBillets : Nat := 16384

/-- One billet of the media sweep: its copy moves to a fold row under the new generation; with no fold row to take it the
boundary stays. -/
def mediaSweepStep (s : State) : State :=
  if !sweepRuns s || !mediaSweeps s || s.sec.mPassed then s
  else match mediaSweepNext s with
    | none => mediaPassed s
    | some (b, l) =>
      if !reserveFree s then s
      else if mediaSweepNext (moveSlot l 4 s) == some (b, l) then moveSlot l 4 s
      else
        let s := count 0x2421 0xFFFF 0 1 (moveSlot l 4 s)
        let s := { s with sec := { s.sec with mBound := b + 1, movedGib := s.sec.movedGib + 1 },
                          mctl := { s.mctl with destageCnt := satAdd (2 ^ 64 - 1) s.mctl.destageCnt 1 } }
        mediaLevels (if gibBillets ≤ s.sec.movedGib then boundRecord s else s)
def execMediaSweepStep (s : State) : Res := run true (mediaSweepStep s)

/-- Erase the media salt that is not in force. -/
def oldSaltErase (s : State) : State :=
  if s.pageNat 0 36 4 < s.pageNat 1 32 4 then commit { page := 0, off := 4, bytes := List.replicate 36 0 } s
  else commit { page := 1, off := 0, bytes := List.replicate 36 0 } s

/-- Every journal sector under the old slot is released: the old media salt is erased and the media part is complete. -/
def mediaSweepComplete (s : State) : State :=
  if !mediaSweeps s || !s.sec.mPassed then s
  else sweepOver { oldSaltErase s with sec := { (oldSaltErase s).sec with mDone := true } }
def execMediaSweepComplete (s : State) : Res := run true (mediaSweepComplete s)

/-! ## Commands (R364) -/

/-- `SEC_QUERY`. -/
def secData (s : State) : List Byte :=
  pack ([.n4 (secStatReg s), .n4 (secHaltReg s), .n8 s.sec.loc, .n4 (mediaGen s), .n4 (secFrontBoundReg s), .n4 s.sec.mBound,
    .n4 s.sec.tagFail, .raw (leBytes 48 (norSlot s s.cc.fwSlot).key), .n8 s.board.serial]
    ++ (List.range 4).map (fun j => Fld.raw (leBytes 48 (icKey s j))) ++ [.n4 (icRollback s)])
def secQuery (rq : Rq) (s : State) : State := query 0x0A00 rq secData s
def execSecQuery (rq : Rq) (s : State) : Res := run rq.wf (secQuery rq s)

def scopeFront (scope : Nat) : Bool := scope % 2 == 1
def scopeMedia (scope : Nat) : Bool := scope / 2 % 2 == 1

/-- The page write of a new media salt: into the place of the older of the two. -/
def mediaSaltWrite (rq : Rq) (s : State) : State :=
  let salt := leBytes 32 (Config.freeRandom s.free % 2 ^ 256) ++ leBytes 4 (mediaGen s + 1)
  let s := draw s
  if s.pageNat 0 36 4 < s.pageNat 1 32 4 then commit { page := 0, off := 4, bytes := salt, act := .rekey rq.ch rq.tag } s
  else commit { page := 1, off := 0, bytes := salt, act := .rekey rq.ch rq.tag } s

/-- `REKEY_START` (scope 0 front, 1 media, 2 both): the scope and the new generations are written, the last of them ends it. -/
def rekeyStart (rq : Rq) (scope : Nat) (s : State) : State :=
  let sc := scope + 1
  atornQ 0x0A01 rq
    (fun s => { params := [[.n4 scope]], bad := [decide (3 ≤ scope)],
                refuse := [s.sec.rekey != 0, scopeMedia sc && !s.mc.formatted, s.sec.rngFail, inEmber s] })
    (fun s =>
      let s := commit { page := 2, off := 0, bytes := leBytes 4 0 ++ leBytes 4 (2 * sc), act := .part rq.ch rq.tag } s
      let g := leBytes 4 (secFrontGen s + 1)
      let s := if scopeFront sc then
          commit { page := 0, off := 0, bytes := g, act := if scopeMedia sc then .part rq.ch rq.tag else .rekey rq.ch rq.tag } s
        else s
      if scopeMedia sc then mediaSaltWrite rq s else s) s
def execRekeyStart (rq : Rq) (scope : Nat) (s : State) : Res := run (rq.wf && u32 scope) (rekeyStart rq scope s)

/-- The new generations are written: the sweep starts. -/
def rekeyBegin (ch tag : Nat) (s : State) : State :=
  let sc := s.pageNat 2 4 4 / 2 % 4
  let s := ok ⟨ch, tag⟩ [] (setCommitted ⟨ch, tag⟩ { s with sec := { s.sec with
    rekey := 1, scope := sc, fDone := !scopeFront sc, mDone := !scopeMedia sc, mPassed := false, mBound := 0, fFrame := 0, fLine := 0,
    movedGib := 0 } })
  if scopeFront sc then draw { s with sec := { s.sec with frontSalt := Config.freeRandom s.free % 2 ^ 256 } } else s

/-- `REKEY_PAUSE` (0 pause, 1 resume): kept across resets. -/
def rekeyPause (rq : Rq) (op : Nat) (s : State) : State :=
  atornQ 0x0A02 rq
    (fun s => { params := [[.n4 op]], bad := [decide (2 ≤ op)],
                refuse := [s.sec.rekey == 0, op == 0 && s.sec.rekey == 2, op == 1 && s.sec.rekey == 1] })
    (fun s =>
      let s := { s with sec := { s.sec with rekey := if op = 0 then 2 else 1 } }
      commit { page := 2, off := 0, bytes := boundBytes s, act := .reply rq.ch rq.tag } s) s
def execRekeyPause (rq : Rq) (op : Nat) (s : State) : Res := run (rq.wf && u32 op) (rekeyPause rq op s)

end Sys2Proof.Machine
end

