-- ==== Sys2Proof/Machine/OptionStore.lean ====
section
/-! DEFINITION. Meanings of the option store and the ledger (16): the page buffer's registers (R366), the completion of page
writes (R366-R370), the patrol (R369), the option and password commands (R371-R374, R384), the ledger's programs (R378,
R380) and its commands (R382-R384). -/

namespace Sys2Proof.Machine

open Sys2Proof

/-! ## Registers -/

def optDamaged (s : State) : Bool := s.opt.pages.any (fun kv => kv.2.damaged)
def optStatReg (s : State) : Nat :=
  b2n s.opt.run.isSome * 2 ^ 31 + b2n (optDamaged s) * 2 ^ 30 + b2n s.opt.exhausted * 2 ^ 29 + (64 - s.opt.sparesUsed) * 2 ^ 16
    + s.opt.page
def optCtlReg (s : State) : Nat := s.opt.byte * 2 ^ 10 + s.opt.tpage
def optWcountReg (s : State) : Nat := (s.opt.pages.get {} s.opt.tpage).wcount
def lgStatReg (s : State) : Nat := b2n s.lg.offline * 2 ^ 31 + b2n s.lg.moved * 2 ^ 30 + s.lg.staged.length

/-- The area of a page (R371); `none` for a reserved page. -/
def areaOf (p : Nat) : Option Nat :=
  if p ≤ 31 then some 0 else if p ≤ 63 then some 1 else if p ≤ 127 then some 2 else if p ≤ 131 then some 3
  else if p ≤ 163 then some 4 else if decide (192 ≤ p) && decide (p ≤ 196) then some 5
  else if decide (512 ≤ p) && decide (p ≤ 1023) then some 6 else none

/-! ## The page buffer (R366) -/

/-- Firmware on C0-C4 reaches the OPT block. -/
def optCore (core : Nat) (body : State → State) (s : State) : State := if core < 5 then body s else s

/-- `COMMIT`: the buffer goes to `TPAGE`; a write to a reserved page is refused (R371). -/
def optCommit (tpage : Nat) (s : State) : State :=
  let s := { s with opt := { s.opt with tpage := tpage } }
  if (areaOf tpage).isNone then s else commit { page := tpage, off := 0, bytes := bytesOf s.opt.buf 0 64 } s
def execOptCtlCommit (core tpage : Nat) (s : State) : Res :=
  run (coreOk core && decide (tpage < 1024)) (optCore core (optCommit tpage) s)

/-- `LOAD`: a read of the page being committed waits for the commit and gives the new contents. -/
def optLoad (tpage : Nat) (s : State) : State :=
  let v := match s.opt.run with
    | some c => if c.page = tpage then commitImage s c else (s.opt.pages.get {} tpage).data
    | none => (s.opt.pages.get {} tpage).data
  { s with opt := { s.opt with tpage := tpage, buf := v } }
def execOptCtlLoad (core tpage : Nat) (s : State) : Res :=
  run (coreOk core && decide (tpage < 1024)) (optCore core (optLoad tpage) s)

/-- `OPT_BYTE`: one buffer byte is read or written, and `BYTE` advances. -/
def optByte (core : Nat) (wr : Option Byte) (s : State) : State :=
  let k := s.opt.byte
  let s1 := { s with opt := { s.opt with byte := (k + 1) % 64 } }
  match wr with
  | some b => { s1 with opt := { s1.opt with buf := putByte s1.opt.buf k b } }
  | none => emit (.regRead (.core core) (byteOf s.opt.buf k).toNat) s1
def execOptByteAccess (core : Nat) (wr : Option Byte) (s : State) : Res := run (coreOk core) (optCore core (optByte core wr) s)

/-! ## Page writes complete (R366, R370) -/

/-- The dirty ceiling and the declarations of page 35 as just written (R92, R169, R170). -/
def page35 (s : State) : State :=
  let soon := (byteOf (pageSoon s 35) 4).toNat
  settle (emberBudget { s with ft := { s.ft with ceilGib := min (s.pageNat 35 4 1) soon } })

/-- What a completed commit completes. -/
def commitActed (c : Commit) (s : State) : State :=
  match c.act with
  | .none | .part _ _ => s
  | .reply ch tag => ok ⟨ch, tag⟩ [] (setCommitted ⟨ch, tag⟩ s)
  | .wrote ch tag n => ok ⟨ch, tag⟩ (pack [.n4 n]) (setCommitted ⟨ch, tag⟩ s)
  | .epoch => sealedRecord s
  | .epochOpen => openedNow s
  | .pair => genListPump s
  | .session => sessionCommitted s
  | .unpair ch tag => unpaired ch tag s
  | .takeover => takeoverDone s
  | .highWater => lgRaised s
  | .failStart cause => if cause = 4 then s else rstAssert .failStart s
  | .snap => downHalf s
  | .rekey ch tag => rekeyBegin ch tag s
  | .verifier key v ch tag => ok ⟨ch, tag⟩ [] (setCommitted ⟨ch, tag⟩ { s with sec := { s.sec with verif := s.sec.verif.set none key v } })
  | .clearFs src => match runningRq s 0x0C00 with
    | some rq => rstAssert src (ok rq [] (setCommitted rq s))
    | none => rstAssert src s

/-- The commit running ends. -/
def commitEnd (s : State) : State :=
  match s.opt.run with
  | none => s
  | some c =>
    let s := commitActed c (commitApply c s)
    commitStart (if c.page = 35 then page35 s else s)
def execPageWriteComplete (s : State) : Res := run true (commitEnd s)

/-- Commits end in their order, until one of a kind has ended. -/
def commitsUntil (p : OptAct → Bool) : Nat → State → State
  | 0, s => s
  | n + 1, s => match s.opt.run with
    | none => s
    | some c => if p c.act then commitEnd s else commitsUntil p n (commitEnd s)

/-- A commit of a kind, running or queued, ends. -/
def commitOfKind (p : OptAct → Bool) (s : State) : State :=
  if (s.opt.run.toList ++ s.opt.queue).any (fun c => p c.act) then commitsUntil p (s.opt.queue.length + 1) s else s

def execHighWaterCommitComplete (s : State) : Res := run true (commitOfKind (fun a => a == .highWater) s)
def execTakeoverRecordCommitted (s : State) : Res := run true (commitOfKind (fun a => a == .takeover) s)
def execSealComplete (s : State) : Res := run true (commitOfKind (fun a => a == .epoch) s)

/-! ## Patrol (R369) -/

/-- A weak page is refreshed with its own contents. -/
def weakPage (s : State) (p : Nat) : State :=
  commit { page := p, off := 0, bytes := bytesOf (s.opt.pages.get {} p).data 0 64 } s

/-- A page whose CRC fails at a normal read. -/
def damagedPage (s : State) (p : Nat) : State :=
  if (s.opt.pages.get {} p).damaged then s
  else ledger 0x3003 0 [p] (raise 0x3003 0xFFFF p .nothing
    { s with opt := { s.opt with pages := s.opt.pages.upd {} p (fun x => { x with damaged := true }) } })

def optionPatrol (weak damaged : List Nat) (s : State) : State := damaged.foldl damagedPage (weak.foldl weakPage s)
def execOptionPatrol (weak damaged : List Nat) (s : State) : Res :=
  run (weak.all (fun p => decide (p < 1024)) && damaged.all (fun p => decide (p < 1024))) (optionPatrol weak damaged s)

/-! ## Option commands (R371-R374, R384) -/

def pwKey (area dir : Nat) : Nat := area * 2 + dir
def hasPw (s : State) (area dir : Nat) : Bool := (s.sec.verif.get none (pwKey area dir)).isSome

/-- An area is open to a channel in a direction (0 read, 1 write). -/
def areaOpen (s : State) (ch area dir : Nat) : Bool := !hasPw s area dir || (s.mbox ch).unlocks.contains (pwKey area dir)

/-- The first area of a page range that needs an unlock. -/
def areaDenied (s : State) (ch dir first n : Nat) : Option Nat :=
  (List.range n).findSome? (fun k => match areaOf (first + k) with
    | some a => if areaOpen s ch a dir then none else some a
    | none => none)

/-- What `OPT_READ` returns of a page: the pair secret reads as zeros. -/
def optPageBytes (s : State) (p : Nat) : List Byte :=
  let x := s.opt.pages.get {} p
  if (areaOf p).isNone then List.replicate 68 0
  else
    let d := bytesOf x.data 0 64
    (if p = 192 then List.replicate 32 0 ++ d.drop 32 else d)
      ++ leBytes 4 (x.wcount + b2n x.damaged * 2 ^ 24 + b2n (x.phys != 0) * 2 ^ 25)

/-- `OPT_READ`. -/
def optRead (rq : Rq) (first n : Nat) (s : State) : State :=
  atornQ 0x0B00 rq
    (fun s => { params := [[.n4 first], [.n4 n]], bad := [decide (1024 ≤ first), n == 0 || decide (1024 < n)],
                denied := areaDenied s rq.ch 0 first n,
                refuse := [decide (1024 < first + n), decide (first < 32)] })
    (fun s => ok rq ((List.range n).flatMap (fun k => optPageBytes s (first + k))) s) s
def execOptRead (rq : Rq) (first count : Nat) (s : State) : Res := run (rq.wf && u32 first && u32 count) (optRead rq first count s)

/-- Reserved bits of a page's fields that no rule replaces (R222, R327, R362, R371): bits, and where they lie. -/
def reservedMask (p : Nat) : List (Nat × Nat × Nat) :=
  if p = 64 then (List.range 10).map (fun i => (4 * i, 4, 0xFFF000F4)) ++ [(44, 1, 0x80), (45, 3, 0xFFFFFF), (48, 4, 0xFFFFFFF0),
    (52, 12, 2 ^ 96 - 1)]
  else if p = 65 then [(60, 4, 0xFFFFFFFF)]
  else if p = 192 then [(32, 32, 2 ^ 256 - 1)]
  else if p = 196 then [(0, 4, 0xFFFFFFC0), (4, 60, 2 ^ 480 - 1)]
  else []

/-- Data that sets a reserved bit. -/
def setsReserved (p off : Nat) (data : List Byte) : Bool :=
  let img := putBytes 0 off data
  (reservedMask p).any (fun m => (leNat (bytesOf img m.1 m.2.1)) &&& m.2.2 != 0)

/-- Data that lowers `IC_ROLLBACK`. -/
def lowersRollback (s : State) (p off : Nat) (data : List Byte) : Bool :=
  p == 196 && decide (leNat (bytesOf (putBytes (pageSoon s 196) off data) 0 4) < leNat (bytesOf (pageSoon s 196) 0 4))

def pageWritable (p : Nat) : Bool :=
  match areaOf p with
  | some 0 | some 1 | none => false
  | _ => true

/-- The position of the condition that refuses one page write, or none; a missing unlock stops an image too. -/
def writeRefused (s : State) (p off : Nat) (data : List Byte) : Option Nat :=
  firstTrue [!pageWritable p, false, lowersRollback s p off data, setsReserved p off data] 1

/-- An entry of an image may be applied. -/
def entryOk (s : State) (ch : Nat) (e : OptEntry) : Bool :=
  decide (e.page < 1024) && decide (e.off < 64) && decide (1 ≤ e.data.length) && decide (e.data.length ≤ 64)
    && (writeRefused s e.page e.off e.data).isNone
    && (match areaOf e.page with
        | some a => areaOpen s ch a 1
        | none => false)

/-- Apply an image's entries in order, up to the first refused; `n` counts those applied. -/
def imageApply (rq : Rq) : List OptEntry → Nat → State → Nat × State
  | [], n, s => (n, s)
  | e :: t, n, s =>
    if entryOk s rq.ch e then
      let last := match t with
        | [] => true
        | x :: _ => !entryOk (commit { page := e.page, off := e.off, bytes := e.data } s) rq.ch x
      let act : OptAct := if last then .wrote rq.ch rq.tag (n + 1) else .none
      let s := commit { page := e.page, off := e.off, bytes := e.data, act := act } s
      if last then (n + 1, s) else imageApply rq t (n + 1) s
    else (n, s)

/-- `OPT_WRITE` (form 0 page, 1 image): the reply gives the entries applied. -/
def optWrite (rq : Rq) (form page off : Nat) (data : List Byte) (image : List OptEntry) (imageOk : Bool) (s : State) : State :=
  let img := form == 1
  let e1 (s : State) : Option Nat := match image with
    | e :: _ => writeRefused s e.page e.off e.data
    | [] => none
  let w (s : State) : Option Nat := if img then (if imageOk then e1 s else some 2) else writeRefused s page off data
  let target := if img then (image.head?.map (·.page)).getD 1024 else page
  atornQ 0x0B01 rq
    (fun s => {
      params := [[.n4 form], [.n4 page], [.n4 off]] ++ (if img then [] else [[.n4 data.length, .raw data]]),
      bad := [decide (2 ≤ form), !img && decide (1024 ≤ page), !img && decide (64 ≤ off),
              !img && (data.isEmpty || decide (64 < data.length))],
      denied := areaDenied s rq.ch 1 target 1,
      refuse := [w s == some 1, w s == some 2, w s == some 3, w s == some 4] })
    (fun s =>
      if img then
        let r := imageApply rq image 0 s
        if r.1 = 0 then ok rq (pack [.n4 0]) r.2 else r.2
      else commit { page := page, off := off, bytes := data, act := .wrote rq.ch rq.tag 1 } s) s
def execOptWrite (rq : Rq) (form page off : Nat) (data : List Byte) (image : List OptEntry) (imageOk : Bool) (s : State) : Res :=
  run (rq.wf && u32 form && u32 page && u32 off && decide (data.length ≤ 2 ^ 20) && decide (image.length ≤ 2 ^ 20))
    (optWrite rq form page off data image imageOk s)

/-! ## Passwords (R363, R374) -/

/-- A password matches the verifier of an area and direction; none is the password of all zeros. -/
def pwMatches (s : State) (area dir : Nat) (pw : BitVec 128) : Bool :=
  match s.sec.verif.get none (pwKey area dir) with
  | some v => Config.verifier (pwKey area dir) pw == v
  | none => pw == 0

/-- The failed unlocks of an area, or of `OPT_PASSWORD_SET` (area 7), as page 3 counts them. -/
def failCount (s : State) (area : Nat) : Nat := (byteOf (pageSoon s 3) (area - 1)).toNat
def failWrite (area n : Nat) (s : State) : State := commit { page := 3, off := area - 1, bytes := leBytes 1 n } s

/-- A failed unlock: eight in a row close the area for 60 s. -/
def unlockFails (area : Nat) (s : State) : State :=
  let n := min 255 (failCount s area + 1)
  let s := failWrite area n s
  if 8 ≤ n ∧ !s.sec.closed.contains area then { s with sec := { s.sec with closed := s.sec.closed ++ [area] } } else s

/-- `OPT_UNLOCK`. -/
def optUnlock (rq : Rq) (area dir : Nat) (pw : BitVec 128) (s : State) : State :=
  atornQ 0x0B02 rq
    (fun s => { params := [[.n4 area], [.n4 dir], [.raw (leBytes 16 pw.toNat)]], bad := [area == 0 || decide (6 < area), decide (2 ≤ dir)],
                refuse := [area == 1 && dir == 1, s.sec.closed.contains area] })
    (fun s =>
      if pwMatches s area dir pw then
        let s := if failCount s area = 0 then s else failWrite area 0 s
        ok rq [] (s.modMbox rq.ch (fun m => { m with unlocks := m.unlocks.erase (pwKey area dir) ++ [pwKey area dir] }))
      else reply rq 0x0301 3 [] (unlockFails area s)) s
def execOptUnlock (rq : Rq) (area dir : Nat) (pw : BitVec 128) (s : State) : Res :=
  run (rq.wf && u32 area && u32 dir) (optUnlock rq area dir pw s)

/-- `OPT_PASSWORD_SET`: the new password takes effect with its verifier's commit. -/
def optPasswordSet (rq : Rq) (area dir : Nat) (old new : BitVec 128) (s : State) : State :=
  atornQ 0x0B03 rq
    (fun s => { params := [[.n4 area], [.n4 dir], [.raw (leBytes 16 old.toNat)], [.raw (leBytes 16 new.toNat)]], bad := [area == 0 || decide (6 < area), decide (2 ≤ dir)],
                refuse := [area == 1 && dir == 1, s.sec.closed.contains area] })
    (fun s =>
      if pwMatches s area dir old then
        let v : Option (BitVec 128) := if new = 0 then none else some (Config.verifier (pwKey area dir) new)
        commit { page := 8 + pwKey area dir / 4, off := pwKey area dir % 4 * 16, bytes := leBytes 16 (v.getD 0).toNat,
                 act := .verifier (pwKey area dir) v rq.ch rq.tag } s
      else
        let s := unlockFails area s
        reply rq 0x0301 3 [] (failWrite 7 (min 255 (failCount s 7 + 1)) s)) s
def execOptPasswordSet (rq : Rq) (area dir : Nat) (old new : BitVec 128) (s : State) : Res :=
  run (rq.wf && u32 area && u32 dir) (optPasswordSet rq area dir old new s)

/-- 60 s have passed since an area was closed. -/
def unlockClosureEnd (area : Nat) (s : State) : State := { s with sec := { s.sec with closed := s.sec.closed.erase area } }
def execUnlockClosureEnd (area : Nat) (s : State) : Res := run (decide (area < 7)) (unlockClosureEnd area s)

/-! ## Ledger (R375-R384) -/

/-- The 32 bytes of a record (R375). -/
def recBytes (r : LgRec) : List Byte :=
  let b := leBytes 8 r.seq ++ leBytes 2 r.code ++ leBytes 2 r.source ++ leBytes 4 r.p0 ++ leBytes 4 r.p1 ++ leBytes 4 r.p2
    ++ leBytes 4 r.flags
  b ++ leBytes 4 (crc32c b).toNat

/-- The placeholder of a `SEQ` (R382). -/
def lgHole (n : Nat) : LgRec := { seq := n, code := 0, source := 0, p0 := 0, p1 := 0, p2 := 0, flags := 8 }

/-- Two valid records of a `SEQ` on the media differ. -/
def lgDiffers (s : State) (out : List LgOut) (n : Nat) : Bool :=
  s.lg.recs.any (fun kv => kv.1 == n) && out.any (fun o => o.seq == n && o.a && o.b && o.differ)

/-- The record of a `SEQ` (R382): from the copies, A before B; from the buffer; or a placeholder. -/
def recOf (s : State) (out : List LgOut) (n : Nat) : LgRec :=
  match s.lg.recs.find? (fun kv => kv.1 == n) with
  | some kv =>
    if out.any (fun o => o.seq == n && !o.a && !o.b) then lgHole n
    else if lgDiffers s out n then { kv.2 with flags := kv.2.flags ||| 32 } else kv.2
  | none => (s.lg.staged.find? (fun r => r.seq == n)).getD (lgHole n)

/-- A conflict is recorded once per `SEQ` and epoch, of the last 64 such numbers (R382). -/
def lgConflict (s : State) (n : Nat) : State :=
  if s.lg.confSeqs.contains n then s
  else
    let l := s.lg.confSeqs ++ [n]
    ledger 0x3402 0 [n % 2 ^ 32, n / 2 ^ 32] (raise 0x3402 0xFFFF n .nothing
      { s with lg := { s.lg with confSeqs := l.drop (l.length - 64), conflicts := inc32 s.lg.conflicts } })

/-- The oldest retained circulating `SEQ`; 0 while none is. -/
def lgOldest (s : State) : Nat :=
  match s.lg.recs.find? (fun kv => decide (4096 < kv.1)) with
  | some kv => kv.1
  | none => match s.lg.staged.find? (fun r => decide (4096 < r.seq)) with
    | some r => r.seq
    | none => 0

/-- The greatest `SEQ` staged. -/
def lgStagedSeq (s : State) : Nat := s.lg.next - 1

/-- `LEDGER_QUERY`. -/
def ledgerData (s : State) : List Byte :=
  pack ([.n4 (lgStatReg s), .n8 (lgStagedSeq s), .n8 s.lg.mediaSeq, .n8 (lgOldest s), .n4 s.lg.dropped, .n4 s.lg.conflicts]
    ++ (List.range 10).map (fun i => Fld.n4 (s.lg.setLoc.getD i 0)))
def ledgerQuery (rq : Rq) (s : State) : State := query 0x0B10 rq ledgerData s
def execLedgerQuery (rq : Rq) (s : State) : Res := run rq.wf (ledgerQuery rq s)

/-- The snapshot of a read (R383): its first `SEQ`, the numbers returned, and its flags. -/
def ledgerSpan (s : State) (first n : Nat) : Nat × List Nat × Nat :=
  let top := lgStagedSeq s
  let old := lgOldest s
  let start := if first ≤ 4096 then first else max first old
  let n1 := if first ≤ 4096 then min n (min 4096 top + 1 - first) else 0
  let from2 := if first ≤ 4096 then max 4097 old else start
  let n2 := if first + n1 ≤ 4096 then 0 else min (n - n1) (top + 1 - from2)
  let jump := decide (0 < n1) && decide (0 < n2) && decide (4097 < from2)
  (start, (List.range n1).map (first + ·) ++ (List.range n2).map (from2 + ·),
    b2n (decide (first < start)) + 2 * b2n jump + 4 * b2n s.lg.offline)

/-- `LEDGER_READ`. -/
def ledgerRead (rq : Rq) (first n : Nat) (out : List LgOut) (s : State) : State :=
  atornQ 0x0B11 rq
    (fun _ => { params := [[.n8 first], [.n4 n]], bad := [false, n == 0 || decide (69632 < n)], refuse := [first == 0] })
    (fun s =>
      let x := ledgerSpan s first n
      ok rq (leBytes 8 (lgStagedSeq s) ++ leBytes 8 x.1 ++ leBytes 4 x.2.1.length ++ leBytes 4 x.2.2
        ++ x.2.1.flatMap (fun q => recBytes (recOf s out q))) ((x.2.1.filter (lgDiffers s out)).foldl lgConflict s)) s
def execLedgerRead (rq : Rq) (first count : Nat) (out : List LgOut) (s : State) : Res :=
  run (rq.wf && u64 first && u32 count) (ledgerRead rq first count out s)

/-- The oldest waiting record has waited 60 s. -/
def ledgerAge (s : State) : State :=
  if s.lg.offline || s.lg.staged.isEmpty then s else { s with lg := { s.lg with programming := true } }
def execLedgerAgeTimer (s : State) : Res := run true (ledgerAge s)

/-- A set of the ledger fails: it goes to ash and another of the same channel takes its place (R152, R380). -/
def ledgerSetFails (s : State) : State :=
  let old := s.lg.setLoc.getD 1 0
  let u := setLun (locSet s old)
  let c := nearChan s (u / 16) 16
  match lowLun s c with
  | none => s
  | some v =>
    let used := s.lg.setLoc.map (locSet s)
    match (List.range 4096).find? (fun b => (s.setRec (v * 4096 + b)).st == 0 && !used.contains (v * 4096 + b)) with
    | none => s
    | some b =>
      let new := locOf s (v * 4096 + b) 0
      let s := ashSet (locSet s old) { s with lg := { s.lg with setLoc := s.lg.setLoc.set 1 new, moved := true } }
      ledger 0x341F 0 [old, new] (commit { page := 4, off := 12, bytes := leBytes 4 new } s)

/-- Staged records that show an uncorrectable byte are written as placeholders (R378). -/
def lgHoles (bad : List Nat) (s : State) : State :=
  { s with lg := { s.lg with staged := s.lg.staged.map (fun r => if bad.contains r.seq then lgHole r.seq else r) } }

/-- A program of both copies ends, or fails. -/
def ledgerProgram (good : Bool) (bad : List Nat) (s : State) : State :=
  if !s.lg.programming || s.lg.offline then s
  else if good then lgProgrammed (lgHoles bad s) else ledgerSetFails (lgHoles bad s)
def execLedgerProgramComplete (ok : Bool) (bad : List Nat) (s : State) : Res := run true (ledgerProgram ok bad s)

end Sys2Proof.Machine
end

