-- ==== Sys2Proof/Machine/Power.lean ====
section
/-! DEFINITION. The operations of power-up, kindling and power faults (17): the option-byte state machine (R393), the choice of
the sequencer program (R403), kindling's steps (R392) with what the firmware applies from the option bytes, aborts
(R402), rail faults (R405), the end of a shutdown (R407-R409), thermal trips and emergency cuts (R413, R414). -/

namespace Sys2Proof.Machine

open Sys2Proof

/-! ## The option-byte state machine (R367, R393) -/

/-- The commit page decides an interrupted commit. -/
def optResolve (s : State) : State :=
  match s.opt.armed, s.opt.run with
  | some true, some c => commitApply c { s with opt := { s.opt with armed := none } }
  | some false, _ => raise 0x3000 0xFFFF 0 .nothing { s with opt := { s.opt with armed := none, run := none } }
  | _, _ => { s with opt := { s.opt with armed := none, run := none } }

/-- Damaged pages are taken at factory values, each with a record. -/
def optLoadFields (s : State) : State :=
  let bad := (s.opt.pages.filter (fun kv => kv.2.damaged)).map (·.1)
  bad.foldl (fun s p => ledger 0x301F 0 [p] s) { s with opt := { s.opt with factory := bad, locked := true } }

/-- One run of the machine, to LOCKED or FAULT. -/
def optMachine (s : State) : State :=
  if s.board.optOk then optLoadFields (optResolve s)
  else { s with opt := { s.opt with faulted := true, factory := List.range 1024 } }

/-! ## The sequencer program (R400, R403) -/

/-- The built-in program. -/
def builtinProg : List Word :=
  [0x50000204, 0x50000104, 0x30000064, 0x50000001, 0x4003E801, 0x10000002, 0x4001F402, 0x1000000C, 0x4001F40C, 0x10000020,
   0x4001F420, 0x10000010, 0x4001F410, 0x100000C0, 0x4001F4C0, 0x300003E8]
    ++ List.replicate 16 0xF0000000
    ++ [0x200000C0, 0x300001F4, 0x20000010, 0x300001F4, 0x2000002C, 0x300001F4, 0x20000002] ++ List.replicate 25 0xF0000000

/-- The 64 steps of area 3. -/
def areaProg (s : State) : List Word := (leWords (optBytes s 128 0 256)).map (BitVec.ofNat 32)

/-- A step is well formed in its place. -/
def stepOk (k : Nat) (w : Word) : Bool :=
  let v := w.toNat
  match v / 2 ^ 28 with
  | 1 | 2 => decide (v % 2 ^ 28 < 256) && v % 2 == 0
  | 3 => decide (v % 2 ^ 28 < 2 ^ 20) && decide (v % 2 ^ 28 ≠ 0)
  | 4 => decide (v % 2 ^ 28 < 2 ^ 24) && decide (v % 256 ≠ 0) && decide (v % 2 ^ 28 / 256 ≠ 0)
  | 5 => decide (v % 2 ^ 28 < 1024) && bits v 7 6 == 0 && decide (bits v 9 8 < 3) && decide (v % 64 / 32 = k / 32)
  | 15 => v % 2 ^ 28 == 0
  | _ => false

def isEnd (w : Word) : Bool := w.toNat / 2 ^ 28 == 15

/-- A program of area 3 is valid. -/
def progValid (s : State) : Bool :=
  let p := areaProg s
  (List.range 4).all (fun i => !(s.opt.pages.get {} (128 + i)).damaged) && p.zipIdx.all (fun x => stepOk x.2 x.1)
    && (p.take 32).any isEnd && (p.drop 32).any isEnd

/-- Commit page 34 with a snapshot that waits (R406, R407). -/
def snapCommit (s : State) : State :=
  if s.rpmx.snapPend then { fsCommit .none (withSnap s) s with rpmx := { s.rpmx with snapPend := false } } else s

/-- The up half begins with the program of R403. -/
def programStart (s : State) : State :=
  let own := s.rpm.boot == 0 && decide (s.pageNat 34 0 1 < 3) && !s.opt.faulted
  let good := progValid s
  let s := { s with rpm := { s.rpm with st := .powerUp, builtin := !(own && good), step := 0, running := true, waiting := false, retry := 0,
                                        sup := 0x01 },
                    rpmx := { s.rpmx with prog := if own && good then areaProg s else builtinProg, coolWait := false } }
  if own && !good then snapCommit (snapTake 7 0 0 0xFF 0 s) else s

/-- The island is released: straps for the program, the option bytes, and the power-up, which may wait for the comparators
(R391, R410). -/
def islandRelease (s : State) : State :=
  let strap := s.board.strapBoot
  let s := { s with rpm := { s.rpm with boot := if strap = 3 then 0 else strap } }
  let s := optMachine (if strap = 3 then ledger 0x381F 0 [strap] s else s)
  let p := fsPage s
  let snap := ((p.snap[0]?).getD 0).toNat
  let hot := ((epochOfPage s).st == 2 && (epochOfPage s).cause == 2) || (p.pend == 1 && (snap == 8 || snap == 9))
  if hot && !s.th.coolOk then { s with rpm := { s.rpm with st := .powerUp, running := false }, rpmx := { s.rpmx with coolWait := true } }
  else programStart s

/-! ## Kindling, steps 1 to 3 (R391-R393) -/

/-- Step 1 of kindling: the straps and the random source (R391, R344). -/
def strapsTaken (s : State) : State :=
  let strap := s.board.strapBoot
  { s with rpm := { s.rpm with boot := if strap = 3 then 0 else strap }, tu := { s.tu with isB := s.board.strapTwin },
           tb := { s.tb with clkMode := s.board.strapClk % 4 },
           sec := { s.sec with rngFail := !s.board.rngOk } }

/-- Reserved straps are recorded. -/
def strapRecords (s : State) : State :=
  let s := if s.board.strapBoot = 3 then ledger 0x381F 0 [3] s else s
  if s.board.strapClk = 3 then ledger 0x401F 0 [3] s else s

/-- The front salt is drawn anew (R345). -/
def saltDrawn (s : State) : State :=
  if s.board.rngOk then draw { s with sec := { s.sec with frontSalt := Config.freeRandom s.free % 2 ^ 256 } } else s

def ledgerBack (s : State) : State := if s.opt.faulted then s else lgResume s

/-- Straps, fuses, random source; the option bytes; the PLLs start. -/
def kindleBegin (s : State) : State :=
  let s := ledgerBack (optMachine (saltDrawn (strapRecords (strapsTaken s))))
  { s with rpm := { s.rpm with st := .kindling }, rpmx := { s.rpmx with plls := [], pllFail := [] } }

/-- Every PLL of the device. -/
def allPlls : List Pll :=
  .capture :: (List.range 10).map .port ++ (List.range 8).map .ft ++ (List.range 8).map .nc

/-- Step 3 has ended: every PLL has qualified or is declared failed. -/
def pllsSettled (s : State) : Bool := allPlls.all (fun p => s.rpmx.plls.contains p || s.rpmx.pllFail.contains p)

/-! ## Kindling, step 7 (R11, R12, R15-R17, R120-R122, R222, R319, R372) -/

/-- The die profile's bytes and its fields. -/
def dieBytes (s : State) : List Byte := optBytes s 132 0 2048
def dieField (b : List Byte) (o n : Nat) : Nat := leNat ((b.drop o).take n)
def dieProf (s : State) : Prof :=
  let b := dieBytes s
  let f := dieField b
  { cell := f 2 1, speed := f 3 1, luns := s.board.luns, pn := f 4 2, ps := f 6 2, blocks := f 8 2, en := f 12 4, es := f 16 4,
    step := (f 26 1 : Nat), retryN := f 27 1 }

/-- The rules a die profile keeps (R121, R164, R372). -/
def dieOk (s : State) : Bool :=
  let b := dieBytes s
  let f := dieField b
  (crc32c (b.take 2044)).toNat == f 2044 4 && f 0 2 == 1 && decide (f 2 1 < 3) && decide (f 3 1 < 4) && decide (f 4 2 ≤ 1024)
    && decide (64 ≤ f 6 2) && decide (f 8 2 ≤ 4096) && decide (2048 ≤ f 10 2) && decide (f 24 2 ≤ 1500) && decide (f 27 1 ≤ 32)
    && ((b.drop 336).take 1708).all (· == 0)

/-- LUNs on all channels. -/
def lunsFound (s : State) : Nat :=
  s.board.chanLuns.foldl (fun n x => n + x.2 - s.board.luns) (32 * s.board.luns)

/-- Raw media of the population in TiB, rounded up. -/
def rawTib (s : State) : Nat :=
  let m := dieProf s
  (lunsFound s * 4 * m.pn * m.blocks * 2 ^ 14 + 2 ^ 40 - 1) / 2 ^ 40

/-- A population that kindling does not accept (R17): beyond the fuses, or one that breaks R120 or R121; at the first start one that
breaks R16; three GDDR6 devices still failing after the failed state (R91). -/
def populationBad (s : State) : Bool :=
  let b := s.board
  !b.nandOk || !dieOk s || decide (3 ≤ b.density) || decide (3 ≤ b.speed) || decide (b.fCode ≤ b.density)
    || decide (16 * 2 ^ b.mCode < rawTib s)
    || ((fsPage s).starts == 0
      && (!(silentDevs s).isEmpty || !b.gddrOdd.isEmpty || b.chanLuns.any (fun x => x.2 != b.luns) || !b.chanDies.isEmpty))
    || (s.ft.failedLast && decide (3 ≤ (retiredAt s []).length))

/-- The record of R17: what kindling found (density, speed grade, GDDR6 devices that respond, LUNs of a channel; raw media in
TiB), and the ceilings. -/
def populationRecord (s : State) : State :=
  ledger 0x381F 0 [s.board.density + 2 ^ 2 * s.board.speed + 2 ^ 8 * (32 - (silentDevs s).length) + 2 ^ 16 * s.board.luns, rawTib s,
    s.board.fCode * 256 + s.board.mCode] s

def portWord (s : State) (p : Nat) : Nat := s.pageNat 64 (4 * p) 4

/-- The ports whose words give twin role, and whether R12 takes them. -/
def twinWords (s : State) : List Nat := (List.range 10).filter (fun p => portWord s p % 4 == 2)
def twinTaken (s : State) : Bool :=
  match twinWords s with
  | [a, b] => a % 2 == 0 && b == a + 1
  | l => l.isEmpty

/-- A port as its option word configures it (R222, R223). -/
def portConfig (s : State) (p : Nat) : Port :=
  let w := portWord s p
  let refused := w % 4 == 2 && !twinTaken s
  let role := if w % 4 = 3 || refused then 0 else w % 4
  let plain := bits w 3 3 == 1
  let bar := bits w 17 12
  let barBad := role == 0 && plain && (decide (bar < 30) || decide (46 < bar))
  let wideBad := bits w 19 18 == 3
  { role := role, plain := plain, nfunc := bits w 11 8, bar2Log2 := if barBad then 30 else bar,
    maxWidth := if wideBad then 0 else bits w 19 18, replaced := w % 4 == 3 || barBad || wideBad, twinRefused := refused,
    pllOk := s.rpmx.plls.contains (.port p) }

def portsApply (s : State) : State :=
  let t := (List.range 10).foldl (fun (s : State) p =>
    let q := portConfig s p
    let s := s.modPort p (fun _ => q)
    if q.replaced then ledger 0x001F (srcPort p) [p, portWord s p] s else s) s
  if twinTaken s then t else ledger 0x001F 0 [(twinWords s).foldl (fun n p => n + 2 ^ p) 0] t

/-- Why a binding entry is copied unbound (R319). -/
def bindBad (s : State) (k e : Nat) : Bool :=
  let p := bindPort e
  bits e 13 12 != 0 || bits e 7 4 != 0 ||
    (k != 29 && (decide (10 ≤ p) || (s.port p).role != 0 || decide ((s.port p).nfunc < bindFunc e)
      || (List.range k).any (fun j =>
        let b := (s.mbox j).bind_
        bindBound b && bindPort b == p && bindFunc b == bindFunc e)))

/-- The entries are copied in order, and the table is locked. -/
def bindApply (s : State) : State :=
  let s := (List.range 30).foldl (fun (s : State) k =>
    let e := s.pageNat 65 (2 * k) 2
    if bindBound e && bindBad s k e then ledger 0x2C1F (srcMb k) [k, e] (s.modMbox k (fun m => { m with bind_ := e % 2 ^ 15 }))
    else s.modMbox k (fun m => { m with bind_ := e })) s
  { s with mb := { s.mb with lock := true } }

/-- A sweep that the option store records resumes with its media part; the front part ends with the old front salt (R359). -/
def rekeyResume (s : State) : State :=
  let b := s.pageNat 2 4 1
  let sc := b / 2 % 4
  if sc = 0 then s
  else if 2 ≤ sc then
    { s with sec := { s.sec with rekey := if b % 2 = 1 then 2 else 1, scope := 2, fDone := true, mDone := false, mPassed := false,
                                 mBound := s.pageNat 2 0 4 } }
  else boundRecord s

/-- What the firmware applies of the option bytes; the ports take their roles only with a population that is accepted (R17). Front-tier
test is locked unless they allow it (R94). -/
def optApply (ports : Bool) (s : State) : State :=
  let s := if ports then bindApply (portsApply s) else s
  let s := lanesStart (s.pageNat 35 0 2) s
  let fm := s.mc.fmt
  let s := { s with
    mc := { s.mc with prof := dieProf s, formatted := fm.isSome, slcDiv := (fm.map (·.2)).getD 0 },
    te := { s.te with uGib := (fm.map (·.1)).getD 0 },
    ft := { s.ft with ceilGib := s.pageNat 35 4 1, rawLock := s.pageNat 64 48 1 / 4 % 2 == 0 },
    tu := { s.tu with record := pairOfPage s, qwired := s.pageNat 64 48 1 / 8 % 2 == 1 },
    sec := { s.sec with closed := (List.range 7).filter (fun a => decide (a ≠ 0) && decide (8 ≤ s.pageNat 3 (a - 1) 1)) } }
  rekeyResume s

/-! ## Kindling, steps 4 to 7 (R392, R394, R397) -/

/-- A pending snapshot is staged to the ledger, and its mark cleared. -/
def snapStage (s : State) : State :=
  let p := fsPage s
  if p.pend = 1 then fsCommit .none (fun p => { p with pend := 0 }) (snapLedger p.snap s) else s

/-- Step 2 of R175: the start's kind, by the epoch record. A device that was never formatted opens at once. -/
def startGo (s : State) : State :=
  let e := epochOfPage s
  let s := emberBudget (lgOnline s)
  let s := icAutostart s
  if s.mc.formatted then
    { s with eu := { s.eu with epoch := e, phase := if e.st = 2 then .restart else .scan1,
                                 scanPass := 0, scanProg := 0 } }
  else startBare { s with eu := { s.eu with epoch := e } }

/-- Firmware roles that a core holds. -/
def fwCores (s : State) : Nat := (s.cc.fCore.filter (· != 7)).length

/-- A cause of minimal recovery at step 6, 0 with none. -/
def recoveryCause (s : State) : Nat :=
  let fs := s.pageNat 34 0 1
  if s.opt.faulted then 6
  else if s.sec.rngFail then 5
  else if fwCores s < 2 then 4
  else if (bootSlot s).isNone && (decide (3 ≤ fs) || s.rpm.boot == 1) then 7
  else if 3 ≤ fs then 1
  else if s.rpm.boot = 1 then 2 else 0

/-- Steps 4 to 7. With no core for the boot ROM nothing runs until the limit of R392; in test mode no firmware is loaded. -/
def kindleRun (s : State) : State :=
  let s := rolesAssign true ((List.range 6).map (fun i => s.board.coresOk.getLsbD i)) s
  if s.rpm.boot = 2 || fwCores s = 0 then s
  else
    let s := fwLoad s
    let why := recoveryCause s
    if why = 0 && (bootSlot s).isNone then startFail 2 s
    else
      let s := snapStage { s with rpmx := { s.rpmx with entered := true } }
      if why ≠ 0 then recoveryEnter why (optApply true s)
      else if populationBad s then recoveryEnter 3 (populationRecord (optApply false s)) else startGo (optApply true s)

/-- A PLL has settled; with the last of them the blocks are released and kindling goes on. -/
def pllSettle (s : State) : State :=
  if s.rpm.st == .kindling && !s.rpmx.entered && pllsSettled s && !s.rpmx.pllFail.contains .capture then kindleRun s else s

/-! ## Intervals (R388) -/

/-- The interval ends: what its reach held is released (R389). -/
def intervalEnd (s : State) : State :=
  let seen := s.rpm.seen
  if seen.any isPowerOn then islandRelease s
  else if s.rpm.st == .osm then kindleBegin s
  else if seen.any (fun x => !isPort x) then s
  else match runningRq s 0x0C00 with
    | some rq => ok rq [] (setCommitted rq s)
    | none => s

/-- A source is released. -/
def rstRelease (src : RstSrc) (s : State) : State :=
  if s.rpm.asserted.contains src then
    let s := { s with rpm := { s.rpm with asserted := s.rpm.asserted.erase src } }
    if s.rpm.asserted.isEmpty then intervalEnd s else s
  else s

/-! ## SHUTDOWN (R407-R409) -/

/-- Everything outside the island has lost its rails. Commits of page 34 and the one running go on. -/
def railsOff (s : State) : State :=
  let d := durable s
  { d with rpm := s.rpm, rpmx := s.rpmx, th := s.th,
           opt := { s.opt with queue := s.opt.queue.filter (fun c => c.page == 34) },
           eu := { d.eu with phase := .shutdown } }

/-- SHUTDOWN is reached; the VAUX hold is released at the end of a timed shutdown, but for a thermal trip. -/
def shutdownNow (hold : Bool) (s : State) : State :=
  railsOff { s with rpm := { s.rpm with st := .shutdown, running := false, waiting := false, en := if hold then 0x01 else 0x00,
                                        enOrder := [], pseqOut := false, pseqTu := false } }

/-- Step 4 of the timed shutdown. -/
def downEnd (s : State) : State := shutdownNow (s.rpmx.downCause == 2) s

/-- An ember is abandoned: its record is not written (R183, R414). -/
def emberAbandon (s : State) : State :=
  let s := epochWithdraw s
  { s with eu := { s.eu with drill := none } }

/-! ## Aborts (R402) -/

/-- Every enable asserted in the power-up is released. -/
def enablesOff (s : State) : State :=
  { s with rpm := { s.rpm with en := 0x01, enOrder := [], running := false, waiting := false, pseqOut := false, pseqTu := false } }

/-- Whether the power-up runs in minimal recovery. -/
def upInRecovery (s : State) : Bool := s.rpm.boot == 1 || decide (3 ≤ s.pageNat 34 0 1)

/-- The power-up aborts: the snapshot, the enables, a failed start; a second of waiting, or SHUTDOWN in minimal recovery. -/
def abortUp (cause rail : Nat) (s : State) : State :=
  let down := upInRecovery s
  let s := snapTake cause s.rpm.step 0 rail s.rpm.retry s
  let s := enablesOff s
  let s := startFail 4 { s with rpm := { s.rpm with st := .afterAbort, aborted := true } }
  if down then shutdownNow true { s with rpmx := { s.rpmx with downCause := 3, rstPin := min 1 s.rpmx.rstPin } } else s

/-! ## Rail faults (R183, R399, R405) -/

/-- Ember for a cause where an epoch is open, and the timed shutdown at once where none is, or where the seal is done. -/
def emberOr (cause : Nat) (s : State) : State :=
  if epochOpen s || inEmber s then
    let s := emberEnter cause s
    if s.eu.phase == .sealedHold then timedShutdown cause s else s
  else timedShutdown cause s

def emberRail (i : Nat) : Bool := i == 0 || i == 1 || i == 4 || i == 5 || i == 6

/-- The remaining quiesce steps at once, the port requests in flight abandoned; how long they took is open. -/
def quiesceNow (s : State) : State :=
  quiesceEnd (Config.freeLatency s.free % 2 ^ 32) (draw (setWaits (fun ws => ws.filter (fun w => !w.acc.host)) s))

/-- After step 7 of R161 the loss of a rail that ember does not need is ignored (R183). -/
def lossIgnored (i : Nat) (s : State) : Bool := inEmber s && s.eu.phase != .quiesce && !emberRail i

/-- A rail fault is confirmed: `lost` by a bad reading, else by its third glitch. -/
def railFault (i : Nat) (lost : Bool) (s : State) : State :=
  if lost && lossIgnored i s then s
  else
    let s := snapTake 3 0xFF (if inEmber s then 2 else 1) i ((s.rpmx.glitchT.get [] i).length % 256) s
    let s := snapLedger s.rpmx.snap s
    if !lost then emberOr 3 s
    else if emberRail i then
      (if s.eu.phase == .sealedHold || !(epochOpen s || inEmber s) then emberOr 3 s
       else timedShutdown 3 (emberAbandon (emberEnter 3 s)))
    else
      let s := emberOr 3 s
      if s.eu.phase == .quiesce then quiesceNow s else s

/-! ## Rail lost during power-down (R408) -/

/-- The DISABLE steps that remain, in program order. -/
def disablesLeft (prog : List Word) : Nat → BitVec 8 → BitVec 8
  | 64, en => en
  | k, en => ((prog.drop k).takeWhile (fun w => !isEnd w)).foldl
      (fun en w => if w.toNat / 2 ^ 28 = 2 then en &&& ~~~(w.setWidth 8) else en) en

def railLostDown (i : Nat) (s : State) : State :=
  let s := snapTake 5 s.rpm.step 3 i 0 s
  let s := { s with rpm := { s.rpm with en := disablesLeft s.rpmx.prog s.rpm.step s.rpm.en }, rpmx := { s.rpmx with lastDown := true } }
  let s := if s.rpm.pgGood.getLsbD 0 then snapCommit s else { s with rpmx := { s.rpmx with snapPend := false } }
  downEnd s

/-! ## Thermal trips and cuts (R413, R414) -/

/-- Context of a snapshot. -/
def snapCtx (s : State) : Nat :=
  match s.rpm.st with
  | .timedShutdown => 3
  | .service => if inEmber s then 2 else 1
  | .kindling => 1
  | _ => 0
def snapStep (s : State) : Nat := if snapCtx s = 1 || snapCtx s = 2 then 0xFF else s.rpm.step

/-- A thermal trip: in a power-up the enables are released and SHUTDOWN entered; else ember, or the timed shutdown. -/
def thermalTrip (s : State) : State :=
  if s.rpm.st == .timedShutdown || s.rpm.st == .shutdown || (inEmber s && s.eu.causes.contains 2) then s
  else
    let up := s.rpm.st == .powerUp || s.rpm.st == .afterAbort
    let s := snapTake 8 (snapStep s) (snapCtx s) 0xFF 0 s
    if up then
      let s := snapCommit (enablesOff s)
      shutdownNow true { s with rpmx := { s.rpmx with downCause := 2, rstPin := min 1 s.rpmx.rstPin } }
    else if s.rpm.st == .service then emberOr 2 s
    else timedShutdown 2 { s with eu := { s.eu with startEnded := true } }

/-- An emergency cut: every enable but the hold at once, THERM_TRIP_N, the snapshot; an ember is abandoned. -/
def emergencyCut (s : State) : State :=
  if s.rpm.st == .shutdown then s
  else
    let s := snapTake 9 (snapStep s) (snapCtx s) 0xFF 0 s
    let s := snapCommit (emberAbandon s)
    shutdownNow true { s with th := { s.th with tripped := true, emerg := true },
                              rpmx := { s.rpmx with downCause := 2, rstPin := min 1 s.rpmx.rstPin } }

end Sys2Proof.Machine
end

