-- ==== Sys2Proof/Machine/Reset.lean ====
section
/-! DEFINITION. Meanings of the reset, power and thermal family (17): sources of reset (R386-R388), PLLs (R389, R390), the
start's end (R392, R395), the sequencer's steps (R400-R404), power-good inputs (R399), the sensors and the pause
(R411-R414), and the commands and registers (R415). -/

namespace Sys2Proof.Machine

open Sys2Proof

/-- A rail of R398. -/
def railOk (i : Nat) : Bool := decide (i < 8)

/-! ## Registers -/

/-- `STATE` of RPM_STAT. -/
def rpmStateNum : RpmSt → Nat
  | .osm => 0 | .powerUp => 1 | .kindling => 2 | .service => 3 | .timedShutdown => 4 | .shutdown => 5 | .afterAbort => 6

def rpmStatReg (s : State) : Nat :=
  let r := s.rpm
  rpmStateNum r.st * 2 ^ 28 + r.recovery * 2 ^ 24 + r.boot * 2 ^ 22 + b2n s.board.strapTwin * 2 ^ 21 + s.board.strapClk * 2 ^ 19
    + b2n r.builtin * 2 ^ 18 + b2n s.board.pseqInHigh * 2 ^ 17 + b2n r.pseqTu * 2 ^ 16 + s.pageNat 34 0 1 * 2 ^ 8
def rpmRstReg (s : State) : Nat := s.rpm.reach * 2 ^ 29 + s.rpm.rst.toNat
def rpmRailReg (s : State) : Nat :=
  s.rpm.sup.toNat * 2 ^ 24 + s.rpm.pgGood.toNat * 2 ^ 16 + s.rpm.pgRaw.toNat * 2 ^ 8 + s.rpm.en.toNat
def rpmSeqReg (s : State) : Nat :=
  let r := s.rpm
  r.snapCause * 2 ^ 24 + r.step * 2 ^ 16 + r.retry * 2 ^ 12 + b2n r.aborted * 2 ^ 11 + b2n r.downLate * 2 ^ 10
def rpmVmonReg (s : State) (i : Nat) : Nat := s.rpmx.vmon.get 0 i % 2 ^ 16

/-- A signed reading in 12 bits. -/
def signed12 (v : Int) : Nat := (v % 4096).toNat
def thStatReg (s : State) : Nat :=
  let t := s.th
  t.band * 2 ^ 29 + b2n t.tripped * 2 ^ 28 + b2n t.emerg * 2 ^ 27 + t.pause * 2 ^ 24 + t.failed.toNat * 2 ^ 12 + signed12 t.max
def thMaxSeenReg (s : State) : Nat := signed12 s.th.maxSeen
def thSensorReg (s : State) (i : Nat) : Nat := b2n (s.th.failed.getLsbD i) * 2 ^ 31 + signed12 (thReading s i)

/-! ## Sources of reset (R386-R388, R409) -/

/-- VAUX is lost, or not yet back. -/
def porDetected (s : State) : State := if s.rpm.asserted.contains .por then s else rstAssert .por s
def execPorDetected (s : State) : Res := run true (porDetected s)

def execPorReleased (s : State) : Res := run true (rstRelease .por s)

/-- The RPM is in its shutdown, where RESET_N only counts for the restart. -/
def shuttingDown (s : State) : Bool := s.rpm.st == .timedShutdown || s.rpm.st == .shutdown

/-- RESET_N has been low for 5 µs. -/
def resetNAccepted (s : State) : State :=
  let t := { s with rpmx := { s.rpmx with rstPin := 1 } }
  if shuttingDown s || s.rpm.asserted.contains .resetN then t else rstAssert .resetN t
def execResetNAccepted (s : State) : Res := run true (resetNAccepted s)

/-- RESET_N has been high for 5 µs. -/
def resetNReleased (s : State) : State :=
  rstRelease .resetN { s with rpmx := { s.rpmx with rstPin := if shuttingDown s && s.rpmx.rstPin ≠ 0 then 2 else 0 } }
def execResetNReleased (s : State) : Res := run true (resetNReleased s)

/-- 10 µs after a command source took effect. RESET_N that took effect after its release, at the end of an ember, ends here too. -/
def commandReleased (src : RstSrc) (s : State) : State :=
  match src with
  | .por | .restart => s
  | .resetN => if s.rpmx.rstPin = 1 then s else rstRelease .resetN s
  | _ => rstRelease src s
def execCommandResetSourceReleased (src : RstSrc) (s : State) : Res := run src.wf (commandReleased src s)

/-- A port reset: hot reset, link down or Disabled (R231, R246). In halt the port trains again and behaves as before,
sending no further ERR_FATAL (R242). -/
def portReset (p : Nat) (s : State) : State := portPulse p s
def execPortReset (port : Nat) (s : State) : Res := run (portOk port) (portReset port s)

/-- The restart condition of R409. -/
def restartMet (s : State) : Bool :=
  s.rpm.st == .shutdown && (match s.rpmx.downCause with
    | 1 => (!s.eu.pfw && s.eu.pfwHeld) || s.rpmx.rstPin == 2
    | 2 => s.th.coolOk && !s.eu.pfw
    | 3 => s.rpmx.rstPin == 2
    | _ => false)

/-- The island raises a power-on reset itself, and the power-up follows. -/
def restart (s : State) : State :=
  if !restartMet s then s
  else
    let s := rstAssert .restart s
    rstRelease .restart s
def execRestartFromShutdown (s : State) : Res := run true (restart s)

/-! ## PLLs (R389, R390) -/

/-- A PLL that its row concerns now: kindling waits for it. -/
def pllWaits (p : Pll) (s : State) : Bool :=
  s.rpm.st == .kindling && !s.rpmx.plls.contains p && !s.rpmx.pllFail.contains p

def pllLocked (p : Pll) (s : State) : State :=
  if pllWaits p s then pllSettle { s with rpmx := { s.rpmx with plls := s.rpmx.plls ++ [p] } } else s
def execPllLocked (pll : Pll) (s : State) : Res := run pll.wf (pllLocked pll s)

/-- The instance of a PLL in its events: its port, or none. -/
def pllInst : Pll → Nat
  | .port p => p
  | _ => 0xFFFF

/-- Not locked within 1 ms: the capture PLL fails the start; the others are declared failed. -/
def pllTimeout (p : Pll) (s : State) : State :=
  if !pllWaits p s then s
  else
    let s := { s with rpmx := { s.rpmx with pllFail := s.rpmx.pllFail ++ [p] } }
    match p with
    | .capture => startFail 3 s
    | .port _ => pllSettle (raise 0x3802 (pllInst p) 0 .nothing s)
    | _ => pllSettle s
def execPllLockTimeout (pll : Pll) (s : State) : Res := run pll.wf (pllTimeout pll s)

/-- The twin port of a number. -/
def twinHi (s : State) (p : Nat) : Bool := decide (twinPortNo true s = p)

/-- A PLL loses lock in service. -/
def pllLost (p : Pll) (s : State) : State :=
  if !s.rpmx.plls.contains p then s
  else
    let s := { s with rpmx := { s.rpmx with plls := s.rpmx.plls.erase p } }
    match p with
    | .capture => raise 0x3802 0xFFFF 0 .nothing s
    | .port k =>
      let s := s.modPort k (fun q => { q with pllOk := false })
      if (s.port k).role = 2 then portPulse k (portSilent (twinHi s k) s) else portPulse k s
    | .ft k => { s with ft := { s.ft with ftStall := s.ft.ftStall ||| ((1#8) <<< k) } }
    | .nc k => { s with mctl := { s.mctl with ncStall := s.mctl.ncStall ||| ((1#8) <<< k) } }
def execPllLockLost (pll : Pll) (s : State) : Res := run pll.wf (pllLost pll s)

/-- A PLL that lost lock in service locks again: its interface goes on; GDDR6 devices without a response are candidates. -/
def pllRelocked (p : Pll) (silent : List Nat) (s : State) : State :=
  if s.rpmx.plls.contains p || s.rpmx.pllFail.contains p || !s.rpmx.entered then s
  else
    let s := count 0x3821 (pllInst p) 0 1 { s with rpmx := { s.rpmx with plls := s.rpmx.plls ++ [p] } }
    match p with
    | .capture => s
    | .port k => s.modPort k (fun q => { q with pllOk := true })
    | .ft k =>
      let s := { s with ft := { s.ft with ftStall := s.ft.ftStall &&& ~~~((1#8) <<< k) } }
      afterAccess (settle ((silent.filter (fun d => decide (d / 4 = k))).foldl (fun s d => candidate d s) s))
    | .nc k => { s with mctl := { s.mctl with ncStall := s.mctl.ncStall &&& ~~~((1#8) <<< k) } }
def execPllRelocked (pll : Pll) (noResponse : List Nat) (s : State) : Res :=
  run (pll.wf && noResponse.all devOk) (pllRelocked pll noResponse s)

/-! ## Kindling and the start (R344, R392, R395) -/

/-- The health tests of the entropy source fail; a kindling under way enters minimal recovery at its step 6 (R344). -/
def rngFails (s : State) : State :=
  match s.rpm.st with
  | .kindling | .service => { s with sec := { s.sec with rngFail := true } }
  | _ => s
def execRngHealthFail (s : State) : Res := run true (rngFails s)

/-- 5 s since the PLLs without an entry into firmware. -/
def entryLimit (s : State) : State :=
  if s.rpm.st == .kindling && !s.rpmx.entered && s.rpm.boot != 2 && pllsSettled s then startFail 1 s else s
def execFirmwareEntryLimit (s : State) : Res := run true (entryLimit s)

/-- 10 s since the ports opened: the start is complete, its count cleared, the rollback fuses raised (R361, R395). -/
def startComplete (s : State) : State :=
  if !s.rpmx.opened || s.rpmx.startDone || failing s then s
  else
    let s := fsCommit .none (fun p => { p with count := 0, starts := satAdd max32 p.starts 1 }) s
    let roll := if s.cc.served then (norSlot s s.cc.fwSlot).rollback else 0
    { s with rpmx := { s.rpmx with startDone := true }, sec := { s.sec with rollback := max s.sec.rollback roll } }
def execStartComplete (s : State) : Res := run true (startComplete s)

/-! ## The sequencer (R400-R404) -/

/-- The step's word and its opcode. -/
def seqWord (s : State) : Nat := (s.rpmx.prog.getD s.rpm.step 0xF0000000).toNat
def seqIs (op : Nat) (s : State) : Bool := s.rpm.running && !s.rpm.waiting && seqWord s / 2 ^ 28 == op
/-- The up half runs. -/
def seqUp (s : State) : Bool := s.rpm.st == .powerUp
def seqNext (s : State) : State := { s with rpm := { s.rpm with step := (s.rpm.step + 1) % 64, waiting := false } }
def seqMask (s : State) : BitVec 8 := BitVec.ofNat 8 (seqWord s % 256)

/-- ENABLE: its bits are asserted; the order is kept for an abort. -/
def seqEnable (s : State) : State :=
  if !seqIs 1 s then s
  else seqNext { s with rpm := { s.rpm with en := s.rpm.en ||| seqMask s, enOrder := (seqMask s).toNat :: s.rpm.enOrder } }
def execSequencerEnable (s : State) : Res := run true (seqEnable s)

/-- DISABLE: its bits are released. -/
def seqDisable (s : State) : State :=
  if !seqIs 2 s then s else seqNext { s with rpm := { s.rpm with en := s.rpm.en &&& ~~~(seqMask s) } }
def execSequencerDisable (s : State) : Res := run true (seqDisable s)

/-- WAIT: the delay begins. -/
def seqWait (s : State) : State := if seqIs 3 s then { s with rpm := { s.rpm with waiting := true } } else s
def execSequencerWait (s : State) : Res := run true (seqWait s)

/-- The WAIT's time is over. -/
def seqWaitEnd (s : State) : State :=
  if s.rpm.running && s.rpm.waiting && seqWord s / 2 ^ 28 == 3 then seqNext s else s
def execSequencerWaitExpiry (s : State) : Res := run true (seqWaitEnd s)

/-- A CHECK that is running. -/
def checking (s : State) : Bool := s.rpm.running && s.rpm.waiting && seqWord s / 2 ^ 28 == 4

/-- A CHECK whose inputs read as its half asks ends; in the up half they join the supervised set. -/
def checkPass (s : State) : State :=
  if !checking s then s
  else
    let m := seqMask s
    if seqUp s then
      (if s.rpm.pgGood &&& m = m then seqNext { s with rpm := { s.rpm with sup := s.rpm.sup ||| m, retry := 0 } } else s)
    else if s.rpm.pgGood &&& m = 0 then seqNext s else s

def seqCheck (s : State) : State :=
  if seqIs 4 s then checkPass { s with rpm := { s.rpm with waiting := true, retry := 0 } } else s
def execSequencerCheck (s : State) : Res := run true (seqCheck s)

/-- The lowest input a CHECK still waits for. -/
def checkRail (s : State) : Nat :=
  ((List.range 8).find? (fun i => (seqMask s).getLsbD i && !s.rpm.pgGood.getLsbD i)).getD 0xFF

/-- The CHECK's timeout. -/
def checkTimeout (s : State) : State :=
  if !checking s then s
  else if seqUp s then abortUp 1 (checkRail s) s
  else seqNext { s with rpm := { s.rpm with downLate := true } }
def execSequencerCheckTimeout (s : State) : Res := run true (checkTimeout s)

/-- A named input that was high falls before it reads good: the fourth fall aborts. -/
def checkRetry (i : Nat) (s : State) : State :=
  if !(checking s && seqUp s && (seqMask s).getLsbD i && !s.rpm.pgGood.getLsbD i) then s
  else if 3 ≤ s.rpm.retry then abortUp 2 i s
  else { s with rpm := { s.rpm with retry := s.rpm.retry + 1 } }
def execCheckRetry (i : Nat) (s : State) : Res := run (railOk i) (checkRetry i s)

/-- JUMP: to its target where its condition holds. -/
def seqJump (s : State) : State :=
  if !seqIs 5 s then s
  else
    let w := seqWord s
    let taken := match bits w 9 8 with
      | 0 => true
      | 1 => s.board.pseqInHigh
      | _ => s.pageNat 64 48 1 / 8 % 2 == 1
    if taken then { s with rpm := { s.rpm with step := w % 64 } } else seqNext s
def execSequencerJump (s : State) : Res := run true (seqJump s)

/-- END: after the up half PSEQ_OUT goes high or to the TU, and kindling begins unless a cold source is asserted; after the down
half the timed shutdown ends. -/
def seqEnd (s : State) : State :=
  if !seqIs 15 s then s
  else if seqUp s then
    let quorum := s.pageNat 64 48 1 / 8 % 2 == 1
    let s := { s with rpm := { s.rpm with running := false, aborted := false, pseqOut := !quorum, pseqTu := quorum, st := .osm } }
    if s.rpm.asserted.isEmpty then kindleBegin s else s
  else downEnd { s with rpm := { s.rpm with running := false } }
def execSequencerEnd (s : State) : Res := run true (seqEnd s)

/-- A half has exceeded its budget. -/
def budgetExceeded (s : State) : State :=
  if !s.rpm.running then s
  else if seqUp s then abortUp 6 0xFF s
  else
    let s := snapTake 6 s.rpm.step 3 0xFF 0 s
    downEnd (snapCommit { s with rpm := { s.rpm with en := s.rpm.en &&& 0x01, running := false } })
def execSequencerBudgetExceeded (s : State) : Res := run true (budgetExceeded s)

/-- A second after an abort the power-up runs again. -/
def powerUpRetry (s : State) : State := if s.rpm.st == .afterAbort then programStart s else s
def execPowerUpRetry (s : State) : Res := run true (powerUpRetry s)

/-! ## Power-good inputs (R398, R399) -/

def bit8 (i : Nat) : BitVec 8 := (1#8) <<< i

/-- An input has been high for 50 µs. -/
def pgGood (i : Nat) (s : State) : State :=
  if s.rpm.asserted.any isPowerOn then s
  else returnTry (checkPass { s with rpm := { s.rpm with pgGood := s.rpm.pgGood ||| bit8 i, pgRaw := s.rpm.pgRaw ||| bit8 i } })
def execPgInGood (i : Nat) (s : State) : Res := run (railOk i) (pgGood i s)

/-- *Rail warning*, of the first low sample. -/
def railWarning (i : Nat) (s : State) : State := raiseTo [29, 31] 0x3800 i 0 s

/-- An input has been low for 50 µs. -/
def pgBad (i : Nat) (s : State) : State :=
  let had := s.rpm.pgGood.getLsbD i
  let sup := s.rpm.sup.getLsbD i
  let s := { s with rpm := { s.rpm with pgGood := s.rpm.pgGood &&& ~~~(bit8 i), pgRaw := s.rpm.pgRaw &&& ~~~(bit8 i) } }
  if !had then s
  else match s.rpm.st with
    | .powerUp => if s.rpm.running && sup then abortUp 4 i s else s
    | .service => if sup then railFault i true (railWarning i s) else s
    | .timedShutdown =>
      if s.rpm.running && sup && s.rpm.en.getLsbD i then railLostDown i s else checkPass s
    | _ => s
def execPgInBad (i : Nat) (s : State) : Res := run (railOk i) (pgBad i s)

/-- A low excursion of 1 µs to below 50 µs on a supervised input that reads good; the third within 1 s is a rail fault. -/
def pgGlitch (i : Nat) (s : State) : State :=
  if !(s.rpm.pgGood.getLsbD i && s.rpm.sup.getLsbD i) then s
  else
    let near := ((s.rpmx.glitchT.get [] i).filter (fun t => decide (s.tb.count ≤ t + 1000000000))) ++ [s.tb.count]
    let s := count 0x3820 i 0 1 { s with rpmx := { s.rpmx with glitch := inc32 s.rpmx.glitch, glitchT := s.rpmx.glitchT.set [] i near } }
    if s.rpm.st == .service then
      let s := railWarning i s
      if 3 ≤ near.length && !(inEmber s && s.eu.causes.contains 3) then railFault i false s else s
    else s
def execPgInGlitch (i : Nat) (s : State) : Res := run (railOk i) (pgGlitch i s)

/-- Every rail is measured. -/
def railMeasured (mv : List Nat) (s : State) : State :=
  if s.rpm.asserted.any isPowerOn then s
  else { s with rpmx := { s.rpmx with vmon := (mv.zipIdx.foldl (fun (t : Tab Nat) x => t.set 0 x.2 x.1) []) } }
def execRailMeasurement (mv : List Nat) (s : State) : Res := run (decide (mv.length = 8) && mv.all u16) (railMeasured mv s)

/-! ## Sensors (R7, R411-R414) -/

/-- The band of a reading, in quarters of a degree. -/
def bandOf (r : Int) : Nat :=
  if r < -80 then 4 else if r < 0 then 0 else if r < 340 then 1 else if r < 400 then 2 else if r ≤ 440 then 3
  else if r < 472 then 4 else 5

/-- The pause of a reading. -/
def pauseOf (r : Int) : Nat :=
  if r < 424 then 0 else if r < 428 then 1 else if r < 432 then 2 else if r < 436 then 3 else if r < 440 then 4 else 5

def healthy (s : State) : List Nat := (List.range 12).filter (fun i => !s.th.failed.getLsbD i)

/-- A sensor fails. -/
def sensorFails (i : Nat) (s : State) : State :=
  if s.th.failed.getLsbD i then s
  else raise 0x3C00 i 0 .nothing { s with th := { s.th with failed := s.th.failed ||| ((1#12) <<< i) } }

/-- The highest reading in force: with fewer than 8 healthy sensors at least 108 °C. -/
def highest (s : State) : Int :=
  match healthy s with
  | [] => 432
  | i :: t =>
    let m := t.foldl (fun m k => max m (thReading s k)) (thReading s i)
    if t.length + 1 < 8 then max m 432 else m

/-- A change of the pause: a cycle begins with an open phase and is recorded (R35); none ends a closed phase at once. -/
def pauseSet (p : Nat) (s : State) : State :=
  if p = s.th.pause then s
  else if p = 0 then afterAccess (settle { s with th := { s.th with pause := 0, closedPhase := false } })
  else if s.th.pause = 0 then ledger 0x3C1F 0 [p] { s with th := { s.th with pause := p, closedPhase := false } }
  else { s with th := { s.th with pause := p } }

/-- The readings, the band and the pause. -/
def readingsSet (samples : List Int) (s : State) : State :=
  let t := (healthy s).foldl (fun (t : Tab (List Int)) i => t.set [] i (((s.th.samples.get [] i) ++ [samples.getD i 0]).reverse.take 4).reverse)
    s.th.samples
  let s := { s with th := { s.th with samples := t, throttle := s.th.throttle + (if s.th.pause = 0 then 0 else 50) } }
  let r := highest s
  let b := bandOf r
  let changed := b != s.th.band
  let s := { s with th := { s.th with max := r, maxSeen := max s.th.maxSeen r, band := b } }
  let s := if changed then intCauseAll 3 (raise 0x3C01 0xFFFF 0 .nothing s) else s
  let s := if changed && decide (4 ≤ b) then ledger 0x3C01 0 [b] s else s
  let s := if changed && (b == 2 || b == 3) then cxlLog 1 2 0x3C01 b .nothing s else s
  pauseSet (pauseOf r) s

/-- The comparators: two samples in turn at 118 °C, or one at 130 °C, of a sensor that is not failed; too few sensors trip too. -/
def comparators (samples : List Int) (s : State) : State :=
  let ok := healthy s
  let at_ (c : Int) : BitVec 12 := ok.foldl (fun m i => if c ≤ samples.getD i 0 then m ||| ((1#12) <<< i) else m) 0
  let hot := at_ 472
  let trip := decide (hot &&& s.th.hotPrev ≠ 0) || decide (ok.length < 4)
  let s := { s with th := { s.th with hotPrev := hot, coolOk := ok.all (fun i => decide (samples.getD i 0 ≤ 360)) } }
  if at_ 520 ≠ 0 then emergencyCut s
  else if trip then thermalTrip s
  else if s.rpmx.coolWait && s.th.coolOk && s.rpm.st == .powerUp then programStart s
  else s

/-- Every sensor is sampled, every 50 µs. -/
def thermalSample (samples : List Int) (selfFail : List Nat) (s : State) : State :=
  if s.rpm.asserted.any isPowerOn then s
  else
    let out (i : Nat) : Bool := decide (samples.getD i 0 < -220) || decide (600 < samples.getD i 0) || selfFail.contains i
    let s := ((List.range 12).filter out).foldl (fun s i => sensorFails i s) s
    comparators samples (refreshSeen (readingsSet samples s))
def execThermalSample (samples : List Int) (selfCheckFail : List Nat) (s : State) : Res :=
  run (decide (samples.length = 12) && samples.all (fun v => decide (-2048 ≤ v) && decide (v < 2048))
    && selfCheckFail.all (fun i => decide (i < 12))) (thermalSample samples selfCheckFail s)

/-- A phase of the pause ends: the entry points close or open together. -/
def phaseEnd (s : State) : State :=
  if s.th.pause = 0 then s
  else if s.th.closedPhase then afterAccess (settle { s with th := { s.th with closedPhase := false } })
  else { s with th := { s.th with closedPhase := true } }
def execThrottlePhaseEnd (s : State) : Res := run true (phaseEnd s)

/-! ## Commands (R415) -/

/-- `DEVICE_RESET`: reach 0 cold, 1 warm, 2 cluster, 3 port. -/
def deviceReset (rq : Rq) (reach port clear : Nat) (s : State) : State :=
  atornQ 0x0C00 rq
    (fun s => {
      params := [[.n4 reach], [.n4 port], [.n4 clear]],
      bad := [decide (4 ≤ reach), decide (10 ≤ port), decide (2 ≤ clear)],
      refuse := [reach == 3 && (s.port port).role == 2, reach == 3 && senderPort s rq.ch == some port, clear == 1 && reach != 0,
                 reach != 0 && s.rpm.recovery != 0] })
    (fun s => match reach with
      | 0 =>
        if clear = 1 then fsCommit (.clearFs .cmdCold) (fun p => { p with count := 0 }) s
        else rstAssert .cmdCold (ok rq [] (setCommitted rq s))
      | 1 => rstAssert .cmdWarm (ok rq [] (setCommitted rq s))
      | 2 => rstAssert .cmdCluster s
      | _ => rstAssert (.port port) s) s
def execDeviceReset (rq : Rq) (reach port clear : Nat) (s : State) : Res :=
  run (rq.wf && u32 reach && u32 port && u32 clear) (deviceReset rq reach port clear s)

def powerData (s : State) : List Byte :=
  pack ([.n4 (rpmStatReg s), .n4 (rpmRstReg s), .n4 (rpmRailReg s), .n4 (rpmSeqReg s)]
    ++ (List.range 8).map (fun i => .n4 (rpmVmonReg s i)) ++ [.raw (bytesOf (s.page 34) 0 64)]
    ++ (List.range 64).map (fun k => .n4 (s.rpmx.prog.getD k 0).toNat))
def powerQuery (rq : Rq) (s : State) : State := query 0x0C01 rq powerData s
def execPowerQuery (rq : Rq) (s : State) : Res := run rq.wf (powerQuery rq s)

def thermalData (s : State) : List Byte :=
  pack ([.n4 (thStatReg s)] ++ (List.range 12).map (fun i => .n4 (thSensorReg s i)) ++ [.n4 (thMaxSeenReg s), .n8 s.th.throttle])
def thermalQuery (rq : Rq) (s : State) : State := query 0x0C02 rq thermalData s
def execThermalQuery (rq : Rq) (s : State) : Res := run rq.wf (thermalQuery rq s)

/-- A write of `TH_MAX_SEEN`: the present maximum, whatever is written. -/
def thMaxSeenWrite (s : State) : State := { s with th := { s.th with maxSeen := s.th.max } }
def execThMaxSeenWrite (ag : Agent) (_v : Word) (s : State) : Res := run ag.wf (regWrite ag thMaxSeenWrite s)

end Sys2Proof.Machine
end

