-- ==== Sys2Proof/Machine/Observe.lean ====
section
/-! DEFINITION. Meanings of the observability family (18): counters and snapshots (R418-R420), bandwidth windows (R421), the
sampler (R422, R423), dumps (R424), the routing of events (R426), and the interrupt enable of a function (R439). -/

namespace Sys2Proof.Machine

open Sys2Proof

/-! ## Sources (R416) -/

/-- Notification events and count sources of each class. -/
def sourceCounts : List (Nat × Nat) :=
  [(9, 5), (1, 1), (6, 4), (2, 8), (11, 7), (4, 0), (6, 3), (8, 3), (1, 1), (2, 2), (5, 5), (0, 6), (4, 1), (3, 1), (3, 2), (2, 1),
   (2, 3), (3, 1)]

/-- A source that R416 lists. -/
def sourceListed (code : Nat) : Bool :=
  let i := code % 1024
  match sourceCounts[code / 1024]? with
  | some (e, c) => decide (i < e) || (decide (32 ≤ i) && decide (i < 32 + c))
  | none => false

/-- Sources the sampler takes (R422). -/
def sampleSource (code : Nat) : Bool := code == 0x0022 || code == 0x2820 || code == 0x1C20

/-! ## Counters (R418-R420) -/

/-- Every counter changed by one function. -/
def pmonMap (f : PmonCnt → PmonCnt) (t : Tab PmonCnt) : Tab PmonCnt :=
  (t.map (fun (kv : Nat × PmonCnt) => (kv.1, f kv.2))).filter (fun (kv : Nat × PmonCnt) => kv.2 != ({} : PmonCnt))

/-- A snapshot of every counter in one step. -/
def pmonSnap (s : State) : State :=
  { s with pm := { s.pm with cnts := pmonMap (fun c => { c with shadow := c.cnt, shadowOvf := c.ovf }) s.pm.cnts } }
def execPmonCtlSnap (ag : Agent) (s : State) : Res := run ag.wf (coreOnlyWrite ag pmonSnap s)

/-- Every counter and `OVF` zeroed in one step. -/
def pmonClear (s : State) : State :=
  { s with pm := { s.pm with cnts := pmonMap (fun c => { c with cnt := 0, ovf := false }) s.pm.cnts } }
def execPmonCtlClear (ag : Agent) (s : State) : Res := run ag.wf (coreOnlyWrite ag pmonClear s)

/-- A selection is written: the counter and its `OVF` are cleared in the same step. -/
def pmonSelect (k : Nat) (f : PmonCnt → PmonCnt) (s : State) : State :=
  { s with pm := { s.pm with cnts := s.pm.cnts.upd {} k (fun c => { f c with cnt := 0, ovf := false }) } }

/-- A write of `PMON_SEL` or, with `inst`, of `PMON_INST`. -/
def pmonSelWrite (k : Nat) (inst : Bool) (v : Word) (s : State) : State :=
  let n := v.toNat
  pmonSelect k (fun c =>
    if inst then { c with inst := n % 2 ^ 16 }
    else { c with code := n / 2 ^ 16, qual := bits n 15 8, chain := bits n 2 2 == 1 && k % 2 == 0, en := n % 2 == 1 }) s
def execPmonSelWrite (ag : Agent) (k : Nat) (inst : Bool) (v : Word) (s : State) : Res :=
  run (ag.wf && decide (k < 256)) (coreOnlyWrite ag (pmonSelWrite k inst v) s)

def pmonSelReg (s : State) (k : Nat) : Nat :=
  let c := s.pm.cnts.get {} k
  c.code * 2 ^ 16 + c.qual * 2 ^ 8 + b2n c.chain * 4 + b2n c.ovf * 2 + b2n c.en

/-- Any write of a maximum sets it to 0; the hardware's rule applies to the written value at once (R433). -/
def pmonBwMaxWrite (p : Nat) (out : Bool) (s : State) : State :=
  if out then { s with pm := { s.pm with maxOut := s.pm.maxOut.set 0 p 0 } }
  else { s with pm := { s.pm with maxIn := s.pm.maxIn.set 0 p 0 } }
def execPmonBwMaxWrite (ag : Agent) (port : Nat) (out : Bool) (s : State) : Res :=
  run (ag.wf && portOk port) (coreOnlyWrite ag (pmonBwMaxWrite port out) s)

/-! ## Dumps (R424) -/

/-- The header of a dump record. -/
def dumpHead (s : State) : List Byte :=
  let any := s.pm.cnts.any (fun kv => kv.2.shadowOvf)
  leBytes 4 0x504D4E44 ++ leBytes 4 s.pm.winCur ++ leBytes 8 s.dump.dseq ++ leBytes 8 s.tb.count
    ++ leBytes 4 (b2n any + 2 * b2n s.dump.skipped) ++ List.replicate 36 0

/-- Bytes 64 to 4,095: the shadows and the bandwidth of the window. -/
def dumpBody (s : State) : List Byte :=
  (List.range 256).flatMap (fun k => leBytes 8 (s.pm.cnts.get {} k).shadow)
    ++ (List.range 10).flatMap (fun p => leBytes 4 (s.pm.bwIn.get 0 p) ++ leBytes 4 (s.pm.bwOut.get 0 p))
    ++ leBytes 4 s.pm.bwDevIn ++ leBytes 4 s.pm.bwDevOut ++ List.replicate 1896 0

/-- Bytes written to a DPA as a source's ordinary writes, where its grants allow them. -/
def dumpWrite (who : Agent) (dpa : Nat) (data : List Byte) (s : State) : State :=
  if covered s (mayReach who true) dpa (dpa + data.length) then
    (linePieces (data.length / 64 + 2) dpa data.length).foldl (fun s x =>
      submit { who := who, kind := .dump, dpa := x.1 / 64 * 64, wr := some (pieceLine x.1 ((data.drop (x.1 - dpa)).take x.2)) } s) s
  else s

/-- A record is written: the body first, the header last. -/
def dumpRecord (s : State) : State :=
  let s := pmonSnap { s with dump := { s.dump with dseq := s.dump.dseq + 1 } }
  let at_ := s.dump.base + 4096 * ((s.dump.dseq - 1) % s.dump.entries)
  let head := dumpHead s
  let body := dumpBody s
  let s := { s with dump := { s.dump with writing := true, skipped := false } }
  match s.dump.target, senderOf s s.dump.ch with
  | 1, .fn p f => emit (.hostWr p f at_ head) (emit (.hostWr p f (at_ + 64) body) s)
  | 2, who => dumpWrite who at_ head (dumpWrite who (at_ + 64) body s)
  | _, _ => s

/-- The function that a dump writes host memory as has Bus Master Enable clear. -/
def dumpBarred (s : State) : Option Nat :=
  match s.dump.target, senderOf s s.dump.ch with
  | 1, .fn p f => if (s.fn p f).bme then none else some p
  | _, _ => none

/-- A dump falls due: one still being written causes it to be skipped; so does a clear Bus Master Enable (R229). -/
def dumpDue (s : State) : State :=
  if s.dump.writing then raise 0x4402 0xFFFF 0 .nothing { s with dump := { s.dump with skipped := true } }
  else match dumpBarred s with
    | some p => s.modPort p (fun q => { q with dumpSkip := inc32 q.dumpSkip })
    | none => dumpRecord s

/-- At the end of every `EVERY`-th window; dumps stop in ember. -/
def dumpTick (s : State) : State :=
  if s.dump.target = 0 || inEmber s then s
  else if s.dump.winCnt + 1 < s.dump.every then { s with dump := { s.dump with winCnt := s.dump.winCnt + 1 } }
  else dumpDue { s with dump := { s.dump with winCnt := 0 } }

/-- The writes of a record are finished. -/
def dumpComplete (s : State) : State := { s with dump := { s.dump with writing := false } }
def execDumpComplete (s : State) : Res := run true (dumpComplete s)

/-! ## Windows (R421) -/

/-- Bytes of a window in MB/s, rounded down, by its length in ns. -/
def bwOf (len bytes : Nat) : Nat := min max32 (bytes * 1000 / len)

/-- A port's value in a table of rates. -/
def rateTab (len : Nat) (l : List Nat) : Tab Nat :=
  (List.range 10).foldl (fun (t : Tab Nat) p => t.set 0 p (bwOf len (l.getD p 0))) []
def maxTab (old new : Tab Nat) : Tab Nat :=
  (List.range 10).foldl (fun (t : Tab Nat) p => t.set 0 p (max (old.get 0 p) (new.get 0 p))) []

/-- A window ends: rates, totals and maxima; then a new `WINDOW` takes effect, and a dump may fall due. -/
def windowEnd (bytesIn bytesOut : List Nat) (s : State) : State :=
  let m := s.pm
  let len := max 1 ((m.cuts.head?).getD (m.winCur * 1000))
  let i := rateTab len bytesIn
  let o := rateTab len bytesOut
  let m : PmState := { m with
    bwIn := i, bwOut := o, bwDevIn := bwOf len (bytesIn.foldl (· + ·) 0), bwDevOut := bwOf len (bytesOut.foldl (· + ·) 0),
    maxIn := maxTab m.maxIn i, maxOut := maxTab m.maxOut o, cuts := m.cuts.drop 1 }
  let s := dumpTick { s with pm := m }
  { s with pm := { s.pm with winCur := s.pm.window } }
def execBandwidthWindowEnd (bytesIn bytesOut : List Nat) (s : State) : Res :=
  run (decide (bytesIn.length = 10) && decide (bytesOut.length = 10)) (windowEnd bytesIn bytesOut s)

/-! ## Commands -/

/-- The sampler begins a new gap. -/
def samplerBegin (s : State) : State :=
  draw { s with pm := { s.pm with sGap := 0, sNextGap := sampleGap s.pm s.free, sFullRaised := false } }

/-- `PMON_CONFIG`: target 0 a counter, 1 the sampler. -/
def pmonConfig (rq : Rq) (c : PmonCfg) (s : State) : State :=
  let cnt := c.target == 0
  atornQ 0x0D00 rq
    (fun _ => {
      params := [[.n4 c.target], [.n4 c.counter], [.n4 c.code], [.n4 c.qual], [.n4 c.inst], [.n4 c.chain], [.n4 c.enable], [.n4 c.scode],
                 [.n4 c.period], [.n4 c.jitter], [.n4 c.thresh], [.n4 c.wrap]],
      bad := [decide (2 ≤ c.target), cnt && decide (256 ≤ c.counter), cnt && decide (0x10000 ≤ c.code), cnt && decide (256 ≤ c.qual),
              cnt && decide (0x10000 ≤ c.inst), cnt && decide (2 ≤ c.chain), decide (2 ≤ c.enable), !cnt && decide (0x10000 ≤ c.scode),
              !cnt && (c.period == 0 || decide (2 ^ 24 ≤ c.period)), !cnt && decide (2 ≤ c.jitter), false, !cnt && decide (2 ≤ c.wrap)],
      refuse := [cnt && c.chain == 1 && c.counter % 2 == 1, !cnt && !sampleSource c.scode, cnt && !sourceListed c.code] })
    (fun s => ok rq [] (setCommitted rq
      (if cnt then pmonSelect c.counter (fun x => { x with
          code := c.code, qual := c.qual, inst := c.inst, chain := c.chain == 1, en := c.enable == 1 }) s
       else samplerBegin { s with pm := { s.pm with
          sCode := c.scode, sPeriod := c.period, sJitter := c.jitter == 1, sThresh := c.thresh, sWrap := c.wrap == 1,
          sEn := c.enable == 1 } }))) s
def execPmonConfig (rq : Rq) (cfg : PmonCfg) (s : State) : Res := run (rq.wf && cfg.wf) (pmonConfig rq cfg s)

/-- A counter as `PMON_READ` returns it: its shadow, `OVF` in bit 63. -/
def shadowField (s : State) (k : Nat) : Fld :=
  let c := s.pm.cnts.get {} k
  .n8 (c.shadow + 2 ^ 63 * b2n c.shadowOvf)

/-- Every PMON_BW register, in the order of their offsets. -/
def bwData (s : State) : List Byte :=
  let m := s.pm
  pack ((List.range 10).flatMap (fun p => [Fld.n4 (m.bwIn.get 0 p), Fld.n4 (m.bwOut.get 0 p)]) ++ [.n4 m.bwDevIn, .n4 m.bwDevOut]
    ++ (List.range 10).flatMap (fun p => [Fld.n4 (m.maxIn.get 0 p), Fld.n4 (m.maxOut.get 0 p)]))

/-- A sample record's 32 bytes (R422). -/
def sampleBytes (r : Sample) : List Byte :=
  leBytes 2 r.code ++ leBytes 2 r.inst ++ leBytes 4 r.lat ++ leBytes 8 r.addr ++ leBytes 8 r.info ++ leBytes 8 r.done

/-- `PMON_READ`: 0 counters, after a snapshot; 1 bandwidth; 2 the samples held, which are removed. -/
def pmonRead (rq : Rq) (what first n : Nat) (s : State) : State :=
  atornQ 0x0D01 rq (fun _ => { params := [[.n4 what], [.n4 first], [.n4 n]], bad := [decide (3 ≤ what)], refuse := [decide (256 < first + n)] })
    (fun s => match what with
      | 0 =>
        let s := pmonSnap s
        ok rq (pack ((List.range n).map (fun i => shadowField s (first + i)))) s
      | 1 => ok rq (bwData s) s
      | _ => ok rq (s.pm.samples.flatMap sampleBytes) { s with pm := { s.pm with samples := [], sFullRaised := false } }) s
def execPmonRead (rq : Rq) (what first count : Nat) (s : State) : Res :=
  run (rq.wf && u32 what && u32 first && u32 count) (pmonRead rq what first count s)

def powerOfTwo (n : Nat) : Bool := (List.range 33).any (fun k => n == 2 ^ k)

/-- `PMON_DUMP_SET`: 0 none, 1 host memory of the sender, 2 a DPA range granted RW to it. -/
def pmonDumpSet (rq : Rq) (target base entries every : Nat) (s : State) : State :=
  atornQ 0x0D02 rq
    (fun s => {
      params := [[.n4 target], [.n8 base], [.n4 entries], [.n4 every]],
      bad := [decide (3 ≤ target), false, false, target != 0 && (every == 0 || decide (65535 < every))],
      refuse := [target == 1 && decide (29 ≤ rq.ch),
                 target == 2 && (decide (30 ≤ rq.ch)
                   || !covered s (mayReach (senderOf s rq.ch) true) base (base + 4096 * entries)),
                 target != 0 && base % 4096 != 0,
                 target != 0 && (decide (entries < 4) || decide (65536 < entries) || !powerOfTwo entries)] })
    (fun s => ok rq [] (setCommitted rq { s with dump :=
      if target = 0 then {} else { target := target, ch := rq.ch, base := base, entries := entries, every := every } })) s
def execPmonDumpSet (rq : Rq) (target base entries every : Nat) (s : State) : Res :=
  run (rq.wf && u32 target && u64 base && u32 entries && u32 every) (pmonDumpSet rq target base entries every s)

/-! ## Routing (R426) -/

/-- The classes an `EVENT_ROUTE` names. -/
def routeClasses (cls : Nat) : List Nat := if cls = allOnes then List.range 18 else [cls]

/-- The mask and the vector of the sender for a class. -/
def routeSet (ch mask vec : Nat) (s : State) (cls : Nat) : State :=
  let d := maskDef s ch
  let s := s.modMbox ch (fun m => { m with mask := m.mask.set d cls (BitVec.ofNat 32 mask) })
  match senderOf s ch with
  | .fn p f => s.modFn p f (fun x => { x with evtVec := x.evtVec.set 0 cls (if vec = allOnes then 0 else vec) })
  | _ => s

/-- `EVENT_ROUTE`: it acts on the sender's own channel and vectors, from the reply on. -/
def eventRoute (rq : Rq) (cls mask vec : Nat) (s : State) : State :=
  atornQ 0x0D03 rq
    (fun _ => {
      params := [[.n4 cls], [.n4 mask], [.n4 vec]],
      bad := [decide (18 ≤ cls) && cls != allOnes, false, (decide (vec < 8) || decide (63 < vec)) && vec != allOnes],
      refuse := [decide (29 ≤ rq.ch) && vec != allOnes, rq.ch == 30] })
    (fun s => (routeClasses cls).foldl (routeSet rq.ch mask vec) (ok rq [] (setCommitted rq s))) s
def execEventRoute (rq : Rq) (cls mask vec : Nat) (s : State) : Res :=
  run (rq.wf && u32 cls && u32 mask && u32 vec) (eventRoute rq cls mask vec s)

/-! ## A function's interrupt enable (R439) -/

/-- Enables set while their status is 1 fire vector 7 once. -/
def glbIntEnWrite (p f : Nat) (v : Word) (s : State) : State :=
  fnWrite p f (fun s =>
    let x := s.fn p f
    let en : BitVec 5 := v.setWidth 5
    let new := en &&& ~~~x.intEn &&& x.intStat
    let s := s.modFn p f (fun x => { x with intEn := en })
    if new = 0 then s else fire p f 7 s) s
def execGlbIntEnWrite (port func : Nat) (v : Word) (s : State) : Res := run (fnOk port func) (glbIntEnWrite port func v s)

end Sys2Proof.Machine
end

