-- ==== Sys2Proof/Machine/Registers.lean ====
section
/-! DEFINITION. The register map (19): the value and the writes of every register that R441 lists, at its block and offset
(R428), the BAR0 of a function (R427, R429), the access rules (R431), and the row for a write of a register that has no row
of its own. -/

namespace Sys2Proof.Machine

open Sys2Proof

/-! ## Places (R428, R430, R441) -/

/-- The register pair whose LO lies at an offset of a block. -/
def pairAt (b off : Nat) : Option LoReg :=
  match b with
  | 0x02 => if off = 0x30 then some .ftRawCheck else none
  | 0x04 => if off = 0x30 then some .mcDestage else if off = 0x38 then some .mcFold else none
  | 0x06 => if off = 0x10 then some .tuPairId else if off = 0x30 then some .tuStamp else none
  | 0x07 => if 0x1000 ≤ off ∧ off < 0x2000 ∧ off % 0x40 = 0x18 then some (.suLines (off / 0x40 % 0x40)) else none
  | 0x08 => if off = 0x40 then some .xeSticks else none
  | 0x09 => if off = 0x08 then some .secHaltLoc else none
  | 0x0A => if 0x100 ≤ off ∧ off < 0x1C0 ∧ off % 0x20 = 0 then some (.ccSterrAddr ((off - 0x100) / 0x20)) else none
  | 0x0D => if off = 0x08 then some .lgStaged else if off = 0x10 then some .lgMedia else if off = 0x18 then some .lgOldest else none
  | 0x0F => if off = 0x10 then some .thThrottle else none
  | 0x10 =>
    if off = 0 then some .tbCount else if off = 0x18 then some .tbPpsStamp
    else if 0x80 ≤ off ∧ off < 0x100 ∧ off % 8 = 0 then some (.ltrigStamp ((off - 0x80) / 8)) else none
  | 0x11 => if 0x1000 ≤ off ∧ off < 0x2000 ∧ off % 16 = 8 then some (.pmonCnt (off / 16 % 0x100)) else none
  | _ => none

/-- The 4 bytes at a multiple of 4 in a 64-byte value. -/
def word4 (v : BitVec 512) (i : Nat) : Nat := leNat (bytesOf v (4 * i) 4)

/-! ## Values -/

def hfVal (s : State) (off : Nat) : Nat :=
  if off = 0 then s.hf.paceLow * 2 ^ 16 + s.hf.paceNow else if off = 4 then s.hf.floor else 0

def pxVal (s : State) (off : Nat) : Nat :=
  let p := off / 0x100
  let r := off % 0x100
  if 10 ≤ p then 0 else if r = 0 then pxCfgReg s p else if r = 4 then pxLinkReg s p
  else if r < 0x10 then 0 else (pxCounters s p).getD ((r - 0x10) / 4) 0

def ftVal (s : State) (off : Nat) : Nat :=
  if 0x100 ≤ off ∧ off < 0x300 then
    let d := (off - 0x100) / 16
    match off % 16 with
    | 0 => ftDevReg s d
    | 4 => (s.ftDev d).ce
    | 8 => (s.ftDev d).ue
    | _ => 0
  else if 0x40 ≤ off ∧ off < 0x80 then word4 s.ft.rawData ((off - 0x40) / 4)
  else match off with
    | 0x00 => ftCfgReg s
    | 0x08 => s.ft.band
    | 0x10 => dirtyCount s
    | 0x14 => ceilFrames s
    | 0x18 => ftScrubReg s
    | 0x1C => ftRetiredReg s
    | 0x20 => ftRawCtlReg s
    | 0x24 => ftRawAddrReg s
    | 0x28 => ftRawResultReg s
    | 0x2C => s.ft.rawSynd
    | _ => 0

/-- Frames of a turf, and those of them that are counted (R117). -/
def turfFrames (s : State) (t : Nat) (dirty : Bool) : Nat :=
  (s.te.frames.filter (fun (kv : Nat × Frame) => frUsed kv.2.st && kv.2.turf == t && (!dirty || kv.2.counted))).length

/-- Pool frames in state FREE (R95). -/
def freeFrames (s : State) : Nat := s.te.pool - (s.te.frames.filter (fun (kv : Nat × Frame) => frUsed kv.2.st)).length

def teVal (s : State) (off : Nat) : Nat :=
  if 0x1000 ≤ off ∧ off < 0x1800 then turfFrames s (off / 8 % 0x100) (off % 8 == 4)
  else if 0x100 ≤ off ∧ off < 0x1A0 then
    let p := (off - 0x100) / 16
    match off % 16 with
    | 0 => teLaCtlReg s p
    | 4 => teLaStatReg s p
    | _ => 0
  else match off with
    | 0x00 => s.te.pool
    | 0x04 => freeFrames s
    | 0x08 => teAgeReg s
    | 0x0C => teThrottleReg s
    | 0x10 => fillBusy s
    | _ => 0

def mcVal (s : State) (off : Nat) : Nat :=
  if 0x100 ≤ off ∧ off < 0x300 then (if off % 16 = 0 then mcChReg s ((off - 0x100) / 16) else 0)
  else match off with
    | 0x00 => mcCfgReg s
    | 0x04 => mcStateReg s
    | 0x08 => budget64k s / 16384
    | 0x10 => wearMin s
    | 0x14 => wearMax s
    | 0x18 => wearMean s
    | 0x20 => s.mctl.ashSets
    | 0x24 => s.mctl.ashFactory
    | 0x28 => (s.mc.luns.filter (fun (kv : Nat × Lun) => kv.2.ash)).length
    | 0x40 => s.mctl.recDeep
    | 0x44 => s.mctl.recPoison
    | 0x48 => (s.mc.rows.filter (fun (kv : Nat × Option Row) => match kv.2 with
        | some r => r.parityHeld
        | none => false)).length
    | 0x80 => mcKbandReg s
    | _ => 0

def euVal (s : State) (off : Nat) : Nat :=
  match off with
  | 0x00 => euStatReg s
  | 0x04 => euBudgetReg s
  | 0x08 => euEpochReg s
  | 0x10 => s.eu.sealRec.tQuiesce
  | 0x14 => s.eu.sealRec.tFlush
  | 0x18 => s.eu.sealRec.billets
  | 0x1C => s.eu.sealRec.poisoned
  | 0x20 => s.eu.sealRec.emberCnt
  | 0x24 => s.eu.sealRec.unsealedCnt
  | 0x28 => s.eu.scanPoison
  | 0x2C => euScanReg s
  | _ => 0

def tuVal (s : State) (off : Nat) : Nat :=
  match off with
  | 0x00 => tuStatReg s
  | 0x04 => tuLinkReg s
  | 0x08 => s.tu.record.pgen
  | 0x18 => s.tu.session
  | 0x20 => s.tp.done
  | 0x24 => s.tp.total
  | 0x28 => s.tu.retx
  | 0x2C => s.tu.takeovers
  | _ => 0

def suVal (s : State) (off : Nat) : Nat :=
  if 0x1000 ≤ off ∧ off < 0x2000 then
    let x := s.chan (off / 0x40 % 0x40)
    match off % 0x40 with
    | 0x00 => suStatReg x
    | 0x04 => x.next
    | 0x08 => suCreditReg x
    | 0x0C => x.produced
    | 0x10 => x.consumed
    | 0x20 => x.starve
    | 0x24 => x.tloss
    | 0x28 => x.dbRej
    | 0x2C => x.lateMax
    | _ => 0
  else if off = 0 then suAdmitReg s none
  else if 0x40 ≤ off ∧ off < 0x68 then suAdmitReg s (some ((off - 0x40) / 4)) else 0

def xeVal (s : State) (off : Nat) : Nat :=
  if 0x10 ≤ off ∧ off < 0x34 then xeLaneReg s ((off - 0x10) / 4)
  else match off with
    | 0x00 => xeStatReg s
    | 0x04 => xeLimitReg s
    | 0x48 => s.xe.decodeErr
    | 0x4C => s.xe.lastErr
    | 0x50 => s.xe.laneFaults
    | _ => 0

def ceVal (s : State) (off : Nat) : Nat :=
  match off with
  | 0x00 => secStatReg s
  | 0x04 => secHaltReg s
  | 0x10 => secFrontBoundReg s
  | 0x14 => mediaGen s
  | 0x18 => s.sec.mBound
  | 0x1C => secFrontGen s
  | 0x20 => s.sec.tagFail
  | _ => 0

def ccVal (s : State) (off : Nat) : Nat :=
  if 0x10 ≤ off ∧ off < 0x28 then ccCoreStatReg s ((off - 0x10) / 4)
  else if 0x100 ≤ off ∧ off < 0x1C0 then
    let i := (off - 0x100) / 0x20
    match off % 0x20 with
    | 0x08 => ccSterrInfoReg s i
    | 0x0C => (s.cpu i).tcmCe
    | 0x10 => (s.cpu i).tcmUe
    | _ => 0
  else match off with
    | 0x00 => ccRoleReg s
    | 0x80 => ccIcCtlReg s
    | 0x88 => ccIcWinmapReg s
    | _ => 0

/-- The bytes of a slot location: request slots 0-3, then reply slots 0-3 (R318). -/
def slotByte (s : State) (ch r : Nat) : Byte := (((s.mbox ch).slots.get [] (r / 256)).getD (r % 256) 0)
def slotBytes (s : State) (ch r n : Nat) : List Byte := (List.range n).map (fun k => slotByte s ch (r + k))

/-- A sender window's registers but for the pop location; a doorbell reads 0. -/
def winVal (s : State) (ch r : Nat) : Nat :=
  if r < 0x800 then leNat (slotBytes s ch r 4)
  else match r with
    | 0x808 => mbStatReg s ch
    | 0x80C => mbCountsReg s ch
    | 0x810 => mbCtlReg s ch
    | 0x830 => mbNoteStatReg s ch
    | 0x834 => (s.mbox ch).dbRej
    | _ => 0

def mbVal (s : State) (off : Nat) : Nat :=
  if off < 0x20000 then winVal s (off / 0x1000) (off % 0x1000)
  else if off = 0x20080 then b2n s.mb.lock
  else if off < 0x20078 then (s.mbox (off % 0x80 / 4)).bind_ else 0

def optVal (s : State) (off : Nat) : Nat :=
  if 0x40 ≤ off ∧ off < 0x80 then word4 s.opt.buf ((off - 0x40) / 4)
  else match off with
    | 0x00 => optStatReg s
    | 0x04 => optCtlReg s
    | 0x08 => optWcountReg s
    | 0x0C => (byteOf s.opt.buf s.opt.byte).toNat
    | _ => 0

def lgVal (s : State) (off : Nat) : Nat :=
  match off with
  | 0x00 => lgStatReg s
  | 0x20 => s.lg.dropped
  | 0x24 => s.lg.conflicts
  | _ => 0

def rpmVal (s : State) (off : Nat) : Nat :=
  if 0x40 ≤ off ∧ off < 0x60 then rpmVmonReg s ((off - 0x40) / 4)
  else match off with
    | 0x00 => rpmStatReg s
    | 0x04 => rpmRstReg s
    | 0x08 => rpmRailReg s
    | 0x0C => rpmSeqReg s
    | 0x10 => s.rpmx.glitch
    | _ => 0

def thVal (s : State) (off : Nat) : Nat :=
  if 0x40 ≤ off ∧ off < 0x70 then thSensorReg s ((off - 0x40) / 4)
  else if off = 0 then thStatReg s else if off = 8 then thMaxSeenReg s else 0

def tbPpsStatReg (s : State) : Nat := ppsCode s.tb.pps + 8 * b2n s.tb.clamped + 2 ^ 24 * s.tb.rejectCnt
def tbVal (s : State) (off : Nat) : Nat :=
  match off with
  | 0x10 => s.tb.clkMode + 16 * b2n s.tb.ppsEn + 32 * b2n s.tb.stepEn
  | 0x14 => tbPpsStatReg s
  | 0x20 => (BitVec.ofInt 32 s.tb.phaseErr).toNat
  | 0x24 => (BitVec.ofInt 32 s.tb.adj).toNat
  | 0x28 => s.tb.refCycles
  | 0x40 => s.tb.edgeFall.toNat
  | 0x44 => s.tb.ovr.toNat
  | _ => 0

def pmonVal (s : State) (off : Nat) : Nat :=
  let m := s.pm
  if 0x1000 ≤ off ∧ off < 0x2000 then
    let k := off / 16 % 0x100
    match off % 16 with
    | 0x0 => pmonSelReg s k
    | 0x4 => (m.cnts.get {} k).inst
    | _ => 0
  else if 0x100 ≤ off ∧ off < 0x150 then
    (if off % 8 = 0 then m.bwIn else m.bwOut).get 0 ((off - 0x100) / 8)
  else if 0x180 ≤ off ∧ off < 0x1D0 then
    (if off % 8 = 0 then m.maxIn else m.maxOut).get 0 ((off - 0x180) / 8)
  else match off with
    | 0x00 => m.window
    | 0x08 => b2n m.sEn * 2 ^ 31 + b2n m.sWrap * 2 ^ 30 + b2n m.sJitter * 2 ^ 29 + m.samples.length
    | 0x0C => m.sCode
    | 0x10 => m.sPeriod
    | 0x14 => m.sThresh
    | 0x18 => m.sLost
    | 0x1C => s.dump.dseq % 2 ^ 32
    | 0x150 => m.bwDevIn
    | 0x154 => m.bwDevOut
    | _ => 0

/-- The value of the register at an offset of a block that an agent with every right reads (R441): zeros where none is
defined (R6). -/
def regVal (s : State) (ag : Agent) (b off : Nat) : Nat :=
  match pairAt b off, (if 4 ≤ off then pairAt b (off - 4) else none) with
  | some r, _ => pairValue s r % 2 ^ 32
  | none, some r => latched s ag r
  | none, none =>
    match b with
    | 0x00 => pxVal s off
    | 0x01 => hfVal s off
    | 0x02 => ftVal s off
    | 0x03 => teVal s off
    | 0x04 => mcVal s off
    | 0x05 => euVal s off
    | 0x06 => tuVal s off
    | 0x07 => suVal s off
    | 0x08 => xeVal s off
    | 0x09 => ceVal s off
    | 0x0A => ccVal s off
    | 0x0B => mbVal s off
    | 0x0C => optVal s off
    | 0x0D => lgVal s off
    | 0x0E => rpmVal s off
    | 0x0F => thVal s off
    | 0x10 => tbVal s off
    | 0x11 => pmonVal s off
    | _ => 0

/-- What a read of 4 bytes does beside its value: a pair's latch and the fields of code RC (R5, R53, R326, R366). -/
def regReadEff (ag : Agent) (b off : Nat) (s : State) : State :=
  match pairAt b off with
  | some r => setLatch ag r (pairValue s r) s
  | none =>
    if b = 0x10 ∧ off = 0x14 then { s with tb := { s.tb with rejectCnt := 0 } }
    else if b = 0x04 ∧ off = 0x40 then { s with mctl := { s.mctl with recDeep := 0 } }
    else if b = 0x0B ∧ off < 0x20000 ∧ off % 0x1000 = 0x830 then lostClear (off / 0x1000) s
    else if b = 0x0C ∧ off = 0x0C then { s with opt := { s.opt with byte := (s.opt.byte + 1) % 64 } }
    else s

/-! ## Global registers (chapter 19) -/

/-- Firmware serves a channel. -/
def anyServed (s : State) : Bool := (List.range 32).any (fun ch => chanServed s ch)

/-- A turf in read-preserve on which the function holds a grant. -/
def fnPreserve (s : State) (p f : Nat) : Bool :=
  s.te.turfs.any (fun (kv : Nat × Option Turf) => match kv.2 with
    | some t => t.preserve && (grantOf t (.fn p f)).isSome
    | none => false)

def glbStat (s : State) (p f : Nat) : Nat :=
  deviceMode s * 2 ^ 29 + phaseNum s.eu.phase * 2 ^ 25 + psNum s.tu.ps * 2 ^ 21 + b2n s.tu.isB * 2 ^ 20 + s.th.band * 2 ^ 17
    + b2n (anyServed s) * 2 ^ 16 + b2n s.cc.degraded * 2 ^ 15 + b2n s.mctl.mediaFull * 2 ^ 14
    + teThrottleReg s / 2 ^ 31 * 2 ^ 13 + b2n (s.mctl.stoke || s.mctl.stokeEmerg) * 2 ^ 12 + b2n (notReady s) * 2 ^ 11
    + b2n s.mc.formatted * 2 ^ 10 + b2n (s.sec.rekey != 0) * 2 ^ 9 + b2n (fnPreserve s p f) * 2 ^ 8

def glbFunc (s : State) (p f : Nat) : Nat :=
  let low := match chanOf s (.fn p f) with
    | some ch => 2 ^ 16 + ch * 2 ^ 8
    | none => 0
  p * 2 ^ 24 + f * 2 ^ 20 + b2n (!(s.port p).plain) * 2 ^ 19 + b2n (s.port p).mld * 2 ^ 18 + b2n (fnAdmin s p f) * 2 ^ 17 + low

/-- The global registers of a function; `GLB_SERIAL_HI` reads what the function's read of LO latched. -/
def glbVal (s : State) (p f off : Nat) : Nat :=
  if 0x100 ≤ off ∧ off < 0x148 then
    (match chanOf s (.fn p f) with
      | some ch => (evtMask s ch ((off - 0x100) / 4)).toNat
      | none => 0)
  else if 0x180 ≤ off ∧ off < 0x1C8 then (s.fn p f).evtVec.get 0 ((off - 0x180) / 4)
  else match off with
    | 0x00 => 0x09601D5F
    | 0x04 => 0xB1 * 2 ^ 24 + s.board.fCode * 2 ^ 16 + s.board.mCode * 2 ^ 8
    | 0x08 => s.board.serial % 2 ^ 32
    | 0x0C => latched s (.fn p f) .glbSerial
    | 0x10 => if s.cc.served then s.cc.fwVer else 0
    | 0x14 => s.board.romVer
    | 0x18 => glbFunc s p f
    | 0x40 => glbStat s p f
    | 0x44 => (s.fn p f).accErr
    | 0x80 => (s.fn p f).intStat.toNat
    | 0x84 => (s.fn p f).intEn.toNat
    | _ => 0

/-! ## Writes -/

/-- Place 4 bytes in a 64-byte value. -/
def setWord4 (v : BitVec 512) (i : Nat) (w : Word) : BitVec 512 := putBytes v (4 * i) (leBytes 4 w.toNat)

/-- `FT_RAW_CTL`: `LOCK` is set, `EN` follows the write while `LOCK` was 0, and a command that is not 0 runs (R94).
The mode that voids R25 is recorded (R35). -/
def ftRawCtlWrite (v : Word) (s : State) : State :=
  let s := if s.ft.rawLock || !v.getLsbD 0 || s.ft.rawEn then s else ledger 0x081F 0 [] s
  let s := if s.ft.rawLock then s else { s with ft := { s.ft with rawEn := v.getLsbD 0 } }
  let s := if v.getLsbD 31 then { s with ft := { s.ft with rawLock := true } } else s
  let cmd := bits v.toNat 3 1
  if cmd = 0 then { s with ft := { s.ft with rawCmd := 0 } } else rawOp cmd s

def ftWrite (off : Nat) (v : Word) (s : State) : State :=
  if 0x40 ≤ off ∧ off < 0x80 then { s with ft := { s.ft with rawData := setWord4 s.ft.rawData ((off - 0x40) / 4) v } }
  else match off with
    | 0x20 => ftRawCtlWrite v s
    | 0x24 => { s with ft := { s.ft with rawDev := v.toNat / 2 ^ 27, rawLine := v.toNat % 2 ^ 26 } }
    | 0x30 => { s with ft := { s.ft with rawCheck := (s.ft.rawCheck &&& 0xFFFFFFFF00000000) ||| v.setWidth 64 } }
    | 0x34 => { s with ft := { s.ft with rawCheck := (s.ft.rawCheck &&& 0xFFFFFFFF) ||| (v.setWidth 64 <<< 32) } }
    | _ => s

/-- `TE_AGE_CTL`: a period outside 10 ms to 10,000 ms is ignored. -/
def teAgeWrite (v : Word) (s : State) : State :=
  let n := v.toNat
  let per := n % 2 ^ 14
  let s := { s with te := { s.te with destageAge := bits n 21 14 } }
  if 10 ≤ per ∧ per ≤ 10000 then { s with te := { s.te with period := per } } else s

def teLaCtlWrite (p : Nat) (v : Word) (s : State) : State :=
  let s := s.modLook p (fun l => { l with streamDet := v.getLsbD 1 })
  if v.getLsbD 0 then laInvalidate p s else s

def teWrite (off : Nat) (v : Word) (s : State) : State :=
  if off = 8 then teAgeWrite v s
  else if 0x100 ≤ off ∧ off < 0x1A0 ∧ off % 16 = 0 then teLaCtlWrite ((off - 0x100) / 16) v s else s

def suWrite (off : Nat) (v : Word) (s : State) : State :=
  if 0x1000 ≤ off ∧ off < 0x2000 ∧ off % 0x40 = 0x2C then s.modChan (off / 0x40 % 0x40) (fun x => { x with lateMax := v.toNat })
  else s

/-- `MB_CTL`: the interrupt enables, and `RESET` (R323, R340). -/
def mbCtlWrite (ch : Nat) (v : Word) (s : State) : State :=
  let s := s.modMbox ch (fun m => { m with irqRpl := v.getLsbD 0, irqEmpty := v.getLsbD 1 })
  if v.getLsbD 2 then chanReset ch s else s

/-- A register of a sender window. -/
def winWrite (ch r : Nat) (v : Word) (s : State) : State :=
  match r with
  | 0x800 => reqDb ch (v.toNat % 256) s
  | 0x804 => rplDb ch (v.toNat % 256) s
  | 0x810 => mbCtlWrite ch v s
  | 0x830 => if v.getLsbD 10 then s.modMbox ch (fun m => { m with underrun := false }) else s
  | _ => s

/-- The bindings, until they are locked (R319). -/
def bindWrite (off : Nat) (v : Word) (s : State) : State :=
  if off = 0x20080 then (if v.getLsbD 0 then { s with mb := { s.mb with lock := true } } else s)
  else if 0x20000 ≤ off ∧ off < 0x20078 ∧ !s.mb.lock then s.modMbox (off % 0x80 / 4) (fun m => { m with bind_ := v.toNat % 2 ^ 16 })
  else s

/-- `OPT_CTL`: `BYTE` and `TPAGE`, then `COMMIT`, then `LOAD` (R366). -/
def optCtlWrite (v : Word) (s : State) : State :=
  let t := v.toNat % 1024
  let s := { s with opt := { s.opt with byte := bits v.toNat 15 10, tpage := t } }
  let s := if v.getLsbD 31 then optCommit t s else s
  if v.getLsbD 30 then optLoad t s else s

def optRegWrite (i off : Nat) (v : Word) (s : State) : State :=
  if 0x40 ≤ off ∧ off < 0x80 then { s with opt := { s.opt with buf := setWord4 s.opt.buf ((off - 0x40) / 4) v } }
  else match off with
    | 0x04 => optCtlWrite v s
    | 0x0C => optByte i (some (v.setWidth 8)) s
    | _ => s

/-- `TB_CTL`: `STEP_EN`, then `PPS_EN`, each where the write changes it (R54, R55). -/
def tbCtlWrite (v : Word) (s : State) : State :=
  let step := v.getLsbD 5
  let s := if step == s.tb.stepEn then s else if step then stepEnSet s else stepEnClear s
  let en := v.getLsbD 4
  if en == s.tb.ppsEn then s else if en then ppsEnSet s else ppsEnClear s

def tbWrite (off : Nat) (v : Word) (s : State) : State :=
  match off with
  | 0x10 => tbCtlWrite v s
  | 0x40 => { s with tb := { s.tb with edgeFall := v.setWidth 16 } }
  | 0x44 => { s with tb := { s.tb with ovr := s.tb.ovr &&& ~~~(v.setWidth 16) } }
  | _ => s

/-- `PMON_CTL`: a window outside 10 µs to 1 s is ignored; `SNAP`, then `CLEAR` (R420, R421). -/
def pmonCtlWrite (v : Word) (s : State) : State :=
  let w := v.toNat % 2 ^ 20
  let s := if 10 ≤ w ∧ w ≤ 1000000 then { s with pm := { s.pm with window := w } } else s
  let s := if v.getLsbD 31 then pmonSnap s else s
  if v.getLsbD 30 then pmonClear s else s

def pmonWrite (off : Nat) (v : Word) (s : State) : State :=
  let n := v.toNat
  if 0x1000 ≤ off ∧ off < 0x2000 then
    let k := off / 16 % 0x100
    if off % 16 = 0 then pmonSelWrite k false v s else if off % 16 = 4 then pmonSelWrite k true v s else s
  else if 0x180 ≤ off ∧ off < 0x1D0 then pmonBwMaxWrite ((off - 0x180) / 8) (off % 8 == 4) s
  else match off with
    | 0x00 => pmonCtlWrite v s
    | 0x08 => samplerBegin { s with pm := { s.pm with sEn := v.getLsbD 31, sWrap := v.getLsbD 30, sJitter := v.getLsbD 29 } }
    | 0x0C => samplerBegin { s with pm := { s.pm with sCode := n % 2 ^ 16 } }
    | 0x10 => if n % 2 ^ 24 = 0 then s else samplerBegin { s with pm := { s.pm with sPeriod := n % 2 ^ 24 } }
    | 0x14 => { s with pm := { s.pm with sThresh := n } }
    | _ => s

/-- The reset sources recorded in `RPM_RST` are cleared by writing 1. -/
def rpmWrite (off : Nat) (v : Word) (s : State) : State :=
  if off = 4 then { s with rpm := { s.rpm with rst := s.rpm.rst &&& ~~~(v.setWidth 12 &&& 0xFFE) } } else s

def hfWrite (off : Nat) (v : Word) (s : State) : State :=
  if off = 0 then hfPaceWrite v s else if off = 4 then { s with hf := { s.hf with floor := v.toNat % 2 ^ 16 } } else s

def ccRegWrite (ag : Agent) (off : Nat) (v : Word) (s : State) : State :=
  if 0x100 ≤ off ∧ off < 0x1C0 ∧ off % 0x20 = 8 then
    (if v.getLsbD 31 then ccSterrInfoClear ag ((off - 0x100) / 0x20) s else ccWrite ag (fun s => s) s)
  else if 0x40 ≤ off ∧ off < 0x50 then (if v.getLsbD 0 then ccHeartbeatWrite ag ((off - 0x40) / 4) s else coreOnlyWrite ag (fun s => s) s)
  else if off = 0x84 then (if v.getLsbD 0 then ccIcKickWrite ag s else coreOnlyWrite ag (fun s => s) s)
  else ccWrite ag (fun s => s) s

/-- The number of the core, where an agent is one. -/
def agCore : Agent → Nat
  | .core i => i
  | _ => 0

/-- A write of 4 bytes at an offset of a block window by an agent (R428, R429): a location of no register, and one that
is RO, takes nothing. -/
def blockWrite (ag : Agent) (b off : Nat) (v : Word) (s : State) : State :=
  match b with
  | 0x01 => regWrite ag (hfWrite off v) s
  | 0x02 => if 0x20 ≤ off ∧ off < 0x80 then coreOnlyWrite ag (ftWrite off v) s else regWrite ag (fun s => s) s
  | 0x03 => regWrite ag (teWrite off v) s
  | 0x07 => regWrite ag (suWrite off v) s
  | 0x0A => ccRegWrite ag off v s
  | 0x0B => (match ag with
    | .core _ => coreOnlyWrite ag (fun s => if off < 0x20000 then winWrite (off / 0x1000) (off % 0x1000) v s else bindWrite off v s) s
    | .fn p f => (match chanOf s ag with
      | some ch => if fnReached s p f && decide (off < 0x1000) then winWrite ch off v s else s
      | none => s)
    | _ => s)
  | 0x0C => coreOnlyWrite ag (optRegWrite (agCore ag) off v) s
  | 0x0D => coreOnlyWrite ag (fun s => s) s
  | 0x0E => regWrite ag (rpmWrite off v) s
  | 0x0F => regWrite ag (fun s => if off = 8 then thMaxSeenWrite s else s) s
  | 0x10 => regWrite ag (tbWrite off v) s
  | 0x11 => coreOnlyWrite ag (pmonWrite off v) s
  | 0x00 | 0x04 | 0x05 | 0x06 | 0x08 | 0x09 => regWrite ag (fun s => s) s
  | _ => s

/-- The low `n` bytes of a value. -/
def valBytes (v : BitVec 64) (n : Nat) : List Byte := (List.range n).map (fun i => (v >>> (8 * i)).setWidth 8)

/-- Bytes written into the request slots of a channel; the reply slots are RO. -/
def slotPut (ch : Nat) : Nat → List Byte → State → State
  | _, [], s => s
  | r, b :: t, s =>
    let put (m : MbChan) : MbChan :=
      let was := (m.slots.get [] (r / 256) ++ List.replicate 256 0).take 256
      { m with slots := m.slots.set [] (r / 256) (was.set (r % 256) b) }
    slotPut ch (r + 1) t (if r < 0x400 then s.modMbox ch put else s)

/-- The bytes of an MSI-X table entry, little-endian: address, data, vector control. -/
def msixBytes (e : MsixEnt) : List Byte := leBytes 8 e.addr ++ leBytes 4 e.data ++ leBytes 4 (b2n e.mask)
def msixOf (b : List Byte) : MsixEnt :=
  { addr := leNat (b.take 8), data := leNat ((b.drop 8).take 4), mask := leNat ((b.drop 12).take 4) % 2 == 1 }

def msixWrite (p f : Nat) : Nat → List Byte → State → State
  | _, [], s => s
  | r, b :: t, s =>
    let s := s.modFn p f (fun x => { x with msix := x.msix.upd {} (r / 16) (fun e => msixOf ((msixBytes e).set (r % 16) b)) })
    msixWrite p f (r + 1) t s

/-- A doorbell takes effect only with byte 0 of its location; any other write is discarded and counted (R440). -/
def doorbellAt (r size : Nat) : Bool := decide (0x800 ≤ r) && decide (r < 0x808) && decide (r + size ≤ 0x808)

/-- A write to a sender window that the 4-byte rule does not govern: slots of any length, and narrow doorbell writes. -/
def winSpecial (ch r size : Nat) (v : BitVec 64) (s : State) : Option State :=
  if r + size ≤ 0x800 then some (slotPut ch r (valBytes v size) s)
  else if doorbellAt r size && (decide (size < 4) || r % 4 != 0) then
    some (if r = 0x800 then reqDb ch (v.toNat % 256) s else if r = 0x804 then rplDb ch (v.toNat % 256) s else dbReject ch s)
  else none

/-- Of 4 or 8 bytes and naturally aligned (R431). -/
def wideOk (a size : Nat) : Bool := (size == 4 || size == 8) && a % size == 0

/-- An 8-byte write acts as two of 4 bytes, the lower address first. -/
def splitWrite (size : Nat) (v : BitVec 64) (one : Nat → Word → State → State) (s : State) : State :=
  let s := one 0 (v.setWidth 32) s
  if size = 8 then one 4 ((v >>> 32).setWidth 32) s else s

/-- A global register of a function. -/
def glbWrite (p f off : Nat) (v : Word) (s : State) : State :=
  if off = 0x80 then s.modFn p f (fun x => { x with intStat := x.intStat &&& ~~~(v.setWidth 5) })
  else if off = 0x84 then glbIntEnWrite p f v s else s

/-- A write of BAR0 of a function (R427, R429, R431, R434). -/
def bar0Write (p f addr size : Nat) (v : BitVec 64) (s : State) : State :=
  if !fnReached s p f then s
  else if (s.fn p f).d3 then logAer p f .unsupportedRequest s
  else if decide (0x1000 ≤ addr) && decide (addr + size ≤ 0x1400) then
    firePending p f (msixWrite p f (addr % 0x1000) (valBytes v size) s)
  else if addr < 0x1000 then
    (if wideOk addr size then splitWrite size v (fun d w s => glbWrite p f (addr + d) w s) s else countAccErr p f s)
  else if 0x100000 ≤ addr ∧ addr < 0x220000 then
    let b := addr / 0x10000 - 0x10
    let off := addr % 0x10000
    let special := if b = 0x0B then (match chanOf s (.fn p f) with
      | some ch => winSpecial ch off size v s
      | none => none) else none
    match special with
    | some t => t
    | none =>
      if wideOk off size then splitWrite size v (fun d w s => blockWrite (.fn p f) b (off + d) w s) s else countAccErr p f s
  else s

/-- The CC block is held in reset: firmware runs nothing there. A core's write of its register map (R298, R431). -/
def coreRegWrite (i addr size : Nat) (v : BitVec 64) (s : State) : State :=
  let a := addr % 0x10000000
  let b := a / 0x100000
  let off := a % 0x100000
  let special := if b = 0x0B ∧ off < 0x20000 then winSpecial (off / 0x1000) (off % 0x1000) size v s else none
  match special with
  | some t => t
  | none => if wideOk off size && decide (off < 0x80000) then splitWrite size v (fun d w s => blockWrite (.core i) b (off + d) w s) s else s

/-- A write of the integrator core's page (R438). -/
def icPageReg (off : Nat) (v : Word) (s : State) : State :=
  if off < 0x880 then winWrite 29 off v s
  else if off = 0x900 then (if v.getLsbD 0 then ccIcKickWrite .ic s else s)
  else if off = 0x918 then (if v.getLsbD 31 then ccSterrInfoClear .ic s.cc.icCore s else s)
  else s
def icPageWrite (off size : Nat) (v : BitVec 64) (s : State) : State :=
  match (if off < 0x880 then winSpecial 29 off size v s else none) with
  | some t => t
  | none => if wideOk off size then splitWrite size v (fun d w s => icPageReg (off + d) w s) s else s

/-- A write of a register (R431), at the address its agent's map gives it. -/
def registerWrite (ag : Agent) (addr size : Nat) (v : BitVec 64) (s : State) : State :=
  match ag with
  | .fn p f => bar0Write p f addr size v s
  | .core i => if i < 5 ∧ 0x10000000 ≤ addr ∧ addr < 0x20000000 then coreRegWrite i addr size v s else s
  | .ic => if 0x20000000 ≤ addr ∧ addr < 0x20001000 then icPageWrite (addr % 0x1000) size v s else s
  | _ => s
def execRegisterWrite (ag : Agent) (addr size : Nat) (v : BitVec 64) (s : State) : Res :=
  run (ag.wf && u64 addr && sizeOk size) (registerWrite ag addr size v s)

/-! ## Reads -/

/-- A block that BAR0 does not hold, or the part of one (R428). -/
def coreOnlyAt (b off : Nat) : Bool :=
  b == 0x0C || b == 0x0D || b == 0x11 || (b == 0x02 && decide (0x20 ≤ off) && decide (off < 0x80))

/-- A register that a function without `ADMIN` reads as 0 (R429): of a turf without a grant, or of another's channel. -/
def hiddenAt (s : State) (p f b off : Nat) : Bool :=
  if b = 0x03 ∧ 0x1000 ≤ off ∧ off < 0x1800 then
    (match s.turf (off / 8 % 0x100) with
      | some t => (grantOf t (.fn p f)).isNone
      | none => true)
  else if b = 0x07 ∧ 0x1000 ≤ off ∧ off < 0x2000 then
    let c := off / 0x40 % 0x40
    !(hasJob s c && chanOf s (.fn p f) == some (s.chan c).owner)
  else false

/-- A field of code RC, in a function's read without `ADMIN`: 0 (R429). -/
def rcMask (b off v : Nat) : Nat :=
  if b = 0x10 ∧ off = 0x14 then v % 2 ^ 24 else if b = 0x04 ∧ off = 0x40 then 0 else v

/-- What 4 aligned bytes of BAR0 read as (R427-R430), where the spec gives the content; `none` in the CXL regions, whose
structures are those of the CXL specification (R432). -/
def bar0Val (s : State) (p f addr : Nat) : Option Nat :=
  if addr < 0x1000 then some (glbVal s p f addr)
  else if addr < 0x1400 then
    some (leNat (((msixBytes ((s.fn p f).msix.get {} (addr / 16 % 0x40))).drop (addr % 16)).take 4))
  else if addr = 0x1800 then some ((s.fn p f).pend.toNat % 2 ^ 32)
  else if addr = 0x1804 then some ((s.fn p f).pend.toNat / 2 ^ 32)
  else if 0x10000 ≤ addr ∧ addr < 0x30000 then (if (s.port p).plain then some 0 else none)
  else if 0x100000 ≤ addr ∧ addr < 0x220000 then
    let b := addr / 0x10000 - 0x10
    let off := addr % 0x10000
    if b = 0x0B then
      some (match chanOf s (.fn p f) with
        | some ch => if off < 0x1000 then winVal s ch off else 0
        | none => 0)
    else if coreOnlyAt b off || (b == 0x0A && ccHeld s) then some 0
    else if fnAdmin s p f then some (regVal s (.fn p f) b off)
    else if hiddenAt s p f b off then some 0
    else some (rcMask b off (regVal s (.fn p f) b off))
  else some 0

end Sys2Proof.Machine
end

