-- ==== Sys2Proof/Machine/CoreMem.lean ====
section
/-! DEFINITION. Meanings of a core's memory instructions (13): the address map (R298, R312), the store buffer and its order
(R300-R304), errors and exceptions (R305, R306), reservations and atomics (R307, R308), TCM check bits (R309), and the
instructions that are none of these (R307, R311, R314). A row stands for the moment its access is performed, its store
retires or its fence takes its place: where the core does not run, or the order of R301 does not yet allow it, the moment has
not come and nothing changes. -/

namespace Sys2Proof.Machine

open Sys2Proof

/-! ## Cores that run -/

/-- The core executes instructions: it holds a role that is served, or runs the integrator's image. -/
def coreRuns (s : State) (i : Nat) : Bool :=
  (s.cpu i).st == 0 && !s.cc.rstOwed && !ccHeld s
    && ((s.cc.fCore.contains i && (s.cc.served || s.rpm.recovery != 0)) || (i == s.cc.icCore && s.cc.icSt == 2))

/-- The source identity of a core (R303, R311). -/
def coreAgent (s : State) (i : Nat) : Agent := if i = s.cc.icCore then .ic else .core i

/-! ## Exceptions -/

/-- A trap: the reservation is lost (R307); on the integrator core a trap in a trap is a double trap (R311, R314). -/
def trapTake (i : Nat) (e : CoreExc) (s : State) : State :=
  let s := emit (.coreExc i e) (resvLost i s)
  if i = s.cc.icCore then
    (if (s.cpu i).inTrap then icFaultNow 2 s else s.modCpu i (fun c => { c with inTrap := true }))
  else s

/-- An access fault outside the integrator core's map goes to its monitor (R311). -/
def mapFault (i : Nat) (s : State) : State :=
  if i = s.cc.icCore then emit (.coreExc i .accessFault) (resvLost i s) else trapTake i .accessFault s

/-- An instruction boundary: the exceptions owed are taken (R305). -/
def boundary (i : Nat) (s : State) : State :=
  if (s.cpu i).loadWait || !coreRuns s i then s
  else (s.cpu i).exc.foldl (fun s e => if coreRuns s i then trapTake i e s else s) (s.modCpu i (fun c => { c with exc := [] }))

/-- A row of a core: the exceptions owed first, the instruction where the core runs and no load of it waits, and the
exceptions it brings. -/
def coreRow (i : Nat) (body : State → State) (s : State) : State :=
  let s := boundary i s
  if (s.cpu i).loadWait || !coreRuns s i then s else boundary i (body s)

/-! ## The address map (R298, R312) -/

/-- Where an access goes. -/
inductive Tgt where
  | out                            -- an address the map does not give: access fault
  | closed                         -- given, and not at this access: access fault
  | rom (off : Nat)
  | tcm (off : Nat)                -- of the core: TCM number times 2^18, plus the offset
  | sram (off : Nat)
  | reg (off : Nat)                -- from 0x1000_0000
  | page (off : Nat)               -- of the integrator core's page
  | dpa (addr : Nat) (dev : Bool)
  deriving DecidableEq, Repr

/-- `[a, a + n)` lies in a region. -/
def inside (a n base size : Nat) : Bool := decide (base ≤ a) && decide (a + n ≤ base + size)

/-- The DPA aperture of a firmware core; a halted device closes it (R352). -/
def dpaTgt (s : State) (d n : Nat) : Tgt :=
  if s.sec.halt then .closed else if s.te.uGib * 2 ^ 30 < d + n then .out else .dpa d (tinfo s d).device

/-- An integrator window (R312). -/
def winTgt (s : State) (x n : Nat) (wr : Bool) : Tgt :=
  let w := icWin s (x / 2 ^ 36)
  let o := x % 2 ^ 36
  if s.sec.halt || decide (w.len < o + n) || (wr && !w.rw) then .closed else .dpa (w.base + o) (tinfo s (w.base + o)).device

def target (s : State) (i a n : Nat) (wr : Bool) : Tgt :=
  if inside a n 0x100000 0x40000 then .tcm (a % 0x40000)
  else if inside a n 0x200000 0x40000 then .tcm (2 ^ 18 + a % 0x40000)
  else if i = s.cc.icCore then
    (if inside a n 0x20000000 0x1000 then .page (a % 0x1000)
     else if inside a n (2 ^ 40) (2 ^ 40) then winTgt s (a % 2 ^ 40) n wr
     else .out)
  else if inside a n 0 0x10000 then (if wr then .closed else .rom a)
  else if inside a n 0x1000000 0x400000 then .sram (a % 0x400000)
  else if inside a n 0x10000000 0x10000000 then .reg (a % 0x10000000)
  else if inside a n (2 ^ 40) (2 ^ 46) then dpaTgt s (above40 a) n
  else .out

/-- A device region (R299). -/
def Tgt.device : Tgt → Bool
  | .reg _ | .page _ => true
  | .dpa _ d => d
  | _ => false

/-- The access is refused at the core: off the map, or misaligned in a device region (R298). -/
def Tgt.bad (t : Tgt) (a n : Nat) : Bool :=
  match t with
  | .out | .closed => true
  | t => t.device && a % n != 0

/-- The controls of a retired lane, device or LUN give no acknowledge (R305, R428). -/
def deadReg (s : State) (off : Nat) : Bool :=
  let b := off / 0x100000
  let o := off % 0x100000
  if o < 0x80000 then false
  else
    let n := Config.instanceAt b o
    match b with
    | 0x02 => devRetired s (n % 32)
    | 0x04 => (s.lun (n % 512)).ash
    | 0x08 => (s.xe.lanes.get {} (n % 9)).st == 2
    | _ => false

def Tgt.dead (s : State) : Tgt → Bool
  | .reg off => deadReg s off
  | _ => false

/-! ## The ordering rules (R301) -/

/-- Two accesses share an aligned 8-byte location. -/
def share8 (a n b m : Nat) : Bool := decide (a / 8 ≤ (b + m - 1) / 8) && decide (b / 8 ≤ (a + n - 1) / 8)

def storesOf (sb : List SbEnt) : List SbEnt := sb.filter (fun e => e.mark.isNone)

/-- No fence that still waits names a later access of this class in its successor set; `before` are the entries ahead. -/
def fencesPass (rd dev : Bool) (before : List SbEnt) : List SbEnt → Bool
  | [] => true
  | e :: t => match e.mark with
    | some (p, q) => !(fenceOpen before p && inSet q rd dev) && fencesPass rd dev (before ++ [e]) t
    | none => fencesPass rd dev (before ++ [e]) t

/-- A buffered store may leave: fences, releases, coherence, and the order of device regions (R299, R301). -/
def mayLeave (before : List SbEnt) (e : SbEnt) : Bool :=
  let xs := storesOf before
  !e.sent && e.mark.isNone && fencesPass false e.dev [] before
    && xs.all (fun x => x.sent || !share8 x.addr x.size e.addr e.size)
    && (!e.dev || xs.all (fun x => !x.dev))
    && (!e.release || xs.isEmpty)

/-- The newest buffered store that shares a location with a load. -/
def newest (s : State) (i a n : Nat) : Option SbEnt :=
  (storesOf (s.cpu i).sb).reverse.find? (fun e => share8 e.addr e.size a n)

/-- A load may be performed now: fences before it, and device-region stores before a device-region load. -/
def mayLoad (s : State) (i : Nat) (dev : Bool) : Bool :=
  let sb := (s.cpu i).sb
  fencesPass true dev [] sb && (!dev || (storesOf sb).all (fun e => !e.dev))

/-- An LR, SC or AMO may be performed now: as a load and a store, after own stores to its location, and after every store
where it is a release (R300, R301). -/
def mayAtomic (s : State) (i a n : Nat) (dev rl : Bool) : Bool :=
  let sb := (s.cpu i).sb
  mayLoad s i dev && fencesPass false dev [] sb && (newest s i a n).isNone && (!rl || (storesOf sb).isEmpty)

/-! ## Memories of the cluster -/

/-- `n` bytes of a TCM or of the shared SRAM. -/
def tabBytes (t : Tab Byte) (off n : Nat) : List Byte := (List.range n).map (fun k => t.get 0 (off + k))
def tabPut (t : Tab Byte) (off : Nat) (bs : List Byte) : Tab Byte :=
  bs.zipIdx.foldl (fun (t : Tab Byte) x => t.set 0 (off + x.2) x.1) t

/-- The value of a load of `n` bytes. -/
def bytesVal (bs : List Byte) (signed : Bool) : BitVec 64 :=
  let v : BitVec 64 := BitVec.ofNat 64 (leNat bs)
  if signed && bs.length == 4 then (v.setWidth 32).signExtend 64 else v

/-- A store to a TCM of the core writes bytes and their check bits (R309). -/
def tcmPut (i off : Nat) (bs : List Byte) (s : State) : State :=
  s.modCpu i (fun c => { c with
    tcm := tabPut c.tcm off bs, badBytes := c.badBytes.filter (fun k => !(decide (off ≤ k) && decide (k < off + bs.length))) })

/-- A store to the shared SRAM ends the reservations that other cores hold on its lines (R307). -/
def sramPut (i off : Nat) (bs : List Byte) (s : State) : State :=
  let s := { s with cc := { s.cc with sram := tabPut s.cc.sram off bs } }
  (List.range 6).foldl (fun s j =>
    match (s.cpu j).resv with
    | some r =>
      if j != i && inside r 64 0x1000000 0x400000 && decide (r < 0x1000000 + off + bs.length) && decide (0x1000000 + off < r + 64)
      then resvLost j s else s
    | none => s) s

/-- A byte of a TCM that is marked uncorrectable, in a range. -/
def tcmMarked (s : State) (i off n : Nat) : Bool := (s.cpu i).badBytes.any (fun k => decide (off ≤ k) && decide (k < off + n))

/-- An uncorrectable byte of a TCM, or of the shared SRAM as TCM number 2, is never used (R298, R309). -/
def badUse (i : Nat) (t : Tgt) (s : State) : State :=
  match t with
  | .tcm off => tcmBadUse i (off / 2 ^ 18) (off % 2 ^ 18) s
  | .sram off => tcmBadFails i (tcmBadCount i 2 off s)
  | _ => s

/-! ## Loads (R301, R306) -/

/-- A core's access to DPA, in the pieces of its lines (R73). -/
def dpaReads (who : Agent) (dpa n tag : Nat) (signed : Bool) (rd : List RdRes) : List Acc :=
  (linePieces 2 dpa n).map (fun x =>
    { who := who, tag := tag, kind := .coreRd (x.1 % 64) x.2 signed, dpa := x.1 / 64 * 64, rd := if x.1 = dpa then rd else [] })

/-- Run accesses to DPA that the core waits for. -/
def dpaRun (i : Nat) (as : List Acc) (s : State) : State :=
  afterAccess (as.foldl (fun s a => submit a s) (s.modCpu i (fun c => { c with loadWait := true })))

/-- The registers that a core reads at an offset from 0x1000_0000: 4 or 8 aligned bytes, slots of any length, and the pop
location (R326, R431). A pair is read whole; a narrow access reads 0. -/
def regLoad (s : State) (i off n : Nat) : Nat × State :=
  let b := off / 0x100000
  let o := off % 0x100000
  let ag := Agent.core i
  let win := decide (b = 0x0B) && decide (o < 0x20000)
  let ch := o / 0x1000
  let r := o % 0x1000
  if win && decide (r + n ≤ 0x800) then (leNat (slotBytes s ch r n), s)
  else if win && decide (0x820 ≤ r) && decide (r + n ≤ 0x830) then
    (if n < 4 then (0, s)
     else if r = 0x820 then
      (let (e, t) := popNote ch s
       (noteNat e % 2 ^ (8 * n), { t with noteLatch := (ag, ch, e) :: t.noteLatch.filter (fun x => !(x.1 == ag && x.2.1 == ch)) }))
     else
      (let e := match s.noteLatch.find? (fun x => x.1 == ag && x.2.1 == ch) with
        | some x => x.2.2
        | none => {}
       (noteNat e / 2 ^ (8 * (r - 0x820)) % 2 ^ (8 * n), s)))
  else if n < 4 then (0, s)
  else if 0x80000 ≤ o then (Config.freeRead s.free % 2 ^ (8 * n), draw s)
  else if n = 4 then (regVal s ag b o, regReadEff ag b o s)
  else match pairAt b o with
    | some p => (pairValue s p % 2 ^ 64, setLatch ag p (pairValue s p) s)
    | none =>
      let t := regReadEff ag b o s
      (regVal s ag b o + regVal t ag b (o + 4) * 2 ^ 32, regReadEff ag b (o + 4) t)

/-- The integrator core's page (R438). -/
def pageVal (s : State) (off : Nat) : Nat :=
  let i := s.cc.icCore
  if off < 0x880 then winVal s 29 off
  else match off with
    | 0x910 => (s.cpu i).sterrAddr % 2 ^ 32
    | 0x914 => latched s .ic (.ccSterrAddr i)
    | 0x918 => ccSterrInfoReg s i
    | 0x920 => s.tb.count % 2 ^ 32
    | 0x924 => latched s .ic .tbCount
    | _ => 0
def pageEff (off : Nat) (s : State) : State :=
  match off with
  | 0x830 => lostClear 29 s
  | 0x910 => setLatch .ic (.ccSterrAddr s.cc.icCore) (s.cpu s.cc.icCore).sterrAddr s
  | 0x920 => setLatch .ic .tbCount s.tb.count s
  | _ => s
def pageLoad (s : State) (off n : Nat) : Nat × State :=
  if off + n ≤ 0x800 then (leNat (slotBytes s 29 off n), s)
  else if 0x820 ≤ off ∧ off + n ≤ 0x830 then
    (if n < 4 then (0, s)
     else if off = 0x820 then
      (let (e, t) := popNote 29 s
       (noteNat e % 2 ^ (8 * n), { t with noteLatch := (.ic, 29, e) :: t.noteLatch.filter (fun x => !(x.1 == .ic && x.2.1 == 29)) }))
     else
      (let e := match s.noteLatch.find? (fun x => x.1 == .ic && x.2.1 == 29) with
        | some x => x.2.2
        | none => {}
       (noteNat e / 2 ^ (8 * (off - 0x820)) % 2 ^ (8 * n), s)))
  else if n < 4 then (0, s)
  else if n = 4 then (pageVal s off, pageEff off s)
  else if off = 0x910 then ((s.cpu s.cc.icCore).sterrAddr, s)
  else if off = 0x920 then (s.tb.count, s)
  else
    let t := pageEff off s
    (pageVal s off + pageVal t (off + 4) * 2 ^ 32, pageEff (off + 4) t)

/-- Perform a load at its target (LR where `lr`). -/
def loadAt (i a n : Nat) (lr : Bool) (tcm : TcmRes) (rd : List RdRes) (t : Tgt) (s : State) : State :=
  match t with
  | .rom off => coreDone i a (bytesVal ((List.range n).map (fun k => Config.freeRom (off + k))) lr) s
  | .tcm off =>
    if tcm == .bad || tcmMarked s i off n then badUse i t s
    else coreDone i a (bytesVal (tabBytes (s.cpu i).tcm off n) lr)
      (if tcm == .corrected then tcmCorrected i (off / 2 ^ 18) (off % 2 ^ 18) s else s)
  | .sram off => if tcm == .bad then badUse i t s else coreDone i a (bytesVal (tabBytes s.cc.sram off n) lr) s
  | .reg off =>
    if deadReg s off then s.modCpu i (fun c => { c with loadWait := true })
    else
      let (v, s) := regLoad s i off n
      coreDone i a (BitVec.ofNat 64 v) s
  | .page off =>
    let (v, s) := pageLoad s off n
    coreDone i a (BitVec.ofNat 64 v) s
  | .dpa d _ => dpaRun i (dpaReads (coreAgent s i) d n a lr rd) s
  | .out | .closed => s

/-- A precise access fault of an access that its target refuses. -/
def accFault (i : Nat) (t : Tgt) (s : State) : State :=
  match t with
  | .out => mapFault i s
  | _ => trapTake i .accessFault s

/-- A load: its own newest store gives the value where it covers the load; where it covers a part, the load waits (R301). -/
def load (i a n : Nat) (tcm : TcmRes) (rd : List RdRes) (s : State) : State :=
  let t := target s i a n false
  if t.bad a n then accFault i t s
  else if !mayLoad s i t.device then s
  else if t.device then loadAt i a n false tcm rd t s
  else match newest s i a n with
    | none => loadAt i a n false tcm rd t s
    | some e =>
      if e.addr ≤ a ∧ a + n ≤ e.addr + e.size
      then coreDone i a ((e.val >>> (8 * (a - e.addr))) &&& BitVec.ofNat 64 (2 ^ (8 * n) - 1)) s else s

/-- An acquire load is performed before every access that follows it: a core here performs one load at a time, in program
order (R301 rule 3). -/
def loadInstruction (i a n : Nat) (_acquire : Bool) (tcm : TcmRes) (rd : List RdRes) (s : State) : State :=
  coreRow i (load i a n tcm rd) s
def execLoadInstruction (core addr size : Nat) (acquire : Bool) (tcm : TcmRes) (rd : List RdRes) (s : State) : Res :=
  run (coreOk core && accessOk addr size) (loadInstruction core addr size acquire tcm rd s)

/-! ## Stores (R300, R301, R303) -/

/-- A store retires into the buffer of 16 stores; a full buffer holds it back (R300). -/
def store (i a n : Nat) (v : BitVec 64) (release : Bool) (s : State) : State :=
  let t := target s i a n true
  if t.bad a n then accFault i t s
  else if 16 ≤ (storesOf (s.cpu i).sb).length then count 0x2821 i 0 1 s
  else retire i a (s.modCpu i (fun c => { c with sb := c.sb ++
    [{ addr := a, size := n, val := v &&& BitVec.ofNat 64 (2 ^ (8 * n) - 1), release := release, dev := t.device }] }))

def storeInstruction (i a n : Nat) (v : BitVec 64) (release : Bool) (s : State) : State := coreRow i (store i a n v release) s
def execStoreInstruction (core addr size : Nat) (v : BitVec 64) (release : Bool) (s : State) : Res :=
  run (coreOk core && accessOk addr size) (storeInstruction core addr size v release s)

/-- The entry is marked as sent. -/
def sbSent (i : Nat) (e : SbEnt) (s : State) : State :=
  s.modCpu i (fun c => { c with sb := c.sb.map (fun x => if x = e then { e with sent := true } else x) })

/-- A store that crosses a line leaves in two pieces; the second stays behind the first (R73). -/
def sbSplit (i : Nat) (e lo hi : SbEnt) (s : State) : State :=
  s.modCpu i (fun c => { c with sb := c.sb.flatMap (fun x => if x = e then [lo, hi] else [x]) })

/-- A core's write to DPA. -/
def dpaWrite (who : Agent) (tag d : Nat) (bs : List Byte) : Acc :=
  { who := who, tag := tag, kind := .coreWr, dpa := d / 64 * 64, wr := some (putBytes 0 (d % 64) bs, maskAt (d % 64) bs.length) }

/-- Perform a store at its target. A store that its target answers with an error, or whose aperture was closed after it
retired, ends at once without effect (R305). -/
def storeAt (i : Nat) (e : SbEnt) (errResp : Bool) (s : State) : State :=
  let bs := valBytes e.val e.size
  match target s i e.addr e.size true with
  | .tcm off => tcmPut i off bs (sbErase i e s)
  | .sram off => sramPut i off bs (sbErase i e s)
  | .reg off =>
    if deadReg s off then sbSent i e s
    else if errResp then storeError i 2 e.addr true (sbErase i e s)
    else coreRegWrite i e.addr e.size e.val (sbErase i e s)
  | .page off =>
    if errResp then storeError i 2 e.addr true (sbErase i e s) else icPageWrite off e.size e.val (sbErase i e s)
  | .dpa d _ =>
    let m := 64 - d % 64
    if m < e.size then
      let lo := { e with size := m, val := e.val &&& BitVec.ofNat 64 (2 ^ (8 * m) - 1), sent := true }
      let hi := { e with addr := e.addr + m, size := e.size - m, val := e.val >>> (8 * m) }
      afterAccess (submit (dpaWrite (coreAgent s i) e.addr d (bs.take m)) (sbSplit i e lo hi s))
    else afterAccess (submit (dpaWrite (coreAgent s i) e.addr d bs) (sbSent i e s))
  | .rom _ | .out | .closed => storeError i 2 e.addr true (sbErase i e s)

/-- The `idx`-th entry of the buffer leaves it, where the order allows. -/
def storeLeaves (i idx : Nat) (errResp : Bool) (s : State) : State :=
  let sb := (s.cpu i).sb
  match sb[idx]? with
  | some e => if mayLeave (sb.take idx) e then storeAt i e errResp s else s
  | none => s

/-- The buffer works while the core waits for a load. -/
def storeVisible (i idx : Nat) (errResp : Bool) (s : State) : State :=
  if coreRuns s i then boundary i (storeLeaves i idx errResp s) else s
def execStoreVisible (core idx : Nat) (errResp : Bool) (s : State) : Res :=
  run (coreOk core && decide (idx < 16)) (storeVisible core idx errResp s)

/-! ## Fences (R301, R304) -/

/-- A FENCE takes its place behind the stores that its predecessor set names; it is complete where there are none. -/
def fencePut (i pred succ : Nat) (s : State) : State :=
  let s := if fenceOpen (s.cpu i).sb pred then
      count 0x2822 i 0 1 (s.modCpu i (fun c => { c with
        sb := c.sb ++ [{ addr := 0, size := 0, val := 0, release := false, mark := some (pred, succ) }] })) else s
  retire i 0 s

def fence (i pred succ : Nat) (s : State) : State := coreRow i (fencePut i pred succ) s
def execFence (core pred succ : Nat) (s : State) : Res :=
  run (coreOk core && decide (pred < 16) && decide (succ < 16)) (fence core pred succ s)

/-- `FENCE.I`: the core's own stores to its instruction TCM are visible to its later fetches; they leave the buffer in order. -/
def fenceIPut (i : Nat) (s : State) : State :=
  let own := (storesOf (s.cpu i).sb).filter (fun e => inside e.addr e.size 0x100000 0x40000)
  retire i 0 (own.foldl (fun s e => storeAt i e false s) s)

def fenceI (i : Nat) (s : State) : State := coreRow i (fenceIPut i) s
def execFenceI (core : Nat) (s : State) : Res := run (coreOk core) (fenceI core s)

/-! ## Reservations and atomics (R307, R308) -/

/-- An atomic access that its place refuses: off the map, misaligned, or in a register (R298, R307). -/
def atomicBad (t : Tgt) (a n : Nat) : Bool :=
  t.bad a n || a % n != 0 || (match t with
    | .reg _ | .page _ | .rom _ => true
    | _ => false)

/-- `LR`: the line is reserved, and the load performed. -/
def lrDo (i a n : Nat) (rl : Bool) (s : State) : State :=
  let t := target s i a n false
  if atomicBad t a n then accFault i t s
  else if !mayAtomic s i a n t.device rl then s
  else loadAt i a n true .clean [] t (s.modCpu i (fun c => { c with resv := some (a / 64 * 64), resvAge := 0 }))

def lr (i a n : Nat) (_aq rl : Bool) (s : State) : State := coreRow i (lrDo i a n rl) s
def execLr (core addr size : Nat) (aq rl : Bool) (s : State) : Res := run (coreOk core && atomicOk addr size) (lr core addr size aq rl s)

/-- A write of another source to the line waits and will be ordered first. -/
def writeAhead (s : State) (i d : Nat) : Bool :=
  s.te.waits.any (fun w => w.acc.isWrite && w.acc.line == d / 64 && w.acc.who != coreAgent s i && !w.ordered)

/-- The reservation holds for an SC. -/
def scHolds (s : State) (i a : Nat) (t : Tgt) : Bool :=
  (s.cpu i).resv == some (a / 64 * 64) && (match t with
    | .dpa d _ => !writeAhead s i d
    | _ => true)

/-- `SC`: it writes only where the reservation holds, and ends it either way; 0 for success, 1 for failure. -/
def scDo (i a n : Nat) (v : BitVec 64) (rl : Bool) (s : State) : State :=
  let t := target s i a n true
  if atomicBad t a n then accFault i t s
  else if !mayAtomic s i a n t.device rl then s
  else
    let holds := scHolds s i a t
    let s := s.modCpu i (fun c => { c with resv := none, resvAge := 0 })
    let bs := valBytes v n
    if !holds then coreDone i a 1 (count 0x2824 i 0 1 s)
    else match t with
      | .tcm off => coreDone i a 0 (tcmPut i off bs s)
      | .sram off => coreDone i a 0 (sramPut i off bs s)
      | .dpa d _ => dpaRun i [{ dpaWrite (coreAgent s i) a d bs with kind := .coreSc a }] s
      | _ => s

def sc (i a n : Nat) (v : BitVec 64) (_aq rl : Bool) (s : State) : State := coreRow i (scDo i a n v rl) s
def execSc (core addr size : Nat) (v : BitVec 64) (aq rl : Bool) (s : State) : Res :=
  run (coreOk core && atomicOk addr size) (sc core addr size v aq rl s)

/-- An `AMO` on a memory of the cluster: one read and one write, in one step. -/
def amoTab (i a : Nat) (op : AmoOp) (n : Nat) (v : BitVec 64) (old : List Byte) (put : List Byte → State → State) (s : State) : State :=
  let was := bytesVal old true
  coreDone i a was (put (valBytes (amoEval op n was v) n) s)

/-- `AMO` (R308): at the segment's home for DPA. -/
def amoDo (i a n : Nat) (op : AmoOp) (v : BitVec 64) (rl : Bool) (s : State) : State :=
  let t := target s i a n true
  if atomicBad t a n then accFault i t s
  else if !mayAtomic s i a n t.device rl then s
  else match t with
    | .tcm off => if tcmMarked s i off n then badUse i t s
      else amoTab i a op n v (tabBytes (s.cpu i).tcm off n) (tcmPut i off) s
    | .sram off => amoTab i a op n v (tabBytes s.cc.sram off n) (sramPut i off) s
    | .dpa d _ => dpaRun i [{ who := coreAgent s i, tag := a, kind := .coreAmo op (d % 64) n v, dpa := d / 64 * 64 }] s
    | _ => s

def amo (i a n : Nat) (op : AmoOp) (v : BitVec 64) (_aq rl : Bool) (s : State) : State := coreRow i (amoDo i a n op v rl) s
def execAmo (core addr size : Nat) (op : AmoOp) (v : BitVec 64) (aq rl : Bool) (s : State) : Res :=
  run (coreOk core && atomicOk addr size) (amo core addr size op v aq rl s)

/-! ## Time-outs (R305, R306) -/

/-- 1 ms to 1.1 ms after a store left the buffer, its target silent: it ends with an error, and what waited for it goes on. -/
def storeTimeout (i : Nat) (s : State) : State :=
  match (storesOf (s.cpu i).sb).find? (fun e => e.sent && (target s i e.addr e.size true).dead s) with
  | some e => storeError i 1 e.addr true (sbErase i e s)
  | none => s
def storeErrorTimeout (i : Nat) (s : State) : State := if coreRuns s i then boundary i (storeTimeout i s) else s
def execStoreErrorTimeout (core : Nat) (s : State) : Res := run (coreOk core) (storeErrorTimeout core s)

/-- The same of a load or fetch: a precise access fault, and no value. -/
def loadAccessTimeout (i : Nat) (s : State) : State :=
  if !coreRuns s i || !(s.cpu i).loadWait || s.te.waits.any (fun w => w.acc.who == coreAgent s i && w.acc.kind != .coreWr) then s
  else trapTake i .accessFault (s.modCpu i (fun c => { c with loadWait := false }))
def execLoadAccessTimeout (core : Nat) (s : State) : Res := run (coreOk core) (loadAccessTimeout core s)

/-! ## Other instructions (R307, R311, R314) -/

def otherDo (i : Nat) (kind : OtherKind) (s : State) : State :=
  match kind with
  | .plain => retire i 0 s
  | .trap => trapTake i .external s
  | .trapReturn => retire i 0 (s.modCpu i (fun c => { c with inTrap := false }))
  | .fetch off bad => if bad then tcmBadUse i 0 off s else retire i 0 (tcmCorrected i 0 off s)
  | .doubleTrap => if i = s.cc.icCore then icFaultNow 2 (resvLost i s) else trapTake i .external s

def otherInstruction (i : Nat) (kind : OtherKind) (s : State) : State := coreRow i (otherDo i kind) s
def execOtherInstruction (core : Nat) (kind : OtherKind) (s : State) : Res :=
  run (coreOk core && kind.wf) (otherInstruction core kind s)

end Sys2Proof.Machine
end

