-- ==== Sys2Proof/Machine/Dispatch.lean ====
section
/-! DEFINITION. One arm per command: a direct call of its meaning. -/

namespace Sys2Proof.Machine

open Sys2Proof

def exec (i : Instr) (s : State) : Host.Outcome State Fault Refusal :=
  match i with
  -- Time and handshakes (03_handshake_timing.md)
  | .paceWindowEnd rings => Sys2Proof.Machine.execPaceWindowEnd rings s
  | .ppsEdge cycles sub highNs => Sys2Proof.Machine.execPpsEdge cycles sub highNs s
  | .ppsLost => Sys2Proof.Machine.execPpsLost s
  | .tbCtlPpsEnSet ag => Sys2Proof.Machine.execTbCtlPpsEnSet ag s
  | .tbCtlPpsEnClear ag => Sys2Proof.Machine.execTbCtlPpsEnClear ag s
  | .tbCtlStepEnSet ag => Sys2Proof.Machine.execTbCtlStepEnSet ag s
  | .tbCtlStepEnClear ag => Sys2Proof.Machine.execTbCtlStepEnClear ag s
  | .loReadLatch ag reg part => Sys2Proof.Machine.execLoReadLatch ag reg part s
  | .tbPpsStatRead ag => Sys2Proof.Machine.execTbPpsStatRead ag s
  | .hfPaceWrite ag v => Sys2Proof.Machine.execHfPaceWrite ag v s
  | .lineTrigEdge input falling pulseNs restNs cycles sub => Sys2Proof.Machine.execLineTrigEdge input falling pulseNs restNs cycles sub s
  -- Address space and turfs (04_address_space.md)
  | .turfCreate rq id base size rtype => Sys2Proof.Machine.execTurfCreate rq id base size rtype s
  | .turfDestroy rq id => Sys2Proof.Machine.execTurfDestroy rq id s
  | .turfResize rq id size => Sys2Proof.Machine.execTurfResize rq id size s
  | .turfSet rq id mask reserve cap deadline rtype => Sys2Proof.Machine.execTurfSet rq id mask reserve cap deadline rtype s
  | .turfGrant rq id grantee access => Sys2Proof.Machine.execTurfGrant rq id grantee access s
  | .turfRevoke rq id grantee => Sys2Proof.Machine.execTurfRevoke rq id grantee s
  | .turfQuery rq id => Sys2Proof.Machine.execTurfQuery rq id s
  | .windowMap rq fn base len => Sys2Proof.Machine.execWindowMap rq fn base len s
  | .billetUnmap billet => Sys2Proof.Machine.execBilletUnmap billet s
  | .hdmDecoderCommit port ld dec base size ways gran pos skip lock commit => Sys2Proof.Machine.execHdmDecoderCommit port ld dec base size ways gran pos skip lock commit s
  -- Host memory requests and host functions (04, 10_ports.md)
  | .memrd m rd => Sys2Proof.Machine.execMemrd m rd s
  | .memrddata m rd => Sys2Proof.Machine.execMemrddata m rd s
  | .memwr m data poison edcFails => Sys2Proof.Machine.execMemwr m data poison edcFails s
  | .memwrptl m data mask poison rd => Sys2Proof.Machine.execMemwrptl m data mask poison rd s
  | .memspecrd m => Sys2Proof.Machine.execMemspecrd m s
  | .unsupportedM2sOpcode m opcode => Sys2Proof.Machine.execUnsupportedM2sOpcode m opcode s
  | .bar2Read port func tag off len rd => Sys2Proof.Machine.execBar2Read port func tag off len rd s
  | .bar2Write port func off bytes relaxed poison rd => Sys2Proof.Machine.execBar2Write port func off bytes relaxed poison rd s
  | .atomicopRequest port func tag => Sys2Proof.Machine.execAtomicopRequest port func tag s
  | .configurationRequest port func off wr => Sys2Proof.Machine.execConfigurationRequest port func off wr s
  | .globalPersistentFlush port => Sys2Proof.Machine.execGlobalPersistentFlush port s
  | .functionLevelReset port func => Sys2Proof.Machine.execFunctionLevelReset port func s
  | .portReset port => Sys2Proof.Machine.execPortReset port s
  -- Front tier (05_front_tier.md)
  | .correctedLineWriteBack frame line => Sys2Proof.Machine.execCorrectedLineWriteBack frame line s
  | .ftRetrack dev margin retrained responds => Sys2Proof.Machine.execFtRetrack dev margin retrained responds s
  | .gddr6TemperatureReading temps => Sys2Proof.Machine.execGddr6TemperatureReading temps s
  | .refreshBandCooler => Sys2Proof.Machine.execRefreshBandCooler s
  | .perBankRefresh => Sys2Proof.Machine.execPerBankRefresh s
  | .patrolStep rd => Sys2Proof.Machine.execPatrolStep rd s
  | .rowSparingCopy rd => Sys2Proof.Machine.execRowSparingCopy rd s
  | .dirtyFrameCopy frame bad twinLines => Sys2Proof.Machine.execDirtyFrameCopy frame bad twinLines s
  | .gddr6DeviceRetired dev => Sys2Proof.Machine.execGddr6DeviceRetired dev s
  | .ftRawWrite core => Sys2Proof.Machine.execFtRawWrite core s
  | .ftRawRead core => Sys2Proof.Machine.execFtRawRead core s
  | .ftRawDecode core => Sys2Proof.Machine.execFtRawDecode core s
  | .ftRawLock core => Sys2Proof.Machine.execFtRawLock core s
  | .frontQuery rq => Sys2Proof.Machine.execFrontQuery rq s
  | .frontRetire rq dev => Sys2Proof.Machine.execFrontRetire rq dev s
  | .dirtyCeilingSet rq gib => Sys2Proof.Machine.execDirtyCeilingSet rq gib s
  | .frontRaw rq op dev line data check => Sys2Proof.Machine.execFrontRaw rq op dev line data check s
  -- Tier pool (06_tier_pool.md)
  | .ageSweep => Sys2Proof.Machine.execAgeSweep s
  | .backgroundEviction => Sys2Proof.Machine.execBackgroundEviction s
  | .evictionCommitPoint frame => Sys2Proof.Machine.execEvictionCommitPoint frame s
  | .mediaFillUnit frame unit good susp => Sys2Proof.Machine.execMediaFillUnit frame unit good susp s
  | .lookasideFillComplete port => Sys2Proof.Machine.execLookasideFillComplete port s
  | .teLaInval ag port => Sys2Proof.Machine.execTeLaInval ag port s
  | .cheaperPathDeadline frame line => Sys2Proof.Machine.execCheaperPathDeadline frame line s
  | .destageComplete frame rds => Sys2Proof.Machine.execDestageComplete frame rds s
  | .destageProgramFail frame => Sys2Proof.Machine.execDestageProgramFail frame s
  | .destageRetry billet => Sys2Proof.Machine.execDestageRetry billet s
  -- Media (07_media_management.md)
  | .rowVerification row failing => Sys2Proof.Machine.execRowVerification row failing s
  | .kilnFold => Sys2Proof.Machine.execKilnFold s
  | .blockSetEraseComplete set ok => Sys2Proof.Machine.execBlockSetEraseComplete set ok s
  | .mediaIdle => Sys2Proof.Machine.execMediaIdle s
  | .smoulder => Sys2Proof.Machine.execSmoulder s
  | .driftSample set overHalf again => Sys2Proof.Machine.execDriftSample set overHalf again s
  | .mediaReadComplete id res cls susp => Sys2Proof.Machine.execMediaReadComplete id res cls susp s
  | .blockSetCheckpoint bad => Sys2Proof.Machine.execBlockSetCheckpoint bad s
  | .wearTableRebuilt lun => Sys2Proof.Machine.execWearTableRebuilt lun s
  | .levellingMove => Sys2Proof.Machine.execLevellingMove s
  | .lunStatusTimeout lun lost => Sys2Proof.Machine.execLunStatusTimeout lun lost s
  | .journalSectorTimer => Sys2Proof.Machine.execJournalSectorTimer s
  | .checkpointChunk => Sys2Proof.Machine.execCheckpointChunk s
  | .mediaQuery rq => Sys2Proof.Machine.execMediaQuery rq s
  | .mediaFormat rq gib slc => Sys2Proof.Machine.execMediaFormat rq gib slc s
  | .mediaRetire rq chan lun lost => Sys2Proof.Machine.execMediaRetire rq chan lun lost s
  | .mcRecDeepRead ag => Sys2Proof.Machine.execMcRecDeepRead ag s
  -- Ember and recovery (08_ember_and_recovery.md)
  | .pfWarnAccepted => Sys2Proof.Machine.execPfWarnAccepted s
  | .pfWarnReleased => Sys2Proof.Machine.execPfWarnReleased s
  | .pfWarnReleaseHeld => Sys2Proof.Machine.execPfWarnReleaseHeld s
  | .emberQuiesceComplete us => Sys2Proof.Machine.execEmberQuiesceComplete us s
  | .emberFlushComplete us badLines twinLines => Sys2Proof.Machine.execEmberFlushComplete us badLines twinLines s
  | .sealComplete => Sys2Proof.Machine.execSealComplete s
  | .sealedHoldTimeout => Sys2Proof.Machine.execSealedHoldTimeout s
  | .sealedRestart lost fail => Sys2Proof.Machine.execSealedRestart lost fail s
  | .fullScan unreadable rejected fail => Sys2Proof.Machine.execFullScan unreadable rejected fail s
  | .emberQuery rq => Sys2Proof.Machine.execEmberQuery rq s
  | .holdupSet rq mj mw => Sys2Proof.Machine.execHoldupSet rq mj mw s
  | .emberDrill rq => Sys2Proof.Machine.execEmberDrill rq s
  -- Twin pair (09_twin_pair.md)
  | .twinPortTrained hi width => Sys2Proof.Machine.execTwinPortTrained hi width s
  | .hello h p => Sys2Proof.Machine.execHello h p s
  | .pairResult h outcome reason pgen pairId => Sys2Proof.Machine.execPairResult h outcome reason pgen pairId s
  | .keepalive h => Sys2Proof.Machine.execKeepalive h s
  | .retry h expected => Sys2Proof.Machine.execRetry h expected s
  | .peerStatus h pool budgetGib ceilGib budget64k => Sys2Proof.Machine.execPeerStatus h pool budgetGib ceilGib budget64k s
  | .repl h seg gen stamp recs => Sys2Proof.Machine.execRepl h seg gen stamp recs s
  | .replAck h stamp => Sys2Proof.Machine.execReplAck h stamp s
  | .fwd h tag dpa unmap mask data cfg => Sys2Proof.Machine.execFwd h tag dpa unmap mask data cfg s
  | .fwdResult h tag result => Sys2Proof.Machine.execFwdResult h tag result s
  | .unitReq h tag billet unit mode rds => Sys2Proof.Machine.execUnitReq h tag billet unit mode rds s
  | .unitReply h tag status stamp mask data => Sys2Proof.Machine.execUnitReply h tag status stamp mask data s
  | .credit h frames => Sys2Proof.Machine.execCredit h frames s
  | .migBegin h seg => Sys2Proof.Machine.execMigBegin h seg s
  | .migReady h seg => Sys2Proof.Machine.execMigReady h seg s
  | .migDone h seg stamp => Sys2Proof.Machine.execMigDone h seg stamp s
  | .genList h first gens => Sys2Proof.Machine.execGenList h first gens s
  | .unitCopy h billet unit st mask data => Sys2Proof.Machine.execUnitCopy h billet unit st mask data s
  | .segDone h seg gen => Sys2Proof.Machine.execSegDone h seg gen s
  | .segAck h seg => Sys2Proof.Machine.execSegAck h seg s
  | .resyncDone h pgen => Sys2Proof.Machine.execResyncDone h pgen s
  | .cmd h slot => Sys2Proof.Machine.execCmd h slot s
  | .cmdReply h slot => Sys2Proof.Machine.execCmdReply h slot s
  | .emberNotice h cause ents => Sys2Proof.Machine.execEmberNotice h cause ents s
  | .haltNotice h reason ents => Sys2Proof.Machine.execHaltNotice h reason ents s
  | .streamState h ents => Sys2Proof.Machine.execStreamState h ents s
  | .peerReset h => Sys2Proof.Machine.execPeerReset h s
  | .linkGapTimeout => Sys2Proof.Machine.execLinkGapTimeout s
  | .twinPortSilent hi => Sys2Proof.Machine.execTwinPortSilent hi s
  | .replAckTimeout => Sys2Proof.Machine.execReplAckTimeout s
  | .keepaliveTimer => Sys2Proof.Machine.execKeepaliveTimer s
  | .peerStatusTimer => Sys2Proof.Machine.execPeerStatusTimer s
  | .streamStateTimer => Sys2Proof.Machine.execStreamStateTimer s
  | .pseqInNotLive forOneMs => Sys2Proof.Machine.execPseqInNotLive forOneMs s
  | .pseqInClaim => Sys2Proof.Machine.execPseqInClaim s
  | .quorumWindowEnd => Sys2Proof.Machine.execQuorumWindowEnd s
  | .takeoverRecordCommitted => Sys2Proof.Machine.execTakeoverRecordCommitted s
  | .twinRetrainAttempt => Sys2Proof.Machine.execTwinRetrainAttempt s
  | .twinPortDegrade hi width => Sys2Proof.Machine.execTwinPortDegrade hi width s
  | .twinQuery rq => Sys2Proof.Machine.execTwinQuery rq s
  | .twinHomeSet rq base size policy => Sys2Proof.Machine.execTwinHomeSet rq base size policy s
  | .twinTakeover rq => Sys2Proof.Machine.execTwinTakeover rq s
  | .twinUnpair rq => Sys2Proof.Machine.execTwinUnpair rq s
  | .twinPeerReset rq => Sys2Proof.Machine.execTwinPeerReset rq s
  | .twinRetrain rq => Sys2Proof.Machine.execTwinRetrain rq s
  -- Ports (10_ports.md)
  | .portLinkUp port rate width flit reversed mldOk => Sys2Proof.Machine.execPortLinkUp port rate width flit reversed mldOk s
  | .portDisabledRetry port => Sys2Proof.Machine.execPortDisabledRetry port s
  | .portLaneFailed port => Sys2Proof.Machine.execPortLaneFailed port s
  | .streamPortEnumeration port found => Sys2Proof.Machine.execStreamPortEnumeration port found s
  | .consumerErrCor port consumer => Sys2Proof.Machine.execConsumerErrCor port consumer s
  | .consumerErrFatal port consumer => Sys2Proof.Machine.execConsumerErrFatal port consumer s
  | .streamPathLinkDown port consumer => Sys2Proof.Machine.execStreamPathLinkDown port consumer s
  | .inboundRequest port => Sys2Proof.Machine.execInboundRequest port s
  | .consumerInterrupt port consumer => Sys2Proof.Machine.execConsumerInterrupt port consumer s
  | .getEventRecords port ld log => Sys2Proof.Machine.execGetEventRecords port ld log s
  | .clearEventRecords port ld log all handles => Sys2Proof.Machine.execClearEventRecords port ld log all handles s
  | .getEventInterruptPolicy port ld => Sys2Proof.Machine.execGetEventInterruptPolicy port ld s
  | .setEventInterruptPolicy port ld modes nums => Sys2Proof.Machine.execSetEventInterruptPolicy port ld modes nums s
  | .getSupportedLogs port ld => Sys2Proof.Machine.execGetSupportedLogs port ld s
  | .getLog port ld => Sys2Proof.Machine.execGetLog port ld s
  | .identifyMemoryDevice port ld => Sys2Proof.Machine.execIdentifyMemoryDevice port ld s
  | .getHealthInfo port ld => Sys2Proof.Machine.execGetHealthInfo port ld s
  | .getPoisonList port ld base len => Sys2Proof.Machine.execGetPoisonList port ld base len s
  | .primaryMailboxUnsupported port ld opcode => Sys2Proof.Machine.execPrimaryMailboxUnsupported port ld opcode s
  | .getLdInfo port => Sys2Proof.Machine.execGetLdInfo port s
  | .getLdAllocations port => Sys2Proof.Machine.execGetLdAllocations port s
  | .setLdAllocations port sizes => Sys2Proof.Machine.execSetLdAllocations port sizes s
  | .getQosControl port => Sys2Proof.Machine.execGetQosControl port s
  | .setQosControl port vals => Sys2Proof.Machine.execSetQosControl port vals s
  | .getQosStatus port => Sys2Proof.Machine.execGetQosStatus port s
  | .msixVectorUnmask port func vec => Sys2Proof.Machine.execMsixVectorUnmask port func vec s
  | .portQuery rq port => Sys2Proof.Machine.execPortQuery rq port s
  | .portRetrain rq port => Sys2Proof.Machine.execPortRetrain rq port s
  | .portRescan rq port => Sys2Proof.Machine.execPortRescan rq port s
  -- Stream channels (11_stream_channels.md)
  | .streamJobLoad rq c p => Sys2Proof.Machine.execStreamJobLoad rq c p s
  | .streamJobUnload rq c => Sys2Proof.Machine.execStreamJobUnload rq c s
  | .streamStart rq c stamp mode peer => Sys2Proof.Machine.execStreamStart rq c stamp mode peer s
  | .streamStop rq c => Sys2Proof.Machine.execStreamStop rq c s
  | .streamResume rq c line stamp mode peer => Sys2Proof.Machine.execStreamResume rq c line stamp mode peer s
  | .streamQuery rq c => Sys2Proof.Machine.execStreamQuery rq c s
  | .channelArmed c => Sys2Proof.Machine.execChannelArmed c s
  | .primeTimeout c => Sys2Proof.Machine.execPrimeTimeout c s
  | .startStampReached c => Sys2Proof.Machine.execStartStampReached c s
  | .triggerDecisionPoint input rds => Sys2Proof.Machine.execTriggerDecisionPoint input rds s
  | .lineReleaseComplete c => Sys2Proof.Machine.execLineReleaseComplete c s
  | .streamCreditDoorbell c port consumer v be => Sys2Proof.Machine.execStreamCreditDoorbell c port consumer v be s
  | .suChLateMaxWrite ag c v => Sys2Proof.Machine.execSuChLateMaxWrite ag c v s
  -- Expansion engine (12_nolene_expansion.md)
  | .stickRendered c stick lane laneOk => Sys2Proof.Machine.execStickRendered c stick lane laneOk s
  | .testStick results => Sys2Proof.Machine.execTestStick results s
  | .laneResponseTimeout lane => Sys2Proof.Machine.execLaneResponseTimeout lane s
  | .spareLaneActivation => Sys2Proof.Machine.execSpareLaneActivation s
  | .noleneCheck rq base len => Sys2Proof.Machine.execNoleneCheck rq base len s
  | .xeQuery rq => Sys2Proof.Machine.execXeQuery rq s
  | .xeLaneRetire rq lane => Sys2Proof.Machine.execXeLaneRetire rq lane s
  -- Control cluster (13_control_cluster.md)
  | .loadInstruction core addr size acquire tcm rd => Sys2Proof.Machine.execLoadInstruction core addr size acquire tcm rd s
  | .storeInstruction core addr size v release => Sys2Proof.Machine.execStoreInstruction core addr size v release s
  | .storeVisible core idx errResp => Sys2Proof.Machine.execStoreVisible core idx errResp s
  | .fence core pred succ => Sys2Proof.Machine.execFence core pred succ s
  | .fenceI core => Sys2Proof.Machine.execFenceI core s
  | .lr core addr size aq rl => Sys2Proof.Machine.execLr core addr size aq rl s
  | .sc core addr size v aq rl => Sys2Proof.Machine.execSc core addr size v aq rl s
  | .amo core addr size op v aq rl => Sys2Proof.Machine.execAmo core addr size op v aq rl s
  | .storeErrorTimeout core => Sys2Proof.Machine.execStoreErrorTimeout core s
  | .loadAccessTimeout core => Sys2Proof.Machine.execLoadAccessTimeout core s
  | .ccSterrInfoClear ag core => Sys2Proof.Machine.execCcSterrInfoClear ag core s
  | .heartbeatMissed role => Sys2Proof.Machine.execHeartbeatMissed role s
  | .clusterResetComplete stOk => Sys2Proof.Machine.execClusterResetComplete stOk s
  | .ccHeartbeatWrite ag role => Sys2Proof.Machine.execCcHeartbeatWrite ag role s
  | .coreLogicFault core => Sys2Proof.Machine.execCoreLogicFault core s
  | .tcmPatrol core tcm corrected bad => Sys2Proof.Machine.execTcmPatrol core tcm corrected bad s
  | .icWatchdogExpiry => Sys2Proof.Machine.execIcWatchdogExpiry s
  | .ccIcKickWrite ag => Sys2Proof.Machine.execCcIcKickWrite ag s
  | .coreQuery rq => Sys2Proof.Machine.execCoreQuery rq s
  | .icLoad rq src base len chk => Sys2Proof.Machine.execIcLoad rq src base len chk s
  | .icStart rq wdt => Sys2Proof.Machine.execIcStart rq wdt s
  | .icStop rq => Sys2Proof.Machine.execIcStop rq s
  | .icWindowMap rq w base len access => Sys2Proof.Machine.execIcWindowMap rq w base len access s
  -- Mailboxes (14_mailboxes_and_atorn.md)
  | .mbReqDbWrite ch v be => Sys2Proof.Machine.execMbReqDbWrite ch v be s
  | .mbRplDbWrite ch v be => Sys2Proof.Machine.execMbRplDbWrite ch v be s
  | .requestTaken => Sys2Proof.Machine.execRequestTaken s
  | .descriptorAreaComplete rq ok inArea => Sys2Proof.Machine.execDescriptorAreaComplete rq ok inArea s
  | .mbNotePop ch ag => Sys2Proof.Machine.execMbNotePop ch ag s
  | .mbNoteStatRead ch => Sys2Proof.Machine.execMbNoteStatRead ch s
  | .mbCtlReset ch => Sys2Proof.Machine.execMbCtlReset ch s
  | .mbBindLockSet ag => Sys2Proof.Machine.execMbBindLockSet ag s
  | .smbusSlotWrite off bytes pecOk => Sys2Proof.Machine.execSmbusSlotWrite off bytes pecOk s
  | .smbusRequestDoorbell v pecOk => Sys2Proof.Machine.execSmbusRequestDoorbell v pecOk s
  | .smbusStatusRead pecOk => Sys2Proof.Machine.execSmbusStatusRead pecOk s
  | .smbusReplyOffset off pecOk => Sys2Proof.Machine.execSmbusReplyOffset off pecOk s
  | .smbusReplyRead pecOk => Sys2Proof.Machine.execSmbusReplyRead pecOk s
  | .smbusReplyDoorbell v pecOk => Sys2Proof.Machine.execSmbusReplyDoorbell v pecOk s
  | .smbusNotificationPop pecOk => Sys2Proof.Machine.execSmbusNotificationPop pecOk s
  | .smbusChannelReset v pecOk => Sys2Proof.Machine.execSmbusChannelReset v pecOk s
  | .smbusOtherCode code => Sys2Proof.Machine.execSmbusOtherCode code s
  | .identify rq => Sys2Proof.Machine.execIdentify rq s
  | .nop rq => Sys2Proof.Machine.execNop rq s
  | .mbQuery rq channel => Sys2Proof.Machine.execMbQuery rq channel s
  | .fwQuery rq => Sys2Proof.Machine.execFwQuery rq s
  | .fwUpdateBegin rq target len => Sys2Proof.Machine.execFwUpdateBegin rq target len s
  | .fwUpdateData rq off data => Sys2Proof.Machine.execFwUpdateData rq off data s
  | .fwUpdateEnd rq chk => Sys2Proof.Machine.execFwUpdateEnd rq chk s
  | .fwActivate rq => Sys2Proof.Machine.execFwActivate rq s
  | .updateSessionTimeout => Sys2Proof.Machine.execUpdateSessionTimeout s
  | .blockRunCommandEnd rq => Sys2Proof.Machine.execBlockRunCommandEnd rq s
  -- Security (15_security.md)
  | .rngHealthFail => Sys2Proof.Machine.execRngHealthFail s
  | .frontSweepStep rd => Sys2Proof.Machine.execFrontSweepStep rd s
  | .mediaSweepStep => Sys2Proof.Machine.execMediaSweepStep s
  | .mediaSweepComplete => Sys2Proof.Machine.execMediaSweepComplete s
  | .unlockClosureEnd area => Sys2Proof.Machine.execUnlockClosureEnd area s
  | .secQuery rq => Sys2Proof.Machine.execSecQuery rq s
  | .rekeyStart rq scope => Sys2Proof.Machine.execRekeyStart rq scope s
  | .rekeyPause rq op => Sys2Proof.Machine.execRekeyPause rq op s
  -- Option store and ledger (16_option_store_and_ledger.md)
  | .optCtlCommit core tpage => Sys2Proof.Machine.execOptCtlCommit core tpage s
  | .optCtlLoad core tpage => Sys2Proof.Machine.execOptCtlLoad core tpage s
  | .optByteAccess core wr => Sys2Proof.Machine.execOptByteAccess core wr s
  | .pageWriteComplete => Sys2Proof.Machine.execPageWriteComplete s
  | .optionPatrol weak damaged => Sys2Proof.Machine.execOptionPatrol weak damaged s
  | .optRead rq first count => Sys2Proof.Machine.execOptRead rq first count s
  | .optWrite rq form page off data image imageOk => Sys2Proof.Machine.execOptWrite rq form page off data image imageOk s
  | .optUnlock rq area dir pw => Sys2Proof.Machine.execOptUnlock rq area dir pw s
  | .optPasswordSet rq area dir old new => Sys2Proof.Machine.execOptPasswordSet rq area dir old new s
  | .ledgerQuery rq => Sys2Proof.Machine.execLedgerQuery rq s
  | .ledgerRead rq first count out => Sys2Proof.Machine.execLedgerRead rq first count out s
  | .ledgerAgeTimer => Sys2Proof.Machine.execLedgerAgeTimer s
  | .ledgerProgramComplete ok bad => Sys2Proof.Machine.execLedgerProgramComplete ok bad s
  | .highWaterCommitComplete => Sys2Proof.Machine.execHighWaterCommitComplete s
  -- Reset, power and thermal (17_reset_power_thermal.md)
  | .porDetected => Sys2Proof.Machine.execPorDetected s
  | .resetNAccepted => Sys2Proof.Machine.execResetNAccepted s
  | .resetNReleased => Sys2Proof.Machine.execResetNReleased s
  | .pllLocked pll => Sys2Proof.Machine.execPllLocked pll s
  | .pllLockTimeout pll => Sys2Proof.Machine.execPllLockTimeout pll s
  | .pllLockLost pll => Sys2Proof.Machine.execPllLockLost pll s
  | .pllRelocked pll noResponse => Sys2Proof.Machine.execPllRelocked pll noResponse s
  | .firmwareEntryLimit => Sys2Proof.Machine.execFirmwareEntryLimit s
  | .startComplete => Sys2Proof.Machine.execStartComplete s
  | .sequencerEnable => Sys2Proof.Machine.execSequencerEnable s
  | .sequencerDisable => Sys2Proof.Machine.execSequencerDisable s
  | .sequencerWait => Sys2Proof.Machine.execSequencerWait s
  | .sequencerWaitExpiry => Sys2Proof.Machine.execSequencerWaitExpiry s
  | .sequencerCheck => Sys2Proof.Machine.execSequencerCheck s
  | .sequencerCheckTimeout => Sys2Proof.Machine.execSequencerCheckTimeout s
  | .sequencerJump => Sys2Proof.Machine.execSequencerJump s
  | .sequencerEnd => Sys2Proof.Machine.execSequencerEnd s
  | .sequencerBudgetExceeded => Sys2Proof.Machine.execSequencerBudgetExceeded s
  | .powerUpRetry => Sys2Proof.Machine.execPowerUpRetry s
  | .pgInGood inp => Sys2Proof.Machine.execPgInGood inp s
  | .pgInBad inp => Sys2Proof.Machine.execPgInBad inp s
  | .pgInGlitch inp => Sys2Proof.Machine.execPgInGlitch inp s
  | .railMeasurement mv => Sys2Proof.Machine.execRailMeasurement mv s
  | .restartFromShutdown => Sys2Proof.Machine.execRestartFromShutdown s
  | .thermalSample samples selfCheckFail => Sys2Proof.Machine.execThermalSample samples selfCheckFail s
  | .throttlePhaseEnd => Sys2Proof.Machine.execThrottlePhaseEnd s
  | .deviceReset rq reach port clear => Sys2Proof.Machine.execDeviceReset rq reach port clear s
  | .powerQuery rq => Sys2Proof.Machine.execPowerQuery rq s
  | .thermalQuery rq => Sys2Proof.Machine.execThermalQuery rq s
  | .thMaxSeenWrite ag v => Sys2Proof.Machine.execThMaxSeenWrite ag v s
  -- Observability and registers (18_observability.md, 19_register_map.md)
  | .bandwidthWindowEnd bytesIn bytesOut => Sys2Proof.Machine.execBandwidthWindowEnd bytesIn bytesOut s
  | .pmonCtlSnap ag => Sys2Proof.Machine.execPmonCtlSnap ag s
  | .pmonCtlClear ag => Sys2Proof.Machine.execPmonCtlClear ag s
  | .pmonSelWrite ag k inst v => Sys2Proof.Machine.execPmonSelWrite ag k inst v s
  | .pmonBwMaxWrite ag port out => Sys2Proof.Machine.execPmonBwMaxWrite ag port out s
  | .pmonConfig rq cfg => Sys2Proof.Machine.execPmonConfig rq cfg s
  | .pmonRead rq what first count => Sys2Proof.Machine.execPmonRead rq what first count s
  | .pmonDumpSet rq target base entries every => Sys2Proof.Machine.execPmonDumpSet rq target base entries every s
  | .eventRoute rq cls mask vec => Sys2Proof.Machine.execEventRoute rq cls mask vec s
  | .glbIntEnWrite port func v => Sys2Proof.Machine.execGlbIntEnWrite port func v s
  | .registerWrite ag addr size v => Sys2Proof.Machine.execRegisterWrite ag addr size v s
  -- Rows the table lists last, of the families above
  | .porReleased => Sys2Proof.Machine.execPorReleased s
  | .commandResetSourceReleased src => Sys2Proof.Machine.execCommandResetSourceReleased src s
  | .pseqInLive heldOneSec => Sys2Proof.Machine.execPseqInLive heldOneSec s
  | .linkUpconfigure port width => Sys2Proof.Machine.execLinkUpconfigure port width s
  | .fillLineArrival frame line => Sys2Proof.Machine.execFillLineArrival frame line s
  | .checkRetry inp => Sys2Proof.Machine.execCheckRetry inp s
  | .dumpComplete => Sys2Proof.Machine.execDumpComplete s
  | .otherInstruction core kind => Sys2Proof.Machine.execOtherInstruction core kind s

end Sys2Proof.Machine
end

