-- ==== Sys2Proof/Machine/Step.lean ====
section
/-! DEFINITION. One step: the command at the front of the queue, or one cycle of the reference clock. -/

namespace Sys2Proof.Machine

open Sys2Proof

/-- The state with the front command taken off its queue. -/
def State.popped (s : State) (rest : List Instr) : State := { s with pending := rest }

/-- A step (notes/assumptions/1.md): the front command's effect; on an empty queue one reference cycle passes (R52). -/
def step (s : State) : Host.Outcome State Fault Refusal :=
  match s.pending with
  | [] => .next (idleCycle s)
  | c :: rest => exec c (s.popped rest)

/-- The state with the command that a word spells at the front of its queue. -/
def State.withFetchWord (s : State) (nbits w : Nat) : State :=
  match decodeTableWord nbits w with
  | some c => { s with pending := c :: s.pending }
  | none => s

end Sys2Proof.Machine
end

