-- ==== Sys2Proof/Safety.lean ====
section
/-! DEFINITION. What counts as a safe state and a safe run, in the terms the statements use: every memory of the device in
its canonical form, the timebase within its width, and no step that stops. -/

namespace Sys2Proof.Safety

open Sys2Proof Sys2Proof.Machine

/-- The memories of the device in canonical form: keys rise and no entry equals what an unlisted one reads as. They are the
front tier's lines (R74), the media's slots and their lines (R123, R127), the tier map (R98), the shared SRAM (R298), the NOR
(R336) and the option store's pages (R365). -/
structure memOk (s : State) : Prop where
  lines : Tab.wf zeroLine s.ft.lines = true
  mlines : Tab.wf zeroLine s.mc.mlines = true
  slots : Tab.wf none s.mc.slots = true
  map : Tab.wf .unmapped s.te.map = true
  sram : Tab.wf 0 s.cc.sram = true
  nor : Tab.wf 0xFF s.norBytes = true
  pages : Tab.wf {} s.opt.pages = true

/-- The timebase holds 64 bits of nanoseconds and a fraction below one (R52). -/
abbrev tbOk (s : State) : Prop := s.tb.count < 2 ^ 64 ∧ s.tb.frac < 2 ^ 32

/-- The invariant of the device: its memories are canonical and its timebase is within its width. -/
structure Inv (s : State) : Prop where
  mem : memOk s
  tb : tbOk s

/-- A request is accepted: its channel can have one taken, its tag is not in flight, its opcode is one of R334, and right,
mode and instance allow it (R318, R322, R332, R333). `owns` and `granted` are the rights S and G where the opcode asks them. -/
def accepts (s : State) (rq : Rq) (op : Nat) (owns granted : Bool) : Prop :=
  canTake s rq.ch = true ∧ (∀ f ∈ (s.mbox rq.ch).flights, f.tag ≠ rq.tag) ∧
    ∃ r, opRow op = some r ∧ gate s rq r owns granted = none

/-- The state in which an accepted request runs: taken from its slot and in flight (R322). -/
def begun (s : State) (rq : Rq) (op : Nat) : State :=
  takeDirect rq ((s.mbox rq.ch).flights ++ [directFlight s rq op (((opRow op).map (·.block)).getD false)]) s

/-- The state after an accepted request's effect `t`: the channel's interrupt for having become empty included (R323). -/
def answered (s : State) (rq : Rq) (t : State) : State := emptied rq.ch s t

/-- The state after an accepted request whose effect is `eff`, in which no check of its own fails (R333). -/
def doneBy (s : State) (rq : Rq) (op : Nat) (eff : State → State) : State := answered s rq (eff (begun s rq op))

/-- A well-formed request that is accepted, of an opcode whose right asks neither S nor G or whose S and G hold. -/
abbrev sentOk (c : Instr) (s : State) (rq : Rq) (op : Nat) : Prop := c.wf = true ∧ accepts s rq op true true

/-- An agent's writes of block-window registers have their effect: a core of the firmware, or a host function whose binding
has `ADMIN`, in D0 behind a port that serves (R241, R429, R434). -/
def mayWrite (s : State) : Agent → Prop
  | .core i => i < 5
  | .fn p f => p < 10 ∧ f < 16 ∧ fnReached s p f = true ∧ (s.fn p f).d3 = false ∧ fnAdmin s p f = true
  | _ => False

/-- An agent that is no host function in D3hot (R241). -/
def notD3 (s : State) : Agent → Prop
  | .fn p f => (s.fn p f).d3 = false
  | _ => True

/-- The reply slot of a request that its row presents (R328): data beyond 240 bytes is cut with status 0x0001 (R330, R331). -/
def replyOf (s : State) (rq : Rq) (op st det : Nat) (data : List Byte) : List Byte :=
  replySlot op 0 rq.tag (if 240 < data.length ∧ st = 0 then 1 else st) ((s.mbox rq.ch).expect.getD 0)
    (if data.isEmpty then det else data.length) (data.take 240)

/-- The reply stands in the next slot of the channel's reply ring and its producer count has advanced (R322); the reply to a
command of the twin is sent on the twin link, if a twin port carries one and the link is not muted (R213, R341). -/
def replied (s t : State) (rq : Rq) (op st det : Nat) (data : List Byte) : Prop :=
  (rq.ch ≠ 30 → (t.mbox rq.ch).slots.get [] (4 + (s.mbox rq.ch).rplProd % 4) = replyOf s rq op st det data ∧
    (t.mbox rq.ch).rplProd = ((s.mbox rq.ch).rplProd + 1) % 256) ∧
  (rq.ch = 30 → s.tu.idle = false → (s.tu.lo.up = true ∨ s.tu.hi.up = true) → linkMute s (.cmdReply []) = false →
    ∃ x ∈ t.tu.sent, x.msg = .cmdReply (replyOf s rq op st det data))

/-- A frame of the twin link with message `m` is in order (R193-R195): the link carries frames, its tag and form are right, its
session is the one in force, its number is the next expected, and the device has sent no `HALT_NOTICE` that leaves the message out
(R213). -/
def inOrder (s : State) (h : LinkHdr) (m : LinkMsg) : Prop :=
  s.tu.idle = false ∧ (s.tu.lo.up = true ∨ s.tu.hi.up = true) ∧ linkQuiet s = false ∧ h.tagOk = true ∧ formOk h m = true ∧
    sessionOk h s = true ∧ hdrNum h = s.tu.rxSeq ∧ (s.tp.haltSent = false ∨ keptAfterHalt m = true)

/-- The frame that a message of the twin arrives in: its header and its message (R193, R196). -/
def frameOf : Instr → Option (LinkHdr × LinkMsg)
  | .hello h p => some (h, .hello p)
  | .pairResult h outcome reason pgen pairId => some (h, .pairResult outcome reason pgen pairId)
  | .keepalive h => some (h, .keepalive)
  | .retry h expected => some (h, .retry expected)
  | .peerStatus h pool budgetGib ceilGib budget64k => some (h, .peerStatus pool budgetGib ceilGib budget64k)
  | .repl h seg gen stamp recs => some (h, .repl seg gen stamp recs)
  | .replAck h stamp => some (h, .replAck stamp)
  | .fwd h tag dpa unmap mask data cfg => some (h, .fwd tag dpa unmap mask data cfg)
  | .fwdResult h tag result => some (h, .fwdResult tag result)
  | .unitReq h tag billet unit mode _ => some (h, .unitReq tag billet unit mode)
  | .unitReply h tag status stamp mask data => some (h, .unitReply tag status stamp mask data)
  | .credit h frames => some (h, .credit frames)
  | .migBegin h seg => some (h, .migBegin seg)
  | .migReady h seg => some (h, .migReady seg)
  | .migDone h seg stamp => some (h, .migDone seg stamp)
  | .genList h first gens => some (h, .genList first gens)
  | .unitCopy h billet unit st mask data => some (h, .unitCopy billet unit st mask data)
  | .segDone h seg gen => some (h, .segDone seg gen)
  | .segAck h seg => some (h, .segAck seg)
  | .resyncDone h pgen => some (h, .resyncDone pgen)
  | .cmd h slot => some (h, .cmd slot)
  | .cmdReply h slot => some (h, .cmdReply slot)
  | .emberNotice h cause ents => some (h, .emberNotice cause ents)
  | .haltNotice h reason ents => some (h, .haltNotice reason ents)
  | .streamState h ents => some (h, .streamState ents)
  | .peerReset h => some (h, .peerReset)
  | _ => none

/-- The twin link takes frames (R161, R208): its ports are not in electrical idle, one of them carries frames, and step 5 of ember is
not reached. -/
def linkTakes (s : State) : Prop := s.tu.idle = false ∧ (s.tu.lo.up = true ∨ s.tu.hi.up = true) ∧ linkQuiet s = false

/-- A `HELLO` is judged by its own session number; that of a second twin A before this device has had a `HELLO` is not (R198). -/
def ownSession (s : State) (h : LinkHdr) : LinkMsg → Prop
  | .hello p => helloHdr h p s = h
  | _ => True

/-- The state in which the message of a frame in order is acted on (R194): what its `ACK` covers is forgotten and the next number
is expected. -/
def received (s : State) (h : LinkHdr) : State :=
  { s with tu := { s.tu with session := h.session, sent := s.tu.sent.filter (fun f => decide (h.ack ≤ f.lseq)),
                             rxSeq := s.tu.rxSeq + 1, gap := false } }

/-- A core executes its next memory instruction: it runs, no load of it waits and no exception is owed (R305, R306). -/
abbrev coreReady (s : State) (i : Nat) : Prop :=
  i < 6 ∧ coreRuns s i = true ∧ (s.cpu i).loadWait = false ∧ (s.cpu i).exc = []

/-- A step that answers a next state. -/
abbrev goesOn (s : State) : Prop := ∃ t, step s = .next t

/-- Every command that waits is well formed. -/
abbrev queueOk (s : State) : Prop := s.pending.all Instr.wf = true

end Sys2Proof.Safety
end

