-- ==== Sys2Proof/Certificates/Slice0/Obligations.lean ====
section
/-! DEFINITION. The statements for the provers: what each command does, what a step does, what the state after reset is, and the
invariant that every step keeps. `sentOk c s rq op` (Safety) says that the command is well formed and its request is accepted;
`doneBy` is the reply of a request that its checks let through. -/

open Sys2Proof Sys2Proof.Machine Sys2Proof.Safety

/-! ## General -/

/-- A step with a command at the front of the queue is that command's meaning on the state with the queue's rest. -/
def Obligations.StepRunsCommand : Prop :=
  ∀ (c : Instr) (s : State), step { s with pending := c :: s.pending } = exec c s

/-- Every well-formed command answers a next state, in every state; one that names an element no part has stops as *no such
element* (the model's choice, log entry 2). -/
def Obligations.WellFormedCommandsRun : Prop :=
  ∀ (c : Instr) (s : State), (c.wf = true → ∃ t, exec c s = .next t) ∧ (c.wf = false → exec c s = .fault .noSuchElement)

/-- What the spec fixes of the state after reset: no command waits and nothing is in flight; the timebase is at 0 and free-running,
no block is initialised, no port is open, no stream runs, the RPM waits for its power-on reset, and nothing is listed in memory. -/
def Obligations.ResetState : Prop :=
  State.reset.pending = [] ∧ State.reset.tb.count = 0 ∧ State.reset.tb.frac = 0 ∧ State.reset.tb.adj = 0 ∧
    State.reset.tb.pps = .free ∧ State.reset.rpm.asserted = [.por] ∧ State.reset.rpm.rst = 0x800 ∧
    State.reset.rpm.reach = 5 ∧ State.reset.rpm.en = 0x01 ∧ State.reset.px.open_ = false ∧ (∀ p, (State.reset.port p).serving = false) ∧
    (∀ ch, (State.reset.mbox ch).reqProd = 0 ∧ (State.reset.mbox ch).reqCons = 0 ∧ (State.reset.mbox ch).rplProd = 0 ∧
      (State.reset.mbox ch).rplCons = 0 ∧ (State.reset.mbox ch).flights = []) ∧
    (∀ c, (State.reset.chan c).st = .empty ∧ (State.reset.chan c).job = none) ∧ (∀ b, State.reset.te.map.get .unmapped b = .unmapped) ∧
    (∀ i, (State.reset.cpu i).resv = none ∧ (State.reset.cpu i).sb = []) ∧ State.reset.cc.served = false ∧
    State.reset.pm.cnts = [] ∧ State.reset.dump.target = 0 ∧ State.reset.sec.rekey = 0 ∧ State.reset.sec.halt = false

/-- The invariant holds in the state after reset. -/
def Obligations.ResetMeetsInvariant : Prop := Inv State.reset

/-- Every step keeps the invariant: the front tier's lines, the media's slots and lines, the tier map, the shared SRAM, the NOR and
the option store stay in canonical form, and the timebase stays 64 bits of nanoseconds and a fraction below one. -/
def Obligations.StepKeepsInvariant : Prop := ∀ s t : State, Inv s → step s = .next t → Inv t

/-- No command changes the queue, the board or its fuses, and none draws a free value twice. -/
def Obligations.CommandsLeaveQueueAndBoard : Prop :=
  ∀ (c : Instr) (s t : State), exec c s = .next t → t.pending = s.pending ∧ t.board = s.board ∧ s.free ≤ t.free

/-- R322, R328, R331: an accepted request that its command answers is answered in the next slot of the channel's reply ring, and
only then the producer count advances; data of more than 240 bytes is cut and reported as status 0x0001. -/
def Obligations.AcceptedRequestsAreAnswered : Prop :=
  ∀ (s : State) (rq : Rq) (op st det : Nat) (data : List Byte), accepts s rq op true true →
    replied s (doneBy s rq op (fun u => reply rq st det data u)) rq op st det data

/-- R333: the checks of a request that can be taken, in their order: right, mode, instance, parameters, password, then the
conditions of its "Refused when"; the first that fails gives the reply, and nothing else of the command happens. A request taken from
its slot before its row is checked and run by its row in the same way. -/
def Obligations.CommandsAreChecked : Prop :=
  ∀ (s : State) (rq : Rq) (op : Nat) (r : OpRow) (own gr : State → Bool) (c : State → Cmd) (eff : State → State),
    opRow op = some r →
    (∀ f, waitingFlight s rq op = some f → f.started = true → rightOk s rq.ch (own s) (gr s) r.right = true →
      atorn op rq own gr c eff s = cmdRun rq (c (setRan rq s)) eff (setRan rq s)) ∧
    (canTake s rq.ch = true → (∀ f ∈ (s.mbox rq.ch).flights, f.tag ≠ rq.tag) →
    (rightOk s rq.ch (own s) (gr s) r.right = false →
      replied s (atorn op rq own gr c eff s) rq op 0x0104 0 []) ∧
    (rightOk s rq.ch (own s) (gr s) r.right = true → modeAllows s r = false →
      replied s (atorn op rq own gr c eff s) rq op 0x0105 (deviceMode s) []) ∧
    (rightOk s rq.ch (own s) (gr s) r.right = true → modeAllows s r = true → r.one = true → opRunning s op rq.ch rq.tag = true →
      replied s (atorn op rq own gr c eff s) rq op 0x0106 op []) ∧
    (gate s rq r (own s) (gr s) = none →
      (∀ n, firstTrue (c (begun s rq op)).bad 1 = some n → replied s (atorn op rq own gr c eff s) rq op 0x0300 n []) ∧
      (∀ a, firstTrue (c (begun s rq op)).bad 1 = none → (c (begun s rq op)).denied = some a →
        replied s (atorn op rq own gr c eff s) rq op 0x0303 a []) ∧
      (∀ n, firstTrue (c (begun s rq op)).bad 1 = none → (c (begun s rq op)).denied = none →
        firstTrue (c (begun s rq op)).refuse 1 = some n → replied s (atorn op rq own gr c eff s) rq op 0x0301 n []) ∧
      (firstTrue (c (begun s rq op)).bad 1 = none → (c (begun s rq op)).denied = none →
        firstTrue (c (begun s rq op)).refuse 1 = none → atorn op rq own gr c eff s = doneBy s rq op eff)))

/-- Reporting an event, counting it and recording it in the ledger change nothing of what the device stores, maps or runs: the front
tier, the tier engine, the media, the ember unit, the streams, the cluster's memories, the NOR, the option pages and the timebase
are as before. -/
def Obligations.ReportsChangeNoData : Prop :=
  ∀ (s t : State) (code inst param n src : Nat) (nm : Names) (ps : List Nat),
    (t = raise code inst param nm s ∨ t = count code inst param n s ∨ t = ledger code src ps s) →
      t.ft = s.ft ∧ t.te = s.te ∧ t.mc = s.mc ∧ t.mctl = s.mctl ∧ t.eu = s.eu ∧ t.su = s.su ∧ t.xe = s.xe ∧ t.cc = s.cc ∧
      t.norBytes = s.norBytes ∧ t.sec = s.sec ∧ t.tb = s.tb ∧ t.tu = s.tu ∧ t.rpm = s.rpm ∧ t.pending = s.pending ∧ t.px.ports = s.px.ports

/-! ## Handshake timing and the timebase (chapter 3) -/

/-- The events of time and its registers. PACE_WINDOW_END: `PACE_NOW` is the slowest ring and `PACE_LOW` no more than it (R48);
below `FLOOR` the event *pace low* and the ledger record of reading, band and corner come once (R49; the corner below 0.72 V and
above 0.82 V is the model's choice, log entry 96). PPS_EDGE with a pulse of 100 ns and more: a step pending is made, the first edge
measures no interval, a later one in range gives the adjustment; without `PPS_EN`, or below 10 ns, only time passes (R54, R57).
PPS_LOST: TRACKING becomes HOLDOVER with its event; any other state stays (R54). TB_CTL_PPS_EN_SET and _CLEAR, TB_CTL_STEP_EN_SET
(left at 0 while a channel is active) and _CLEAR, LO_READ_LATCH by a core, TB_PPS_STAT_READ, HF_PACE_WRITE (R5, R53-R55, R433).
LINE_TRIG_EDGE: an active edge between levels of 50 ns and more is stamped and goes to the stream unit (R56). -/
def Obligations.TimeCommandsComplete : Prop :=
  (∀ (s : State) (rings : List Nat), rings.length = 8 → (∀ r ∈ rings, r < 65536) →
    ∃ t u, exec (.paceWindowEnd rings) s = .next t ∧ u = { s with hf := t.hf } ∧ t.hf.paceNow ∈ rings ∧
      (∀ r ∈ rings, t.hf.paceNow ≤ r) ∧ t.hf.paceLow = min s.hf.paceLow t.hf.paceNow ∧ t.hf.floor = s.hf.floor ∧
      (t.hf.paceNow < s.hf.floor → t.hf.lowRaised = true) ∧
      (s.hf.floor ≤ t.hf.paceNow ∨ s.hf.lowRaised = true → t = u) ∧
      (t.hf.paceNow < s.hf.floor → s.hf.lowRaised = false →
        t = ledger 0x0400 0 [t.hf.paceNow, s.th.band, corner s] (raise 0x0400 0xFFFF 0 .nothing u))) ∧
  (∀ (s : State) (n sub w : Nat), sub < 10 → 100 ≤ w → s.rpm.asserted.any isCold = false → s.tb.pps = .stepPending →
    s.tb.havePrev = false →
    ∃ t, exec (.ppsEdge n sub w) s = .next t ∧ t.tb.pps = .tracking ∧ t.tb.havePrev = true ∧ t.tb.stepEn = false ∧ t.tb.adj = 0 ∧
      t.tb.rawSince = 0) ∧
  (∀ (s : State) (n sub w : Nat), sub < 10 → 100 ≤ w → s.rpm.asserted.any isCold = false →
    (s.tb.pps = .tracking ∨ s.tb.pps = .holdover) → s.tb.havePrev = false →
    ∃ t, exec (.ppsEdge n sub w) s = .next t ∧ t.tb.pps = .tracking ∧ t.tb.havePrev = true ∧ t.tb.adj = s.tb.adj ∧
      t.tb.rawSince = 0 ∧ t.tb.phaseErr = clamp31 (phaseErrOf t.tb.ppsStamp)) ∧
  (∀ (s : State) (n sub w : Nat), sub < 10 → 100 ≤ w → s.rpm.asserted.any isCold = false → s.tb.pps = .tracking →
    s.tb.havePrev = true → 99980000 ≤ s.tb.rawSince + n → s.tb.rawSince + n ≤ 100020000 →
    ∃ t, exec (.ppsEdge n sub w) s = .next t ∧ t.tb.pps = .tracking ∧ t.tb.refCycles = s.tb.rawSince + n ∧ t.tb.rawSince = 0 ∧
      -429497 ≤ t.tb.adj ∧ t.tb.adj ≤ 429497 ∧
      (t.tb.adj, t.tb.clamped) = adjOf (phaseErrOf t.tb.ppsStamp) (s.tb.rawSince + n)) ∧
  (∀ (s : State) (n sub w : Nat), sub < 10 → (w < 10 ∨ s.tb.pps = .free ∧ 100 ≤ w) →
    exec (.ppsEdge n sub w) s = .next (tbAdvance n s)) ∧
  (∀ s : State, s.tb.pps = .tracking → exec .ppsLost s = .next (raise 0x4000 0xFFFF 0 .nothing
    { s with tb := { s.tb with pps := .holdover, havePrev := false } })) ∧
  (∀ s : State, s.tb.pps ≠ .tracking → exec .ppsLost s = .next s) ∧
  (∀ (s : State) (ag : Agent), mayWrite s ag → s.tb.ppsEn = false → exec (.tbCtlPpsEnSet ag) s = .next
    { s with tb := { s.tb with ppsEn := true, havePrev := false,
                               pps := if s.tb.stepEn then .stepPending else .tracking } }) ∧
  (∀ (s : State) (ag : Agent), mayWrite s ag → s.tb.ppsEn = true → exec (.tbCtlPpsEnSet ag) s = .next s) ∧
  (∀ (s : State) (ag : Agent), mayWrite s ag → exec (.tbCtlPpsEnClear ag) s = .next
    { s with tb := { s.tb with ppsEn := false, havePrev := false, pps := .free } }) ∧
  (∀ (s : State) (ag : Agent), mayWrite s ag → (∀ c ∈ s.su.chans, chanActive c.2.st = false) → exec (.tbCtlStepEnSet ag) s = .next
    { s with tb := { s.tb with stepEn := true, pps := if s.tb.pps = .free then .free else .stepPending } }) ∧
  (∀ (s : State) (ag : Agent) (c : Nat × Chan), mayWrite s ag → c ∈ s.su.chans → chanActive c.2.st = true →
    exec (.tbCtlStepEnSet ag) s = .next s) ∧
  (∀ (s : State) (ag : Agent), mayWrite s ag → exec (.tbCtlStepEnClear ag) s = .next
    { s with tb := { s.tb with stepEn := false, pps := if s.tb.pps = .stepPending then .tracking else s.tb.pps } }) ∧
  (∀ (s : State) (i : Nat) (r : LoReg) (v : Nat), i < 5 → r.wf = true → r ≠ .glbSerial → v = pairValue s r →
    ∃ t, exec (.loReadLatch (.core i) r .lo) s = .next t ∧ t.out = .regRead (.core i) (v % 2 ^ 32) :: s.out ∧
      latched t (.core i) r = v / 2 ^ 32 % 2 ^ 32 ∧ t = { s with out := t.out, latch := t.latch }) ∧
  (∀ (s : State) (ag : Agent), mayWrite s ag → ∃ t v, exec (.tbPpsStatRead ag) s = .next t ∧ v / 2 ^ 24 = s.tb.rejectCnt ∧
    t = { s with out := .regRead ag v :: s.out, tb := { s.tb with rejectCnt := 0 } }) ∧
  (∀ (s : State) (ag : Agent) (v : Word), mayWrite s ag → exec (.hfPaceWrite ag v) s = .next
    { s with hf := { s.hf with paceLow := if s.hf.paceNow = 0 then (v >>> 16).toNat else min (v >>> 16).toNat s.hf.paceNow } }) ∧
  (∀ (s : State) (j w r n sub : Nat), j < 16 → 50 ≤ w → 50 ≤ r → sub < 10 → s.rpm.asserted.any isCold = false →
    s.tb.ltSeen.getLsbD j = false →
    ∃ t, exec (.lineTrigEdge j (s.tb.edgeFall.getLsbD j) w r n sub) s = .next t ∧
      t.tb.count = (s.tb.count + (s.tb.frac + 10 * n * (2 ^ 32 + s.tb.adj).toNat) / 2 ^ 32) % 2 ^ 64 ∧
      t.tb.ltStamp.get 0 j = stampAt sub (tbAdvance n s) ∧ t.su.edges = s.su.edges ++ [(j, t.tb.ltStamp.get 0 j)])

/-- R54, R57: what the other ends of a PPS edge and of a trigger edge are. An edge whose interval is off by more than 200 ppm
is counted and otherwise ignored; a trigger edge less than 450 ns after the last captured one sets the input's over-rate bit
and changes no stamp; a pulse below 10 ns is filtered. -/
def Obligations.RejectedEdges : Prop :=
  (∀ s : State, s.rpm.asserted.any isCold = false → s.tb.pps ≠ .free → s.tb.havePrev = true →
    ∀ n sub w, sub < 10 → 100 ≤ w → s.tb.rawSince + n < 99980000 ∨ 100020000 < s.tb.rawSince + n →
    ∃ t, exec (.ppsEdge n sub w) s = .next t ∧ t.tb.rejectCnt = min 255 (s.tb.rejectCnt + 1) ∧ t.tb.pps = s.tb.pps ∧
      t.tb.adj = s.tb.adj ∧ t.tb.rawSince = s.tb.rawSince + n ∧ t.tb.ppsStamp = s.tb.ppsStamp) ∧
  (∀ (s : State) (j w r sub : Nat), j < 16 → 50 ≤ w → 50 ≤ r → sub < 10 → s.tb.ltSeen.getLsbD j = true →
    s.tb.count < 2 ^ 64 → s.tb.frac < 2 ^ 32 → stampAt sub s < s.tb.ltLast.get 0 j + 450 →
    ∃ t, exec (.lineTrigEdge j (s.tb.edgeFall.getLsbD j) w r 0 sub) s = .next t ∧ t.tb.ovr.getLsbD j = true ∧
      t.tb.ltStamp = s.tb.ltStamp ∧ t.su.edges = s.su.edges) ∧
  (∀ (s : State) (j w r n sub : Nat) (b : Bool), j < 16 → sub < 10 → (w < 10 ∨ r < 10) →
    exec (.lineTrigEdge j b w r n sub) s = .next (tbAdvance n s))

/-- R52, R54: one reference cycle with no command waiting (an idle step, log entry 1) adds 10 ns × (1 + a), the remainder kept in
the fraction; the counter stands while a source of cold reach is asserted; the step of a pending alignment moves the counter forward
by less than one second, to a whole second where the edge falls on a reference cycle. -/
def Obligations.TimebaseMoves : Prop :=
  (∀ (s : State) (w : Nat), 100 ≤ w → s.rpm.asserted.any isCold = false → s.tb.pps = .stepPending → s.tb.havePrev = false →
    s.tb.count < 2 ^ 63 → s.tb.frac < 2 ^ 32 →
    ∃ t, exec (.ppsEdge 0 0 w) s = .next t ∧ t.tb.count % 1000000000 = 0 ∧ s.tb.count ≤ t.tb.count ∧
      t.tb.count < s.tb.count + 1000000000) ∧
  ∀ s : State, s.pending = [] →
    (s.rpm.asserted.any isCold = true → step s = .next s) ∧
    (s.rpm.asserted.any isCold = false → s.tb.frac < 2 ^ 32 → s.tb.count + 2 ^ 32 < 2 ^ 64 → -429497 ≤ s.tb.adj → s.tb.adj ≤ 429497 →
      ∃ t, step s = .next t ∧ ((t.tb.count * 2 ^ 32 + t.tb.frac : Nat) : Int)
        = (s.tb.count * 2 ^ 32 + s.tb.frac : Nat) + 10 * (2 ^ 32 + s.tb.adj) ∧
        t = { s with tb := { s.tb with count := t.tb.count, frac := t.tb.frac, rawSince := s.tb.rawSince + 1 } })

/-- R53: a read of `TB_COUNT_LO` latches `TB_COUNT_HI` for the same agent, so that LO followed by HI is one value of the counter
whatever happens to it in between; an aligned 64-bit read returns both halves at once; a write of either half changes nothing, or,
from a function without `ADMIN`, only its count of such writes. -/
def Obligations.TimebaseReads : Prop :=
  (∀ (s : State) (ag : Agent), ((∃ i, i < 5 ∧ ag = .core i) ∨ ag = .ic ∨
      ∃ p f, p < 10 ∧ f < 16 ∧ fnReached s p f = true ∧ (s.fn p f).d3 = false ∧ ag = .fn p f) → s.tb.count < 2 ^ 64 →
    (∃ t, exec (.loReadLatch ag .tbCount .lo) s = .next t ∧ t.out = .regRead ag (s.tb.count % 2 ^ 32) :: s.out ∧ t.tb = s.tb ∧
      ∀ u : State, u.latch = t.latch → (∀ p f, ag = .fn p f → fnReached u p f = true ∧ (u.fn p f).d3 = false) →
        exec (.loReadLatch ag .tbCount .hi) u = .next { u with out := .regRead ag (s.tb.count / 2 ^ 32) :: u.out }) ∧
    ∃ t, exec (.loReadLatch ag .tbCount .both) s = .next t ∧ t.out = .regRead ag s.tb.count :: s.out ∧ t.tb = s.tb) ∧
  (∀ (s : State) (i : Nat), coreReady s i → i ≠ s.cc.icCore → i < 5 → (s.cpu i).sb = [] → s.tb.count < 2 ^ 64 →
    ∃ t, exec (.loadInstruction i 0x11000000 8 false .clean []) s = .next t ∧ .coreVal i (BitVec.ofNat 64 s.tb.count) ∈ t.out) ∧
  (∀ (s : State) (i n : Nat) (v : BitVec 64), i < 5 → n ∈ [1, 2, 4, 8] →
    exec (.registerWrite (.core i) 0x11000000 n v) s = .next s ∧
    exec (.registerWrite (.core i) 0x11000004 n v) s = .next s) ∧
  (∀ (s : State) (p f n : Nat) (v : BitVec 64), p < 10 → f < 16 → n ∈ [1, 2, 4, 8] →
    (∃ t, exec (.registerWrite (.fn p f) 0x200000 n v) s = .next t ∧ t.tb = s.tb) ∧
    ∃ t, exec (.registerWrite (.fn p f) 0x200004 n v) s = .next t ∧ t.tb = s.tb) ∧
  ∀ (s : State) (n : Nat) (v : BitVec 64), n ∈ [1, 2, 4, 8] →
    exec (.registerWrite .ic 0x20000920 n v) s = .next s ∧ exec (.registerWrite .ic 0x20000924 n v) s = .next s

/-! ## Address space and turfs (chapter 4) -/

/-- What a turf command that its checks let through does (R60-R63): TURF_CREATE writes an entry with the default attributes and
unmaps its range; TURF_DESTROY removes the entry and unmaps it; TURF_RESIZE moves the upper end, and unmaps what a shrink drops;
TURF_SET changes the attributes its mask names; TURF_GRANT and TURF_REVOKE change the grants; TURF_QUERY answers with the turfs that
the sender may see. An entry is written by `turfPut`, whose command is answered when the write is durable and the unmaps are done. -/
def Obligations.TurfCommandsComplete : Prop :=
  (∀ s rq id base size rtype, sentOk (.turfCreate rq id base size rtype) s rq 0x0100 → id < 256 → rtype < 2 → s.turf id = none →
    badRange s base size = false → turfCount s < 256 →
    exec (.turfCreate rq id base size rtype) s = .next (doneBy s rq 0x0100 (fun u => turfPut rq id
      (some { base := base, size := size, device := rtype == 1, reserve := 0, cap := pairPool u, deadline := 120, grants := [] })
      (some (base, base + size)) u))) ∧
  (∀ s rq id t, sentOk (.turfDestroy rq id) s rq 0x0101 → id < 256 → s.turf id = some t → t.grants = [] →
    jobReaches s t.base (t.base + t.size) = false →
    exec (.turfDestroy rq id) s = .next (doneBy s rq 0x0101 (turfPut rq id none (some (t.base, t.base + t.size))))) ∧
  (∀ s rq id size t, sentOk (.turfResize rq id size) s rq 0x0102 → id < 256 → s.turf id = some t → 0 < size → size % 2 ^ 21 = 0 →
    t.size ≤ size → (t.size = size ∨ t.base + size ≤ uBytes s ∧ turfOverlaps s id (t.base + t.size) (t.base + size) = false) →
    exec (.turfResize rq id size) s = .next (doneBy s rq 0x0102 (turfPut rq id (some { t with size := size }) none))) ∧
  (∀ s rq id size t, sentOk (.turfResize rq id size) s rq 0x0102 → id < 256 → s.turf id = some t → 0 < size → size % 2 ^ 21 = 0 →
    size < t.size → anyReaches s (t.base + size) (t.base + t.size) = false → jobReaches s (t.base + size) (t.base + t.size) = false →
    exec (.turfResize rq id size) s = .next (doneBy s rq 0x0102 (turfPut rq id (some { t with size := size })
      (some (t.base + size, t.base + t.size))))) ∧
  (∀ s rq id mask reserve cap deadline rtype t u, sentOk (.turfSet rq id mask reserve cap deadline rtype) s rq 0x0103 → id < 256 →
    s.turf id = some t → turfSetBad mask reserve cap deadline rtype = false →
    u = turfSetTo (pairPool s) mask reserve cap deadline rtype t →
    (u.reserve ≤ t.reserve ∨ 4 * (otherReserves s id + u.reserve) ≤ 3 * pairPool s) → u.reserve ≤ u.cap →
    (u.device = t.device ∨ t.grants = []) →
    exec (.turfSet rq id mask reserve cap deadline rtype) s = .next (doneBy s rq 0x0103 (turfPut rq id (some u) none))) ∧
  (∀ s rq id g access t, sentOk (.turfGrant rq id g access) s rq 0x0104 → id < 256 → isGrantee g = true → access < 2 →
    s.turf id = some t → ((grantOf t g).isSome = true ∨ t.grants.length < 64 ∧ grantCount s < 1024) → granteePresent s g = true →
    exec (.turfGrant rq id g access) s = .next (doneBy s rq 0x0104 (turfPut rq id
      (some { t with grants := t.grants.filter (fun x => x.who != g) ++ [⟨g, access == 0⟩] }) none))) ∧
  (∀ s rq id g t, sentOk (.turfRevoke rq id g) s rq 0x0105 → id < 256 → isGrantee g = true → s.turf id = some t →
    (grantOf t g).isSome = true → agentReaches s g t.base (t.base + t.size) = false →
    exec (.turfRevoke rq id g) s = .next (doneBy s rq 0x0105 (turfPut rq id
      (some { t with grants := t.grants.filter (fun x => x.who != g) }) none))) ∧
  (∀ s rq id t, sentOk (.turfQuery rq id) s rq 0x0106 → id < 256 → s.turf id = some t → turfSeen s rq t = true →
    exec (.turfQuery rq id) s = .next (doneBy s rq 0x0106 (fun u => ok rq (pack (u.te.turfs.flatMap (fun kv => match kv.2 with
      | some t => if (id == allOnes || id == kv.1) && turfSeen u rq t then turfFlds u kv.1 t else []
      | none => []))) u))) ∧
  (∀ s rq, sentOk (.turfQuery rq allOnes) s rq 0x0106 → s.turf allOnes = none →
    exec (.turfQuery rq allOnes) s = .next (doneBy s rq 0x0106 (fun u => ok rq (pack (u.te.turfs.flatMap (fun kv => match kv.2 with
      | some t => if turfSeen u rq t then turfFlds u kv.1 t else []
      | none => []))) u)))

/-- The window of a plain PCIe function, an owed unmap and an HDM decoder (R65-R67, R102). WINDOW_MAP asks for the new map, which
replaces the old one when no access through that is left (`mapAsk`). *Billet unmap*: an owed unmap whose billet is at rest at its
home is ordered, any other command of that name leaves the billet as it is. *HDM decoder commit*: a decoder is committed exactly
when its fields are supported, the decoders below it are committed and end at or below its base, its range ends within the DPA space
and every DPA of it is granted to the LD; otherwise it holds Error Not Committed; a committed decoder keeps its fields. -/
def Obligations.WindowsAndDecodersComplete : Prop :=
  (∀ s rq fn base len p f, sentOk (.windowMap rq fn base len) s rq 0x0107 → (hasAdmin s rq.ch = true ∨ senderOf s rq.ch = fn) →
    fn = .fn p f → plainFn s fn = true → base % 2 ^ 21 = 0 → len % 2 ^ 21 = 0 → len ≤ 2 ^ (s.port p).bar2Log2 →
    covered s (mayReach fn false) base (base + len) = true →
    exec (.windowMap rq fn base len) s = .next (doneBy s rq 0x0107 (fun u =>
      mapAsk rq (p * 16 + f) base len false (setCommitted rq u)))) ∧
  (∀ s b, b < 2 ^ 30 → b ∈ s.te.unmaps → homedHere s (b / 32) = true → (s.seg (b / 32)).migrating = false → unmapIdle s b = true →
    exec (.billetUnmap b) s = .next (mediaLevels (settle (unmapOrdered b s)))) ∧
  (∀ s b, b < 2 ^ 30 → (b ∉ s.te.unmaps ∨ unmapIdle s b = false) →
    exec (.billetUnmap b) s = .next (mediaLevels (settle s))) ∧
  (∀ s p l k base size ways gran pos skip lock, (Instr.hdmDecoderCommit p l k base size ways gran pos skip lock true).wf = true →
    fnReached s p l = true → (s.port p).plain = false → ((s.ld p l).decs.get {} k).committed = false →
    ∃ t d, exec (.hdmDecoderCommit p l k base size ways gran pos skip lock true) s = .next t ∧
      t = s.modLd p l (fun x => { x with decs := x.decs.set {} k d }) ∧
      d.start = hdmStart s p l k skip ∧ d.error = !d.committed ∧ d.lock = (lock && d.committed) ∧
      (d.committed = true ↔ base % 2 ^ 28 = 0 ∧ size % 2 ^ 28 = 0 ∧ 0 < size ∧ ways ≤ 4 ∧ 8 ≤ gran ∧ gran ≤ 14 ∧ pos < 2 ^ ways ∧
        (∀ i < k, ((s.ld p l).decs.get {} i).committed = true ∧
          ((s.ld p l).decs.get {} i).base + ((s.ld p l).decs.get {} i).size ≤ base) ∧
        d.start + size / 2 ^ ways ≤ uBytes s ∧
        covered s (mayReach (.fn p l) false) d.start (d.start + size / 2 ^ ways) = true)) ∧
  (∀ s p l k base size ways gran pos skip lock, (Instr.hdmDecoderCommit p l k base size ways gran pos skip lock true).wf = true →
    ((s.ld p l).decs.get {} k).committed = true →
    exec (.hdmDecoderCommit p l k base size ways gran pos skip lock true) s = .next s)

/-! ## Host accesses (chapters 4 and 10) -/

/-- CXL.mem requests complete (R65, R68, R84, R85, R233): MEMRD, MEMRDDATA, MEMWR, MEMWRPTL, MEMSPECRD, *unsupported M2S opcode*.
A served read or write of a granted line becomes one access of that line, with the enabled bytes of a write and the failed sends of
a whole line; MEMSPECRD is dropped without a response; any other opcode is answered as unsupported, and where no CXL port takes the
request nothing happens. -/
def Obligations.LineRequestsComplete : Prop :=
  (∀ s m rd d, m.wf = true → cxlServes s m = true → notReady s = false → cxlDpa s m = some d →
    exec (.memrd m rd) s = .next (afterAccess (submit (cxlAcc m .cxlRd d none rd) s)) ∧
    exec (.memrddata m rd) s = .next (afterAccess (submit (cxlAcc m .cxlRd d none rd) s))) ∧
  (∀ s m rd d id t, m.wf = true → cxlServes s m = true → notReady s = false → cxlDpa s m = some d → turfAt s d = some (id, t) →
    mayReach (.fn m.port m.ld) true t = true →
    (∀ data n, exec (.memwr m data false n) s = .next (afterAccess (submit (cxlAcc m .cxlWr d (some (data, fullMask))
      (List.replicate (min 3 n) .edcFail)) (count 0x0020 m.port 0 64 s)))) ∧
    (∀ data mask, exec (.memwrptl m data mask false rd) s = .next (afterAccess (submit (cxlAcc m .cxlWr d (some (data, mask)) rd)
      (count 0x0020 m.port 0 64 s))))) ∧
  (∀ s m, m.wf = true → exec (.memspecrd m) s = .next s) ∧
  (∀ s m op, m.wf = true → op < 16 → cxlServes s m = true →
    exec (.unsupportedM2sOpcode m op) s = .next { s with out := .s2mUnsupported m.port m.ld m.tag op :: s.out }) ∧
  (∀ s m rd data mask poison n op, m.wf = true → op < 16 → cxlServes s m = false →
    exec (.memrd m rd) s = .next s ∧ exec (.memrddata m rd) s = .next s ∧ exec (.memwr m data poison n) s = .next s ∧
    exec (.memwrptl m data mask poison rd) s = .next s ∧ exec (.unsupportedM2sOpcode m op) s = .next s)

/-- What a CXL.mem request answers that reaches no line (R65, R68, R240): an address no committed decoder covers reads as all ones
with poison and discards writes; a write through a read-only grant is discarded, counted and reported to the grantee; a write
that carries poison writes nothing and raises *poisoned write dropped*. -/
def Obligations.LineRequestsWithoutEffect : Prop :=
  (∀ s m rd, m.wf = true → cxlServes s m = true → notReady s = false → cxlDpa s m = none →
    ∃ t, exec (.memrd m rd) s = .next t ∧ t.ft = s.ft ∧ t.te = s.te ∧ t.mc = s.mc ∧
      .s2mAllOnes m.port m.ld m.tag (devLoad s m.port 0xFFFF) ∈ t.out ∧
      (t.port m.port).poisonOut = inc32 (s.port m.port).poisonOut) ∧
  (∀ s m data, m.wf = true → cxlServes s m = true → notReady s = false → cxlDpa s m = none →
    ∃ t, exec (.memwr m data false 0) s = .next t ∧ t.ft = s.ft ∧ t.te = s.te ∧ t.mc = s.mc ∧
      (t.port m.port).discard = inc32 (s.port m.port).discard) ∧
  (∀ s m data id t' d, m.wf = true → cxlServes s m = true → notReady s = false → cxlDpa s m = some d → turfAt s d = some (id, t') →
    mayReach (.fn m.port m.ld) true t' = false →
    ∃ t, exec (.memwr m data false 0) s = .next t ∧ t.ft = s.ft ∧ t.te = s.te ∧ t.mc = s.mc ∧
      (t.port m.port).discard = inc32 (s.port m.port).discard) ∧
  (∀ s m data d, m.wf = true → cxlServes s m = true → notReady s = false → cxlDpa s m = some d →
    ∃ t, exec (.memwr m data true 0) s = .next t ∧ t.ft = s.ft ∧ t.te = s.te ∧ t.mc = s.mc ∧
      (t.port m.port).poisonIn = inc32 (s.port m.port).poisonIn)

/-- The requests of a plain PCIe function complete (R67, R68, R228, R230, R235, R241): *BAR2 read* and *BAR2 write* of a
granted range of the window become the accesses of their lines; an *AtomicOp request* is answered with Unsupported Request and
logged; a *configuration request* is served by a function that the port provides and answered as absent otherwise; a *global
persistent flush* on a CXL port is answered; a *function level reset* drops the function's answers and resets it. -/
def Obligations.FunctionRequestsComplete : Prop :=
  (∀ s p f tag off len rd d, (Instr.bar2Read p f tag off len rd).wf = true → barServes s p f = true → (s.fn p f).d3 = false →
    notReady s = false → barDpa s p f off len = some d →
    exec (.bar2Read p f tag off len rd) s = .next (afterAccess ((barReadAccs p f tag d len rd).foldl (fun u a => submit a u) s))) ∧
  (∀ s p f off bytes relaxed rd d, (Instr.bar2Write p f off bytes relaxed false rd).wf = true → barServes s p f = true →
    (s.fn p f).d3 = false → notReady s = false → barDpa s p f off bytes.length = some d →
    covered s (mayReach (.fn p f) true) d (d + bytes.length) = true →
    exec (.bar2Write p f off bytes relaxed false rd) s = .next (afterAccess
      ((barWriteAccs p f d bytes relaxed rd).foldl (fun u a => submit a u) (count 0x0020 p 0 bytes.length s)))) ∧
  (∀ s p f tag, (Instr.atomicopRequest p f tag).wf = true → fnReached s p f = true →
    ∃ t, exec (.atomicopRequest p f tag) s = .next t ∧
      t.out = .cpl p f tag 0 .ur [] false :: .aer p f .unsupportedRequest :: s.out ∧
      t = { s.modFn p f (fun x => { x with aer := .unsupportedRequest :: x.aer }) with out := t.out }) ∧
  (∀ s p f off v, (Instr.configurationRequest p f off (some v)).wf = true → portServes s p = true → f ∈ portFns s p →
    exec (.configurationRequest p f off (some v)) s = .next (emit (.cfgCpl p f off (some v)) (cfgWrite p f off v.toNat s))) ∧
  (∀ s p f off, (Instr.configurationRequest p f off none).wf = true → portServes s p = true → f ∈ portFns s p →
    exec (.configurationRequest p f off none) s = .next (cfgRead p f off s)) ∧
  (∀ s p f off wr, (Instr.configurationRequest p f off wr).wf = true → portServes s p = true → f ∉ portFns s p →
    exec (.configurationRequest p f off wr) s = .next { s with out := .cfgCpl p f off none :: s.out }) ∧
  (∀ s p, p < 10 → portServes s p = true → (s.port p).plain = false →
    exec (.globalPersistentFlush p) s = .next { s with out := .gpf p :: s.out }) ∧
  (∀ s p f, fnOk p f = true → fnReached s p f = true →
    exec (.functionLevelReset p f) s = .next (fnReset p f (dropAnswers (fun a => a == .fn p f) s)))

/-- What a configuration access returns (R228): the device's identity on every present function, and no function that the port does
not provide; a write of the command register sets memory space and bus master, and D3hot is a write of 3 to the power state. -/
def Obligations.ConfigurationSpace : Prop :=
  (∀ s p f, portServes s p = true → f ∈ portFns s p → p < 10 → f < 256 →
    exec (.configurationRequest p f 0 none) s = .next { s with out := .cfgCpl p f 0 (some 0x09601D5F) :: s.out }) ∧
  (∀ s p f v, portServes s p = true → f ∈ portFns s p → p < 10 → f < 256 →
    ∃ t, exec (.configurationRequest p f 4 (some v)) s = .next t ∧ (t.fn p f).mse = v.getLsbD 1 ∧ (t.fn p f).bme = v.getLsbD 2) ∧
  (∀ s p f v, portServes s p = true → f ∈ portFns s p → p < 10 → f < 256 →
    ∃ t, exec (.configurationRequest p f 0x44 (some v)) s = .next t ∧ ((t.fn p f).d3 = true ↔ v.toNat % 4 = 3))

/-! ## What a host write and a host read do (chapters 2, 4 to 6) -/

/-- R80, R84, R102, R104: on a device with no twin, a host's write of a whole line whose billet lies in a counted DIRTY frame stores
exactly that line: the line then holds the written data, every other line of the front tier, every line of the media and the tier
map are as before, and the write is answered at once. -/
def Obligations.HostWriteStoresOneLine : Prop :=
  ∀ (s : State) (old : Bool) (a : Acc) (y : Why) (prior : List Wait) (f : Nat) (d : Line), a.kind = .cxlWr → a.wr = some (d, fullMask) → a.rd = [] →
    notReady s = false → failingOver s = false → s.tu.ps = .unpaired → s.tu.record.pairId = 0 →
    s.te.map.get .unmapped a.billet = .res f → (s.frame f).st = .dirty → (s.frame f).counted = true → devStalled s f = false →
    ∃ t, serve old a y prior s = .done (answerWrite a t) ∧ t.ft.lines.get zeroLine (lineKey f a.lineIn) = .data d ∧
      (∀ k, k ≠ lineKey f a.lineIn → t.ft.lines.get zeroLine k = s.ft.lines.get zeroLine k) ∧
      t.mc.mlines = s.mc.mlines ∧ t.te.map = s.te.map ∧ (t.frame f).st = .dirty ∧ t.px.open_ = s.px.open_

/-- R59, R83, R104: a host's read of a line whose billet lies in a CLEAN or DIRTY frame answers what the frame holds of it, a marked
line as poison, and changes no line; a read of an unmapped billet answers zeros. -/
def Obligations.HostReadReturnsTheLine : Prop :=
  ∀ (s : State) (old : Bool) (a : Acc) (y : Why) (prior : List Wait), a.kind = .cxlRd → a.wr = none → a.rd = [] → notReady s = false →
    s.tu.ps = .unpaired →
    (∀ f, s.te.map.get .unmapped a.billet = .res f → (s.frame f).st ∈ [.clean, .dirty] → devStalled s f = false →
      ∃ t, serve old a y prior s = .done (answerRead a (getLine s f a.lineIn) t) ∧ t.ft.lines = s.ft.lines ∧ t.te.map = s.te.map) ∧
    (s.te.map.get .unmapped a.billet = .unmapped → serve old a y prior s = .done (answerRead a (.data 0) s)) ∧
    (s.te.map.get .unmapped a.billet = .poisoned → serve old a y prior s = .done (answerRead a .poison s))

/-! ## Front tier (chapter 5) -/

/-- The front tier's own events (R82, R85-R88, R90): a *corrected line write-back* that no write superseded is made by two accesses;
an *FT retrack* keeps the margin, retrains a low one once, and makes a candidate of a device still low or silent; a *GDDR6
temperature reading* sets the bands of the devices not retired; a *refresh band cooler* and a *per-bank refresh* bring the cooler and
the hotter band into effect; a *patrol step* reads the line at the pointer, on an active device, and moves the pointer; a *row
sparing copy* copies one line, and after the last one the remap tables go to a formatted media. -/
def Obligations.FrontTierEventsComplete : Prop :=
  (∀ s f l, f < 2 ^ 21 → l < 1024 → (f, l) ∈ s.ft.wb → exec (.correctedLineWriteBack f l) s = .next
    (checkWrite f l (ftAccess (frameDev f) 2 { s with ft := { s.ft with wb := s.ft.wb.erase (f, l) } }))) ∧
  (∀ s f l, f < 2 ^ 21 → l < 1024 → (f, l) ∉ s.ft.wb → exec (.correctedLineWriteBack f l) s = .next s) ∧
  (∀ s d m r, d < 32 → m < 256 → devRetired s d = false → minMargin s.ft.band * 256 ≤ m * 100 →
    exec (.ftRetrack d m r true) s = .next (s.modFtDev d (fun x => { x with margin := m }))) ∧
  (∀ s d m r, d < 32 → m < 256 → devRetired s d = false → m * 100 < minMargin s.ft.band * 256 →
    (minMargin s.ft.band * 256 ≤ r * 100 →
      exec (.ftRetrack d m r true) s = .next (s.modFtDev d (fun x => { x with margin := r }))) ∧
    (r * 100 < minMargin s.ft.band * 256 →
      exec (.ftRetrack d m r true) s = .next (candidate d (s.modFtDev d (fun x => { x with margin := r }))))) ∧
  (∀ s d m r, d < 32 → m < 256 → devRetired s d = false → exec (.ftRetrack d m r false) s = .next (candidate d s)) ∧
  (∀ s d m r b, d < 32 → m < 256 → devRetired s d = true → exec (.ftRetrack d m r b) s = .next s) ∧
  (∀ s temps, temps.length = 32 → ∃ t, exec (.gddr6TemperatureReading temps) s = .next t ∧
    (∀ d < 32, devRetired s d = false → (t.ftDev d).rband = bandOfTemp (temps.getD d 0)) ∧
    (∀ d < 32, devRetired s d = true → t.ftDev d = s.ftDev d) ∧ t.ft.lines = s.ft.lines ∧ t.ft.band = s.ft.band ∧
    t.ft.bandSeen = max (thRefresh s) t.ft.hotDev) ∧
  (∀ s, exec .refreshBandCooler s = .next { s with ft := { s.ft with band := min s.ft.band s.ft.bandSeen } }) ∧
  (∀ s, exec .perBankRefresh s = .next { s with ft := { s.ft with band := max s.ft.band s.ft.bandSeen } }) ∧
  (∀ s rd, ftWorks s = true → devActive s (frameDev s.ft.patFrame) = true →
    exec (.patrolStep rd) s = .next (ftRead s.ft.patFrame s.ft.patLine rd (patrolNext s)).2) ∧
  (∀ s rd, ftWorks s = true → devActive s (frameDev s.ft.patFrame) = false → exec (.patrolStep rd) s = .next (patrolNext s)) ∧
  (∀ s rd, ftWorks s = false → exec (.patrolStep rd) s = .next s) ∧
  (∀ s q l, s.ft.spareQ = q :: l → devRetired s q.dev = false → q.next < 55 →
    ∃ t, exec (.rowSparingCopy []) s = .next t ∧ t.ft.remap = s.ft.remap ∧ t.ft.lines = s.ft.lines ∧
      t.ft.spareQ = (q :: l).map (fun x => if x = q then { q with next := q.next + 1 } else x)) ∧
  (∀ s q l, s.ft.spareQ = q :: l → devRetired s q.dev = false → q.next = 55 →
    ∃ t, exec (.rowSparingCopy []) s = .next t ∧ t.ft.spareQ = l ∧ t.ft.lines = s.ft.lines ∧
      (s.mc.formatted = true → t.mc.remapMedia = s.ft.remap)) ∧
  (∀ s rd, s.ft.spareQ = [] → exec (.rowSparingCopy rd) s = .next s)

/-- Retirement and raw access (R90, R92, R94, R97): a *dirty frame copy* of a frame all of whose lines can be read puts its billet,
state and lines into a free frame; *GDDR6 device retired* comes when no frame of the device is in use and its table pages have moved;
FT_RAW_WRITE, FT_RAW_READ, FT_RAW_DECODE act on a slot that raw access may reach and FT_RAW_LOCK locks the enable; FRONT_QUERY
answers; FRONT_RETIRE makes a candidate; DIRTY_CEILING_SET commits the ceiling, a lower one governing at once; FRONT_RAW does the
raw operation and answers its result. -/
def Obligations.FrontTierCommandsComplete : Prop :=
  (∀ s f tl g, memOk s → f < 2 ^ 21 → (s.ftDev (frameDev f)).st = 1 → (s.frame f).st = .dirty → freeFrame s = some g → g ≠ f →
    ∃ u, exec (.dirtyFrameCopy f [] tl) s = .next (settle (dirtiedRecord g u)) ∧
      u.te.map.get .unmapped (s.frame f).billet = .res g ∧ (u.frame g).st = .dirty ∧ (u.frame g).billet = (s.frame f).billet ∧
      u.frame f = {} ∧ ∀ l < 1024, getLine u g l = getLine s f l) ∧
  (∀ s f bad tl, f < 2 ^ 21 → (s.ftDev (frameDev f)).st ≠ 1 → exec (.dirtyFrameCopy f bad tl) s = .next s) ∧
  (∀ s d u, d < 32 → (s.ftDev d).st = 1 → (∀ kv ∈ s.te.frames, frameDev kv.1 ≠ d ∨ frUsed kv.2.st = false) → s.ft.retireDev = none →
    (tablePages s d).foldl moveTable (some s) = some u → u.ft.retireDev = none →
    ∃ t, exec (.gddr6DeviceRetired d) s = .next (settle (ledger 0x0805 (srcDev d) [d] (raise 0x0805 d 0 .nothing t))) ∧
      (t.ftDev d).st = 2 ∧ t.te.pool = u.te.pool - usable u.ft.density) ∧
  (∀ s d, d < 32 → (s.ftDev d).st ≠ 1 → exec (.gddr6DeviceRetired d) s = .next s) ∧
  (∀ s i, i < 5 → s.ft.rawEn = true → devRetired s s.ft.rawDev = false → rawTarget s s.ft.rawDev s.ft.rawLine = true →
    (∃ r, exec (.ftRawWrite i) s = .next { s with ft := { s.ft with rawStatus := 0, rawCmd := 1, rawSlots := r } } ∧
      r = s.ft.rawSlots.insert (rawKey s.ft.rawDev s.ft.rawLine) ⟨s.ft.rawData, s.ft.rawCheck⟩) ∧
    (∃ t, exec (.ftRawRead i) s = .next t ∧ t.ft.rawStatus = 0 ∧
      (t.ft.rawData, t.ft.rawCheck) = rawBits s s.ft.rawDev s.ft.rawLine) ∧
    (∃ t, exec (.ftRawDecode i) s = .next t ∧ t.ft.rawStatus = 0 ∧ t.ft.rawOutcome < 4 ∧
      (t.ft.rawOutcome = 3 ↔ isMarker (rawBits s s.ft.rawDev s.ft.rawLine) = true))) ∧
  (∀ s i, i < 5 → s.ft.rawEn = false →
    exec (.ftRawWrite i) s = .next { s with ft := { s.ft with rawStatus := 2, rawCmd := 1 } } ∧
    exec (.ftRawRead i) s = .next { s with ft := { s.ft with rawStatus := 2, rawCmd := 2 } } ∧
    exec (.ftRawDecode i) s = .next { s with ft := { s.ft with rawStatus := 2, rawCmd := 3 } }) ∧
  (∀ s i, i < 5 → exec (.ftRawLock i) s = .next { s with ft := { s.ft with rawLock := true } }) ∧
  (∀ s rq, sentOk (.frontQuery rq) s rq 0x0200 →
    exec (.frontQuery rq) s = .next (doneBy s rq 0x0200 (fun u => ok rq (frontData u) u))) ∧
  (∀ s rq d, sentOk (.frontRetire rq d) s rq 0x0201 → d < 32 → (s.ftDev d).st = 0 → retiredCount s < 2 →
    exec (.frontRetire rq d) s = .next (doneBy s rq 0x0201 (fun u => candidate d { u with ft := { u.ft with retireDev := some d } }))) ∧
  (∀ s rq g, sentOk (.dirtyCeilingSet rq g) s rq 0x0202 → 0 < g → g ≤ 16 → g ≤ s.eu.ceilSupported →
    exec (.dirtyCeilingSet rq g) s = .next (doneBy s rq 0x0202 (fun u =>
      commit { page := 35, off := 4, bytes := leBytes 1 g, act := .reply rq.ch rq.tag }
        (if g < u.ft.ceilGib then { u with ft := { u.ft with ceilGib := g } } else u)))) ∧
  (∀ s rq op d q data check, sentOk (.frontRaw rq op d q data check) s rq 0x0203 → op < 3 → d < 32 → q < 2 ^ 26 → s.ft.rawEn = true →
    devRetired s d = false → rawTarget s d q = true →
    ∃ t, t = rawOp (op + 1) { begun s rq 0x0203 with ft := { s.ft with
        rawDev := d, rawLine := q, rawData := if op = 0 then data else s.ft.rawData,
        rawCheck := if op = 0 then check else s.ft.rawCheck } } ∧ t.ft.rawStatus = 0 ∧
      exec (.frontRaw rq op d q data check) s = .next (answered s rq (ok rq (pack [.n4 (ftRawResultReg t), .n4 t.ft.rawSynd,
        .raw (bytesOf t.ft.rawData 0 64), .n8 t.ft.rawCheck.toNat]) (setCommitted rq t))))

/-! ## Tier pool (chapter 6) -/

/-- The tier engine's own events (R102-R104, R107-R117). An AGE_SWEEP ages every resident frame, and destages those whose age has
come; *background eviction* begins the eviction that R112 chooses; the *eviction commit point* gives the billet's entry back and
frees the frame, unless a stream has pinned the billet, and the access that it was begun for tries again; a *media fill unit*, the next of its fill, brings the unit's lines or
begins its recovery; a *fill line arrival* brings a line of zeros, of poison or of another frame; a *lookaside fill complete* enters
its segment, and promotes ahead where streaming was detected; TE_LA_INVAL empties the lookaside of a port; a *cheaper-path deadline*
asks the twin for the unit of a read that may ask. -/
def Obligations.TierEngineEventsComplete : Prop :=
  (∀ s, 0 < s.te.pool → ∃ t, exec .ageSweep s = .next (settle (afterAccess (destageAged t))) ∧
    t = { s with te := { s.te with frames := t.te.frames, firstDone := true } } ∧
    ∀ f, t.frame f = aged (s.frame f)) ∧
  (∀ s f, bgEvict s = some f → exec .backgroundEviction s = .next (s.modFrame f (fun x => { x with st := .evicting }))) ∧
  (∀ s, bgEvict s = none → exec .backgroundEviction s = .next s) ∧
  (∀ s f, f < 2 ^ 21 → (s.frame f).st = .evicting →
    exec (.evictionCommitPoint f) s = .next (settle (evictTaken f (evictCommit f s))) ∧
    (pinned s (s.frame f).billet = false →
      (evictCommit f s).te.map.get .unmapped (s.frame f).billet = entOf (s.frame f) ∧ (evictCommit f s).frame f = {}) ∧
    (pinned s (s.frame f).billet = true → evictCommit f s = s)) ∧
  (∀ s f, f < 2 ^ 21 → (s.frame f).st ≠ .evicting → exec (.evictionCommitPoint f) s = .next s) ∧
  (∀ s f u loc su v, f < 2 ^ 21 → u < 16 → su.wf = true → (s.frame f).st = .filling → (s.frame f).src = .media →
    (s.frame f).mediaLoc = some loc → (s.frame f).todo.head? = some u → ncStalled s loc = false →
    v = suspends loc su ((mediaBusy s).modFrame f (fun x => { x with todo := x.todo.drop 1 })) →
    (saltHeld v loc = true →
      exec (.mediaFillUnit f u true su) s = .next (fillArrived f (fillUnit f u (mediaLine v loc) v))) ∧
    (saltHeld v loc = false → exec (.mediaFillUnit f u true su) s = .next (readBegin loc u f 2 .fill v)) ∧
    exec (.mediaFillUnit f u false su) s = .next (readBegin loc u f 1 .fill v)) ∧
  (∀ s f u good su, f < 2 ^ 21 → u < 16 → su.wf = true → (s.frame f).todo.head? ≠ some u →
    exec (.mediaFillUnit f u good su) s = .next s) ∧
  (∀ s f l, f < 2 ^ 21 → l < 1024 → (s.frame f).st = .filling →
    ((s.frame f).src = .zeros → exec (.fillLineArrival f l) s = .next (fillArrived f (fillLine f l zeroLine s))) ∧
    ((s.frame f).src = .poison → exec (.fillLineArrival f l) s = .next (fillArrived f (fillLine f l .poison s))) ∧
    (∀ g, (s.frame f).src = .copy → (s.frame f).copyFrom = some g →
      exec (.fillLineArrival f l) s = .next (fillArrived f (fillLine f l (getLine s g l) s)))) ∧
  (∀ s p g, p < 10 → (s.look p).miss = some (g, false) →
    ∃ t, exec (.lookasideFillComplete p) s = .next (afterAccess (settle t)) ∧ (t.look p).miss = none ∧ laHas (t.look p) g = true ∧
      t.te.waits = s.te.waits.map (fun w =>
        if w.why == .look && w.acc.port == p && w.acc.seg == g then { w with why := .ready } else w)) ∧
  (∀ s p g, p < 10 → (s.look p).miss = some (g, true) →
    ∃ t, exec (.lookasideFillComplete p) s = .next (afterAccess (settle (promoteAhead g t))) ∧ (t.look p).miss = none ∧
      laHas (t.look p) g = true) ∧
  (∀ s p, p < 10 → (s.look p).miss = none → exec (.lookasideFillComplete p) s = .next s) ∧
  (∀ s ag p, mayWrite s ag → p < 10 → exec (.teLaInval ag p) s = .next (laInvalidate p s)) ∧
  (∀ s f l, f < 2 ^ 21 → l < 1024 → s.te.waits.any (cheaperAsks s f l) = true →
    ∃ t, exec (.cheaperPathDeadline f l) s = .next (linkSend (.unitReq s.tu.unitCnt (s.frame f).billet (l / 64) 0) t) ∧
      t.tp.unitAsk = s.tp.unitAsk ++ [(s.tu.unitCnt, (s.frame f).billet, l / 64)] ∧
      t.te.waits = s.te.waits.map (fun w => if cheaperAsks s f l w then { w with asked := true } else w)) ∧
  (∀ s f l, f < 2 ^ 21 → l < 1024 → s.te.waits.any (cheaperAsks s f l) = false → exec (.cheaperPathDeadline f l) s = .next s)

/-- The course of a destage (R102, R113, R133, R136). *Destage complete* ends it, with the outcomes of its reads: its slot holds the
billet at its `SEQ`, and the frame is CLEAN and no longer counted, or DIRTY where a write came in between. After a *destage program
fail* the set goes to ash and the billet is programmed into another slot with a new `SEQ`, or, the third time, waits for *destage
retry*, which begins a destage of a frame that may be destaged. -/
def Obligations.DestageCompletes : Prop :=
  (∀ s f d rds u, f < 2 ^ 21 → rdsOk rds = true → findDestage s f = some d → u = rds.foldl (destageRead f) s →
    u.sec.halt = s.sec.halt → exec (.destageComplete f rds) s = .next (afterAccess (settle (destageEnd f u)))) ∧
  (∀ s f rds, f < 2 ^ 21 → rdsOk rds = true → findDestage s f = none → exec (.destageComplete f rds) s = .next s) ∧
  (∀ s f d, findDestage s f = some d → linkUp s = false →
    ((destageEnd f s).frame f).st = (if (s.frame f).redirty then .dirty else .clean) ∧
    ((destageEnd f s).frame f).counted = (s.frame f).redirty ∧ ((destageEnd f s).frame f).mediaLoc = some d.loc ∧
    ∃ m, (destageEnd f s).mc.slots.get none d.loc = some m ∧ m.billet = (s.frame f).billet ∧ m.seq = d.seq) ∧
  (∀ s f d, f < 2 ^ 21 → findDestage s f = some d → ∃ u,
    u = (toAsh (locSet s d.loc) (parityAfter d.loc (leaveRow d.loc (dropDestage f s)))).modFrame f
      (fun x => { x with fails := (s.frame f).fails + 1 }) ∧
    (2 ≤ (s.frame f).fails → exec (.destageProgramFail f) s = .next (mediaLevels (destageGiveUp f u))) ∧
    (∀ loc t, (s.frame f).fails < 2 → destageSlotNext d.ember u = some (loc, t) →
      ∃ v, exec (.destageProgramFail f) s = .next (mediaLevels v) ∧
        v.mc.destages = t.mc.destages ++ [{ d with loc := loc, seq := t.mc.seq, susp := 0 }] ∧ v.mc.seq = t.mc.seq + 1)) ∧
  (∀ s f, f < 2 ^ 21 → findDestage s f = none → exec (.destageProgramFail f) s = .next s) ∧
  (∀ s b, b < 2 ^ 30 → b ∈ s.mc.retry → ∃ t, t = { s with mc := { s.mc with retry := s.mc.retry.erase b } } ∧
    (∀ f, s.te.map.get .unmapped b = .res f → bgOk s = true → destageable t f (s.frame f) = true →
      exec (.destageRetry b) s = .next (destageStart f t)) ∧
    (∀ f, s.te.map.get .unmapped b = .res f → (bgOk s = false ∨ destageable t f (s.frame f) = false) →
      exec (.destageRetry b) s = .next t)) ∧
  (∀ s b, b < 2 ^ 30 → b ∉ s.mc.retry → exec (.destageRetry b) s = .next s)

/-! ## Media (chapter 7) -/

/-- The media controller's own work (R132, R135-R143, R148, R150, R151, R153, R164). *Row verification* reads a closed row back, outside
ember only: sectors that fail go to step 5 of the recovery, a set with two of them is owed to ash, and a row left with none is verified.
*Kiln fold* moves the lowest current slot of the SLC set that closed first, under stoke once as many sets were freed as a new fold row
takes; *block-set erase complete* frees a set, or sends it to ash;
an erase that ends in ember is owed. *Media idle* lets the idle background work begin; SMOULDER copies one slot of a victim. *Drift
sample* leaves the class, raises it by 1 or by 2, or at class 15 schedules a refresh. *Block-set checkpoint* writes the table with the
ages an hour on, *wear table rebuilt* ends the rebuild of an unlevelled LUN; *levelling move* moves a victim where the gap of the wear
is above 5 % of the native cycles and the media is idle, or above 10 %; *LUN status timeout* retires the LUN; *journal sector timer*
writes the entries that wait, *checkpoint chunk* the next chunk of the map. -/
def Obligations.MediaWorkCompletes : Prop :=
  (∀ s rn r failing, failing.all (fun x => decide (x < 2 ^ 35)) = true → s.row rn = some r → r.closed = true → r.parityHeld = true →
    r.verified = false → bgOk s = true →
    ∃ t, exec (.rowVerification rn failing) s = .next (owedWork t) ∧ t.row rn = some { r with verified := true } ∧
      (∀ e ∈ failing, locSet s (e / 16) ∈ r.sets → isCurrent s (e / 16) = true →
        ∃ x ∈ t.mc.reads, x.loc = e / 16 ∧ x.unit = e % 16 ∧ x.step = 5 ∧ x.why = .verify) ∧
      (failing = [] → t.mc.reads = s.mc.reads)) ∧
  (∀ s rn failing, failing.all (fun x => decide (x < 2 ^ 35)) = true →
    (bgOk s = false ∨ s.row rn = none ∨ ∃ r, s.row rn = some r ∧ (r.closed = false ∨ r.parityHeld = false ∨ r.verified = true)) →
    exec (.rowVerification rn failing) s = .next s) ∧
  (∀ s l n, kilnRuns s = true → n = (if s.mctl.stoke then foldRowSets s else 0) → n ≤ s.mctl.stokeFreed → kilnNext s = some l →
    ncStalled s l = false → ∃ t, t = { pauseWait (80 + locChan l) s with
      mctl := { (pauseWait (80 + locChan l) s).mctl with stokeFreed := (pauseWait (80 + locChan l) s).mctl.stokeFreed - n } } ∧
    (isCurrent (moveSlot l 2 t) l = false → ∃ u,
      u = count 0x1026 0xFFFF 0 1 { moveSlot l 2 t with
        mctl := { (moveSlot l 2 t).mctl with foldCnt := satAdd (2 ^ 64 - 1) (moveSlot l 2 t).mctl.foldCnt 1 } } ∧
      exec .kilnFold s = .next (afterAccess (settle (mediaLevels u)))) ∧
    (isCurrent (moveSlot l 2 t) l = true → exec .kilnFold s = .next (moveSlot l 2 t))) ∧
  (∀ s, kilnRuns s = true → s.mctl.stoke = true → s.mctl.stokeFreed < foldRowSets s →
    exec .kilnFold s = .next (mediaLevels (reclaimCopy s))) ∧
  (∀ s, (kilnRuns s = false ∨ (s.mctl.stoke = true → foldRowSets s ≤ s.mctl.stokeFreed) ∧
      ∀ l, kilnNext s = some l → ncStalled s l = true) → exec .kilnFold s = .next s) ∧
  (∀ s k, k < 2097152 → erasable s k = true → isLedgerSet s k = false → inEmber s = false →
    (∃ t, exec (.blockSetEraseComplete k true) s = .next (afterAccess (settle (owedWork t))) ∧
      t.setRec k = erasedRec (s.mc.orderCnt + 1) (s.setRec k) ∧ t.mc.orderCnt = s.mc.orderCnt + 1 ∧
      t.mc.slots = (eraseSlots k s).mc.slots ∧ (∀ j, j ≠ k → t.setRec j = s.setRec j)) ∧
    exec (.blockSetEraseComplete k false) s = .next (owedWork (lunAshCheck (setLun k) (ashSet k (eraseSlots k s))))) ∧
  (∀ s k good, k < 2097152 → erasable s k = true → isLedgerSet s k = false → inEmber s = true →
    exec (.blockSetEraseComplete k good) s = .next (s.modSet k (fun x => { x with eraseOwed := true }))) ∧
  (∀ s k good, k < 2097152 → (erasable s k = false ∨ isLedgerSet s k = true) → exec (.blockSetEraseComplete k good) s = .next s) ∧
  (∀ s, exec .mediaIdle s = .next (mediaLevels { s with mctl := { s.mctl with idle := true } })) ∧
  (∀ s, bgOk s = true → exec .smoulder s = .next (owedWork (reclaimCopy s))) ∧
  (∀ s, bgOk s = false → exec .smoulder s = .next s) ∧
  (∀ s k, k < 2097152 → bgOk s = true → setBusy (s.setRec k) = true → (s.setRec k).sampled = true →
    (∀ again, exec (.driftSample k false again) s = .next (mediaLevels s)) ∧
    ((s.setRec k).drift < 15 →
      exec (.driftSample k true false) s = .next (s.modSet k (fun x => { x with drift := x.drift + 1 }))) ∧
    ((s.setRec k).drift < 14 → ∃ t, exec (.driftSample k true true) s = .next t ∧
      (t.setRec k).drift = (s.setRec k).drift + 2) ∧
    (15 ≤ (s.setRec k).drift → (s.setRec k).refreshOwed = false →
      exec (.driftSample k true false) s = .next (s.modSet k (fun x =>
        { x with refreshOwed := true, lastRefresh := s.tb.count, prevRefresh := x.lastRefresh })))) ∧
  (∀ s bad, bad.all (fun u => decide (u < 512)) = true → s.mc.formatted = true → ∃ t,
    exec (.blockSetCheckpoint bad) s = .next (mediaLevels (bstWrite t)) ∧
    (bad = [] → t = { s with mc := { s.mc with sets := s.mc.sets.map (fun kv => (kv.1, hourOlder kv.2)) } })) ∧
  (∀ s bad, bad.all (fun u => decide (u < 512)) = true → s.mc.formatted = false → exec (.blockSetCheckpoint bad) s = .next s) ∧
  (∀ s u, u < 512 → lunGood s u = true → (s.lun u).unlevelled = true →
    ∃ t, exec (.wearTableRebuilt u) s = .next (mediaLevels (ledger 0x1005 (srcLun u) [u] (raise 0x1005 u u .nothing t))) ∧
      (t.lun u).unlevelled = false ∧ ∀ k x, setLun k = u → isLedgerSet s k = false → (k, x) ∈ s.mc.sets →
        (k, rebuiltRec s k x) ∈ t.mc.sets) ∧
  (∀ s u, u < 512 → (lunGood s u = false ∨ (s.lun u).unlevelled = false) → exec (.wearTableRebuilt u) s = .next s) ∧
  (∀ s k, bgOk s = true → (s.mc.prof.en < 10 * (wearMax s - wearMin s) ∨
      s.mctl.idle = true ∧ s.mc.prof.en < 20 * (wearMax s - wearMin s)) → levelVictim s = some k →
    exec .levellingMove s = .next (mediaLevels (moveAll k 4 s))) ∧
  (∀ s, (bgOk s = false ∨ levelVictim s = none ∨ 20 * (wearMax s - wearMin s) ≤ s.mc.prof.en ∨
      s.mctl.idle = false ∧ 10 * (wearMax s - wearMin s) ≤ s.mc.prof.en) → exec .levellingMove s = .next s) ∧
  (∀ s u lost, Instr.wf (.lunStatusTimeout u lost) = true →
    exec (.lunStatusTimeout u lost) s = .next (afterAccess (settle (owedWork (lunRetire u lost s))))) ∧
  (∀ s, ∃ t, exec .journalSectorTimer s = .next t ∧ t.mc.jPend = [] ∧ t.mc.journal = s.mc.jPend.reverse ++ s.mc.journal ∧
    t.mc.seq = s.mc.seq + (if s.mc.jPend = [] then 0 else 1)) ∧
  (∀ s, bgOk s = true → s.mc.formatted = true → ∃ t, t = chunkWrite s.mc.chunkNext s ∧
    exec .checkpointChunk s = .next { t with mc := { t.mc with chunkNext := (t.mc.chunkNext + 1) % 64 } }) ∧
  (∀ s, (bgOk s = false ∨ s.mc.formatted = false) → exec .checkpointChunk s = .next s)

/-- The read recovery of a sector and the media commands (R144-R146, R152-R155, R220). *Media read complete* accepts a sector that is
good, whose first read did not match with event 0x1004; a sector that does not decode passes to the next step; a mismatch is read again
once, and then, or where the second read does not decode, halts the device. A read for a source or for the twin may suspend what its
die runs. A sector of a key the device no longer holds does not decode before step 5. MEDIA_QUERY answers the record of R154;
MEDIA_FORMAT leaves the format to the MC and, in a pair, asks the twin for the same; MEDIA_RETIRE retires a LUN whose cord keeps 12;
a read of MC_REC_DEEP clears it. -/
def Obligations.MediaCommandsComplete : Prop :=
  (∀ s id cls su r u, Instr.wf (.mediaReadComplete id .good cls su) = true →
    s.mc.reads.find? (fun x => x.id == id && x.step < 6 && !ncStalled s x.loc && (x.why != .verify || bgOk s)) = some r →
    u = (if r.why = .verify then s else suspends r.loc su s) →
    (5 ≤ r.step ∨ saltHeld u r.loc = true →
      (r.second = false → exec (.mediaReadComplete id .good cls su) s = .next (readAccept r cls u) ∧
        exec (.mediaReadComplete id .mismatch cls su) s = .next (putRead { r with second := true } u)) ∧
      (r.second = true → exec (.mediaReadComplete id .good cls su) s = .next (readAccept r cls
          (raise 0x1004 0xFFFF (locBillet u r.loc + r.unit * 2 ^ 32) .nothing u)) ∧
        exec (.mediaReadComplete id .mismatch cls su) s = .next (integrityHalt 2 (r.loc + r.unit * 2 ^ 32) u))) ∧
    (r.second = false → exec (.mediaReadComplete id .noDecode cls su) s = .next (readNext r u)) ∧
    (r.second = true → exec (.mediaReadComplete id .noDecode cls su) s = .next (integrityHalt 2 (r.loc + r.unit * 2 ^ 32) u)) ∧
    (r.step < 5 → saltHeld u r.loc = false → ∀ res, exec (.mediaReadComplete id res cls su) s = .next
      (if r.second then integrityHalt 2 (r.loc + r.unit * 2 ^ 32) u else readNext r u))) ∧
  (∀ s id res cls su, Instr.wf (.mediaReadComplete id res cls su) = true →
    s.mc.reads.find? (fun x => x.id == id && x.step < 6 && !ncStalled s x.loc && (x.why != .verify || bgOk s)) = none →
    exec (.mediaReadComplete id res cls su) s = .next s) ∧
  (∀ s rq, sentOk (.mediaQuery rq) s rq 0x0300 →
    exec (.mediaQuery rq) s = .next (doneBy s rq 0x0300 (fun u => ok rq (mediaData u) u))) ∧
  (∀ s rq gib slc, sentOk (.mediaFormat rq gib slc) s rq 0x0301 → 0 < gib → gib ≤ 65536 → slc < 3 → turfCount s = 0 →
    gib ≤ userLimit s → noStreamActive s = true → formatRefused s.tu.ps = false → s.sec.rngFail = false →
    (s.tu.ps ≠ .inSync → exec (.mediaFormat rq gib slc) s = .next (doneBy s rq 0x0301 (fun u =>
      { u with mctl := { u.mctl with formatRq := some (gib, slc + 3, 0) } }))) ∧
    (s.tu.ps = .inSync → rq.ch ≠ 30 → exec (.mediaFormat rq gib slc) s = .next (doneBy s rq 0x0301 (fun u =>
      twinCmd 0x0301 (leBytes 4 gib ++ leBytes 4 slc) { u with mctl := { u.mctl with formatRq := some (gib, slc + 3, 1) } }))) ∧
    (rq.ch = 30 → exec (.mediaFormat rq gib slc) s = .next (doneBy s rq 0x0301 (fun u =>
      { u with mctl := { u.mctl with formatRq := some (gib, slc + 3, 0) } })))) ∧
  (∀ s rq c l lost, sentOk (.mediaRetire rq c l lost) s rq 0x0302 → c < 32 → l < s.mc.prof.luns → (s.lun (lunIndex c l)).ash = false →
    13 ≤ (cordActive s (lunCord (lunIndex c l))).length →
    exec (.mediaRetire rq c l lost) s = .next (doneBy s rq 0x0302 (fun u =>
      afterAccess (settle (owedWork (lunRetire (lunIndex c l) lost
        { u with mctl := { u.mctl with retireLun := some (lunIndex c l) } })))))) ∧
  (∀ s ag, mayWrite s ag → exec (.mcRecDeepRead ag) s = .next
    { s with mctl := { s.mctl with recDeep := 0 }, out := .regRead ag s.mctl.recDeep :: s.out })

/-! ## Ember and recovery (chapter 8) -/

/-- The power-fail warning and the steps of ember (R158-R168, R184, R185). PF_WARN_ACCEPTED begins ember with cause 1 where the epoch is
open, lowers the cause of a quiesce, ends a start, or begins the timed shutdown; PF_WARN_RELEASED and PF_WARN_RELEASE_HELD let the
device start or return. *Ember quiesce complete* ends steps 1 to 6: releases end, evictions reach their commit points, commands end,
cores halt, the cause goes to the ledger, the twin has its notice, and what is not kept is dropped. *Ember flush complete* flushes; when
no dirty line is left, it writes the tables and the seal. *Seal complete* ends the commits up to that of the SEALED record. *Sealed-hold
timeout* leaves a return that its conditions allow or whose record is being committed, and else begins the timed shutdown. -/
def Obligations.EmberStepsComplete : Prop :=
  (∀ s, s.eu.pfw = false → ∃ u, u = { s with eu := { s.eu with pfw := true, pfwHeld := false } } ∧
    (s.eu.phase = .quiesce → exec .pfWarnAccepted s = .next (emberEnter 1 u)) ∧
    (inEmber s = true → s.eu.phase ≠ .quiesce → exec .pfWarnAccepted s = .next u) ∧
    (inEmber s = false → s.rpm.st = .service → epochOpen s = true → exec .pfWarnAccepted s = .next (emberEnter 1 u)) ∧
    (inEmber s = false → s.rpm.st = .service → epochOpen s = false → exec .pfWarnAccepted s = .next (timedShutdown 1 u)) ∧
    (inEmber s = false → s.rpm.st = .kindling → startPhase s.eu.phase = true →
      exec .pfWarnAccepted s = .next (timedShutdown 1 { u with eu := { u.eu with startEnded := true } })) ∧
    (inEmber s = false → (s.rpm.st = .kindling ∧ startPhase s.eu.phase = false ∨ s.rpm.st ≠ .kindling ∧ s.rpm.st ≠ .service) →
      exec .pfWarnAccepted s = .next u)) ∧
  (∀ s, s.eu.pfw = true → exec .pfWarnAccepted s = .next s) ∧
  (∀ s, exec .pfWarnReleased s = .next { s with eu := { s.eu with pfw := false } }) ∧
  (∀ s, s.eu.pfw = false → ∃ u, u = { s with eu := { s.eu with pfwHeld := true } } ∧
    (bareReady s = true → exec .pfWarnReleaseHeld s = .next (startBare u)) ∧
    (bareReady s = false → returnOk u = true → exec .pfWarnReleaseHeld s = .next (epochOpenCommit u)) ∧
    (bareReady s = false → returnOk u = false → exec .pfWarnReleaseHeld s = .next u)) ∧
  (∀ s, s.eu.pfw = true → exec .pfWarnReleaseHeld s = .next s) ∧
  (∀ s us, us < 2 ^ 32 → s.eu.phase = .quiesce → ∃ v w t,
    v = coresHalt (commandsEnd (commitsAbandoned (evictionsEnd ((List.range 64).foldl (fun s c => relFinish c s) s)))) ∧
    w = ledger 0x1400 0 [v.eu.cause] v ∧ t = sendNotice (.emberNotice w.eu.cause (streamEnts w)) w ∧
    exec (.emberQuiesceComplete us) s = .next { t with
      eu := { t.eu with phase := .flush, tQuiesce := us },
      te := { t.te with waits := t.te.waits.filter keptAtFlush } }) ∧
  (∀ s us, us < 2 ^ 32 → s.eu.phase ≠ .quiesce → exec (.emberQuiesceComplete us) s = .next s) ∧
  (∀ s us bad tw, Instr.wf (.emberFlushComplete us bad tw) = true → s.eu.phase = .flush →
    ∃ u, u = flushAll bad tw { s with eu := { s.eu with tFlush := us } } ∧
    (dirtyCount u ≠ 0 → exec (.emberFlushComplete us bad tw) s = .next u) ∧
    (dirtyCount u = 0 → exec (.emberFlushComplete us bad tw) s = .next
      (sealWrite true false u.eu.cause { u with eu := { u.eu with phase := .seal } }))) ∧
  (∀ s us bad tw, Instr.wf (.emberFlushComplete us bad tw) = true → s.eu.phase ≠ .flush →
    exec (.emberFlushComplete us bad tw) s = .next s) ∧
  (∀ s, s.eu.phase = .sealedHold → returnOk s = true → exec .sealedHoldTimeout s = .next (epochOpenCommit s)) ∧
  (∀ s, s.eu.phase = .sealedHold → returnOk s = false → opening s = false →
    exec .sealedHoldTimeout s = .next (timedShutdown ((shutdownOf s).getD 1) s)) ∧
  (∀ s, (s.eu.phase ≠ .sealedHold ∨ opening s = true) → exec .sealedHoldTimeout s = .next s) ∧
  (∀ s c, s.opt.run = some c → c.act = .epoch → c.page ≠ 35 →
    exec .sealComplete s = .next (commitStart (sealedRecord (commitApply c s)))) ∧
  (∀ s c, s.opt.run = some c → c.act ≠ .epoch → (∃ d ∈ s.opt.queue, d.act = .epoch) →
    exec .sealComplete s = .next (commitsUntil (fun a => a == .epoch) s.opt.queue.length (commitEnd s))) ∧
  (∀ s, (∀ c ∈ s.opt.queue, c.act ≠ .epoch) → (∀ c, s.opt.run = some c → c.act ≠ .epoch) → exec .sealComplete s = .next s)

/-- The starts and the ember commands (R91, R93, R170, R175, R176, R178, R180, R188). A start runs its phase once the warning has been
released for 10 ms. *Sealed restart* trains and tests the front tier and loads the map, or, where something that the seal names is not
usable, records it and leaves the start to *full scan*, which records each sector that it rejects and loads what the scan finds; a front
tier that fails its test serves nothing. EMBER_QUERY, HOLDUP_SET and EMBER_DRILL answer as R188 states: with no epoch open, the
drill reports zeros (the model's choice, log entry 62). -/
def Obligations.StartsAndEmberCommandsComplete : Prop :=
  (∀ s fail, fail.wf = true → startMay .restart s = true → ∃ u, u = ftStart fail { s with ft := { s.ft with remap := s.mc.remapMedia } } ∧
    (u.ft.failed = false → u.rpm.recovery = 0 → exec (.sealedRestart .none fail) s = .next (restartLoad u)) ∧
    (u.rpm.recovery ≠ 0 → exec (.sealedRestart .none fail) s = .next u) ∧
    (u.ft.failed = true → u.rpm.recovery = 0 → exec (.sealedRestart .none fail) s = .next
      { u with eu := { u.eu with phase := .service, epoch := { u.eu.epoch with st := 0 } }, rpm := { u.rpm with st := .service } })) ∧
  (∀ s lost fail, lost.wf = true → fail.wf = true → startMay .restart s = true → lost ≠ .none →
    exec (.sealedRestart lost fail) s = .next (ledger 0x141F 0 [(lostNamed s lost).1, (lostNamed s lost).2]
      { s with eu := { s.eu with phase := .scan1, unusable := true, scanPass := 0, scanProg := 0 } })) ∧
  (∀ s lost fail, lost.wf = true → fail.wf = true → startMay .restart s = false → exec (.sealedRestart lost fail) s = .next s) ∧
  (∀ s bad rejected fail, Instr.wf (.fullScan bad rejected fail) = true → startMay .scan1 s = true → ∃ v u,
    v = rejected.foldl (fun s e => ledger 0x141F 0 [16, e / 16, e % 16] s) s ∧
    u = ftStart fail { v with ft := { v.ft with remap := v.mc.remapMedia } } ∧
    (u.ft.failed = false → u.rpm.recovery = 0 → exec (.fullScan bad rejected fail) s = .next (scanLoad bad rejected u)) ∧
    (u.rpm.recovery ≠ 0 → exec (.fullScan bad rejected fail) s = .next u) ∧
    (u.ft.failed = true → u.rpm.recovery = 0 → exec (.fullScan bad rejected fail) s = .next
      { u with eu := { u.eu with phase := .service, epoch := { u.eu.epoch with st := 0 } }, rpm := { u.rpm with st := .service } })) ∧
  (∀ s bad rejected fail, Instr.wf (.fullScan bad rejected fail) = true → startMay .scan1 s = false →
    exec (.fullScan bad rejected fail) s = .next s) ∧
  (∀ s rq, sentOk (.emberQuery rq) s rq 0x0400 →
    exec (.emberQuery rq) s = .next (doneBy s rq 0x0400 (fun u => ok rq (emberData u) u))) ∧
  (∀ s rq mj mw, sentOk (.holdupSet rq mj mw) s rq 0x0401 → (mj = 0 ∨ 1000 ≤ mj ∧ mj ≤ 1000000) → mw ≤ 500000 →
    s.ft.ceilGib ≤ declaredCeil mj mw s →
    exec (.holdupSet rq mj mw) s = .next (doneBy s rq 0x0401 (fun u =>
      commit { page := 35, off := 8, bytes := leBytes 4 mj ++ leBytes 4 mw, act := .reply rq.ch rq.tag } u))) ∧
  (∀ s rq, sentOk (.emberDrill rq) s rq 0x0402 → (∀ c < 64, (s.chan c).st ≠ .running) → s.rpm.recovery = 0 →
    (epochOpen s = true → exec (.emberDrill rq) s = .next (doneBy s rq 0x0402 (fun u =>
      emberEnter 6 { u with eu := { u.eu with drill := some (rq.ch, rq.tag) } }))) ∧
    (epochOpen s = false → exec (.emberDrill rq) s = .next (doneBy s rq 0x0402 (fun u => ok rq (pack [.n4 0, .n4 0]) u))))

/-! ## Twin pair (chapter 9) -/

/-- A message of the twin that comes in order is acted on (R194, R196-R207, R213, R214, R351): HELLO, PAIR_RESULT, KEEPALIVE, RETRY,
PEER_STATUS, REPL, REPL_ACK, FWD, FWD_RESULT, UNIT_REQ, UNIT_REPLY, CREDIT, MIG_BEGIN, MIG_READY, MIG_DONE. In `u` its frame's `ACK`
is taken and the next number is expected; a message that the pair state leaves without an effect does nothing else. -/
def Obligations.TwinMessagesComplete : Prop :=
  ∀ (s u : State) (h : LinkHdr), h.wf = true → u = received s h →
    (∀ p : HelloP, inOrder s h (.hello p) → helloHdr h p s = h → exec (.hello h p) s = .next (genListPump (helloTaken p u))) ∧
    (∀ o r pgen pairId, o < 256 → r < 256 → pgen < 2 ^ 32 → pairId < 2 ^ 64 → inOrder s h (.pairResult o r pgen pairId) →
      (∀ p, s.tu.helloRx = some p → s.tu.isB = true → pairOpen s.tu.ps = true →
        exec (.pairResult h o r pgen pairId) s = .next (genListPump (pairAct (outOfCode o r) pairId p u))) ∧
      (s.tu.helloRx = none ∨ s.tu.isB = false ∨ pairOpen s.tu.ps = false →
        exec (.pairResult h o r pgen pairId) s = .next (genListPump u))) ∧
    (inOrder s h .keepalive → exec (.keepalive h) s = .next (genListPump u)) ∧
    (∀ n, n < 2 ^ 63 → inOrder s h (.retry n) → exec (.retry h n) s = .next (genListPump (linkResend n u))) ∧
    (∀ pool b c q, pool < 2 ^ 32 → b < 2 ^ 32 → c < 2 ^ 32 → q < 2 ^ 32 → inOrder s h (.peerStatus pool b c q) →
      exec (.peerStatus h pool b c q) s = .next (genListPump { u with tu := { u.tu with peerPool := pool, peerB64 := q } })) ∧
    (∀ g gen st recs, (Instr.repl h g gen st recs).wf = true → inOrder s h (.repl g gen st recs) →
      (isReplica s.tu.ps = true → pairLive s = true → exec (.repl h g gen st recs) s = .next (genListPump (afterAccess (settle
        (recs.zipIdx.foldl (fun v x => replRec g gen (st + x.2) x.1 v) (pauseWait 10 u)))))) ∧
      (isReplica s.tu.ps = false ∨ pairLive s = false → exec (.repl h g gen st recs) s = .next (genListPump u))) ∧
    (∀ st, st < 2 ^ 64 → inOrder s h (.replAck st) → ∃ v, exec (.replAck h st) s = .next (genListPump (afterAccess (settle v))) ∧
      v = { u with tu := { u.tu with ackStamp := max s.tu.ackStamp st },
                   tp := { u.tp with unackSegs := s.tp.unackSegs.filter (fun x => decide (st < x.1)),
                                     unackBillets := s.tp.unackBillets.filter (fun x => decide (st < x.1)) } }) ∧
    (∀ tag d un mask data cfg, tag < 2 ^ 64 → d < 2 ^ 64 → inOrder s h (.fwd tag d un mask data cfg) →
      (pairLive s = false → exec (.fwd h tag d un mask data cfg) s = .next (genListPump u)) ∧
      (∀ c, pairLive s = true → cfg = some c →
        (cfgHome s = true → exec (.fwd h tag d un mask data cfg) s = .next (genListPump (settle (cfgOrdered (some tag) c u)))) ∧
        (cfgHome s = false → exec (.fwd h tag d un mask data cfg) s = .next (genListPump u))) ∧
      (pairLive s = true → cfg = none → un = true → ∃ v, v = pauseWait 10 u ∧ exec (.fwd h tag d un mask data cfg) s =
        .next (genListPump (settle (unmapStep (d / 65536) { v with te := { v.te with
          unmaps := if v.te.unmaps.contains (d / 65536) then v.te.unmaps else v.te.unmaps ++ [d / 65536],
          unmapFwd := v.te.unmapFwd ++ [(d / 65536, tag)] } })))) ∧
      (pairLive s = true → cfg = none → un = false → fwdDenied s d = true →
        exec (.fwd h tag d un mask data cfg) s = .next (genListPump (linkSend (.fwdResult tag 2) u))) ∧
      (pairLive s = true → cfg = none → un = false → fwdDenied s d = false →
        exec (.fwd h tag d un mask data cfg) s = .next (genListPump (afterAccess (data.zipIdx.foldl (fun v x => submit
          { who := .twin, kind := .twinFwd tag, dpa := d / 64 * 64 + x.2 * 64, wr := some (x.1, mask.getD fullMask) } v)
          (pauseWait 10 u)))))) ∧
    (∀ tag r, tag < 2 ^ 64 → r < 256 → inOrder s h (.fwdResult tag r) →
      exec (.fwdResult h tag r) s = .next (genListPump (fwdResultTaken tag r u))) ∧
    (∀ tag b i mode rds, tag < 2 ^ 32 → b < 2 ^ 30 → i < 16 → mode < 256 → inOrder s h (.unitReq tag b i mode) →
      exec (.unitReq h tag b i mode rds) s = .next (genListPump (unitReqTaken tag b i mode rds (pauseWait 10 u)))) ∧
    (∀ tag st stamp mask data, tag < 2 ^ 32 → st < 256 → stamp < 2 ^ 64 → inOrder s h (.unitReply tag st stamp mask data) →
      exec (.unitReply h tag st stamp mask data) s = .next (genListPump (unitReplyTaken tag st stamp mask data u))) ∧
    (∀ n, n < 2 ^ 32 → inOrder s h (.credit n) → exec (.credit h n) s =
      .next (genListPump (afterAccess (settle { u with tu := { u.tu with credits := s.tu.credits + n } })))) ∧
    (∀ g, g < 2 ^ 25 → inOrder s h (.migBegin g) →
      (s.tu.ps = .inSync → ∃ v, exec (.migBegin h g) s = .next (genListPump (linkSend (.migReady g) v)) ∧
        v = { u.modSeg g (fun x => { x with migrating := true }) with tp := { u.tp with mig := s.tp.mig ++ [(g, false, 2)] } }) ∧
      (s.tu.ps ≠ .inSync → exec (.migBegin h g) s = .next (genListPump u))) ∧
    (∀ g, g < 2 ^ 25 → inOrder s h (.migReady g) → exec (.migReady h g) s = .next (genListPump (settle
      { u with tp := { u.tp with mig := s.tp.mig.map (fun m => if m.1 = g ∧ m.2.1 = true then (g, true, 3) else m) } }))) ∧
    (∀ g st, g < 2 ^ 25 → st < 2 ^ 64 → inOrder s h (.migDone g st) →
      ((∃ n, (g, false, n) ∈ s.tp.mig) → ∃ v, exec (.migDone h g st) s = .next (genListPump (afterAccess (settle
          { v with tp := { v.tp with mig := s.tp.mig.filter (fun m => m.1 != g) } }))) ∧
        v = u.modSeg g (fun x => { x with homeB := s.tu.isB, migrating := false, lastMig := s.tb.count, everMig := true,
                                          writers := 0, writes := 0 })) ∧
      ((∀ n, (g, false, n) ∉ s.tp.mig) → exec (.migDone h g st) s = .next (genListPump u)))

/-- The rest of the messages, in order (R213, R214, R216, R217, R220, R341): GEN_LIST, UNIT_COPY, SEG_DONE, SEG_ACK, RESYNC_DONE, CMD,
CMD_REPLY, EMBER_NOTICE, HALT_NOTICE, STREAM_STATE, PEER_RESET. -/
def Obligations.TwinResyncMessagesComplete : Prop :=
  ∀ (s u : State) (h : LinkHdr), h.wf = true → u = received s h →
    (∀ first gens, (Instr.genList h first gens).wf = true → inOrder s h (.genList first gens) →
      exec (.genList h first gens) s = .next (genListPump (genListTake first gens u))) ∧
    (∀ b i st mask data, b < 2 ^ 30 → i < 16 → st < 256 → inOrder s h (.unitCopy b i st mask data) →
      (s.tu.ps = .resyncTarget → exec (.unitCopy h b i st mask data) s = .next (genListPump (afterAccess (settle
        { u with tp := { u.tp with copyQ := s.tp.copyQ ++ [.unit b i st mask data] } })))) ∧
      (s.tu.ps ≠ .resyncTarget → exec (.unitCopy h b i st mask data) s = .next (genListPump u))) ∧
    (∀ g gen, g < 2 ^ 25 → gen < 2 ^ 32 → inOrder s h (.segDone g gen) →
      (s.tu.ps = .resyncTarget → exec (.segDone h g gen) s = .next (genListPump (afterAccess (settle
        { u with tp := { u.tp with copyQ := s.tp.copyQ ++ [.segDone g gen] } })))) ∧
      (s.tu.ps ≠ .resyncTarget → exec (.segDone h g gen) s = .next (genListPump u))) ∧
    (∀ g, g < 2 ^ 25 → inOrder s h (.segAck g) →
      (s.tp.copying = some g → exec (.segAck h g) s = .next (genListPump (resyncNext (settle { u with
        tp := { u.tp with copying := none, synced := s.tp.synced ++ [g], done := s.tp.done + 1 } })))) ∧
      (s.tp.copying ≠ some g → exec (.segAck h g) s = .next (genListPump u))) ∧
    (∀ pgen, pgen < 2 ^ 32 → inOrder s h (.resyncDone pgen) →
      exec (.resyncDone h pgen) s = .next (genListPump (resyncEnded pgen u))) ∧
    (∀ slot, slot.length = 256 → inOrder s h (.cmd slot) →
      (m30InFlight s < 4 → exec (.cmd h slot) s = .next (genListPump (u.modMbox 30 (fun m =>
        { m with slots := m.slots.set [] (m.reqProd % 4) slot, reqProd := (m.reqProd + 1) % 256 })))) ∧
      (4 ≤ m30InFlight s → exec (.cmd h slot) s = .next (genListPump (count 0x2C21 30 (statusQual 0x0106) 1 (linkSend (.cmdReply
        (replySlot (leNat (slot.take 2)) ((slot[2]?).getD 0).toNat (leNat ((slot.drop 4).take 2)) 0x0106
          (leNat ((slot.drop 8).take 4)) 0 [])) u))))) ∧
    (∀ slot, slot.length = 256 → inOrder s h (.cmdReply slot) →
      exec (.cmdReply h slot) s = .next (genListPump (cmdReplyTaken slot u))) ∧
    (∀ c ents, c < 256 → (∀ e ∈ ents, e.ch < 64) → inOrder s h (.emberNotice c ents) →
      exec (.emberNotice h c ents) s = .next (genListPump (noticeTaken true ents u))) ∧
    (∀ r ents, r < 256 → (∀ e ∈ ents, e.ch < 64) → inOrder s h (.haltNotice r ents) → exec (.haltNotice h r ents) s =
      .next (genListPump (noticeTaken false ents { u with tp := { u.tp with haltRx := true, haltReason := r } }))) ∧
    (∀ ents, (∀ e ∈ ents, e.ch < 64) → inOrder s h (.streamState ents) →
      exec (.streamState h ents) s = .next (genListPump (ents.foldl streamSeen u))) ∧
    (inOrder s h .peerReset →
      (s.sec.halt = true ∨ s.ft.failed = true → exec (.peerReset h) s = .next (genListPump (rstAssert .peer u))) ∧
      (s.sec.halt = false → s.ft.failed = false → exec (.peerReset h) s = .next (genListPump u)))

/-- What the receive side does with a sound frame that it does not act on, for every message (R194, R208, R213): a frame that was taken
before is dropped, one past a gap asks for `RETRY`, at most once in 2 µs, and one that a device that sent `HALT_NOTICE` does not take is
counted and has no other effect; a link in electrical idle, without a port that carries frames or past step 5 of ember takes none. -/
def Obligations.FramesOutOfOrder : Prop :=
  ∀ (s : State) (c : Instr) (h : LinkHdr) (m : LinkMsg), c.wf = true → frameOf c = some (h, m) →
    (linkTakes s → h.tagOk = true → formOk h m = true → sessionOk h s = true → ownSession s h m → ∃ u,
      u = { s with tu := { s.tu with session := h.session, sent := s.tu.sent.filter (fun f => decide (h.ack ≤ f.lseq)) } } ∧
      (hdrNum h < s.tu.rxSeq → exec c s = .next u) ∧
      (s.tu.rxSeq < hdrNum h → s.tb.count < s.tu.retryAt → exec c s = .next { u with tu := { u.tu with gap := true } }) ∧
      (s.tu.rxSeq < hdrNum h → s.tu.retryAt ≤ s.tb.count → exec c s = .next (linkSend (.retry s.tu.rxSeq)
        { u with tu := { u.tu with gap := true, retryAt := s.tb.count + 2000 } })) ∧
      (hdrNum h = s.tu.rxSeq → s.tp.haltSent = true → keptAfterHalt m = false → exec c s = .next (genListPump (received s h)))) ∧
    (¬ linkTakes s → exec c s = .next s)

/-- R195, for every message: a frame whose tag fails to verify is discarded: of a type that carries write data (REPL, FWD, UNIT_REPLY,
UNIT_COPY) it brings integrity halt (cause 3), of any other type a loss of the link; before the first valid HELLO of a session every
type is counted, reported and a loss of the link (R351). A frame of a wrong form (its type not listed, its length out of range, a
reserved field not zero) or of another session is a loss of the link. -/
def Obligations.FramesThatFail : Prop :=
  ∀ (s : State) (c : Instr) (h : LinkHdr) (m : LinkMsg), linkTakes s → c.wf = true → frameOf c = some (h, m) →
    (h.tagOk = false → s.tu.helloRx.isSome = true →
      (h.typ = 0x10 ∨ h.typ = 0x12 ∨ h.typ = 0x15 ∨ h.typ = 0x29 → exec c s = .next (integrityHalt 3 0 s)) ∧
      (h.typ ≠ 0x10 → h.typ ≠ 0x12 → h.typ ≠ 0x15 → h.typ ≠ 0x29 → exec c s = .next (lossOfLink s))) ∧
    (h.tagOk = false → s.tu.helloRx = none →
      exec c s = .next (lossOfLink (raise 0x2401 0xFFFF 0 .nothing { s with sec := { s.sec with tagFail := inc32 s.sec.tagFail } }))) ∧
    (h.tagOk = true → formOk h m = false ∨ sessionOk h s = false → ownSession s h m → exec c s = .next (lossOfLink s))

/-- The timers, ports and quorum inputs of the twin link (R192, R194, R202, R205, R208-R211, R214, R219): *twin port trained*,
LINK_GAP_TIMEOUT, *twin port silent*, REPL_ACK_TIMEOUT, *keepalive timer*, *PEER_STATUS timer*, *STREAM_STATE timer*, *PSEQ_IN not
live*, *PSEQ_IN claim*, *PSEQ_IN live*, *quorum window end*, *takeover record committed*, *twin retrain attempt*, *twin port degrade*:
what each does, and where it does nothing. -/
def Obligations.TwinTimersComplete : Prop :=
  (∀ s hi w, w < 32 → twinWidth w = true → s.tu.idle = false → twinPorts s ≠ [] → s.rpm.recovery = 0 →
    (s.port (twinPortNo hi s)).pllOk = true → ∃ u, u = retrainPump (setTwinPort hi { up := true, width := w } s) ∧
    (s.tu.lo.up = true ∨ s.tu.hi.up = true ∨ s.px.open_ = false ∨ s.sec.halt = true ∨ s.ft.failed = true →
      exec (.twinPortTrained hi w) s = .next u) ∧
    (s.tu.lo.up = false → s.tu.hi.up = false → s.px.open_ = true → s.sec.halt = false → s.ft.failed = false →
      exec (.twinPortTrained hi w) s = .next (sessionBegin u))) ∧
  (∀ s hi w, w < 32 → (twinWidth w = false ∨ s.tu.idle = true ∨ twinPorts s = [] ∨ s.rpm.recovery ≠ 0 ∨
    (s.port (twinPortNo hi s)).pllOk = false) → exec (.twinPortTrained hi w) s = .next s) ∧
  (∀ s, s.tu.gap = true → exec .linkGapTimeout s = .next (lossOfLink s)) ∧
  (∀ s, s.tu.gap = false → exec .linkGapTimeout s = .next s) ∧
  (∀ s hi p, p = (if hi then s.tu.hi else s.tu.lo) →
    (p.up = true → otherUp hi s = true → exec (.twinPortSilent hi) s = .next (setTwinPort hi { p with up := false } s)) ∧
    (p.up = true → otherUp hi s = false → exec (.twinPortSilent hi) s = .next (lossOfLink s)) ∧
    (p.up = false → exec (.twinPortSilent hi) s = .next s)) ∧
  (∀ s, s.tu.ps = .inSync → s.tp.unackSegs ≠ [] → exec .replAckTimeout s = .next (lossOfLink s)) ∧
  (∀ s, (s.tu.ps ≠ .inSync ∨ s.tp.unackSegs = []) → exec .replAckTimeout s = .next s) ∧
  (∀ s, linkUp s = true → linkQuiet s = false → exec .keepaliveTimer s = .next (linkSend .keepalive s)) ∧
  (∀ s, (linkUp s = false ∨ linkQuiet s = true) → exec .keepaliveTimer s = .next s) ∧
  (∀ s, linkFull s = true → pairLive s = true → exec .peerStatusTimer s = .next (linkSend (statusMsg s) s)) ∧
  (∀ s, (linkFull s = false ∨ pairLive s = false) → exec .peerStatusTimer s = .next s) ∧
  (∀ s, linkFull s = true → s.tu.ps = .inSync → runningPartners s ≠ [] →
    exec .streamStateTimer s = .next (linkSend (.streamState ((runningPartners s).map (streamEnt s))) s)) ∧
  (∀ s, (linkFull s = false ∨ s.tu.ps ≠ .inSync ∨ runningPartners s = []) → exec .streamStateTimer s = .next s) ∧
  (∀ s, exec (.pseqInNotLive false) s = .next { s with tu := { s.tu with live := false } }) ∧
  (∀ s, ∃ u, u = { s with tu := { s.tu with live := false }, tp := { s.tp with notLive1ms := true } } ∧
    (s.tp.deciding = true → s.tu.record.token = false → exec (.pseqInNotLive true) s = .next (claimTake u)) ∧
    ((s.tp.deciding = false ∨ s.tu.record.token = true) →
      (linkUp s = true → s.tu.ps = .inSync → s.tu.qwired = true → s.tu.qfault = false → exec (.pseqInNotLive true) s =
        .next (raise 0x1803 0xFFFF 0 .nothing { u with tu := { u.tu with qfault := true } })) ∧
      (linkUp s = false ∨ s.tu.ps ≠ .inSync ∨ s.tu.qwired = false ∨ s.tu.qfault = true →
        exec (.pseqInNotLive true) s = .next u))) ∧
  (∀ s, ∃ u, u = { s with tu := { s.tu with live := false, claimIn := true } } ∧
    (s.tp.deciding = true → s.tu.record.token = true → exec .pseqInClaim s = .next (becomeFenced u)) ∧
    ((s.tp.deciding = false ∨ s.tu.record.token = false) → exec .pseqInClaim s = .next u)) ∧
  (∀ s b, exec (.pseqInLive b) s = .next { s with
    tu := { s.tu with live := true, claimIn := false, qfault := s.tu.qfault && !b }, tp := { s.tp with notLive1ms := false } }) ∧
  (∀ s, (s.tp.deciding = true → s.tu.record.token = true → exec .quorumWindowEnd s = .next (takeoverBegin false s)) ∧
    (s.tp.deciding = true → s.tu.record.token = false → exec .quorumWindowEnd s = .next (becomeFenced s)) ∧
    (s.tp.deciding = false → exec .quorumWindowEnd s = .next s)) ∧
  (∀ s c, s.opt.run = some c → c.act = .takeover → c.page ≠ 35 →
    exec .takeoverRecordCommitted s = .next (commitStart (takeoverDone (commitApply c s)))) ∧
  (∀ s c, s.opt.run = some c → c.act ≠ .takeover → (∃ d ∈ s.opt.queue, d.act = .takeover) →
    exec .takeoverRecordCommitted s = .next (commitsUntil (fun a => a == .takeover) s.opt.queue.length (commitEnd s))) ∧
  (∀ s, (∀ c ∈ s.opt.queue, c.act ≠ .takeover) → (∀ c, s.opt.run = some c → c.act ≠ .takeover) →
    exec .takeoverRecordCommitted s = .next s) ∧
  (∀ s, s.tu.idle = true → s.tp.deciding = false → s.tp.taking = false → s.tp.lossOwed = false → pairBusy s = false →
    s.tu.ps ≠ .refused → exec .twinRetrainAttempt s = .next { s with tu := { s.tu with idle := false } }) ∧
  (∀ s, (s.tu.idle = false ∨ s.tp.deciding = true ∨ s.tp.taking = true ∨ s.tp.lossOwed = true ∨ pairBusy s = true ∨
    s.tu.ps = .refused) → exec .twinRetrainAttempt s = .next s) ∧
  (∀ s hi w p, w < 32 → p = (if hi then s.tu.hi else s.tu.lo) → ∃ u, u = ledger 0x1804 (srcPort (twinPortNo hi s))
      [twinPortNo hi s, w] (raise 0x1804 (twinPortNo hi s) 0 .nothing s) ∧
    (p.up = true → w < p.width → twinWidth w = true →
      exec (.twinPortDegrade hi w) s = .next (setTwinPort hi { p with width := w } u)) ∧
    (p.up = true → 0 < p.width → w = 0 → otherUp hi s = true → exec (.twinPortDegrade hi w) s = .next (setTwinPort hi {} u)) ∧
    (p.up = true → 0 < p.width → w = 0 → otherUp hi s = false → exec (.twinPortDegrade hi w) s = .next (lossOfLink u)) ∧
    (p.up = false ∨ p.width ≤ w ∨ w ≠ 0 ∧ twinWidth w = false → exec (.twinPortDegrade hi w) s = .next s))

/-- The twin commands (R199, R200, R211, R213, R219, R221): TWIN_QUERY, TWIN_HOME_SET, TWIN_TAKEOVER, TWIN_UNPAIR, TWIN_PEER_RESET,
TWIN_RETRAIN, each let through by its checks. -/
def Obligations.TwinCommandsComplete : Prop :=
  (∀ s rq, sentOk (.twinQuery rq) s rq 0x0500 →
    exec (.twinQuery rq) s = .next (doneBy s rq 0x0500 (fun u => ok rq (twinData u) u))) ∧
  (∀ s rq base size policy, sentOk (.twinHomeSet rq base size policy) s rq 0x0501 → policy < 4 → base % 2 ^ 21 = 0 → size % 2 ^ 21 = 0 →
    0 < size → (s.tp.homes.any (sameRange base size) = true ∨
      policy ≠ 3 ∧ s.tp.homes.any (rangesMeet base size) = false ∧ s.tp.homes.length < 64) →
    exec (.twinHomeSet rq base size policy) s = .next (doneBy s rq 0x0501 (fun u =>
      settle (cfgAsk rq false (.home base size policy) (setCommitted rq u))))) ∧
  (∀ s rq, sentOk (.twinTakeover rq) s rq 0x0502 → linkUp s = false → mayTakeOver s = true → s.tu.record.pgen ≠ lastPgen →
    exec (.twinTakeover rq) s = .next (doneBy s rq 0x0502 (fun u => takeoverBegin false u))) ∧
  (∀ s rq, sentOk (.twinUnpair rq) s rq 0x0503 → noticeState s.tu.ps = false → s.sec.rngFail = false →
    exec (.twinUnpair rq) s = .next (doneBy s rq 0x0503 (fun u => pairWrite (.unpair rq.ch rq.tag)
      (fun x => { x with pstate := .unpaired, pairId := 0, session := Config.freeRandom u.free % 2 ^ 32 }) (draw u)))) ∧
  (∀ s rq, sentOk (.twinPeerReset rq) s rq 0x0504 → linkUp s = true → s.tp.haltRx = true →
    exec (.twinPeerReset rq) s = .next (doneBy s rq 0x0504 (fun u => ok rq [] (linkSend .peerReset u)))) ∧
  (∀ s rq, sentOk (.twinRetrain rq) s rq 0x0505 → twinPorts s ≠ [] →
    (s.tu.ps = .refused → exec (.twinRetrain rq) s = .next (doneBy s rq 0x0505 (fun u =>
      ok rq [] { u with tu := { u.tu with idle := false } }))) ∧
    (s.tu.ps ≠ .refused → exec (.twinRetrain rq) s = .next (doneBy s rq 0x0505 (fun u => ok rq [] (retrainDegraded u)))))

/-! ## Ports (chapter 10) -/

/-- Events on the links and below the stream ports (R226, R227, R231, R237, R244-R246), in every form: *port reset*, *port link up*,
*port disabled retry*, *port lane failed*, link upconfigure of a host or stream port, *stream port enumeration*, the consumer's ERR_COR,
ERR_FATAL and interrupt, *stream path link down*, *inbound request*. An event at a port or a consumer that cannot have it changes
nothing. -/
def Obligations.PortEventsComplete : Prop :=
  (∀ s p, p < 10 → euBusy s = true ∨ s.eu.phase = .shutdown ∨ s.rpm.st = .timedShutdown ∨ s.rpm.st = .shutdown →
    exec (.portReset p) s = .next s) ∧
  (∀ s p t, p < 10 → euBusy s = false → s.eu.phase ≠ .shutdown → s.rpm.st ≠ .timedShutdown → s.rpm.st ≠ .shutdown →
    t = rstTake (.port p) s →
    (s.rpm.asserted.contains (.port p) = true → exec (.portReset p) s = .next t) ∧
    (s.rpm.asserted.contains (.port p) = false →
      exec (.portReset p) s = .next { t with rpm := { t.rpm with asserted := t.rpm.asserted.erase (.port p) } })) ∧
  (∀ s p w b m, p < 10 → portTrains s p = true → w ∈ [16, 8, 4] → w ≤ maxLanes (s.port p) →
    ∃ t u multi, exec (.portLinkUp p 6 w true b m) s = .next (hostWidth p u) ∧
      multi = decide ((s.port p).role = 0 ∧ (s.port p).plain = false ∧ (s.port p).nfunc ≠ 0) ∧
      t = s.modPort p (fun q =>
        { q with width := w, rate := 6, flit := true, reversed := b, serving := true, mld := multi && m }) ∧
      (multi = false ∨ m = true → u = if w < 16 then raise 0x0001 p 0 .nothing t else t) ∧
      (multi = true → m = false → u = raise 0x0002 p 0 .nothing (if w < 16 then raise 0x0001 p 0 .nothing t else t))) ∧
  (∀ s p rate w flit b m, p < 10 → rate < 8 → w < 32 →
    (portTrains s p = false → exec (.portLinkUp p rate w flit b m) s = .next s) ∧
    (portTrains s p = true → (rate ≠ 6 ∨ flit = false ∨ w ∉ [16, 8, 4] ∨ maxLanes (s.port p) < w) →
      exec (.portLinkUp p rate w flit b m) s = .next (raise 0x0000 p 0 .nothing (s.modPort p (fun q =>
        { q with disabled := true, attempts := min 3 (q.attempts + 1), width := 0, rate := 0, flit := false, serving := false,
                 reversed := false }))))) ∧
  (∀ s p, p < 10 →
    ((s.port p).disabled = true → (s.port p).attempts < 3 →
      exec (.portDisabledRetry p) s = .next (s.modPort p (fun q => { q with disabled := false }))) ∧
    ((s.port p).disabled = false ∨ 3 ≤ (s.port p).attempts → exec (.portDisabledRetry p) s = .next s)) ∧
  (∀ s p u, p < 10 → u = s.modPort p (fun q => { q with degradeCnt := inc32 q.degradeCnt }) →
    ((s.port p).role = 2 ∨ (s.port p).serving = false → exec (.portLaneFailed p) s = .next s) ∧
    ((s.port p).role ≠ 2 → (s.port p).serving = true → (s.port p).width ≠ 4 →
      exec (.portLaneFailed p) s = .next (hostWidth p (raise 0x0001 p 0 .nothing (admitWatch
        (fun u => u.modPort p (fun q => { q with width := q.width / 2 })) u)))) ∧
    ((s.port p).role ≠ 2 → (s.port p).serving = true → (s.port p).width = 4 →
      exec (.portLaneFailed p) s = .next (linkRefused p (admitWatch (portPulse p) u)))) ∧
  (∀ s p w, p < 10 → w < 32 → (s.port p).role ≠ 2 →
    ((s.port p).serving = true → w ∈ [16, 8, 4] → w ≤ maxLanes (s.port p) → (s.port p).width < w →
      exec (.linkUpconfigure p w) s = .next (hostWidth p (s.modPort p (fun q => { q with width := w })))) ∧
    ((s.port p).serving = false ∨ w ∉ [16, 8, 4] ∨ maxLanes (s.port p) < w ∨ w ≤ (s.port p).width →
      exec (.linkUpconfigure p w) s = .next s)) ∧
  (∀ s p found, p < 10 →
    ((s.port p).role ≠ 1 ∨ (s.port p).serving = false → exec (.streamPortEnumeration p found) s = .next s) ∧
    ((s.port p).role = 1 → (s.port p).serving = true → ∃ e t, e = found.foldl (enumStep p) { at_ := barBase p } ∧
      t = e.off.foldl (fun s f => ledger 0x0006 (srcPort p) [p, f.bus, f.dev, f.func] (raise 0x0006 p 0 .nothing s))
        (s.modPort p (fun q => { q with consumers := e.cons })) ∧
      exec (.streamPortEnumeration p found) s = .next (if t.px.rescan = some p then
        endBlock 0x0602 0 0 { t with px := { t.px with rescan := none } } else t) ∧
      e.cons.length ≤ 8 ∧ (e.off = [] → e.cons.length = found.length) ∧
      ∀ c ∈ e.cons, ∀ b ∈ c.bars, barBase p ≤ b.1 ∧ b.1 + b.2 ≤ barBase p + 2 ^ 36 ∧ (0 < b.2 → b.1 % b.2 = 0))) ∧
  (∀ s p c, p < 10 → c < 8 →
    (hasConsumer s p c = true →
      exec (.consumerErrCor p c) s = .next (s.modPort p (fun q => { q with consCor := inc32 q.consCor })) ∧
      exec (.consumerInterrupt p c) s = .next (raise 0x0007 p c .nothing s)) ∧
    (hasConsumer s p c = false → exec (.consumerErrCor p c) s = .next s ∧ exec (.consumerInterrupt p c) s = .next s)) ∧
  (∀ s p c, p < 10 → c < 8 →
    (consumerHere s p c = true → ∃ t, t = raise 0x0008 p c .nothing ((List.range 64).foldl (fun s k => match (s.chan k).job with
        | some j => if j.port = p ∧ j.consumer = c then holdChan 0x10 k s else s
        | none => s)
        (s.modPort p (fun x => { x with consumers := x.consumers.modify c (fun k => { k with lost := true }) }))) ∧
      exec (.consumerErrFatal p c) s = .next t ∧ exec (.streamPathLinkDown p c) s = .next t) ∧
    (consumerHere s p c = false → exec (.consumerErrFatal p c) s = .next s ∧ exec (.streamPathLinkDown p c) s = .next s)) ∧
  (∀ s p, p < 10 →
    ((s.port p).role = 1 → (s.port p).serving = true → exec (.inboundRequest p) s =
      .next (count 0x0024 p 0 1 (s.modPort p (fun q => { q with urInbound := inc32 q.urInbound })))) ∧
    ((s.port p).role ≠ 1 ∨ (s.port p).serving = false → exec (.inboundRequest p) s = .next s))

/-- The primary mailbox and the FM-owned LD answer (R237-R239, R243): Get and Clear Event Records, Get and Set Event Interrupt
Policy, Get Supported Logs, Get Log, Identify Memory Device, Get Health Info, Get Poison List, every other opcode, Get LD Info,
Get and Set LD Allocations, Get, Set and Status of QoS, and the unmasking of an MSI-X vector. Where no such logical device answers
nothing happens, and in D3hot the access is an Unsupported Request (R241). Return codes: log entry 62. -/
def Obligations.CxlCommandsComplete : Prop :=
  (∀ s p l, p < 10 → l < 16 → ldServes s p l = true → (s.fn p l).d3 = false →
    (∀ log < 4, exec (.getEventRecords p l log) s = .next (cxlDone p l 0 ([(s.ld p l).overCnt.get 0 log,
      ((s.ld p l).logs.get [] log).length] ++ ((s.ld p l).logs.get [] log).flatMap recFields) s)) ∧
    (∀ log hs all, 4 ≤ log → log < 256 → (∀ h ∈ hs, h < 65536) → exec (.getEventRecords p l log) s = .next (cxlDone p l 2 [] s) ∧
      exec (.clearEventRecords p l log all hs) s = .next (cxlDone p l 2 [] s)) ∧
    (∀ log hs all, log < 4 → (∀ h ∈ hs, h < 65536) →
      (all = true ∨ (∀ h ∈ hs, ∃ r ∈ (s.ld p l).logs.get [] log, r.handle = h) →
        ∃ t, exec (.clearEventRecords p l log all hs) s = .next (cxlDone p l 0 [] t) ∧
        (t.ld p l).logs.get [] log =
          (if all then [] else ((s.ld p l).logs.get [] log).filter (fun r => !hs.contains r.handle)) ∧
        (t.ld p l).overCnt.get 0 log = 0 ∧ ∀ k, k ≠ log → (t.ld p l).logs.get [] k = (s.ld p l).logs.get [] k) ∧
      (all = false → (∃ h ∈ hs, ∀ r ∈ (s.ld p l).logs.get [] log, r.handle ≠ h) →
        exec (.clearEventRecords p l log all hs) s = .next (cxlDone p l 2 [] s))) ∧
    exec (.getEventInterruptPolicy p l) s = .next (cxlDone p l 0
      ((List.range 4).flatMap (fun i => [(s.ld p l).polMode.get 0 i, (s.ld p l).polNum.get (3 + i) i])) s) ∧
    (∀ modes nums, modes.length = 4 → nums.length = 4 →
      ((∀ m ∈ modes, m < 3) → ∃ t, exec (.setEventInterruptPolicy p l modes nums) s = .next (cxlDone p l 0 [] t) ∧
        (t.port p).policyFix = satAdd max32 (s.port p).policyFix (nums.filter (fun n => decide (64 ≤ n))).length ∧
        ∀ i < 4, (t.ld p l).polMode.get 0 i = modes.getD i 0 ∧
          logVector (t.ld p l) i = if nums.getD i 0 < 64 then nums.getD i 0 else 3 + i) ∧
      ((∃ m ∈ modes, 3 ≤ m) → exec (.setEventInterruptPolicy p l modes nums) s = .next (cxlDone p l 2 [] s))) ∧
    exec (.getSupportedLogs p l) s = .next (cxlDone p l 0 [1, 36] s) ∧
    exec (.getLog p l) s = .next (cxlDone p l 0 (cxlOpcodes.flatMap (fun o => [o, 0])) s) ∧
    exec (.identifyMemoryDevice p l) s = .next (cxlDone p l 0
      [4 * s.te.uGib, 0, 4 * s.te.uGib, 0, 0, 64, 64, 64, 64, 256, 0] s) ∧
    (∃ health, exec (.getHealthInfo p l) s = .next (cxlDone p l 0 [health, b2n (notReady s), lifeUsed s, (s.th.max / 4).toNat,
      s.eu.sealRec.unsealedCnt, correctedCnt s] (draw s))) ∧
    (∀ base len, base < 2 ^ 64 → len < 2 ^ 64 → ∃ mine : List (Nat × Bool), exec (.getPoisonList p l base len) s = .next (cxlDone p l 0
        ([b2n s.px.poisonOver, b2n (decide (256 < mine.length)), min 256 mine.length]
          ++ (mine.take 256).flatMap (fun e => [e.1, if e.2 then 65536 else 64])) s) ∧
      mine.Sublist s.px.poisonIdx ∧ ∀ e, e ∈ mine ↔ e ∈ s.px.poisonIdx ∧ e.1 < base + len ∧ base < e.1 + (if e.2 then 65536 else 64) ∧
        ∃ id t, turfAt s e.1 = some (id, t) ∧ (grantOf t (.fn p l)).isSome = true) ∧
    (∀ op < 65536, cxlOpcodes.contains op = false →
      exec (.primaryMailboxUnsupported p l op) s = .next (cxlDone p l 3 [] s))) ∧
  (∀ s p l log all hs modes nums base len op, p < 10 → l < 16 → log < 256 → (∀ h ∈ hs, h < 65536) → modes.length = 4 →
    nums.length = 4 → base < 2 ^ 64 → len < 2 ^ 64 → op < 65536 → ∀ c, c ∈ [Instr.getEventRecords p l log,
      .clearEventRecords p l log all hs, .getEventInterruptPolicy p l, .setEventInterruptPolicy p l modes nums,
      .getSupportedLogs p l, .getLog p l, .identifyMemoryDevice p l, .getHealthInfo p l, .getPoisonList p l base len,
      .primaryMailboxUnsupported p l op] →
    (ldServes s p l = false → exec c s = .next s) ∧
    (ldServes s p l = true → (s.fn p l).d3 = true → cxlOpcodes.contains op = false →
      exec c s = .next (logAer p l .unsupportedRequest s))) ∧
  (∀ s p, p < 10 → portServes s p = true → (s.port p).mld = true →
    exec (.getLdInfo p) s = .next (emit (.fmLd p 0 [(s.port p).nfunc + 1, uBytes s]) s) ∧
    exec (.getLdAllocations p) s = .next (emit (.fmLd p 0 (List.replicate ((s.port p).nfunc + 1) (uBytes s))) s) ∧
    exec (.setLdAllocations p (List.replicate ((s.port p).nfunc + 1) (uBytes s))) s = .next (emit (.fmLd p 0 []) s) ∧
    (∀ sizes, sizes ≠ List.replicate ((s.port p).nfunc + 1) (uBytes s) →
      exec (.setLdAllocations p sizes) s = .next (emit (.fmLd p 2 []) s)) ∧
    exec (.getQosControl p) s = .next (emit (.fmLd p 0 (s.px.qos.get [] p)) s) ∧
    (∀ vals, exec (.setQosControl p vals) s =
      .next (emit (.fmLd p 0 []) { s with px := { s.px with qos := s.px.qos.set [] p vals } })) ∧
    ∃ v, exec (.getQosStatus p) s = .next (emit (.fmLd p 0 [v]) (draw s))) ∧
  (∀ s p vals, p < 10 → portServes s p = false ∨ (s.port p).mld = false →
    ∀ c, c ∈ [Instr.getLdInfo p, .getLdAllocations p, .setLdAllocations p vals, .getQosControl p, .setQosControl p vals,
      .getQosStatus p] → exec c s = .next s) ∧
  (∀ s p f v, p < 10 → f < 16 → v < 64 →
    (fnReached s p f = true → (s.fn p f).d3 = false →
      exec (.msixVectorUnmask p f v) s = .next (firePending p f (s.modFn p f (fun x =>
        { x with msix := x.msix.upd {} v (fun e => { e with mask := false }) })))) ∧
    (fnReached s p f = true → (s.fn p f).d3 = true → exec (.msixVectorUnmask p f v) s = .next (logAer p f .unsupportedRequest s)) ∧
    (fnReached s p f = false → exec (.msixVectorUnmask p f v) s = .next s))

/-- The port commands complete (R247): PORT_QUERY, PORT_RETRAIN, PORT_RESCAN; and clearing the mask bit of a vector whose pending bit
is set sends its one message and clears the pending bit (R243). -/
def Obligations.PortCommandsComplete : Prop :=
  (∀ s p f v, p < 10 → f < 16 → v < 64 → fnReached s p f = true → (s.fn p f).d3 = false →
    (s.fn p f).msixEn = true → (s.fn p f).msixMask = false → (s.fn p f).pend = (1#64) <<< v →
    ∃ t, exec (.msixVectorUnmask p f v) s = .next t ∧ t.out = .msix p f v :: s.out ∧ (t.fn p f).pend = 0 ∧
      ((t.fn p f).msix.get {} v).mask = false) ∧
  (∀ s rq p, sentOk (.portQuery rq p) s rq 0x0600 → p < 10 →
    exec (.portQuery rq p) s = .next (doneBy s rq 0x0600 (fun u => ok rq (pack (portFields u p)) u))) ∧
  (∀ s rq, sentOk (.portQuery rq allOnes) s rq 0x0600 → exec (.portQuery rq allOnes) s = .next (doneBy s rq 0x0600 (fun u =>
    ok rq (pack ((List.range 10).flatMap (portFields u))) u))) ∧
  (∀ s rq p, sentOk (.portRetrain rq p) s rq 0x0601 → p < 10 → (s.port p).role ≠ 2 → senderPort s rq.ch ≠ some p →
    exec (.portRetrain rq p) s = .next (doneBy s rq 0x0601 (fun u => ok rq [] (setCommitted rq (rstAssert (.port p) u))))) ∧
  (∀ s rq p, sentOk (.portRescan rq p) s rq 0x0602 → p < 10 → (s.port p).role = 1 → streamOn s p = false →
    ((s.port p).serving = true → exec (.portRescan rq p) s = .next (doneBy s rq 0x0602 (fun u =>
      { u with px := { u.px with rescan := some p } }))) ∧
    ((s.port p).serving = false → exec (.portRescan rq p) s = .next (doneBy s rq 0x0602 (fun u => ok rq [] u))))

/-! ## Stream channels (chapter 11) -/

/-- The stream commands that their checks let through (R248-R251, R260-R262, R266, R267): STREAM_JOB_LOAD answers a file, a line range
or a ring that does not pass, and else loads the job; STREAM_JOB_UNLOAD empties the channel; STREAM_START clears the ring and enters
PRIMING at the job's first line or where it was held; STREAM_STOP ends the lines in release, then the channel holds; STREAM_RESUME
enters PRIMING at the line given or at the held line; STREAM_QUERY answers a channel's registers, or every channel's. -/
def Obligations.StreamCommandsComplete : Prop :=
  (∀ s rq c j, sentOk (.streamJobLoad rq c j) s rq 0x0700 → (∀ b ∈ jobBad s c j, b = false) → hasJob s c = false →
    rangeGranted s (senderOf s rq.ch) j.base j.len = true →
    exec (.streamJobLoad rq c j) s = .next (doneBy s rq 0x0700 (jobLoad rq c j))) ∧
  (∀ s rq c j, (loadCode (jobRd s j) j.len ≠ 0 → jobLoad rq c j s = reply rq 0x0302 (loadCode (jobRd s j) j.len) [] s) ∧
    (loadCode (jobRd s j) j.len = 0 →
      (fileRange (hdrOf (rdBytes (jobRd s j) 0 128)) j = false → jobLoad rq c j s = reply rq 0x0301 2 [] s) ∧
      (fileRange (hdrOf (rdBytes (jobRd s j) 0 128)) j = true →
        (ringPlaced s j = false → jobLoad rq c j s = reply rq 0x0301 5 [] s) ∧
        (ringPlaced s j = true → ringAlone s j = false → jobLoad rq c j s = reply rq 0x0301 6 [] s) ∧
        (ringPlaced s j = true → ringAlone s j = true → jobLoad rq c j s =
          ok rq [] (setCommitted rq (countStreams (· + 1) j (setChan c
            { st := .loaded, job := some j, owner := rq.ch, next := j.first, header := rdBytes (jobRd s j) 0 128 } s))))))) ∧
  (∀ s rq c j, sentOk (.streamJobUnload rq c) s rq 0x0701 → c < 64 → (s.chan c).job = some j → (s.chan c).owner = rq.ch →
    (s.chan c).st ∈ [.loaded, .held, .done] → exec (.streamJobUnload rq c) s = .next (doneBy s rq 0x0701 (fun u =>
      ok rq [] (setCommitted rq ((countStreams (· - 1) j u).modChan c (fun x =>
        { x with st := .empty, job := none, heldValid := false, header := [], produced := 0, consumed := 0 })))))) ∧
  (∀ s rq c j stamp mode peer, sentOk (.streamStart rq c stamp mode peer) s rq 0x0702 → c < 64 → mode < 2 →
    (s.chan c).job = some j → (s.chan c).owner = rq.ch → (s.chan c).st = .loaded → (∀ b ∈ startBad s c mode peer, b = false) →
    exec (.streamStart rq c stamp mode peer) s = .next (doneBy s rq 0x0702 (fun u =>
      ok rq [] (setCommitted rq (prime c (s.chan c).next stamp mode (ringClear c u)))))) ∧
  (∀ s rq c j, sentOk (.streamStop rq c) s rq 0x0703 → c < 64 → (s.chan c).job = some j → (s.chan c).owner = rq.ch →
    (s.chan c).st ∈ [.priming, .armed, .running, .standby] →
    ((s.chan c).rel = [] → exec (.streamStop rq c) s = .next (doneBy s rq 0x0703 (fun u =>
      ok rq [] (setCommitted rq (unpin c (relFinish c (stopEnd 6 c u))))))) ∧
    ((s.chan c).rel ≠ [] → exec (.streamStop rq c) s = .next (doneBy s rq 0x0703 (fun u =>
      ok rq [] (setCommitted rq (unpin c (relFinish c (u.modChan c (fun x => { x with stopping := some 6 }))))))))) ∧
  (∀ s rq c j line stamp mode peer, sentOk (.streamResume rq c line stamp mode peer) s rq 0x0704 → c < 64 → mode < 2 →
    (s.chan c).job = some j → (s.chan c).owner = rq.ch → (s.chan c).st ∈ [.held, .done, .standby] →
    (∀ b ∈ startBad s c mode peer, b = false) →
    (j.first ≤ line → line ≤ lastOf j → line ≠ allOnes →
      exec (.streamResume rq c line stamp mode peer) s = .next (doneBy s rq 0x0704 (fun u =>
        ok rq [] (setCommitted rq (prime c line stamp mode u))))) ∧
    (line = allOnes → (s.chan c).heldValid = true →
      exec (.streamResume rq c line stamp mode peer) s = .next (doneBy s rq 0x0704 (fun u =>
        ok rq [] (setCommitted rq (prime c (s.chan c).next stamp mode u)))))) ∧
  (∀ s rq c, sentOk (.streamQuery rq c) s rq 0x0705 → (c < 64 ∨ c = allOnes) →
    exec (.streamQuery rq c) s = .next (doneBy s rq 0x0705 (fun u =>
      ok rq (pack ((if c = allOnes then List.range 64 else [c]).flatMap (chanFields u))) u)))

/-- The channels' own events and registers (R251, R253, R255, R257, R264, R433, R440): *channel armed*, *prime timeout*, *start stamp
reached*, *trigger decision point*, *line release complete*, the credit doorbell, SU_CH_LATE_MAX: what each does, and where it does
nothing. A doorbell of another port, another consumer or a channel with no job, with byte enables left out or a count past what is
produced, is only counted. -/
def Obligations.StreamEventsComplete : Prop :=
  (∀ s c t, c < 64 → (s.chan c).st = .priming → windowResident s c = true →
    t = raise 0x1C00 c 0 (.stream c) (s.modChan c (fun x => { x with st := if x.standbyMode then .standby else .armed })) →
    ((s.chan c).standbyMode = true ∨ s.tb.count < (s.chan c).stamp → exec (.channelArmed c) s = .next t) ∧
    ((s.chan c).standbyMode = false → (s.chan c).stamp ≤ s.tb.count →
      exec (.channelArmed c) s = .next (streamNotify c (t.modChan c (fun x => { x with st := .running }))))) ∧
  (∀ s c, c < 64 → ((s.chan c).st ≠ .priming ∨ windowResident s c = false) → exec (.channelArmed c) s = .next s) ∧
  (∀ s c, c < 64 → (s.chan c).st = .priming →
    exec (.primeTimeout c) s = .next (raise 0x1C01 c 0 (.stream c) (heldFor 0x13 c s))) ∧
  (∀ s c, c < 64 → (s.chan c).st ≠ .priming → exec (.primeTimeout c) s = .next s) ∧
  (∀ s c, c < 64 → (s.chan c).st = .armed → (s.chan c).stamp ≤ s.tb.count →
    exec (.startStampReached c) s = .next (streamNotify c (s.modChan c (fun x => { x with st := .running })))) ∧
  (∀ s c, c < 64 → ((s.chan c).st ≠ .armed ∨ s.tb.count < (s.chan c).stamp) → exec (.startStampReached c) s = .next s) ∧
  (∀ s input rds e, input < 16 → (∀ x ∈ rds, x.1 < 2 ^ 40) → s.su.edges.find? (fun x => x.1 == input) = some e →
    exec (.triggerDecisionPoint input rds) s = .next (((List.range 64).filter (takesEdge s input)).foldl
      (fun t c => chanDecide rds e.2 c t) { s with su := { s.su with edges := s.su.edges.erase e } })) ∧
  (∀ s input rds, input < 16 → (∀ x ∈ rds, x.1 < 2 ^ 40) → s.su.edges.find? (fun x => x.1 == input) = none →
    exec (.triggerDecisionPoint input rds) s = .next s) ∧
  (∀ s c, c < 64 → (s.chan c).st ∈ [.priming, .armed, .running, .standby] →
    ∀ r t, (s.chan c).rel = r :: t → r.todo = [] → exec (.lineReleaseComplete c) s = .next (relFlush c (headEnd c s))) ∧
  (∀ s c, c < 64 → ((s.chan c).st ∉ [.priming, .armed, .running, .standby] ∨ (s.chan c).rel = [] ∨
    ∃ r t, (s.chan c).rel = r :: t ∧ r.todo ≠ []) → exec (.lineReleaseComplete c) s = .next s) ∧
  (∀ s c j v, c < 64 → (s.chan c).job = some j → j.port < 10 → j.consumer < 16 →
    ((v.toNat + 2 ^ 32 - (s.chan c).consumed) % 2 ^ 32 ≤ ((s.chan c).produced + 2 ^ 32 - (s.chan c).consumed) % 2 ^ 32 →
      exec (.streamCreditDoorbell c j.port j.consumer v 15) s = .next (s.modChan c (fun x => { x with consumed := v.toNat }))) ∧
    (((s.chan c).produced + 2 ^ 32 - (s.chan c).consumed) % 2 ^ 32 < (v.toNat + 2 ^ 32 - (s.chan c).consumed) % 2 ^ 32 →
      exec (.streamCreditDoorbell c j.port j.consumer v 15) s =
        .next (s.modChan c (fun x => { x with dbRej := inc32 x.dbRej })))) ∧
  (∀ s c p k v be, c < 64 → p < 10 → k < 16 → be < 16 →
    (∀ j, (s.chan c).job = some j → p ≠ j.port ∨ k ≠ j.consumer ∨ be ≠ 15) →
    exec (.streamCreditDoorbell c p k v be) s = .next (s.modChan c (fun x => { x with dbRej := inc32 x.dbRej }))) ∧
  (∀ s ag c v, mayWrite s ag → c < 64 →
    exec (.suChLateMaxWrite ag c v) s = .next (s.modChan c (fun x => { x with lateMax := v.toNat })))

/-- R257: the outcome of one edge in a channel that takes it. With no credit the edge is a trigger loss and nothing else changes; with
two lines in release it is a starve mark of reason 0x04, and with the line not ready one of reason 0x01, neither of which moves the next
line; else the line is fetched, its release begins and the next line advances by one. The line is what the decoding of the fetched bytes
gives, a starve mark of its reason, or, with no lane active, of reason 0x07. A fetch that halts the device or fails its front tier leaves
no line (the model's choice, log entry 110). -/
def Obligations.EdgeOutcomes : Prop :=
  ∀ (s : State) (c : Nat) (j : JobParams) (stamp : Nat) (rds : List (Nat × List RdRes)) (x : Chan) (t : State), c < 64 →
    x = s.chan c → x.job = some j → x.st = .running → x.stopping = none → t = chanDecide rds stamp c s →
    (credit j x = 0 → t = count 0x1C22 c 0 1 (s.modChan c (fun y => { y with tloss := inc32 y.tloss }))) ∧
    (0 < credit j x → j.onStarve = 0 → j.partner = allOnes → x.rel = [] → lineReady s x j x.next = false →
      (t.chan c).starve = inc32 x.starve ∧ (t.chan c).produced = (x.produced + 1) % 2 ^ 32 ∧ (t.chan c).next = x.next ∧
      (t.chan c).rel = [] ∧
      .ring j.port j.consumer (j.entryBase + 32 * (x.produced % j.entries)) (entryBytes x.next 2 1 0 stamp 0 0) ∈ t.out) ∧
    (0 < credit j x → 2 ≤ inRelease x → headNow x = false →
      (t.chan c).next = x.next ∧ (t.chan c).produced = (x.produced + 1) % 2 ^ 32 ∧
      (t.chan c).rel = x.rel ++ [⟨x.produced + 1, x.next, stamp, true, [], [], some (4, 0)⟩]) ∧
    (0 < credit j x → inRelease x < 2 → lineReady s x j x.next = true → ∃ v,
      v = streamFetch rds (lineReads (jobRd s j) x.header j.base x.next j.x j.l) (pauseWait (16 + c) s) ∧
      (v.sec.halt = false → v.ft.failed = false → ∃ r, r.line = x.next ∧ r.stamp = stamp ∧ r.seq = x.produced + 1 ∧ r.mark = false ∧
        (activeLanes v = [] → r.bad = some (7, 0)) ∧
        (activeLanes v ≠ [] → ∀ b, decodeLine (jobRd v j) x.header x.next j.x j.l = .bytes b → r.data = b ∧ r.bad = none) ∧
        (activeLanes v ≠ [] → ∀ n d, decodeLine (jobRd v j) x.header x.next j.x j.l = .bad n d → r.bad = some (n, d)) ∧
        t = pinWindow c ((v.modChan c (fun y =>
          { y with produced := (x.produced + 1) % 2 ^ 32, rel := y.rel ++ [r] })).modChan c (fun y =>
          { y with next := y.next + 1, lastLine := decide (y.next = lastOf j) }))) ∧
      (v.sec.halt = true ∨ v.ft.failed = true → t = v.modChan c (fun y => { y with produced := (x.produced + 1) % 2 ^ 32 })))

/-- R256: the credit of a channel is N less what is produced and not consumed. Each outcome of an edge takes one credit at the decision
point: a starve mark lowers the credit by one, a line advances what is produced by one and leaves what is consumed; an edge without
credit takes none; a doorbell accepted before counts for it; repeating a doorbell value has no effect. -/
def Obligations.CreditRule : Prop :=
  ∀ (s : State) (c : Nat) (j : JobParams) (x : Chan), c < 64 → x = s.chan c → x.job = some j → x.produced < 2 ^ 32 → x.consumed < 2 ^ 32 →
    j.entries < 2 ^ 32 →
    ((x.produced + 2 ^ 32 - x.consumed) % 2 ^ 32 ≤ j.entries →
      credit j x + (x.produced + 2 ^ 32 - x.consumed) % 2 ^ 32 = j.entries) ∧
    (∀ rds stamp, credit j x = 0 → credit j ((chanDecide rds stamp c s).chan c) = 0 ∧
      ((chanDecide rds stamp c s).chan c).produced = x.produced ∧ ((chanDecide rds stamp c s).chan c).rel = x.rel) ∧
    (∀ rds stamp, 0 < credit j x → (2 ≤ inRelease x ∨ lineReady s x j x.next = false) → ∃ u,
      chanDecide rds stamp c s = relFlush c u ∧
      credit j (u.chan c) + 1 = credit j x ∧ ∃ r, (u.chan c).rel = x.rel ++ [r] ∧ r.seq = x.produced + 1 ∧ r.stamp = stamp) ∧
    (∀ rds stamp v, 0 < credit j x → inRelease x < 2 → lineReady s x j x.next = true →
      v = streamFetch rds (lineReads (jobRd s j) x.header j.base x.next j.x j.l) (pauseWait (16 + c) s) →
      ∃ u, (chanDecide rds stamp c s = pinWindow c u ∨ chanDecide rds stamp c s = u) ∧
        (u.chan c).produced = (x.produced + 1) % 2 ^ 32 ∧ (u.chan c).consumed = (v.chan c).consumed) ∧
    (∀ v : Word, j.port < 10 → j.consumer < 16 →
      (v.toNat + 2 ^ 32 - x.consumed) % 2 ^ 32 ≤ (x.produced + 2 ^ 32 - x.consumed) % 2 ^ 32 →
      ∃ t, exec (.streamCreditDoorbell c j.port j.consumer v 15) s = .next t ∧ (t.chan c).consumed = v.toNat ∧
        credit j (t.chan c) = j.entries - (x.produced + 2 ^ 32 - v.toNat) % 2 ^ 32 ∧
        exec (.streamCreditDoorbell c j.port j.consumer v 15) t = .next t)

/-! ## Nolene and the expansion engine (chapter 12) -/

/-- The expansion engine's steps and commands (R287, R290-R293): *stick rendered*, *test stick*, *lane response timeout*, *spare lane
activation*, in every form, and NOLENE_CHECK, XE_QUERY and XE_LANE_RETIRE when they are not refused. A stick that no line in release
owes, a lane that does not work and a spare that is not owed change nothing. -/
def Obligations.ExpansionCompletes : Prop :=
  (∀ s c k lane, c < 64 → k < 1048576 → lane < 9 →
    (∀ r, stickOwner s c k = some r → laneWorks s lane = true →
      (∃ t, exec (.stickRendered c k lane true) s = .next (count 0x2020 lane 0 1 t) ∧
        t.xe.sticks = (s.xe.sticks + 1) % 2 ^ 64 ∧ (t.chan c).rel = (s.chan c).rel.map (fun o =>
          if o.seq = r.seq then { o with todo := o.todo.erase k } else o) ∧ ∀ d, d ≠ c → t.chan d = s.chan d) ∧
      exec (.stickRendered c k lane false) s = .next (laneFault lane 1 (engineFault c r.seq s))) ∧
    (∀ ok, stickOwner s c k = none ∨ laneWorks s lane = false → exec (.stickRendered c k lane ok) s = .next s)) ∧
  (∀ s res, res.length = 9 →
    (s.xe.up = false → exec (.testStick res) s = .next s) ∧
    (s.xe.up = true → ∃ t, exec (.testStick res) s = .next t ∧ ∀ i < 9,
      ((s.xe.lanes.get {} i).st = 2 → t.xe.lanes.get {} i = s.xe.lanes.get {} i) ∧
      ((s.xe.lanes.get {} i).st ≠ 2 → res.getD i true = true → t.xe.lanes.get {} i =
        { s.xe.lanes.get {} i with tests := ((s.xe.lanes.get {} i).tests + 1) % 65536 }) ∧
      ((s.xe.lanes.get {} i).st ≠ 2 → res.getD i true = false →
        t.xe.lanes.get {} i = { s.xe.lanes.get {} i with st := 2, cause := 2 })) ∧
    (s.xe.up = true → (∀ ok ∈ res, ok = true) →
      ∃ t, exec (.testStick res) s = .next t ∧ t = { s with xe := { s.xe with lanes := t.xe.lanes } })) ∧
  (∀ s lane, lane < 9 →
    (s.xe.up = true → (s.xe.lanes.get {} lane).st ≠ 2 →
      exec (.laneResponseTimeout lane) s = .next (laneFault lane 3 (laneDrops lane s))) ∧
    (s.xe.up = false ∨ (s.xe.lanes.get {} lane).st = 2 → exec (.laneResponseTimeout lane) s = .next s)) ∧
  (∀ s,
    (∀ i < 9, 0 < s.xe.spareOwed → (s.xe.lanes.get {} i).st = 1 → (∀ k < i, (s.xe.lanes.get {} k).st ≠ 1) →
      ∃ t, exec .spareLaneActivation s = .next t ∧ t = { s with xe := t.xe } ∧ t.xe.spareOwed + 1 = s.xe.spareOwed ∧
        t.xe.lanes.get {} i = { s.xe.lanes.get {} i with st := 0 } ∧
        ∀ k, k ≠ i → t.xe.lanes.get {} k = s.xe.lanes.get {} k) ∧
    (s.xe.spareOwed = 0 ∨ (∀ i < 9, (s.xe.lanes.get {} i).st ≠ 1) → exec .spareLaneActivation s = .next s)) ∧
  (∀ s rq base len, sentOk (.noleneCheck rq base len) s rq 0x0800 → 4096 ≤ len → len ≤ 2 ^ 46 → base % 4096 = 0 →
    rangeGranted s (senderOf s rq.ch) base len = true →
    (rdPoison (fileByte s base) 0 128 = true → exec (.noleneCheck rq base len) s = .next (doneBy s rq 0x0800 (fun u =>
      ok rq (pack [.n4 (loadCode (fileByte u base) len), .n8 0]) u))) ∧
    (rdPoison (fileByte s base) 0 128 = false → exec (.noleneCheck rq base len) s = .next (doneBy s rq 0x0800 (fun u =>
      ok rq (pack [.n4 (loadCode (fileByte u base) len), .n8 (hdrOf (rdBytes (fileByte u base) 0 128)).bodyOff]) u)))) ∧
  (∀ s rq, sentOk (.xeQuery rq) s rq 0x0801 → exec (.xeQuery rq) s = .next (doneBy s rq 0x0801 (fun u =>
    ok rq (pack ([.n4 (xeStatReg u)] ++ (List.range 9).map (fun i => .n4 (xeLaneReg u i))
      ++ [.n8 u.xe.sticks, .n4 u.xe.decodeErr, .n4 u.xe.laneFaults])) u))) ∧
  (∀ s rq lane, sentOk (.xeLaneRetire rq lane) s rq 0x0802 → lane < 9 → (s.xe.lanes.get {} lane).st ≠ 2 →
    ((s.xe.lanes.get {} lane).st = 1 ∨ 2 ≤ (activeLanes s).length) →
    exec (.xeLaneRetire rq lane) s = .next (doneBy s rq 0x0802 (fun u =>
      { u with xe := { u.xe with retiring := u.xe.retiring ++ [lane] } })))

/-- R291: a lane found faulty is counted, retired with its cause, recorded in the option bytes, and leaves its active place to a
spare; no other lane changes, and a lane retired before stays as it is. -/
def Obligations.LaneRetirement : Prop :=
  ∀ (s : State) (lane cause : Nat), lane < 9 →
    ((s.xe.lanes.get {} lane).st ≠ 2 → ∃ t u, laneFault lane cause s = t ∧
      t = ledger 0x2000 (srcLane lane) [lane, cause] (raise 0x2000 lane 0 .nothing
        (commit { page := 35, off := 0, bytes := leBytes 2 (retiredSet u) } u)) ∧ t.xe = u.xe ∧
      t.xe.laneFaults = inc32 s.xe.laneFaults ∧
      t.xe.lanes.get {} lane = { s.xe.lanes.get {} lane with st := 2, cause := cause } ∧
      (∀ i, i ≠ lane → t.xe.lanes.get {} i = s.xe.lanes.get {} i) ∧
      t.xe.spareOwed = s.xe.spareOwed + b2n ((s.xe.lanes.get {} lane).st == 0)) ∧
    ((s.xe.lanes.get {} lane).st = 2 → laneFault lane cause s = s)

/-! ## Control cluster (chapter 13) -/

/-- What the instructions of a core that is ready do on its data TCM, whose bytes pass their checks (R298, R300, R301, R304, R307-R309):
load, store, *store visible*, FENCE, FENCE.I, LR, SC, AMO. The value of a load goes to the core; only a store that becomes visible, an
SC that holds its reservation and an AMO change the TCM, in the bytes they name and in no others. -/
def Obligations.CoreMemoryCompletes : Prop :=
  ∀ (s : State) (i o n : Nat), coreReady s i → o + n ≤ 0x40000 →
    (n ∈ [1, 2, 4, 8] → (s.cpu i).sb = [] →
      (tcmMarked s i (2 ^ 18 + o) n = false → ∀ acq, ∃ t, exec (.loadInstruction i (0x200000 + o) n acq .clean []) s = .next t ∧
        .coreVal i (BitVec.ofNat 64 (leNat (tabBytes (s.cpu i).tcm (2 ^ 18 + o) n))) ∈ t.out ∧ (t.cpu i).tcm = (s.cpu i).tcm ∧
        (t.cpu i).sb = []) ∧
      (∀ v rel, ∃ t, exec (.storeInstruction i (0x200000 + o) n v rel) s = .next t ∧ (t.cpu i).tcm = (s.cpu i).tcm ∧
        (t.cpu i).sb = [{ addr := 0x200000 + o, size := n, val := v &&& BitVec.ofNat 64 (2 ^ (8 * n) - 1), release := rel,
                          dev := false }])) ∧
    (∀ e, (s.cpu i).sb = [e] → e.mark = none → e.sent = false → e.addr = 0x200000 + o → e.size = n → 0 < n →
      ∃ t, exec (.storeVisible i 0 false) s = .next t ∧ (t.cpu i).sb = [] ∧
        (∀ k < n, (t.cpu i).tcm.get 0 (2 ^ 18 + o + k) = (e.val >>> (8 * k)).setWidth 8) ∧
        ∀ k, k < 2 ^ 18 + o ∨ 2 ^ 18 + o + n ≤ k → (t.cpu i).tcm.get 0 k = (s.cpu i).tcm.get 0 k) ∧
    (∀ pred succ, pred < 16 → succ < 16 →
      (∃ t, exec (.fence i pred succ) s = .next t ∧ (t.cpu i).tcm = (s.cpu i).tcm ∧ (t.cpu i).sb = (s.cpu i).sb ++
        (if fenceOpen (s.cpu i).sb pred then
          [{ addr := 0, size := 0, val := 0, release := false, mark := some (pred, succ) }] else []))) ∧
    ((s.cpu i).sb = [] → ∃ t, exec (.fenceI i) s = .next t ∧ (t.cpu i).tcm = (s.cpu i).tcm ∧ (t.cpu i).sb = []) ∧
    (n ∈ [4, 8] → o % n = 0 → (s.cpu i).sb = [] →
      (tcmMarked s i (2 ^ 18 + o) n = false → ∀ aq rl, ∃ t, exec (.lr i (0x200000 + o) n aq rl) s = .next t ∧
        .coreVal i (bytesVal (tabBytes (s.cpu i).tcm (2 ^ 18 + o) n) true) ∈ t.out ∧
        (t.cpu i).resv = some ((0x200000 + o) / 64 * 64)) ∧
      (∀ v aq rl, (s.cpu i).resv = some ((0x200000 + o) / 64 * 64) → ∃ t, exec (.sc i (0x200000 + o) n v aq rl) s = .next t ∧
        .coreVal i 0 ∈ t.out ∧ (t.cpu i).resv = none ∧
        (∀ k < n, (t.cpu i).tcm.get 0 (2 ^ 18 + o + k) = (v >>> (8 * k)).setWidth 8) ∧
        ∀ k, k < 2 ^ 18 + o ∨ 2 ^ 18 + o + n ≤ k → (t.cpu i).tcm.get 0 k = (s.cpu i).tcm.get 0 k) ∧
      (∀ v aq rl, (s.cpu i).resv = none → ∃ t, exec (.sc i (0x200000 + o) n v aq rl) s = .next t ∧
        .coreVal i 1 ∈ t.out ∧ (t.cpu i).resv = none ∧ (t.cpu i).tcm = (s.cpu i).tcm) ∧
      (tcmMarked s i (2 ^ 18 + o) n = false → ∀ op v aq rl, ∃ t, exec (.amo i (0x200000 + o) n op v aq rl) s = .next t ∧
        .coreVal i (bytesVal (tabBytes (s.cpu i).tcm (2 ^ 18 + o) n) true) ∈ t.out ∧
        (∀ k < n, (t.cpu i).tcm.get 0 (2 ^ 18 + o + k) =
          (amoEval op n (bytesVal (tabBytes (s.cpu i).tcm (2 ^ 18 + o) n) true) v >>> (8 * k)).setWidth 8) ∧
        ∀ k, k < 2 ^ 18 + o ∨ 2 ^ 18 + o + n ≤ k → (t.cpu i).tcm.get 0 k = (s.cpu i).tcm.get 0 k))

/-- The forms of a core's memory instructions at every target, and its other instructions and time-outs (R298-R309, R311, R312, R314). The
exceptions that are owed come first, and where the core then does not run or waits for a load, nothing else happens. An access off the
map, misaligned where it must not be, or closed, faults; one that the order does not allow yet changes nothing; a load takes its value
from its own newest store where that covers it; a store enters the buffer, unless 16 wait; SC writes where its reservation holds;
accesses to DPA go to the tier. *Store visible*, *other instruction*, *store error timeout* and *load access timeout* as R301, R305-R307,
R309, R311 and R314 state. -/
def Obligations.CoreAccessesComplete : Prop :=
  ∀ (s u : State) (i : Nat), i < 6 → u = boundary i s →
  ((u.cpu i).loadWait = true ∨ coreRuns u i = false →
    (∀ a n acq tcm rd, accessOk a n = true → exec (.loadInstruction i a n acq tcm rd) s = .next u) ∧
    (∀ a n v rel, accessOk a n = true → exec (.storeInstruction i a n v rel) s = .next u) ∧
    (∀ p q, p < 16 → q < 16 → exec (.fence i p q) s = .next u) ∧ exec (.fenceI i) s = .next u ∧
    (∀ a n aq rl, atomicOk a n = true → exec (.lr i a n aq rl) s = .next u) ∧
    (∀ a n v aq rl, atomicOk a n = true → exec (.sc i a n v aq rl) s = .next u) ∧
    (∀ a n op v aq rl, atomicOk a n = true → exec (.amo i a n op v aq rl) s = .next u) ∧
    (∀ k, k.wf = true → exec (.otherInstruction i k) s = .next u)) ∧
  ((u.cpu i).loadWait = false → coreRuns u i = true →
    (∀ a n acq tcm rd t, accessOk a n = true → t = target u i a n false →
      (t.bad a n = true → exec (.loadInstruction i a n acq tcm rd) s = .next (boundary i (accFault i t u))) ∧
      (t.bad a n = false → mayLoad u i t.device = false → exec (.loadInstruction i a n acq tcm rd) s = .next (boundary i u)) ∧
      (t.bad a n = false → mayLoad u i t.device = true → t.device = true ∨ newest u i a n = none →
        exec (.loadInstruction i a n acq tcm rd) s = .next (boundary i (loadAt i a n false tcm rd t u))) ∧
      (∀ e, t.bad a n = false → mayLoad u i t.device = true → t.device = false → newest u i a n = some e →
        (e.addr ≤ a ∧ a + n ≤ e.addr + e.size → exec (.loadInstruction i a n acq tcm rd) s = .next (boundary i
          (coreDone i a ((e.val >>> (8 * (a - e.addr))) &&& BitVec.ofNat 64 (2 ^ (8 * n) - 1)) u))) ∧
        (¬ (e.addr ≤ a ∧ a + n ≤ e.addr + e.size) → exec (.loadInstruction i a n acq tcm rd) s = .next (boundary i u)))) ∧
    (∀ a n v rel t, accessOk a n = true → t = target u i a n true →
      (t.bad a n = true → exec (.storeInstruction i a n v rel) s = .next (boundary i (accFault i t u))) ∧
      (t.bad a n = false → 16 ≤ (storesOf (u.cpu i).sb).length →
        exec (.storeInstruction i a n v rel) s = .next (boundary i (count 0x2821 i 0 1 u))) ∧
      (t.bad a n = false → (storesOf (u.cpu i).sb).length < 16 → exec (.storeInstruction i a n v rel) s = .next (boundary i
        (retire i a (u.modCpu i (fun c => { c with sb := c.sb ++
          [{ addr := a, size := n, val := v &&& BitVec.ofNat 64 (2 ^ (8 * n) - 1), release := rel, dev := t.device }] })))))) ∧
    (∀ a n aq rl t, atomicOk a n = true → t = target u i a n false →
      (atomicBad t a n = true → exec (.lr i a n aq rl) s = .next (boundary i (accFault i t u))) ∧
      (atomicBad t a n = false → mayAtomic u i a n t.device rl = false → exec (.lr i a n aq rl) s = .next (boundary i u)) ∧
      (atomicBad t a n = false → mayAtomic u i a n t.device rl = true → exec (.lr i a n aq rl) s = .next (boundary i
        (loadAt i a n true .clean [] t (u.modCpu i (fun c => { c with resv := some (a / 64 * 64), resvAge := 0 })))))) ∧
    (∀ a n v aq rl t w, atomicOk a n = true → t = target u i a n true →
      w = u.modCpu i (fun c => { c with resv := none, resvAge := 0 }) →
      (atomicBad t a n = true → exec (.sc i a n v aq rl) s = .next (boundary i (accFault i t u))) ∧
      (atomicBad t a n = false → mayAtomic u i a n t.device rl = false → exec (.sc i a n v aq rl) s = .next (boundary i u)) ∧
      (atomicBad t a n = false → mayAtomic u i a n t.device rl = true →
        (scHolds u i a t = false → exec (.sc i a n v aq rl) s = .next (boundary i (coreDone i a 1 (count 0x2824 i 0 1 w)))) ∧
        (∀ o, scHolds u i a t = true → t = .tcm o →
          exec (.sc i a n v aq rl) s = .next (boundary i (coreDone i a 0 (tcmPut i o (valBytes v n) w)))) ∧
        (∀ o, scHolds u i a t = true → t = .sram o →
          exec (.sc i a n v aq rl) s = .next (boundary i (coreDone i a 0 (sramPut i o (valBytes v n) w)))) ∧
        (∀ d b, scHolds u i a t = true → t = .dpa d b → exec (.sc i a n v aq rl) s = .next (boundary i
          (dpaRun i [{ dpaWrite (coreAgent w i) a d (valBytes v n) with kind := .coreSc a }] w))))) ∧
    (∀ a n op v aq rl t, atomicOk a n = true → t = target u i a n true →
      (atomicBad t a n = true → exec (.amo i a n op v aq rl) s = .next (boundary i (accFault i t u))) ∧
      (atomicBad t a n = false → mayAtomic u i a n t.device rl = false → exec (.amo i a n op v aq rl) s = .next (boundary i u)) ∧
      (atomicBad t a n = false → mayAtomic u i a n t.device rl = true →
        (∀ o, t = .tcm o → tcmMarked u i o n = true → exec (.amo i a n op v aq rl) s = .next (boundary i (badUse i t u))) ∧
        (∀ o, t = .tcm o → tcmMarked u i o n = false → exec (.amo i a n op v aq rl) s = .next (boundary i
          (amoTab i a op n v (tabBytes (u.cpu i).tcm o n) (tcmPut i o) u))) ∧
        (∀ o, t = .sram o → exec (.amo i a n op v aq rl) s = .next (boundary i
          (amoTab i a op n v (tabBytes u.cc.sram o n) (sramPut i o) u))) ∧
        (∀ d b, t = .dpa d b → exec (.amo i a n op v aq rl) s = .next (boundary i (dpaRun i
          [{ who := coreAgent u i, tag := a, kind := .coreAmo op (d % 64) n v, dpa := d / 64 * 64 }] u))))) ∧
    exec (.otherInstruction i .plain) s = .next (boundary i (retire i 0 u)) ∧
    exec (.otherInstruction i .trap) s = .next (boundary i (trapTake i .external u)) ∧
    exec (.otherInstruction i .trapReturn) s = .next (boundary i (retire i 0 (u.modCpu i (fun c => { c with inTrap := false })))) ∧
    (∀ o, o < 2 ^ 18 → exec (.otherInstruction i (.fetch o true)) s = .next (boundary i (tcmBadUse i 0 o u)) ∧
      exec (.otherInstruction i (.fetch o false)) s = .next (boundary i (retire i 0 (tcmCorrected i 0 o u)))) ∧
    (i = u.cc.icCore → exec (.otherInstruction i .doubleTrap) s = .next (boundary i (icFaultNow 2 (resvLost i u)))) ∧
    (i ≠ u.cc.icCore → exec (.otherInstruction i .doubleTrap) s = .next (boundary i (trapTake i .external u)))) ∧
  (coreRuns s i = true →
    (∀ k e err, k < 16 → (s.cpu i).sb[k]? = some e → mayLeave ((s.cpu i).sb.take k) e = true →
      exec (.storeVisible i k err) s = .next (boundary i (storeAt i e err s))) ∧
    (∀ k err, k < 16 → ((s.cpu i).sb[k]? = none ∨ ∃ e, (s.cpu i).sb[k]? = some e ∧ mayLeave ((s.cpu i).sb.take k) e = false) →
      exec (.storeVisible i k err) s = .next u) ∧
    (∀ e, (storesOf (s.cpu i).sb).find? (fun e => e.sent && (target s i e.addr e.size true).dead s) = some e →
      exec (.storeErrorTimeout i) s = .next (boundary i (storeError i 1 e.addr true (sbErase i e s)))) ∧
    ((storesOf (s.cpu i).sb).find? (fun e => e.sent && (target s i e.addr e.size true).dead s) = none →
      exec (.storeErrorTimeout i) s = .next u) ∧
    ((s.cpu i).loadWait = true → s.te.waits.any (fun w => w.acc.who == coreAgent s i && w.acc.kind != .coreWr) = false →
      exec (.loadAccessTimeout i) s = .next (trapTake i .accessFault (s.modCpu i (fun c => { c with loadWait := false })))) ∧
    ((s.cpu i).loadWait = false ∨ s.te.waits.any (fun w => w.acc.who == coreAgent s i && w.acc.kind != .coreWr) = true →
      exec (.loadAccessTimeout i) s = .next s)) ∧
  (coreRuns s i = false → exec (.storeErrorTimeout i) s = .next s ∧ exec (.loadAccessTimeout i) s = .next s ∧
    ∀ k err, k < 16 → exec (.storeVisible i k err) s = .next s)

/-- The cluster's own events (R296, R297, R305, R309, R310, R314, R316, R339, R396, R428, R438): CC_STERR_INFO, the heartbeat and kick
writes, *heartbeat missed*, *core logic fault*, *TCM patrol*, the integrator watchdog, *cluster reset complete*: what each does, and
where it does nothing. -/
def Obligations.ClusterEventsComplete : Prop :=
  (∀ s ag core, mayWrite s ag → ccHeld s = false → core < 6 → exec (.ccSterrInfoClear ag core) s =
    .next (s.modCpu core (fun c => { c with sterrValid := false, sterrMore := 0 }))) ∧
  (∀ s core, core < 6 → (core = s.cc.icCore → exec (.ccSterrInfoClear .ic core) s =
      .next (s.modCpu core (fun c => { c with sterrValid := false, sterrMore := 0 }))) ∧
    (core ≠ s.cc.icCore → exec (.ccSterrInfoClear .ic core) s = .next s)) ∧
  (∀ s i role, i < 5 → role < 4 → exec (.ccHeartbeatWrite (.core i) role) s =
    .next { s with cc := { s.cc with beats := s.cc.beats.erase role ++ [role] } }) ∧
  (∀ s p f role, mayWrite s (.fn p f) → role < 4 → exec (.ccHeartbeatWrite (.fn p f) role) s = .next s ∧
    exec (.ccIcKickWrite (.fn p f)) s = .next s) ∧
  (∀ s, s.cc.icSt = 2 → exec (.ccIcKickWrite .ic) s = .next { s with cc := { s.cc with icKick := true } }) ∧
  (∀ s, s.cc.icSt ≠ 2 → exec (.ccIcKickWrite .ic) s = .next s) ∧
  (∀ s role c, role < 4 → c = s.cc.fCore.getD role 7 →
    (c ≠ 7 → s.cc.served = true → role ∈ s.cc.beats → exec (.heartbeatMissed role) s =
      .next { s with cc := { s.cc with beats := s.cc.beats.erase role } }) ∧
    (c ≠ 7 → s.cc.served = true → role ∉ s.cc.beats → exec (.heartbeatMissed role) s = .next (coreFail c 3 s)) ∧
    (c = 7 ∨ s.cc.served = false → exec (.heartbeatMissed role) s = .next s)) ∧
  (∀ s core, core < 6 → core ∈ s.cc.fCore → (s.cpu core).st ≠ 2 → ∃ t b u, t = s.modCpu core (fun c => { c with st := 2, cause := 4 }) ∧
    u = rstAssert .coreFail (commit { page := 35, off := 2, bytes := [b] } t) ∧ b.toNat.testBit core = true ∧
    (s.rpm.boot = 2 ∨ s.rpm.recovery ≠ 0 → exec (.coreLogicFault core) s = .next u) ∧
    (s.rpm.boot ≠ 2 → s.rpm.recovery = 0 → exec (.coreLogicFault core) s = .next (startFail 5 u))) ∧
  (∀ s core, core < 6 → (core ∉ s.cc.fCore ∨ (s.cpu core).st = 2) → exec (.coreLogicFault core) s = .next s) ∧
  (∀ s core tcm cor bad, core < 6 → tcm < 2 → (∀ o ∈ cor ++ bad, o < 262144) → exec (.tcmPatrol core tcm cor bad) s =
    .next (bad.foldl (fun u o => if (u.cpu core).badBytes.contains (tcm * 2 ^ 18 + o) = true then u else tcmBadMet core tcm o u)
      (cor.foldl (fun u o => tcmCorrected core tcm o u) s))) ∧
  (∀ s, (s.cc.icSt = 2 → s.cc.icWdt ≠ 0 → s.cc.icKick = true →
      exec .icWatchdogExpiry s = .next { s with cc := { s.cc with icKick := false } }) ∧
    (s.cc.icSt = 2 → s.cc.icWdt ≠ 0 → s.cc.icKick = false → exec .icWatchdogExpiry s = .next (icFaultNow 1 s)) ∧
    (s.cc.icSt ≠ 2 ∨ s.cc.icWdt = 0 → exec .icWatchdogExpiry s = .next s)) ∧
  (∀ s st, st.length = 6 → s.cc.rstOwed = true → ccHeld s = false →
    ∃ t, t = rolesAssign false st { s with cc := { s.cc with rstOwed := false } } ∧
      (t.cc.exhausted = true → exec (.clusterResetComplete st) s = .next { t with cc := { t.cc with fwVer := 0 } }) ∧
      (t.cc.exhausted = false → (fwLoad t).cc.served = false → exec (.clusterResetComplete st) s = .next (fwLoad t)) ∧
      (t.cc.exhausted = false → (fwLoad t).cc.served = true →
        exec (.clusterResetComplete st) s = .next (icAutostart (settleFlights (fwLoad t))))) ∧
  (∀ s st, st.length = 6 → (s.cc.rstOwed = false ∨ ccHeld s = true) → exec (.clusterResetComplete st) s = .next s)

/-- The cluster's commands (R312, R313, R316, R317), let through by their checks: CORE_QUERY answers the cluster's registers; IC_LOAD
loads an image of a DPA range or of the integrator slot that passes its check, or leaves the core with none; IC_START and IC_STOP start
and stop it; IC_WINDOW_MAP maps a window, or with a length of 0 unmaps it. -/
def Obligations.ClusterCommandsComplete : Prop :=
  (∀ s rq, sentOk (.coreQuery rq) s rq 0x0900 →
    exec (.coreQuery rq) s = .next (doneBy s rq 0x0900 (fun u => ok rq (coreData u) u))) ∧
  (∀ s rq src base len chk, sentOk (.icLoad rq src base len chk) s rq 0x0901 → src < 2 → (src = 1 → base = 0 ∧ len = 0) →
    s.cc.icSt ≠ 2 → s.cc.icCore ≠ 7 → icGranted s rq src base len = true → icSizesOk (imgHdr (icSrcHdr s src base len)) = true →
    exec (.icLoad rq src base len chk) s = .next (doneBy s rq 0x0901 (fun u =>
      if icSrcOk u src base len chk = true then
        ok rq [] (icInstall (imgHdr (icSrcHdr u src base len))
          (rdBytes (icSource u src base len).2 512 (imgHdr (icSrcHdr u src base len)).code)
          (rdBytes (icSource u src base len).2 (512 + (imgHdr (icSrcHdr u src base len)).code)
            (imgHdr (icSrcHdr u src base len)).data) u)
      else reply rq 0x0301 5 [] { u with cc := { u.cc with icSt := 0 } }))) ∧
  (∀ s rq wdt, sentOk (.icStart rq wdt) s rq 0x0902 → wdt ≤ 10000 → s.cc.icSt ∈ [1, 3] →
    exec (.icStart rq wdt) s = .next (doneBy s rq 0x0902 (fun u => ok rq []
      { u.modCpu s.cc.icCore (fun c => { c with inTrap := false }) with
        cc := { (u.modCpu s.cc.icCore (fun c => { c with inTrap := false })).cc with
                icSt := 2, icFault := 0, icWdt := wdt, icKick := false } }))) ∧
  (∀ s rq, sentOk (.icStop rq) s rq 0x0903 → s.cc.icSt = 2 → exec (.icStop rq) s = .next (doneBy s rq 0x0903 (fun u =>
    ok rq [] (icHalt { u with cc := { u.cc with icSt := 1 } })))) ∧
  (∀ s rq w b n a, sentOk (.icWindowMap rq w b n a) s rq 0x0904 → w < 16 → a < 2 → b % 2097152 = 0 → n % 2097152 = 0 →
    n ≤ 2 ^ 36 → (n = 0 ∨ covered s (mayReach .ic (a == 1)) b (b + n) = true) →
    exec (.icWindowMap rq w b n a) s = .next (doneBy s rq 0x0904 (fun u => mapAsk rq (160 + w) b n (a == 1) (setCommitted rq u))))

/-! ## Mailboxes (chapter 14) -/

/-- Doorbells, notifications and the taking of requests (R321, R322, R324, R326, R328-R333, R340, R440), in every form: MB_REQ_DB,
MB_RPL_DB, the pop, MB_NOTE_STAT, MB_CTL.RESET, MB_BIND_LOCK, *request taken*, *descriptor area complete*, *update session timeout*. A
doorbell that would break the counts, or that does not write its low byte, is rejected and counted; what an agent without that
window does, changes nothing, and from a function in D3hot it is an Unsupported Request (R241). -/
def Obligations.MailboxEventsComplete : Prop :=
  (∀ s ch v be, ch < 32 → be < 16 → windowOf s ch (senderOf s ch) = true → notD3 s (senderOf s ch) →
    (be % 2 = 1 → (v.toNat % 256 + 256 - (s.mbox ch).reqCons) % 256 ≤ 4 ∧ (v.toNat % 256 + 256 - (s.mbox ch).reqProd) % 256 ≤ 4 →
      exec (.mbReqDbWrite ch v be) s = .next (s.modMbox ch (fun m => { m with reqProd := v.toNat % 256 }))) ∧
    (be % 2 = 0 ∨ 4 < (v.toNat % 256 + 256 - (s.mbox ch).reqCons) % 256 ∨ 4 < (v.toNat % 256 + 256 - (s.mbox ch).reqProd) % 256 →
      exec (.mbReqDbWrite ch v be) s = .next (s.modMbox ch (fun m => { m with dbRej := inc32 m.dbRej }))) ∧
    (be % 2 = 1 →
      (v.toNat % 256 + 256 - (s.mbox ch).rplCons) % 256 ≤ ((s.mbox ch).rplProd + 256 - (s.mbox ch).rplCons) % 256 →
      exec (.mbRplDbWrite ch v be) s = .next (s.modMbox ch (fun m => { m with
        rplCons := v.toNat % 256, flights := release ((v.toNat % 256 + 256 - (s.mbox ch).rplCons) % 256) m.flights }))) ∧
    (be % 2 = 0 ∨
      ((s.mbox ch).rplProd + 256 - (s.mbox ch).rplCons) % 256 < (v.toNat % 256 + 256 - (s.mbox ch).rplCons) % 256 →
      exec (.mbRplDbWrite ch v be) s = .next (s.modMbox ch (fun m => { m with dbRej := inc32 m.dbRej })))) ∧
  (∀ s ch v be, ch < 32 → be < 16 → windowOf s ch (senderOf s ch) = false →
    exec (.mbReqDbWrite ch v be) s = .next s ∧ exec (.mbRplDbWrite ch v be) s = .next s) ∧
  (∀ s ch ag, ch < 32 → ag.wf = true →
    (windowOf s ch ag = true → notD3 s ag → ∀ e l, (s.mbox ch).fifo = e :: l →
      ∃ t, exec (.mbNotePop ch ag) s = .next t ∧ t.out = .regRead ag (noteNat e) :: s.out ∧
        (t.mbox ch).fifo = l ∧ (t.mbox ch).last = e ∧ (t.mbox ch).underrun = (s.mbox ch).underrun ∧
        (ag, ch, e) ∈ t.noteLatch) ∧
    (windowOf s ch ag = true → notD3 s ag → (s.mbox ch).fifo = [] →
      ∃ t, exec (.mbNotePop ch ag) s = .next t ∧ t.out = .regRead ag (noteNat (s.mbox ch).last) :: s.out ∧
        (t.mbox ch).underrun = true ∧ (ag, ch, (s.mbox ch).last) ∈ t.noteLatch) ∧
    (windowOf s ch ag = false → exec (.mbNotePop ch ag) s = .next s)) ∧
  (∀ s ch, ch < 32 →
    (windowOf s ch (senderOf s ch) = true → notD3 s (senderOf s ch) →
      exec (.mbNoteStatRead ch) s = .next (emit (.regRead (senderOf s ch) (mbNoteStatReg s ch))
        (s.modMbox ch (fun m => { m with lost := 0 }))) ∧
      exec (.mbCtlReset ch) s = .next (chanReset ch s)) ∧
    (windowOf s ch (senderOf s ch) = false → exec (.mbNoteStatRead ch) s = .next s ∧ exec (.mbCtlReset ch) s = .next s)) ∧
  (∀ s ch v be p f c, ch < 32 → be < 16 → p < 10 → f < 16 → windowOf s ch (.fn p f) = true → (s.fn p f).d3 = true →
    (c = .mbNotePop ch (.fn p f) ∨ senderOf s ch = .fn p f ∧
      c ∈ [Instr.mbReqDbWrite ch v be, .mbRplDbWrite ch v be, .mbNoteStatRead ch, .mbCtlReset ch]) →
    exec c s = .next (logAer p f .unsupportedRequest s)) ∧
  (∀ s, (∀ i, i < 5 → exec (.mbBindLockSet (.core i)) s = .next { s with mb := { s.mb with lock := true } }) ∧
    (∀ ag, ag.wf = true → (∀ i, i < 5 → ag ≠ .core i) → exec (.mbBindLockSet ag) s = .next s)) ∧
  (∀ s ch x, nextChan s = some ch → x = frmOf (reqSlot s ch) → ∃ u f l, l = (s.mbox ch).flights ∧
    (u.mbox ch).reqCons = ((s.mbox ch).reqCons + 1) % 256 ∧ (u.mbox ch).rplProd = (s.mbox ch).rplProd ∧
    (u.mbox ch).expect = (s.mbox ch).expect ∧ (u.mbox ch).flights = l ∧
    f.tag = x.tag ∧ f.opcode = x.opcode ∧ f.payload = x.payload ∧ f.flags = x.flags ∧ f.replied = false ∧ f.ran = false ∧
    (∀ off, frameFault x = some off →
      exec .requestTaken s = .next (emptied ch s (replyWith ch f l 0x0100 off [] u))) ∧
    (∀ e, frameFault x = none → (s.mbox ch).expect = some e → e ≠ x.cseq →
      exec .requestTaken s = .next (emptied ch s (count 0x2C22 ch 0 1 (replyWith ch f l 0x0101 e [] u)))) ∧
    (frameFault x = none → ((s.mbox ch).expect = none ∨ (s.mbox ch).expect = some x.cseq) →
      ∃ t, t = u.modMbox ch (fun m => { m with expect := some ((x.cseq + 1) % 2 ^ 32) }) ∧
      (∀ st det, takeFault u ch x = some (st, det) → exec .requestTaken s = .next (emptied ch s
        (if st = 0x0102 then count 0x2C23 ch 0 1 (replyWith ch f l st det [] t) else replyWith ch f l st det [] t))) ∧
      (takeFault u ch x = none → exec .requestTaken s = .next (emptied ch s (t.modMbox ch (fun m =>
        { m with flights := l ++ [f] })))))) ∧
  (∀ s, nextChan s = none → exec .requestTaken s = .next s) ∧
  (∀ s rq f bs, rq.wf = true → findFlight s rq.ch rq.tag = some f → f.area = true →
    ((descOf f.payload).dflags % 2 = 0 ∨ (crc32c bs).toNat = (descOf f.payload).inCrc →
      exec (.descriptorAreaComplete rq true bs) s = .next (s.modMbox rq.ch (fun m =>
        { m with flights := startReady false (m.flights.map (fun x => if x = f then { x with area := false } else x)) }))) ∧
    ((descOf f.payload).dflags % 2 = 1 → (crc32c bs).toNat ≠ (descOf f.payload).inCrc →
      exec (.descriptorAreaComplete rq true bs) s = .next (reply rq 0x0202 4 [] s)) ∧
    exec (.descriptorAreaComplete rq false bs) s = .next (reply rq 0x0202 2 [] s)) ∧
  (∀ s rq f st det data bs, rq.wf = true → findFlight s rq.ch rq.tag = some f → f.area = false →
    f.reply = some (st, det, data) → ∃ others, others = (s.mbox rq.ch).flights.erase f ∧
    exec (.descriptorAreaComplete rq true bs) s = .next (afterAccess (replyNow rq.ch f others st det data
      (icAreaWrite s (descOf f.payload).outAddr (data.take (descOf f.payload).outLen)))) ∧
    exec (.descriptorAreaComplete rq false bs) s = .next (replyNow rq.ch f others 0x0202 2 [] s)) ∧
  (∀ s rq good bs, rq.wf = true → (∀ f, findFlight s rq.ch rq.tag = some f → f.area = false ∧ f.reply = none) →
    exec (.descriptorAreaComplete rq good bs) s = .next s) ∧
  (∀ s, exec .updateSessionTimeout s = .next { s with mb := { s.mb with sess := none, sessDone := 0, sessLast := none } })

/-- The management port's transactions (R327): codes 0x10 to 0x17 and every other code, which is answered with NACK. A transaction
that fails PEC, and every one while the port does not answer, changes nothing. -/
def Obligations.ManagementPortCompletes : Prop :=
  (∀ s, smbusUp s = true →
    (∀ off bs, off < 256 → 0 < bs.length → bs.length < 32 →
      (off + bs.length ≤ 256 → ∃ t, exec (.smbusSlotWrite off bs true) s = .next t ∧
        ((t.mbox 31).slots.get [] ((s.mbox 31).reqProd % 4)).length = 256 ∧
        (((t.mbox 31).slots.get [] ((s.mbox 31).reqProd % 4)).drop off).take bs.length = bs ∧
        ∀ k, k ≠ (s.mbox 31).reqProd % 4 → (t.mbox 31).slots.get [] k = (s.mbox 31).slots.get [] k) ∧
      (256 < off + bs.length → exec (.smbusSlotWrite off bs true) s =
        .next (s.modMbox 31 (fun m => { m with dbRej := inc32 m.dbRej })))) ∧
    (∀ v, v < 256 → exec (.smbusRequestDoorbell v true) s = .next (reqDb 31 v s) ∧
      exec (.smbusReplyDoorbell v true) s = .next (rplDb 31 v s) ∧
      exec (.smbusReplyOffset v true) s = .next { s with mb := { s.mb with smbOff := v } } ∧
      exec (.smbusChannelReset v true) s = .next (if v = 1 then chanReset 31 s else s)) ∧
    exec (.smbusStatusRead true) s = .next (emit (.smbus (leBytes 4 (mbStatReg s 31) ++ leBytes 4 (mbCountsReg s 31)
      ++ leBytes 4 (mbNoteStatReg s 31))) (s.modMbox 31 (fun m => { m with lost := 0 }))) ∧
    (∃ t bs, exec (.smbusReplyRead true) s = .next t ∧ t.out = .smbus bs :: s.out ∧
      (((s.mbox 31).slots.get [] (4 + (s.mbox 31).rplCons % 4)).length = 256 → s.mb.smbOff ≤ 224 →
        bs = (((s.mbox 31).slots.get [] (4 + (s.mbox 31).rplCons % 4)).drop s.mb.smbOff).take 32) ∧ bs.length ≤ 32 ∧
      t.mb.smbOff = min 256 (s.mb.smbOff + 32)) ∧
    (∀ e l, (s.mbox 31).fifo = e :: l → ∃ t, exec (.smbusNotificationPop true) s = .next t ∧
      t.out = .smbus (leBytes 16 (noteNat e)) :: s.out ∧ (t.mbox 31).fifo = l ∧ (t.mbox 31).last = e) ∧
    ((s.mbox 31).fifo = [] → ∃ t, exec (.smbusNotificationPop true) s = .next t ∧
      t.out = .smbus (leBytes 16 (noteNat (s.mbox 31).last)) :: s.out ∧ (t.mbox 31).underrun = true) ∧
    (∀ c, c < 16 ∨ 23 < c ∧ c < 256 → exec (.smbusOtherCode c) s = .next (emit .smbusNack s))) ∧
  (∀ s pec v off bs c, v < 256 → off < 256 → 0 < bs.length → bs.length < 32 → smbusUp s = false ∨ pec = false →
    c ∈ [Instr.smbusSlotWrite off bs pec, .smbusRequestDoorbell v pec, .smbusStatusRead pec, .smbusReplyOffset v pec,
      .smbusReplyRead pec, .smbusReplyDoorbell v pec, .smbusNotificationPop pec, .smbusChannelReset v pec] →
    exec c s = .next s) ∧
  (∀ s c, c < 256 → smbusUp s = false → exec (.smbusOtherCode c) s = .next s)

/-- Identification, the firmware commands and the ends of commands that blocks carry out complete (R335-R338): IDENTIFY, NOP,
MB_QUERY, FW_QUERY, FW_UPDATE_BEGIN, FW_UPDATE_DATA (a repeated chunk too), FW_UPDATE_END, FW_ACTIVATE, when they are not refused, and
*block-run command end* in every form. -/
def Obligations.MailboxCommandsComplete : Prop :=
  (∀ s rq, sentOk (.identify rq) s rq 0x0001 →
    exec (.identify rq) s = .next (doneBy s rq 0x0001 (fun u => ok rq (identifyData u rq.ch) u))) ∧
  (∀ s rq, sentOk (.nop rq) s rq 0x0002 → exec (.nop rq) s = .next (doneBy s rq 0x0002 (fun u => ok rq [] u))) ∧
  (∀ s rq k, sentOk (.mbQuery rq k) s rq 0x0003 →
    (k < 32 → (k = rq.ch ∨ hasAdmin s rq.ch = true) →
      exec (.mbQuery rq k) s = .next (doneBy s rq 0x0003 (fun u => ok rq (mbData u k) u))) ∧
    (k = allOnes → hasAdmin s rq.ch = true →
      exec (.mbQuery rq k) s = .next (doneBy s rq 0x0003 (fun u => ok rq ((List.range 32).flatMap (mbData u)) u)))) ∧
  (∀ s rq, sentOk (.fwQuery rq) s rq 0x0010 →
    exec (.fwQuery rq) s = .next (doneBy s rq 0x0010 (fun u => ok rq (fwData u) u))) ∧
  (∀ s rq tg len, sentOk (.fwUpdateBegin rq tg len) s rq 0x0011 → tg < 2 → 0 < len → len ≤ slotMax (tg == 1) →
    (s.mb.sess = none ∨ ∃ ic n, s.mb.sess = some (rq.ch, ic, n)) →
    exec (.fwUpdateBegin rq tg len) s = .next (doneBy s rq 0x0011 (fun u => slotErase (updateSlot s (tg == 1))
      { u with mb := { u.mb with sess := some (rq.ch, tg == 1, len), sessDone := 0, sessLast := none } }))) ∧
  (∀ s rq ic n off bs, sentOk (.fwUpdateData rq off bs) s rq 0x0012 → s.mb.sess = some (rq.ch, ic, n) →
    (bs.length ≤ 224 ∨ bs.length ≤ 65536 ∧ bs.length % 4 = 0) →
    (off = s.mb.sessDone → off + bs.length ≤ n →
      ∃ w : State → MbState, exec (.fwUpdateData rq off bs) s = .next (doneBy s rq 0x0012 (fun u => ok rq []
        { norWrite (slotBase (updateSlot s ic) + off) bs u with mb := w u })) ∧
        ∀ u, w u = { u.mb with sessDone := off + bs.length, sessLast := some (off, bs) }) ∧
    (off ≠ s.mb.sessDone → s.mb.sessLast = some (off, bs) →
      exec (.fwUpdateData rq off bs) s = .next (doneBy s rq 0x0012 (fun u => ok rq [] u)))) ∧
  (∀ s rq chk ic n, sentOk (.fwUpdateEnd rq chk) s rq 0x0013 → s.mb.sess = some (rq.ch, ic, n) → n ≤ s.mb.sessDone →
    (slotCheck s ic n chk = false → exec (.fwUpdateEnd rq chk) s = .next (doneBy s rq 0x0013 (fun u =>
      reply rq 0x0301 3 [] (sessionClose u)))) ∧
    (slotCheck s ic n chk = true → ic = true → exec (.fwUpdateEnd rq chk) s = .next (doneBy s rq 0x0013 (fun u =>
      ok rq [] (sessionClose (slotMark 2 chk u))))) ∧
    (slotCheck s ic n chk = true → ic = false → exec (.fwUpdateEnd rq chk) s = .next (doneBy s rq 0x0013 (fun u =>
      commit { page := 35, off := 3, bytes := leBytes 1 (1 - s.cc.fwSlot), act := .reply rq.ch rq.tag }
        (sessionClose (slotMark (1 - s.cc.fwSlot) chk u)))))) ∧
  (∀ s rq, sentOk (.fwActivate rq) s rq 0x0014 → (s.cc.served = false ∨ preferred s ≠ s.cc.fwSlot) → s.mb.sess = none →
    s.rpm.recovery = 0 → exec (.fwActivate rq) s = .next (doneBy s rq 0x0014 (fun u => rstAssert .fwAct u))) ∧
  (∀ s rq f, rq.wf = true → findFlight s rq.ch rq.tag = some f → f.ran = true →
    (f.opcode = 0x0011 → exec (.blockRunCommandEnd rq) s = .next (ok rq [] s)) ∧
    (f.opcode = 0x0302 → exec (.blockRunCommandEnd rq) s =
      .next (ok rq [] { s with mctl := { s.mctl with retireLun := none } })) ∧
    (f.opcode = 0x0802 → ∃ t, t = s.xe.retiring.foldl (fun s l => laneRetire l 4 s) s ∧
      exec (.blockRunCommandEnd rq) s = .next (ok rq [] { t with xe := { t.xe with retiring := [] } })) ∧
    (∀ g k n, f.opcode = 0x0301 → s.mctl.formatRq = some (g, k, n) →
      (n < 2 → formatOpening s = false → exec (.blockRunCommandEnd rq) s = .next (formatDone g k s)) ∧
      (2 ≤ n ∨ formatOpening s = true → exec (.blockRunCommandEnd rq) s = .next s)) ∧
    (f.opcode = 0x0301 → s.mctl.formatRq = none → exec (.blockRunCommandEnd rq) s = .next s) ∧
    (f.opcode ∉ [0x0011, 0x0301, 0x0302, 0x0802] → exec (.blockRunCommandEnd rq) s = .next s)) ∧
  (∀ s rq, rq.wf = true → (∀ f, findFlight s rq.ch rq.tag = some f → f.ran = false) →
    exec (.blockRunCommandEnd rq) s = .next s)

/-! ## Security, option store and ledger (chapters 15 and 16) -/

/-- The re-key sweeps, the random generator's failure and the security commands (R350, R354-R359, R363, R364). *Front sweep step* reads,
checks and writes back the next line in use, and ends the front part behind the last; *media sweep step* moves the next billet's copy
while the reserve is free, and behind the last writes the tables anew; *media sweep complete* erases the old salt; a sweep that does not
run, and a part that is done, take no step. *Unlock closure end* opens the area again. SEC_QUERY, REKEY_START and REKEY_PAUSE are let
through by their checks. -/
def Obligations.SecurityCompletes : Prop :=
  (∀ s rd f l u, sweepRuns s = true → s.sec.fDone = false → s.ft.trained = true → frontNext s = some (f, l) →
    u = (if lineHeld s f l then (ftRead f l rd s).2 else s) →
    (u.sec.halt = true → exec (.frontSweepStep rd) s = .next u) ∧
    (u.sec.halt = false → ∃ t, t = { count 0x2420 0xFFFF 0 1 u with sec := { (count 0x2420 0xFFFF 0 1 u).sec with
        fFrame := if l = 1023 then f + 1 else f, fLine := if l = 1023 then 0 else l + 1 } } ∧
      exec (.frontSweepStep rd) s = .next (if (frontNext t).isNone then frontSwept t else t))) ∧
  (∀ s rd, sweepRuns s = true → s.sec.fDone = false → s.ft.trained = true → frontNext s = none →
    exec (.frontSweepStep rd) s = .next (frontSwept s)) ∧
  (∀ s rd, (sweepRuns s = false ∨ s.sec.fDone = true ∨ s.ft.trained = false) → exec (.frontSweepStep rd) s = .next s) ∧
  (∀ s b l u, sweepRuns s = true → mediaSweeps s = true → s.sec.mPassed = false → mediaSweepNext s = some (b, l) →
    u = moveSlot l 4 s →
    (reserveFree s = false → exec .mediaSweepStep s = .next s) ∧
    (reserveFree s = true → mediaSweepNext u = some (b, l) → exec .mediaSweepStep s = .next u) ∧
    (reserveFree s = true → mediaSweepNext u ≠ some (b, l) → ∃ v t, v = count 0x2421 0xFFFF 0 1 u ∧
      t.sec = { v.sec with mBound := b + 1, movedGib := v.sec.movedGib + 1 } ∧
      t.mctl = { v.mctl with destageCnt := satAdd (2 ^ 64 - 1) v.mctl.destageCnt 1 } ∧ t = { v with sec := t.sec, mctl := t.mctl } ∧
      exec .mediaSweepStep s = .next (mediaLevels (if 16384 ≤ t.sec.movedGib then boundRecord t else t)))) ∧
  (∀ s, sweepRuns s = true → mediaSweeps s = true → s.sec.mPassed = false → mediaSweepNext s = none →
    exec .mediaSweepStep s = .next (mediaPassed s)) ∧
  (∀ s, (sweepRuns s = false ∨ mediaSweeps s = false ∨ s.sec.mPassed = true) → exec .mediaSweepStep s = .next s) ∧
  (∀ s, mediaSweeps s = true → s.sec.mPassed = true → ∃ t,
    t = { oldSaltErase s with sec := { (oldSaltErase s).sec with mDone := true } } ∧
    (t.sec.fDone = false ∨ t.sec.rekey = 0 → exec .mediaSweepComplete s = .next t) ∧
    (t.sec.fDone = true → t.sec.rekey ≠ 0 → exec .mediaSweepComplete s = .next (boundRecord
      { t with sec := { t.sec with rekey := 0, scope := 0, mBound := 0, mPassed := false } }))) ∧
  (∀ s, (mediaSweeps s = false ∨ s.sec.mPassed = false) → exec .mediaSweepComplete s = .next s) ∧
  (∀ s a, a < 7 → exec (.unlockClosureEnd a) s = .next { s with sec := { s.sec with closed := s.sec.closed.erase a } }) ∧
  (∀ s, (s.rpm.st = .kindling ∨ s.rpm.st = .service →
      exec .rngHealthFail s = .next { s with sec := { s.sec with rngFail := true } }) ∧
    (s.rpm.st ≠ .kindling → s.rpm.st ≠ .service → exec .rngHealthFail s = .next s)) ∧
  (∀ s rq, sentOk (.secQuery rq) s rq 0x0A00 →
    exec (.secQuery rq) s = .next (doneBy s rq 0x0A00 (fun u => ok rq (secData u) u))) ∧
  (∀ s rq scope, sentOk (.rekeyStart rq scope) s rq 0x0A01 → s.sec.rekey = 0 → s.sec.rngFail = false →
    (scope = 0 → exec (.rekeyStart rq scope) s = .next (doneBy s rq 0x0A01 (fun u =>
      commit { page := 0, off := 0, bytes := leBytes 4 (secFrontGen s + 1), act := .rekey rq.ch rq.tag }
        (commit { page := 2, off := 0, bytes := leBytes 4 0 ++ leBytes 4 2, act := .part rq.ch rq.tag } u)))) ∧
    (scope = 1 → s.mc.formatted = true → exec (.rekeyStart rq scope) s = .next (doneBy s rq 0x0A01 (fun u =>
      mediaSaltWrite rq (commit { page := 2, off := 0, bytes := leBytes 4 0 ++ leBytes 4 4, act := .part rq.ch rq.tag } u)))) ∧
    (scope = 2 → s.mc.formatted = true → exec (.rekeyStart rq scope) s = .next (doneBy s rq 0x0A01 (fun u =>
      mediaSaltWrite rq
        (commit { page := 0, off := 0, bytes := leBytes 4 (secFrontGen s + 1), act := .part rq.ch rq.tag }
          (commit { page := 2, off := 0, bytes := leBytes 4 0 ++ leBytes 4 6, act := .part rq.ch rq.tag } u)))))) ∧
  (∀ s rq op, sentOk (.rekeyPause rq op) s rq 0x0A02 → (op = 0 ∧ s.sec.rekey = 1 ∨ op = 1 ∧ s.sec.rekey = 2) →
    ∃ w : State → State, (∀ u, w u = { u with sec := { u.sec with rekey := if op = 0 then 2 else 1 } }) ∧
      exec (.rekeyPause rq op) s = .next (doneBy s rq 0x0A02 (fun u =>
        commit { page := 2, off := 0, bytes := boundBytes (w u), act := .reply rq.ch rq.tag } (w u))))

/-- The option store's registers, page writes and commands (R366, R367, R369-R374, R384). OPT_CTL.COMMIT and LOAD and the buffer byte act
for a firmware core, and not for the integrator core; *page write complete* ends the commit that runs and what waits for it; *option
patrol* rewrites weak pages with their own contents and reports damaged ones. OPT_READ, OPT_WRITE of a page or of an image, OPT_UNLOCK and
OPT_PASSWORD_SET are let through by their checks; a wrong password is answered and counted. -/
def Obligations.OptionStoreCompletes : Prop :=
  (∀ s core p, core < 5 → p < 1024 →
    ((areaOf p).isSome = true → ∃ t, t = { s with opt := { s.opt with tpage := p } } ∧
      exec (.optCtlCommit core p) s = .next (commit { page := p, off := 0, bytes := bytesOf s.opt.buf 0 64 } t)) ∧
    ((areaOf p).isNone = true → exec (.optCtlCommit core p) s = .next { s with opt := { s.opt with tpage := p } }) ∧
    ((∀ c, s.opt.run = some c → c.page ≠ p) → exec (.optCtlLoad core p) s = .next
      { s with opt := { s.opt with tpage := p, buf := (s.opt.pages.get {} p).data } }) ∧
    (∀ c, s.opt.run = some c → c.page = p → exec (.optCtlLoad core p) s = .next
      { s with opt := { s.opt with tpage := p, buf := commitImage s c } })) ∧
  (∀ s p b, p < 1024 → exec (.optCtlCommit 5 p) s = .next s ∧ exec (.optCtlLoad 5 p) s = .next s ∧
    exec (.optByteAccess 5 b) s = .next s) ∧
  (∀ s core, core < 5 → s.opt.byte < 64 →
    (∀ b, ∃ t, exec (.optByteAccess core (some b)) s = .next t ∧
      t = { s with opt := { s.opt with byte := (s.opt.byte + 1) % 64, buf := t.opt.buf } } ∧
      byteOf t.opt.buf s.opt.byte = b ∧ ∀ k < 64, k ≠ s.opt.byte → byteOf t.opt.buf k = byteOf s.opt.buf k) ∧
    exec (.optByteAccess core none) s = .next (emit (.regRead (.core core) (byteOf s.opt.buf s.opt.byte).toNat)
      { s with opt := { s.opt with byte := (s.opt.byte + 1) % 64 } })) ∧
  (∀ s c v, s.opt.run = some c → v = commitActed c (commitApply c s) →
    exec .pageWriteComplete s = .next (commitStart (if c.page = 35 then page35 v else v)) ∧
    (c.act = .none → v = commitApply c s) ∧
    (∀ ch tag, c.act = .reply ch tag → v = ok ⟨ch, tag⟩ [] (setCommitted ⟨ch, tag⟩ (commitApply c s))) ∧
    ((s.opt.pages.get {} c.page).wcount + 1 < 1000000 →
      ((commitApply c s).opt.pages.get {} c.page).data = commitImage s c ∧
      ((commitApply c s).opt.pages.get {} c.page).wcount = (s.opt.pages.get {} c.page).wcount + 1)) ∧
  (∀ s, s.opt.run = none → exec .pageWriteComplete s = .next s) ∧
  (∀ s weak bad, (∀ p ∈ weak ++ bad, p < 1024) → exec (.optionPatrol weak bad) s = .next (bad.foldl damagedPage (weak.foldl weakPage s))) ∧
  (∀ s p, weakPage s p = commit { page := p, off := 0, bytes := bytesOf (s.opt.pages.get {} p).data 0 64 } s ∧
    ((s.opt.pages.get {} p).damaged = true → damagedPage s p = s) ∧
    ((s.opt.pages.get {} p).damaged = false → damagedPage s p = ledger 0x3003 0 [p] (raise 0x3003 0xFFFF p .nothing
      { s with opt := { s.opt with pages := s.opt.pages.upd {} p (fun x => { x with damaged := true }) } }))) ∧
  (∀ s rq first n, sentOk (.optRead rq first n) s rq 0x0B00 → 32 ≤ first → 0 < n → first + n ≤ 1024 →
    areaDenied s rq.ch 0 first n = none → exec (.optRead rq first n) s = .next (doneBy s rq 0x0B00 (fun u =>
      ok rq ((List.range n).flatMap (fun k => optPageBytes u (first + k))) u))) ∧
  (∀ s rq p off data img b, sentOk (.optWrite rq 0 p off data img b) s rq 0x0B01 → p < 1024 → off < 64 → 0 < data.length →
    data.length ≤ 64 → areaDenied s rq.ch 1 p 1 = none → writeRefused s p off data = none →
    exec (.optWrite rq 0 p off data img b) s = .next (doneBy s rq 0x0B01 (fun u =>
      commit { page := p, off := off, bytes := data, act := .wrote rq.ch rq.tag 1 } u))) ∧
  (∀ s rq p off data img, sentOk (.optWrite rq 1 p off data img true) s rq 0x0B01 →
    (∀ e, img.head? = some e → areaDenied s rq.ch 1 e.page 1 = none ∧ writeRefused s e.page e.off e.data = none) →
    exec (.optWrite rq 1 p off data img true) s = .next (doneBy s rq 0x0B01 (fun u =>
      if (imageApply rq img 0 u).1 = 0 then ok rq (pack [.n4 0]) (imageApply rq img 0 u).2 else (imageApply rq img 0 u).2))) ∧
  (∀ s rq a d pw, sentOk (.optUnlock rq a d pw) s rq 0x0B02 → 0 < a → a ≤ 6 → d < 2 → ¬ (a = 1 ∧ d = 1) →
    s.sec.closed.contains a = false →
    (pwMatches s a d pw = true → ∃ w : State → State, (failCount s a = 0 → w = fun u => u) ∧
      (failCount s a ≠ 0 → w = failWrite a 0) ∧ exec (.optUnlock rq a d pw) s = .next (doneBy s rq 0x0B02 (fun u =>
        ok rq [] ((w u).modMbox rq.ch (fun m => { m with unlocks := m.unlocks.erase (pwKey a d) ++ [pwKey a d] }))))) ∧
    (pwMatches s a d pw = false → exec (.optUnlock rq a d pw) s = .next (doneBy s rq 0x0B02 (fun u =>
      reply rq 0x0301 3 [] (unlockFails a u))))) ∧
  (∀ s rq a d old new, sentOk (.optPasswordSet rq a d old new) s rq 0x0B03 → 0 < a → a ≤ 6 → d < 2 → ¬ (a = 1 ∧ d = 1) →
    s.sec.closed.contains a = false →
    (pwMatches s a d old = true → ∃ v : Option (BitVec 128), (new = 0 → v = none) ∧
      (new ≠ 0 → v = some (Config.verifier (pwKey a d) new)) ∧
      exec (.optPasswordSet rq a d old new) s = .next (doneBy s rq 0x0B03 (fun u =>
        commit { page := 8 + pwKey a d / 4, off := pwKey a d % 4 * 16, bytes := leBytes 16 (v.getD 0).toNat,
                 act := .verifier (pwKey a d) v rq.ch rq.tag } u))) ∧
    (pwMatches s a d old = false → exec (.optPasswordSet rq a d old new) s = .next (doneBy s rq 0x0B03 (fun u =>
      reply rq 0x0301 3 [] (failWrite 7 (min 255 (failCount (unlockFails a u) 7 + 1)) (unlockFails a u))))))

/-- The ledger's programs and commands (R376, R378, R380, R382-R384): LEDGER_QUERY, LEDGER_READ, which records a conflict of two copies,
*ledger age timer*, *ledger program complete*, after which what was staged is on the media, an uncorrectable record as a placeholder, and
*high-water commit complete*, which ends the commits up to that of the high-water: what each does, and where it does nothing. -/
def Obligations.LedgerCompletes : Prop :=
  (∀ s rq, sentOk (.ledgerQuery rq) s rq 0x0B10 →
    exec (.ledgerQuery rq) s = .next (doneBy s rq 0x0B10 (fun u => ok rq (ledgerData u) u))) ∧
  (∀ s rq first n out, sentOk (.ledgerRead rq first n out) s rq 0x0B11 → 0 < first → 0 < n → n ≤ 69632 →
    exec (.ledgerRead rq first n out) s = .next (doneBy s rq 0x0B11 (fun u => ok rq (leBytes 8 (u.lg.next - 1)
      ++ leBytes 8 (ledgerSpan u first n).1 ++ leBytes 4 (ledgerSpan u first n).2.1.length ++ leBytes 4 (ledgerSpan u first n).2.2
      ++ (ledgerSpan u first n).2.1.flatMap (fun q => recBytes (recOf u out q)))
      (((ledgerSpan u first n).2.1.filter (lgDiffers u out)).foldl lgConflict u)))) ∧
  (∀ s, s.lg.offline = false → s.lg.staged ≠ [] →
    exec .ledgerAgeTimer s = .next { s with lg := { s.lg with programming := true } }) ∧
  (∀ s, (s.lg.offline = true ∨ s.lg.staged = []) → exec .ledgerAgeTimer s = .next s) ∧
  (∀ s bad, s.lg.programming = true → s.lg.offline = false →
    (∃ t, exec (.ledgerProgramComplete true bad) s = .next t ∧ t.lg.staged = [] ∧ t.lg.programming = false ∧
      (∀ r ∈ s.lg.staged, r.seq ≤ t.lg.mediaSeq) ∧ s.lg.mediaSeq ≤ t.lg.mediaSeq ∧ t = { s with lg := t.lg } ∧
      ∀ x ∈ t.lg.recs, x ∈ s.lg.recs ∨ ∃ r ∈ s.lg.staged, x = (r.seq, if bad.contains r.seq then lgHole r.seq else r)) ∧
    exec (.ledgerProgramComplete false bad) s = .next (ledgerSetFails (lgHoles bad s))) ∧
  (∀ s good bad, (s.lg.programming = false ∨ s.lg.offline = true) → exec (.ledgerProgramComplete good bad) s = .next s) ∧
  (∀ s c, s.opt.run = some c → c.act = .highWater → c.page ≠ 35 →
    exec .highWaterCommitComplete s = .next (commitStart (lgRaised (commitApply c s)))) ∧
  (∀ s c, s.opt.run = some c → c.act ≠ .highWater → (∃ d ∈ s.opt.queue, d.act = .highWater) →
    exec .highWaterCommitComplete s = .next (commitsUntil (fun a => a == .highWater) s.opt.queue.length (commitEnd s))) ∧
  (∀ s, s.opt.run = none ∨ (∀ c ∈ s.opt.queue, c.act ≠ .highWater) ∧ (∀ c, s.opt.run = some c → c.act ≠ .highWater) →
    exec .highWaterCommitComplete s = .next s)

/-! ## Reset, power and thermal (chapter 17) -/

/-- Sources of reset, PLLs and the end of a start (R361, R386-R392, R395, R409), in every form: *POR detected*, *POR released*,
*RESET_N accepted*, *RESET_N released*, *command reset source released*, *PLL locked*, *PLL lock timeout*, *PLL lock lost*,
*PLL relocked*, *firmware entry limit*, *start complete*, *restart from shutdown*, *power-up retry*. Where what a row speaks of does
not stand, it changes nothing. -/
def Obligations.ResetSourcesComplete : Prop :=
  (∀ s, (RstSrc.por ∉ s.rpm.asserted → exec .porDetected s = .next (rstTake .por s)) ∧
    (RstSrc.por ∈ s.rpm.asserted → exec .porDetected s = .next s)) ∧
  (∀ s t, t = { s with rpm := { s.rpm with asserted := s.rpm.asserted.erase .por } } →
    (RstSrc.por ∈ s.rpm.asserted → t.rpm.asserted = [] → exec .porReleased s = .next (intervalEnd t)) ∧
    (RstSrc.por ∈ s.rpm.asserted → t.rpm.asserted ≠ [] → exec .porReleased s = .next t) ∧
    (RstSrc.por ∉ s.rpm.asserted → exec .porReleased s = .next s)) ∧
  (∀ s t, t = { s with rpmx := { s.rpmx with rstPin := 1 } } →
    (s.rpm.st = .timedShutdown ∨ s.rpm.st = .shutdown ∨ RstSrc.resetN ∈ s.rpm.asserted ∨ s.eu.phase = .shutdown →
      exec .resetNAccepted s = .next t) ∧
    (s.rpm.st ≠ .timedShutdown → s.rpm.st ≠ .shutdown → RstSrc.resetN ∉ s.rpm.asserted → s.eu.phase ≠ .shutdown →
      (euBusy s = true → s.eu.phase ≠ .sealedHold → exec .resetNAccepted s = .next
        { t with eu := { t.eu with deferred := t.eu.deferred.erase .resetN ++ [.resetN] } }) ∧
      (euBusy s = false ∨ s.eu.phase = .sealedHold →
        (epochOpen s = true → ∃ u, u = emberEnter 4 t ∧
          exec .resetNAccepted s = .next { u with eu := { u.eu with deferred := u.eu.deferred ++ [.resetN] } }) ∧
        (epochOpen s = false → exec .resetNAccepted s = .next (rstTake .resetN t))))) ∧
  (∀ s, ((s.rpm.st = .timedShutdown ∨ s.rpm.st = .shutdown) ∧ s.rpmx.rstPin ≠ 0 → exec .resetNReleased s =
      .next (rstRelease .resetN { s with rpmx := { s.rpmx with rstPin := 2 } })) ∧
    (s.rpm.st ≠ .timedShutdown ∧ s.rpm.st ≠ .shutdown ∨ s.rpmx.rstPin = 0 → exec .resetNReleased s =
      .next (rstRelease .resetN { s with rpmx := { s.rpmx with rstPin := 0 } }))) ∧
  (∀ s src, src.wf = true → ((src = .por ∨ src = .restart ∨ src = .resetN ∧ s.rpmx.rstPin = 1) →
      exec (.commandResetSourceReleased src) s = .next s) ∧
    (src ≠ .por → src ≠ .restart → ¬ (src = .resetN ∧ s.rpmx.rstPin = 1) →
      exec (.commandResetSourceReleased src) s = .next (rstRelease src s))) ∧
  (∀ s p, p.wf = true →
    (s.rpm.st = .kindling → p ∉ s.rpmx.plls → p ∉ s.rpmx.pllFail →
      exec (.pllLocked p) s = .next (pllSettle { s with rpmx := { s.rpmx with plls := s.rpmx.plls ++ [p] } }) ∧
      ∃ t, t = { s with rpmx := { s.rpmx with pllFail := s.rpmx.pllFail ++ [p] } } ∧
        (p = .capture → exec (.pllLockTimeout p) s = .next (startFail 3 t)) ∧
        (∀ k, p = .port k → exec (.pllLockTimeout p) s = .next (pllSettle (raise 0x3802 k 0 .nothing t))) ∧
        (∀ k, p = .ft k ∨ p = .nc k → exec (.pllLockTimeout p) s = .next (pllSettle t))) ∧
    (s.rpm.st ≠ .kindling ∨ p ∈ s.rpmx.plls ∨ p ∈ s.rpmx.pllFail →
      exec (.pllLocked p) s = .next s ∧ exec (.pllLockTimeout p) s = .next s)) ∧
  (∀ s p t, p.wf = true → t = { s with rpmx := { s.rpmx with plls := s.rpmx.plls.erase p } } →
    (p ∉ s.rpmx.plls → exec (.pllLockLost p) s = .next s) ∧
    (p ∈ s.rpmx.plls → p = .capture → exec (.pllLockLost p) s = .next (raise 0x3802 0xFFFF 0 .nothing t)) ∧
    (∀ k u, p ∈ s.rpmx.plls → p = .port k → u = t.modPort k (fun q => { q with pllOk := false }) →
      ((s.port k).role ≠ 2 → exec (.pllLockLost p) s = .next (portPulse k u)) ∧
      ((s.port k).role = 2 → exec (.pllLockLost p) s = .next (portPulse k (portSilent (decide (twinPortNo true u = k)) u)))) ∧
    (∀ k, p ∈ s.rpmx.plls → p = .ft k → exec (.pllLockLost p) s = .next
      { t with ft := { t.ft with ftStall := t.ft.ftStall ||| ((1#8) <<< k) } }) ∧
    (∀ k, p ∈ s.rpmx.plls → p = .nc k → exec (.pllLockLost p) s = .next
      { t with mctl := { t.mctl with ncStall := t.mctl.ncStall ||| ((1#8) <<< k) } })) ∧
  (∀ s p l t, p.wf = true → (∀ d ∈ l, d < 32) →
    t = { s with rpmx := { s.rpmx with plls := s.rpmx.plls ++ [p] } } →
    (p ∈ s.rpmx.plls ∨ p ∈ s.rpmx.pllFail ∨ s.rpmx.entered = false → exec (.pllRelocked p l) s = .next s) ∧
    (p ∉ s.rpmx.plls → p ∉ s.rpmx.pllFail → s.rpmx.entered = true →
      (p = .capture → exec (.pllRelocked p l) s = .next (count 0x3821 0xFFFF 0 1 t)) ∧
      (∀ k, p = .port k → exec (.pllRelocked p l) s =
        .next ((count 0x3821 k 0 1 t).modPort k (fun q => { q with pllOk := true }))) ∧
      (∀ k u, p = .ft k → u = count 0x3821 0xFFFF 0 1 t → exec (.pllRelocked p l) s = .next (afterAccess (settle
        ((l.filter (fun d => decide (d / 4 = k))).foldl (fun s d => candidate d s)
          { u with ft := { u.ft with ftStall := u.ft.ftStall &&& ~~~((1#8) <<< k) } })))) ∧
      (∀ k u, p = .nc k → u = count 0x3821 0xFFFF 0 1 t → exec (.pllRelocked p l) s =
        .next { u with mctl := { u.mctl with ncStall := u.mctl.ncStall &&& ~~~((1#8) <<< k) } }))) ∧
  (∀ s, (s.rpm.st = .kindling → s.rpmx.entered = false → s.rpm.boot ≠ 2 → pllsSettled s = true →
      exec .firmwareEntryLimit s = .next (startFail 1 s)) ∧
    (s.rpm.st ≠ .kindling ∨ s.rpmx.entered = true ∨ s.rpm.boot = 2 ∨ pllsSettled s = false →
      exec .firmwareEntryLimit s = .next s)) ∧
  (∀ s, (s.rpmx.opened = true → s.rpmx.startDone = false → failing s = false → ∃ t u, exec .startComplete s = .next t ∧
      u = fsCommit .none (fun p => { p with count := 0, starts := satAdd max32 p.starts 1 }) s ∧
      t = { u with rpmx := { u.rpmx with startDone := true }, sec := { u.sec with rollback := t.sec.rollback } } ∧
      t.sec.rollback = if s.cc.served then max s.sec.rollback (norSlot s s.cc.fwSlot).rollback else s.sec.rollback) ∧
    (s.rpmx.opened = false ∨ s.rpmx.startDone = true ∨ failing s = true → exec .startComplete s = .next s)) ∧
  (∀ s met, (met ↔ s.rpm.st = .shutdown ∧
      (s.rpmx.downCause = 1 ∧ (s.eu.pfw = false ∧ s.eu.pfwHeld = true ∨ s.rpmx.rstPin = 2) ∨
       s.rpmx.downCause = 2 ∧ s.th.coolOk = true ∧ s.eu.pfw = false ∨ s.rpmx.downCause = 3 ∧ s.rpmx.rstPin = 2)) →
    (met → exec .restartFromShutdown s = .next (rstRelease .restart (rstTake .restart s))) ∧
    (¬ met → exec .restartFromShutdown s = .next s)) ∧
  (∀ s, (s.rpm.st = .afterAbort → exec .powerUpRetry s = .next (programStart s)) ∧
    (s.rpm.st ≠ .afterAbort → exec .powerUpRetry s = .next s))

/-- The sequencer's steps and the power-good inputs (R398-R405), in every form and in both halves: ENABLE, DISABLE, WAIT and its expiry,
CHECK, its retry and its timeout, JUMP, END, *budget exceeded*, *PG_IN good*, *PG_IN bad*, *PG_IN glitch*, *rail measurement*. A row
that is not the step the sequencer stands at changes nothing. -/
def Obligations.SequencerCompletes : Prop :=
  (∀ s, s.rpm.running = true → s.rpm.waiting = false →
    (seqWord s / 2 ^ 28 = 1 → exec .sequencerEnable s = .next { s with rpm := { s.rpm with
      en := s.rpm.en ||| seqMask s, enOrder := (seqMask s).toNat :: s.rpm.enOrder, step := (s.rpm.step + 1) % 64 } }) ∧
    (seqWord s / 2 ^ 28 = 2 → exec .sequencerDisable s = .next { s with rpm := { s.rpm with
      en := s.rpm.en &&& ~~~(seqMask s), step := (s.rpm.step + 1) % 64 } }) ∧
    (seqWord s / 2 ^ 28 = 3 → exec .sequencerWait s = .next { s with rpm := { s.rpm with waiting := true } }) ∧
    (seqWord s / 2 ^ 28 = 4 →
      (s.rpm.st = .powerUp → s.rpm.pgGood &&& seqMask s = seqMask s →
        exec .sequencerCheck s = .next { s with rpm := { s.rpm with
          sup := s.rpm.sup ||| seqMask s, retry := 0, step := (s.rpm.step + 1) % 64 } }) ∧
      (s.rpm.st ≠ .powerUp → s.rpm.pgGood &&& seqMask s = 0 →
        exec .sequencerCheck s = .next { s with rpm := { s.rpm with retry := 0, step := (s.rpm.step + 1) % 64 } }) ∧
      ((s.rpm.st = .powerUp ∧ s.rpm.pgGood &&& seqMask s ≠ seqMask s) ∨ (s.rpm.st ≠ .powerUp ∧ s.rpm.pgGood &&& seqMask s ≠ 0) →
        exec .sequencerCheck s = .next { s with rpm := { s.rpm with waiting := true, retry := 0 } })) ∧
    (∀ go, seqWord s / 2 ^ 28 = 5 → (go ↔ bits (seqWord s) 9 8 = 0 ∨ bits (seqWord s) 9 8 = 1 ∧ s.board.pseqInHigh = true ∨
        2 ≤ bits (seqWord s) 9 8 ∧ s.pageNat 64 48 1 / 8 % 2 = 1) →
      (go → exec .sequencerJump s = .next { s with rpm := { s.rpm with step := seqWord s % 64 } }) ∧
      (¬ go → exec .sequencerJump s = .next { s with rpm := { s.rpm with step := (s.rpm.step + 1) % 64 } })) ∧
    (∀ q t, seqWord s / 2 ^ 28 = 15 → s.rpm.st = .powerUp → q = decide (s.pageNat 64 48 1 / 8 % 2 = 1) →
      t = { s with rpm := { s.rpm with running := false, aborted := false, pseqOut := !q, pseqTu := q, st := .osm } } →
      (s.rpm.asserted = [] → exec .sequencerEnd s = .next (kindleBegin t)) ∧
      (s.rpm.asserted ≠ [] → exec .sequencerEnd s = .next t)) ∧
    (seqWord s / 2 ^ 28 = 15 → s.rpm.st ≠ .powerUp →
      exec .sequencerEnd s = .next (downEnd { s with rpm := { s.rpm with running := false } }))) ∧
  (∀ s n c, (n, c) ∈ [(1, Instr.sequencerEnable), (2, .sequencerDisable), (3, .sequencerWait), (4, .sequencerCheck),
      (5, .sequencerJump), (15, .sequencerEnd)] →
    s.rpm.running = false ∨ s.rpm.waiting = true ∨ seqWord s / 2 ^ 28 ≠ n → exec c s = .next s) ∧
  (∀ s, s.rpm.running = true → s.rpm.waiting = true →
    (seqWord s / 2 ^ 28 = 3 → exec .sequencerWaitExpiry s =
      .next { s with rpm := { s.rpm with step := (s.rpm.step + 1) % 64, waiting := false } }) ∧
    (seqWord s / 2 ^ 28 = 4 → s.rpm.st = .powerUp →
      exec .sequencerCheckTimeout s = .next (abortUp 1 (checkRail s) s) ∧
      (∀ i, i < 8 → (seqMask s).getLsbD i = true → s.rpm.pgGood.getLsbD i = false →
        (s.rpm.retry < 3 → exec (.checkRetry i) s = .next { s with rpm := { s.rpm with retry := s.rpm.retry + 1 } }) ∧
        (3 ≤ s.rpm.retry → exec (.checkRetry i) s = .next (abortUp 2 i s)))) ∧
    (seqWord s / 2 ^ 28 = 4 → s.rpm.st ≠ .powerUp → exec .sequencerCheckTimeout s =
      .next { s with rpm := { s.rpm with downLate := true, step := (s.rpm.step + 1) % 64, waiting := false } })) ∧
  (∀ s, (s.rpm.running = false ∨ s.rpm.waiting = false ∨ seqWord s / 2 ^ 28 ≠ 3 → exec .sequencerWaitExpiry s = .next s) ∧
    (s.rpm.running = false ∨ s.rpm.waiting = false ∨ seqWord s / 2 ^ 28 ≠ 4 → exec .sequencerCheckTimeout s = .next s) ∧
    (∀ i, i < 8 → s.rpm.running = false ∨ s.rpm.waiting = false ∨ seqWord s / 2 ^ 28 ≠ 4 ∨ s.rpm.st ≠ .powerUp ∨
      (seqMask s).getLsbD i = false ∨ s.rpm.pgGood.getLsbD i = true → exec (.checkRetry i) s = .next s)) ∧
  (∀ s, (s.rpm.running = false → exec .sequencerBudgetExceeded s = .next s) ∧
    (s.rpm.running = true → s.rpm.st = .powerUp → exec .sequencerBudgetExceeded s = .next (abortUp 6 0xFF s)) ∧
    (∀ u, s.rpm.running = true → s.rpm.st ≠ .powerUp → u = snapTake 6 s.rpm.step 3 0xFF 0 s →
      exec .sequencerBudgetExceeded s = .next (downEnd (snapCommit
        { u with rpm := { u.rpm with en := u.rpm.en &&& 0x01, running := false } })))) ∧
  (∀ s i t, i < 8 → t = { s with rpm := { s.rpm with pgGood := s.rpm.pgGood ||| ((1#8) <<< i),
                                                     pgRaw := s.rpm.pgRaw ||| ((1#8) <<< i) } } →
    ((∃ x ∈ s.rpm.asserted, isPowerOn x = true) → exec (.pgInGood i) s = .next s) ∧
    ((∀ x ∈ s.rpm.asserted, isPowerOn x = false) → exec (.pgInGood i) s = .next (returnTry (checkPass t)) ∧
      (s.rpm.running = false → inEmber s = false → exec (.pgInGood i) s = .next t))) ∧
  (∀ s i, i < 8 → ∃ t, t = { s with rpm := { s.rpm with pgGood := s.rpm.pgGood &&& ~~~((1#8) <<< i),
                                                        pgRaw := s.rpm.pgRaw &&& ~~~((1#8) <<< i) } } ∧
    (s.rpm.pgGood.getLsbD i = false → exec (.pgInBad i) s = .next t) ∧
    (s.rpm.pgGood.getLsbD i = true →
      (s.rpm.st = .service → s.rpm.sup.getLsbD i = true → exec (.pgInBad i) s = .next (railFault i true (railWarning i t))) ∧
      (s.rpm.st = .powerUp → s.rpm.sup.getLsbD i = true → s.rpm.running = true → exec (.pgInBad i) s = .next (abortUp 4 i t)) ∧
      (s.rpm.st = .timedShutdown → s.rpm.running = true → s.rpm.sup.getLsbD i = true → s.rpm.en.getLsbD i = true →
        exec (.pgInBad i) s = .next (railLostDown i t)) ∧
      (s.rpm.st = .timedShutdown → ¬ (s.rpm.running = true ∧ s.rpm.sup.getLsbD i = true ∧ s.rpm.en.getLsbD i = true) →
        exec (.pgInBad i) s = .next (checkPass t)) ∧
      (s.rpm.st = .service ∧ s.rpm.sup.getLsbD i = false ∨
        s.rpm.st = .powerUp ∧ (s.rpm.sup.getLsbD i = false ∨ s.rpm.running = false) ∨
        s.rpm.st ∉ [.service, .powerUp, .timedShutdown] → exec (.pgInBad i) s = .next t))) ∧
  (∀ s i, i < 8 →
    (s.rpm.pgGood.getLsbD i = false ∨ s.rpm.sup.getLsbD i = false → exec (.pgInGlitch i) s = .next s) ∧
    (s.rpm.pgGood.getLsbD i = true → s.rpm.sup.getLsbD i = true → ∃ near t,
      near = (s.rpmx.glitchT.get [] i).filter (fun k => decide (s.tb.count ≤ k + 1000000000)) ++ [s.tb.count] ∧
      t = count 0x3820 i 0 1 { s with rpmx := { s.rpmx with
        glitch := inc32 s.rpmx.glitch, glitchT := s.rpmx.glitchT.set [] i near } } ∧
      (s.rpm.st ≠ .service → exec (.pgInGlitch i) s = .next t) ∧
      (s.rpm.st = .service → near.length < 3 ∨ inEmber s = true ∧ 3 ∈ s.eu.causes →
        exec (.pgInGlitch i) s = .next (railWarning i t)) ∧
      (s.rpm.st = .service → 3 ≤ near.length → inEmber s = false ∨ 3 ∉ s.eu.causes →
        exec (.pgInGlitch i) s = .next (railFault i false (railWarning i t))))) ∧
  (∀ s mv, mv.length = 8 → (∀ v ∈ mv, v < 65536) →
    ((∃ x ∈ s.rpm.asserted, isPowerOn x = true) → exec (.railMeasurement mv) s = .next s) ∧
    ((∀ x ∈ s.rpm.asserted, isPowerOn x = false) → ∃ t, exec (.railMeasurement mv) s = .next t ∧
      t = { s with rpmx := { s.rpmx with vmon := t.rpmx.vmon } } ∧ ∀ i < 8, t.rpmx.vmon.get 0 i = mv.getD i 0))

/-- The sensors, the pause and the commands of the family (R411-R415): *thermal sample* in every form, *throttle phase end*, DEVICE_RESET
of every reach when it is not refused, POWER_QUERY, THERMAL_QUERY, TH_MAX_SEEN. A reading out of range, or a self-check that fails,
makes its sensor failed; nothing is sampled under a power-on reset. -/
def Obligations.ThermalAndPowerComplete : Prop :=
  (∀ s l f, l.length = 12 → (∀ v ∈ l, -2048 ≤ v ∧ v < 2048) → (∀ i ∈ f, i < 12) →
    ((∃ x ∈ s.rpm.asserted, isPowerOn x = true) → exec (.thermalSample l f) s = .next s) ∧
    ((∀ x ∈ s.rpm.asserted, isPowerOn x = false) → ∃ t,
      t = ((List.range 12).filter (fun i => decide (l.getD i 0 < -220) || decide (600 < l.getD i 0) || f.contains i)).foldl
        (fun s i => sensorFails i s) s ∧
      (∀ i < 12, t.th.failed.getLsbD i = true ↔ s.th.failed.getLsbD i = true ∨ l.getD i 0 < -220 ∨ 600 < l.getD i 0 ∨ i ∈ f) ∧
      exec (.thermalSample l f) s = .next (comparators l (refreshSeen (readingsSet l t))))) ∧
  (∀ s samples, samples.length = 12 → (∀ v ∈ samples, -220 ≤ v ∧ v < 424) → (∀ x ∈ s.rpm.asserted, isPowerOn x = false) →
    s.th.failed = 0 → s.rpmx.coolWait = false → s.th.pause = 0 → s.th.samples = [] →
    ∃ t, exec (.thermalSample samples []) s = .next t ∧
      t.th.failed = 0 ∧ t.th.pause = 0 ∧ t.th.tripped = s.th.tripped ∧ t.th.band = bandOf t.th.max ∧
      (∀ i < 12, thReading t i = samples.getD i 0 ∧ samples.getD i 0 ≤ t.th.max) ∧ t.th.max ≤ t.th.maxSeen) ∧
  (∀ s, (s.th.pause ≠ 0 → s.th.closedPhase = false →
      exec .throttlePhaseEnd s = .next { s with th := { s.th with closedPhase := true } }) ∧
    (s.th.pause ≠ 0 → s.th.closedPhase = true → exec .throttlePhaseEnd s =
      .next (afterAccess (settle { s with th := { s.th with closedPhase := false } }))) ∧
    (s.th.pause = 0 → exec .throttlePhaseEnd s = .next s)) ∧
  (∀ s rq port, port < 10 →
    (sentOk (.deviceReset rq 0 port 0) s rq 0x0C00 → exec (.deviceReset rq 0 port 0) s =
      .next (doneBy s rq 0x0C00 (fun u => rstAssert .cmdCold (ok rq [] (setCommitted rq u))))) ∧
    (sentOk (.deviceReset rq 0 port 1) s rq 0x0C00 → exec (.deviceReset rq 0 port 1) s =
      .next (doneBy s rq 0x0C00 (fun u => fsCommit (.clearFs .cmdCold) (fun p => { p with count := 0 }) u)))) ∧
  (∀ s rq port, s.rpm.recovery = 0 → port < 10 →
    (sentOk (.deviceReset rq 1 port 0) s rq 0x0C00 → exec (.deviceReset rq 1 port 0) s =
      .next (doneBy s rq 0x0C00 (fun u => rstAssert .cmdWarm (ok rq [] (setCommitted rq u))))) ∧
    (sentOk (.deviceReset rq 2 port 0) s rq 0x0C00 → exec (.deviceReset rq 2 port 0) s =
      .next (doneBy s rq 0x0C00 (fun u => rstAssert .cmdCluster u))) ∧
    (sentOk (.deviceReset rq 3 port 0) s rq 0x0C00 → (s.port port).role ≠ 2 → senderPort s rq.ch ≠ some port →
      exec (.deviceReset rq 3 port 0) s = .next (doneBy s rq 0x0C00 (fun u => rstAssert (.port port) u)))) ∧
  (∀ s rq, sentOk (.powerQuery rq) s rq 0x0C01 →
    exec (.powerQuery rq) s = .next (doneBy s rq 0x0C01 (fun u => ok rq (powerData u) u))) ∧
  (∀ s rq, sentOk (.thermalQuery rq) s rq 0x0C02 →
    exec (.thermalQuery rq) s = .next (doneBy s rq 0x0C02 (fun u => ok rq (thermalData u) u))) ∧
  (∀ s ag v, mayWrite s ag → exec (.thMaxSeenWrite ag v) s = .next { s with th := { s.th with maxSeen := s.th.max } })

/-! ## Observability and registers (chapters 18 and 19) -/

/-- Counters, windows, dumps, samples and routing (R418-R424, R426, R433, R439): by a core PMON_CTL.SNAP and CLEAR, PMON_SEL and
PMON_BW_MAX (every other agent: WritesWithoutAdmin); *bandwidth window end* with its dump, *dump complete* and GLB_INT_EN in every form;
PMON_CONFIG, PMON_READ, PMON_DUMP_SET and EVENT_ROUTE when they are not refused. -/
def Obligations.ObservabilityCompletes : Prop :=
  (∀ s i, i < 5 → (∃ t, exec (.pmonCtlSnap (.core i)) s = .next t ∧ t = { s with pm := { s.pm with cnts := t.pm.cnts } } ∧
      ∀ kv ∈ t.pm.cnts, kv.2.shadow = kv.2.cnt ∧ kv.2.shadowOvf = kv.2.ovf) ∧
    (∃ t, exec (.pmonCtlClear (.core i)) s = .next t ∧ t = { s with pm := { s.pm with cnts := t.pm.cnts } } ∧
      ∀ kv ∈ t.pm.cnts, kv.2.cnt = 0 ∧ kv.2.ovf = false)) ∧
  (∀ s i k v, i < 5 → k < 256 →
    (∃ t, exec (.pmonSelWrite (.core i) k false v) s = .next t ∧ t = { s with pm := { s.pm with cnts := t.pm.cnts } } ∧
      t.pm.cnts.get {} k = { s.pm.cnts.get {} k with
        code := v.toNat / 2 ^ 16, qual := bits v.toNat 15 8, chain := bits v.toNat 2 2 == 1 && k % 2 == 0, en := v.toNat % 2 == 1,
        cnt := 0, ovf := false }) ∧
    (∃ t, exec (.pmonSelWrite (.core i) k true v) s = .next t ∧
      t.pm.cnts.get {} k = { s.pm.cnts.get {} k with inst := v.toNat % 65536, cnt := 0, ovf := false })) ∧
  (∀ s i p, i < 5 → p < 10 →
    exec (.pmonBwMaxWrite (.core i) p true) s = .next { s with pm := { s.pm with maxOut := s.pm.maxOut.set 0 p 0 } } ∧
    exec (.pmonBwMaxWrite (.core i) p false) s = .next { s with pm := { s.pm with maxIn := s.pm.maxIn.set 0 p 0 } }) ∧
  (∀ s bi bo, bi.length = 10 → bo.length = 10 → ∃ (t u : State) (len : Nat), exec (.bandwidthWindowEnd bi bo) s = .next u ∧
    len = max 1 ((s.pm.cuts.head?).getD (s.pm.winCur * 1000)) ∧ t = { s with pm := t.pm } ∧
    t.pm.cuts = s.pm.cuts.tail ∧ (∀ p < 10, t.pm.bwIn.get 0 p = min max32 (bi.getD p 0 * 1000 / len) ∧
      t.pm.bwOut.get 0 p = min max32 (bo.getD p 0 * 1000 / len) ∧
      t.pm.maxIn.get 0 p = max (s.pm.maxIn.get 0 p) (t.pm.bwIn.get 0 p) ∧
      t.pm.maxOut.get 0 p = max (s.pm.maxOut.get 0 p) (t.pm.bwOut.get 0 p)) ∧
    t.pm.bwDevIn = min max32 (bi.sum * 1000 / len) ∧ t.pm.bwDevOut = min max32 (bo.sum * 1000 / len) ∧
    (s.dump.target = 0 ∨ inEmber s = true → u = { t with pm := { t.pm with winCur := t.pm.window } }) ∧
    (s.dump.target ≠ 0 → inEmber s = false → s.dump.winCnt + 1 < s.dump.every →
      u = { t with pm := { t.pm with winCur := t.pm.window }, dump := { t.dump with winCnt := t.dump.winCnt + 1 } }) ∧
    (s.dump.target ≠ 0 → inEmber s = false → s.dump.every ≤ s.dump.winCnt + 1 →
      ∃ d w : State, d = { t with dump := { t.dump with winCnt := 0 } } ∧ u = { w with pm := { w.pm with winCur := w.pm.window } } ∧
        (s.dump.writing = true → w = raise 0x4402 0xFFFF 0 .nothing { d with dump := { d.dump with skipped := true } }) ∧
        (s.dump.writing = false → ∀ p, dumpBarred s = some p → w = d.modPort p (fun q => { q with dumpSkip := inc32 q.dumpSkip })) ∧
        (s.dump.writing = false → dumpBarred s = none → w = dumpRecord d))) ∧
  (∀ s, exec .dumpComplete s = .next { s with dump := { s.dump with writing := false } }) ∧
  (∀ s rq c, sentOk (.pmonConfig rq c) s rq 0x0D00 → c.target = 0 → c.counter < 256 → c.code < 65536 → c.qual < 256 →
    c.inst < 65536 → c.chain < 2 → c.enable < 2 → (c.chain = 1 → c.counter % 2 = 0) → sourceListed c.code = true →
    exec (.pmonConfig rq c) s = .next (doneBy s rq 0x0D00 (fun u => ok rq [] (setCommitted rq (pmonSelect c.counter (fun x =>
      { x with code := c.code, qual := c.qual, inst := c.inst, chain := c.chain == 1, en := c.enable == 1 }) u))))) ∧
  (∀ s rq c, sentOk (.pmonConfig rq c) s rq 0x0D00 → c.target = 1 → c.scode < 65536 → 0 < c.period → c.period < 2 ^ 24 →
    c.jitter < 2 → c.wrap < 2 → c.enable < 2 → sampleSource c.scode = true →
    exec (.pmonConfig rq c) s = .next (doneBy s rq 0x0D00 (fun u => ok rq [] (setCommitted rq (samplerBegin
      { u with pm := { u.pm with sCode := c.scode, sPeriod := c.period, sJitter := c.jitter == 1, sThresh := c.thresh,
                                 sWrap := c.wrap == 1, sEn := c.enable == 1 } }))))) ∧
  (∀ s rq what first n, sentOk (.pmonRead rq what first n) s rq 0x0D01 → first + n ≤ 256 →
    (what = 0 → exec (.pmonRead rq what first n) s = .next (doneBy s rq 0x0D01 (fun u =>
      ok rq (pack ((List.range n).map (fun i => shadowField (pmonSnap u) (first + i)))) (pmonSnap u)))) ∧
    (what = 1 → exec (.pmonRead rq what first n) s = .next (doneBy s rq 0x0D01 (fun u => ok rq (bwData u) u))) ∧
    (what = 2 → exec (.pmonRead rq what first n) s = .next (doneBy s rq 0x0D01 (fun u =>
      ok rq (u.pm.samples.flatMap sampleBytes) { u with pm := { u.pm with samples := [], sFullRaised := false } })))) ∧
  (∀ s rq base n every, sentOk (.pmonDumpSet rq 1 base n every) s rq 0x0D02 → 0 < every → every ≤ 65535 → rq.ch < 29 →
    base % 4096 = 0 → 4 ≤ n → n ≤ 65536 → powerOfTwo n = true →
    exec (.pmonDumpSet rq 1 base n every) s = .next (doneBy s rq 0x0D02 (fun u => ok rq [] (setCommitted rq
      { u with dump := { target := 1, ch := rq.ch, base := base, entries := n, every := every } })))) ∧
  (∀ s rq base n every, sentOk (.pmonDumpSet rq 2 base n every) s rq 0x0D02 → 0 < every → every ≤ 65535 → rq.ch < 30 →
    covered s (mayReach (senderOf s rq.ch) true) base (base + 4096 * n) = true →
    base % 4096 = 0 → 4 ≤ n → n ≤ 65536 → powerOfTwo n = true →
    exec (.pmonDumpSet rq 2 base n every) s = .next (doneBy s rq 0x0D02 (fun u => ok rq [] (setCommitted rq
      { u with dump := { target := 2, ch := rq.ch, base := base, entries := n, every := every } })))) ∧
  (∀ s rq base n every, sentOk (.pmonDumpSet rq 0 base n every) s rq 0x0D02 → exec (.pmonDumpSet rq 0 base n every) s =
    .next (doneBy s rq 0x0D02 (fun u => ok rq [] (setCommitted rq { u with dump := {} })))) ∧
  (∀ s rq cls mask vec, sentOk (.eventRoute rq cls mask vec) s rq 0x0D03 → (cls < 18 ∨ cls = allOnes) →
    (8 ≤ vec ∧ vec ≤ 63 ∧ rq.ch < 29 ∨ vec = allOnes ∧ rq.ch ≠ 30) →
    exec (.eventRoute rq cls mask vec) s = .next (doneBy s rq 0x0D03 (fun u =>
      (routeClasses cls).foldl (routeSet rq.ch mask vec) (ok rq [] (setCommitted rq u))))) ∧
  (∀ s p f v, p < 10 → f < 16 →
    (fnReached s p f = true → (s.fn p f).d3 = false → ∃ t, t = s.modFn p f (fun x => { x with intEn := v.setWidth 5 }) ∧
      ((v.setWidth 5 : BitVec 5) &&& ~~~(s.fn p f).intEn &&& (s.fn p f).intStat = 0 → exec (.glbIntEnWrite p f v) s = .next t) ∧
      ((v.setWidth 5 : BitVec 5) &&& ~~~(s.fn p f).intEn &&& (s.fn p f).intStat ≠ 0 →
        exec (.glbIntEnWrite p f v) s = .next (fire p f 7 t))) ∧
    (fnReached s p f = true → (s.fn p f).d3 = true → exec (.glbIntEnWrite p f v) s = .next (logAer p f .unsupportedRequest s)) ∧
    (fnReached s p f = false → exec (.glbIntEnWrite p f v) s = .next s))

/-- Writes of registers that have no row of their own (R424, R427-R431, R433, R434): a core
writes a trigger input's polarity, clears over-rate bits and recorded reset sources, and writes a binding until it is locked; a
function clears its own interrupt status and writes its request slots; RO blocks take nothing. REGISTER_WRITE. -/
def Obligations.RegisterWritesComplete : Prop :=
  (∀ s i v, i < 5 →
    exec (.registerWrite (.core i) 0x11000040 4 v) s =
      .next { s with tb := { s.tb with edgeFall := (v.setWidth 32).setWidth 16 } } ∧
    exec (.registerWrite (.core i) 0x11000044 4 v) s =
      .next { s with tb := { s.tb with ovr := s.tb.ovr &&& ~~~((v.setWidth 32).setWidth 16) } } ∧
    exec (.registerWrite (.core i) 0x10E00004 4 v) s =
      .next { s with rpm := { s.rpm with rst := s.rpm.rst &&& ~~~((v.setWidth 32).setWidth 12 &&& 0xFFE) } } ∧
    (∀ k, k < 30 → (s.mb.lock = false → exec (.registerWrite (.core i) (0x10B20000 + 4 * k) 4 v) s =
        .next (s.modMbox k (fun m => { m with bind_ := (v.setWidth 32).toNat % 65536 }))) ∧
      (s.mb.lock = true → exec (.registerWrite (.core i) (0x10B20000 + 4 * k) 4 v) s = .next s)) ∧
    (∀ o, o < 0x80000 → o % 4 = 0 → exec (.registerWrite (.core i) (0x10D00000 + o) 4 v) s = .next s ∧
      exec (.registerWrite (.core i) (0x10900000 + o) 4 v) s = .next s)) ∧
  (∀ s p f v, p < 10 → f < 16 → fnReached s p f = true → (s.fn p f).d3 = false →
    exec (.registerWrite (.fn p f) 0x80 4 v) s = .next (s.modFn p f (fun x =>
      { x with intStat := x.intStat &&& ~~~((v.setWidth 32).setWidth 5) })) ∧
    (∀ ch o, chanOf s (.fn p f) = some ch → o < 0x400 → o % 4 = 0 →
      exec (.registerWrite (.fn p f) (0x1B0000 + o) 4 v) s = .next (slotPut ch o (valBytes v 4) s)))

/-- R429, R434: a write to a block register by a function whose binding lacks `ADMIN` is ignored and counted in that function's
`GLB_ACC_ERR`, by *register write* and by every row of such a write; in D3hot it is an Unsupported Request (R241). An agent that
is neither a core of the firmware nor a host function reached changes nothing, and what only cores reach (R428) is closed to every
function. No block of the device changes. -/
def Obligations.WritesWithoutAdmin : Prop :=
  (∀ (s : State) (p f b o : Nat) (v : BitVec 64), p < 10 → f < 16 → fnReached s p f = true → (s.fn p f).d3 = false →
    fnAdmin s p f = false → b ∈ [0x00, 0x01, 0x02, 0x03, 0x04, 0x05, 0x06, 0x07, 0x08, 0x09, 0x0C, 0x0D, 0x0E, 0x0F, 0x10, 0x11] →
    o < 0x10000 → o % 4 = 0 →
    exec (.registerWrite (.fn p f) (0x100000 + 0x10000 * b + o) 4 v) s =
      .next (s.modFn p f (fun x => { x with accErr := inc32 x.accErr }))) ∧
  ∀ (s : State) (ag : Agent) (k m r n i q : Nat) (out inst : Bool) (v : Word) (c : Instr), ag.wf = true → k < 256 → m < 64 → r < 4 →
    n < 10 → i < 6 → q < 10 →
    c ∈ [Instr.tbCtlPpsEnSet ag, .tbCtlPpsEnClear ag, .tbCtlStepEnSet ag, .tbCtlStepEnClear ag, .hfPaceWrite ag v, .teLaInval ag q,
      .suChLateMaxWrite ag m v, .thMaxSeenWrite ag v, .pmonCtlSnap ag, .pmonCtlClear ag, .pmonSelWrite ag k inst v,
      .pmonBwMaxWrite ag n out, .ccHeartbeatWrite ag r] →
    (∀ p f, ag = .fn p f → fnReached s p f = true → (s.fn p f).d3 = false → fnAdmin s p f = false →
      exec c s = .next (s.modFn p f (fun x => { x with accErr := inc32 x.accErr }))) ∧
    (∀ p f, ag = .fn p f → fnReached s p f = true → (s.fn p f).d3 = true → exec c s = .next (logAer p f .unsupportedRequest s)) ∧
    (∀ p f, ag = .fn p f → fnReached s p f = false → exec c s = .next s) ∧
    ((∀ p f, ag ≠ .fn p f) → (∀ j, j < 5 → ag ≠ .core j) → exec c s = .next s) ∧
    (∀ p f, ag = .fn p f → fnReached s p f = true → (s.fn p f).d3 = false → fnAdmin s p f = true →
      c ∈ [.pmonCtlSnap ag, .pmonCtlClear ag, .pmonSelWrite ag k inst v, .pmonBwMaxWrite ag n out, .ccHeartbeatWrite ag r] →
      exec c s = .next s)
end

