-- ==== Sys2Proof/Laws/Tab.lean ====
section
/-! SUPPORT. Sparse tables: a read after a write, and every operation on a table keeps the canonical form. -/

namespace Sys2Proof.Laws

open Sys2Proof

variable {α : Type}

@[simp] theorem get_nil (d : α) (n : Nat) : Tab.get d [] n = d := rfl

@[simp] theorem get_insert_same (d : α) (t : Tab α) (n : Nat) (v : α) : (t.insert n v).get d n = v := by
  induction t with
  | nil => simp [Tab.insert, Tab.get]
  | cons p t ih =>
    obtain ⟨k, w⟩ := p
    simp only [Tab.insert]
    split
    · simp [Tab.get]
    · split
      · simp [Tab.get]
      · simp [Tab.get, *]

theorem get_insert_other (d : α) (t : Tab α) (n m : Nat) (v : α) (h : m ≠ n) : (t.insert n v).get d m = t.get d m := by
  induction t with
  | nil => simp [Tab.insert, Tab.get, h]
  | cons p t ih =>
    obtain ⟨k, w⟩ := p
    simp only [Tab.insert]
    split
    · simp [Tab.get, h]
    · split
      · subst_vars; simp [Tab.get, h]
      · simp [Tab.get, ih]

@[simp] theorem get_erase_same (d : α) (t : Tab α) (n : Nat) : (t.erase n).get d n = d := by
  induction t with
  | nil => rfl
  | cons p t ih =>
    obtain ⟨k, w⟩ := p
    simp only [Tab.erase]
    split
    · exact ih
    · simp [Tab.get, *]

theorem get_erase_other (d : α) (t : Tab α) (n m : Nat) (h : m ≠ n) : (t.erase n).get d m = t.get d m := by
  induction t with
  | nil => rfl
  | cons p t ih =>
    obtain ⟨k, w⟩ := p
    simp only [Tab.erase]
    split
    · subst_vars; simp [Tab.get, h, ih]
    · simp [Tab.get, ih]

variable [DecidableEq α]

/-- A read after a write to the same key gives the value written. -/
@[simp] theorem get_set_same (d : α) (t : Tab α) (n : Nat) (v : α) : (t.set d n v).get d n = v := by
  unfold Tab.set
  split
  · simp [*]
  · simp

/-- A write leaves every other key alone. -/
theorem get_set_other (d : α) (t : Tab α) (n m : Nat) (v : α) (h : m ≠ n) : (t.set d n v).get d m = t.get d m := by
  unfold Tab.set
  split
  · exact get_erase_other d t n m h
  · exact get_insert_other d t n m v h

@[simp] theorem get_upd_same (d : α) (t : Tab α) (n : Nat) (f : α → α) : (t.upd d n f).get d n = f (t.get d n) := by
  simp [Tab.upd]

theorem get_upd_other (d : α) (t : Tab α) (n m : Nat) (f : α → α) (h : m ≠ n) : (t.upd d n f).get d m = t.get d m :=
  get_set_other d t n m _ h

/-! ## The canonical form -/

omit [DecidableEq α] in
theorem sortedFrom_mono {a b : Nat} (t : Tab α) (h : a ≤ b) (hs : Tab.sortedFrom b t = true) : Tab.sortedFrom a t = true := by
  cases t with
  | nil => rfl
  | cons p t =>
    obtain ⟨k, w⟩ := p
    simp only [Tab.sortedFrom, Bool.and_eq_true, decide_eq_true_eq] at *
    exact ⟨by omega, hs.2⟩

omit [DecidableEq α] in
theorem sortedFrom_insert {a : Nat} (t : Tab α) (n : Nat) (v : α) (ha : a ≤ n) (hs : Tab.sortedFrom a t = true) :
    Tab.sortedFrom a (t.insert n v) = true := by
  induction t generalizing a with
  | nil => simpa [Tab.insert, Tab.sortedFrom] using ha
  | cons p t ih =>
    obtain ⟨k, w⟩ := p
    simp only [Tab.sortedFrom, Bool.and_eq_true, decide_eq_true_eq] at hs
    simp only [Tab.insert]
    split
    · simp only [Tab.sortedFrom, Bool.and_eq_true, decide_eq_true_eq]
      exact ⟨ha, by omega, hs.2⟩
    · split
      · subst_vars
        simp only [Tab.sortedFrom, Bool.and_eq_true, decide_eq_true_eq]
        exact hs
      · simp only [Tab.sortedFrom, Bool.and_eq_true, decide_eq_true_eq]
        exact ⟨hs.1, ih (by omega) hs.2⟩

omit [DecidableEq α] in
theorem sortedFrom_filter {a : Nat} (t : Tab α) (p : Nat × α → Bool) (hs : Tab.sortedFrom a t = true) :
    Tab.sortedFrom a (t.filter p) = true := by
  induction t generalizing a with
  | nil => rfl
  | cons q t ih =>
    obtain ⟨k, w⟩ := q
    simp only [Tab.sortedFrom, Bool.and_eq_true, decide_eq_true_eq] at hs
    simp only [List.filter_cons]
    split
    · simp only [Tab.sortedFrom, Bool.and_eq_true, decide_eq_true_eq]
      exact ⟨hs.1, ih hs.2⟩
    · exact sortedFrom_mono _ (by omega) (ih hs.2)

omit [DecidableEq α] in
theorem mem_insert {t : Tab α} {n : Nat} {v : α} {x : Nat × α} (h : x ∈ t.insert n v) : x = (n, v) ∨ x ∈ t := by
  induction t with
  | nil => simpa [Tab.insert] using h
  | cons p t ih =>
    obtain ⟨k, w⟩ := p
    simp only [Tab.insert] at h
    split at h
    · simpa using h
    · split at h
      · simp at h ⊢; tauto
      · simp at h ⊢; rcases h with h | h
        · tauto
        · rcases ih h with h | h <;> tauto

omit [DecidableEq α] in
theorem erase_eq_filter (t : Tab α) (n : Nat) : t.erase n = t.filter (fun p => decide (n ≠ p.1)) := by
  induction t with
  | nil => rfl
  | cons p t ih =>
    obtain ⟨k, w⟩ := p
    simp only [Tab.erase, List.filter_cons]
    split <;> simp_all

theorem wf_iff (d : α) (t : Tab α) : Tab.wf d t = true ↔ Tab.sortedFrom 0 t = true ∧ ∀ x ∈ t, x.2 ≠ d := by
  simp [Tab.wf]

@[simp] theorem wf_nil (d : α) : Tab.wf d ([] : Tab α) = true := rfl

theorem wf_filter (d : α) (t : Tab α) (p : Nat × α → Bool) (h : Tab.wf d t = true) : Tab.wf d (t.filter p) = true := by
  rw [wf_iff] at *
  exact ⟨sortedFrom_filter t p h.1, fun x hx => h.2 x (List.mem_filter.1 hx).1⟩

theorem wf_erase (d : α) (t : Tab α) (n : Nat) (h : Tab.wf d t = true) : Tab.wf d (t.erase n) = true := by
  rw [erase_eq_filter]; exact wf_filter d t _ h

theorem wf_insert (d : α) (t : Tab α) (n : Nat) (v : α) (hv : v ≠ d) (h : Tab.wf d t = true) :
    Tab.wf d (t.insert n v) = true := by
  rw [wf_iff] at *
  refine ⟨sortedFrom_insert t n v (Nat.zero_le _) h.1, fun x hx => ?_⟩
  rcases mem_insert hx with rfl | hx
  · exact hv
  · exact h.2 x hx

/-- Every write keeps the canonical form. -/
theorem wf_set (d : α) (t : Tab α) (n : Nat) (v : α) (h : Tab.wf d t = true) : Tab.wf d (t.set d n v) = true := by
  unfold Tab.set
  split
  · exact wf_erase d t n h
  · exact wf_insert d t n v ‹_› h

theorem wf_upd (d : α) (t : Tab α) (n : Nat) (f : α → α) (h : Tab.wf d t = true) : Tab.wf d (t.upd d n f) = true :=
  wf_set d t n _ h

theorem wf_clear (d : α) (t : Tab α) (lo hi : Nat) (h : Tab.wf d t = true) : Tab.wf d (t.clear lo hi) = true :=
  wf_filter d t _ h

theorem wf_foldl {β : Type} (d : α) (f : Tab α → β → Tab α) (hf : ∀ t b, Tab.wf d t = true → Tab.wf d (f t b) = true)
    (l : List β) (t : Tab α) (h : Tab.wf d t = true) : Tab.wf d (l.foldl f t) = true := by
  induction l generalizing t with
  | nil => exact h
  | cons b l ih => exact ih _ (hf t b h)

theorem wf_copy (d : α) (t : Tab α) (src dst n : Nat) (h : Tab.wf d t = true) : Tab.wf d (t.copy d src dst n) = true :=
  wf_foldl d _ (fun t _ ht => wf_set d t _ _ ht) _ _ (wf_clear d t _ _ h)

end Sys2Proof.Laws
end

