-- ==== Sys2Proof/Laws/Reports.lean ====
section
/-! SUPPORT. What counting, raising, recording and answering can change: `Reports` for counters, notification FIFOs,
interrupts, CXL event logs, the ledger's staging, the option store's queue, the link's unacknowledged frames and the output;
`Rest` for those and the mailboxes. One lemma per shared operation says all it can do. -/

set_option linter.unusedTactic false
set_option linter.unreachableTactic false

namespace Sys2Proof.Laws

open Sys2Proof Sys2Proof.Machine

def pxRest (x : PxState) : PxState := { x with fns := [], lds := [] }
def tuRest (x : TuState) : TuState := { x with txSeq := 0, sent := [] }
def optRest (x : OptState) : OptState := { x with run := none, queue := [], page := 0 }
def boxRest (m : MbChan) : MbChan := { m with fifo := [], nseq := 0, lost := 0 }

/-- `t` is `s` but for counters, interrupts, logs, the ledger's staging, queued commits, link frames, mailboxes and output. -/
structure Rest (s t : State) : Prop where
  board : t.board = s.board
  tb : t.tb = s.tb
  hf : t.hf = s.hf
  ft : t.ft = s.ft
  te : t.te = s.te
  mc : t.mc = s.mc
  mctl : t.mctl = s.mctl
  eu : t.eu = s.eu
  tu : tuRest t.tu = tuRest s.tu
  tp : t.tp = s.tp
  px : pxRest t.px = pxRest s.px
  su : t.su = s.su
  xe : t.xe = s.xe
  cc : t.cc = s.cc
  nor : t.nor = s.nor
  norBytes : t.norBytes = s.norBytes
  sec : t.sec = s.sec
  opt : optRest t.opt = optRest s.opt
  rpm : t.rpm = s.rpm
  rpmx : t.rpmx = s.rpmx
  th : t.th = s.th
  dump : t.dump = s.dump
  latch : t.latch = s.latch
  noteLatch : t.noteLatch = s.noteLatch
  pending : t.pending = s.pending

theorem Rest.refl (s : State) : Rest s s := by constructor <;> rfl

theorem Rest.trans {s u t : State} (h : Rest s u) (k : Rest u t) : Rest s t := by
  constructor
  all_goals first
    | exact k.board.trans h.board | exact k.tb.trans h.tb | exact k.hf.trans h.hf | exact k.ft.trans h.ft
    | exact k.te.trans h.te | exact k.mc.trans h.mc | exact k.mctl.trans h.mctl | exact k.eu.trans h.eu
    | exact k.tu.trans h.tu | exact k.tp.trans h.tp | exact k.px.trans h.px | exact k.su.trans h.su
    | exact k.xe.trans h.xe | exact k.cc.trans h.cc | exact k.nor.trans h.nor | exact k.norBytes.trans h.norBytes
    | exact k.sec.trans h.sec | exact k.opt.trans h.opt | exact k.rpm.trans h.rpm | exact k.rpmx.trans h.rpmx
    | exact k.th.trans h.th | exact k.dump.trans h.dump | exact k.latch.trans h.latch
    | exact k.noteLatch.trans h.noteLatch | exact k.pending.trans h.pending

/-- The same, and a mailbox channel differs only in its notification FIFO. -/
structure Reports (s t : State) : Prop where
  rest : Rest s t
  tu : t.tu = s.tu
  boxes : ∀ k, boxRest (t.mbox k) = boxRest (s.mbox k)

theorem Reports.refl (s : State) : Reports s s := ⟨Rest.refl s, rfl, fun _ => rfl⟩

theorem Reports.trans {s u t : State} (h : Reports s u) (k : Reports u t) : Reports s t :=
  ⟨h.rest.trans k.rest, k.tu.trans h.tu, fun i => (k.boxes i).trans (h.boxes i)⟩

/-- An update of the reporting state alone. -/
theorem Reports.w {s u : State} {board : Board} {tb : TbState} {hf : HfState} {ft : FtState} {te : TeState} {mc : McState} {mctl : McCtl} {eu : EuState} {tu : TuState} {tp : TuPair} {px : PxState} {su : SuState} {xe : XeState} {cc : CcState} {mb : MbState} {nor : Tab NorSlot} {norBytes : Tab Byte} {sec : SecState} {opt : OptState} {lg : LgState} {rpm : RpmState} {rpmx : RpmMore} {th : ThState} {pm : PmState} {dump : Dump} {latch : List (Agent × LoReg × Nat)} {noteLatch : List (Agent × Nat × Note)} {out : List Out} {free : Nat} {pending : List Instr}
    (h : Reports s u) (kboard : board = u.board) (ktb : tb = u.tb) (khf : hf = u.hf) (kft : ft = u.ft) (kte : te = u.te) (kmc : mc = u.mc) (kmctl : mctl = u.mctl) (keu : eu = u.eu) (ktu : tu = u.tu) (ktp : tp = u.tp) (kpx : pxRest px = pxRest u.px) (ksu : su = u.su) (kxe : xe = u.xe) (kcc : cc = u.cc) (knor : nor = u.nor) (knorBytes : norBytes = u.norBytes) (ksec : sec = u.sec) (kopt : optRest opt = optRest u.opt) (krpm : rpm = u.rpm) (krpmx : rpmx = u.rpmx) (kth : th = u.th) (kdump : dump = u.dump) (klatch : latch = u.latch) (knoteLatch : noteLatch = u.noteLatch) (kpending : pending = u.pending)
    (km : ∀ k, boxRest (mb.chans.get {} k) = boxRest (u.mbox k)) : Reports s (State.mk board tb hf ft te mc mctl eu tu tp px su xe cc mb nor norBytes sec opt lg rpm rpmx th pm dump latch noteLatch out free pending) :=
  h.trans ⟨⟨kboard, ktb, khf, kft, kte, kmc, kmctl, keu, by rw [ktu], ktp, kpx, ksu, kxe, kcc, knor, knorBytes, ksec, kopt, krpm, krpmx, kth, kdump, klatch, knoteLatch, kpending⟩, ktu, km⟩

theorem Reports.foldl {α : Type} {s : State} {f : State → α → State} (hf : ∀ u a, Reports s u → Reports s (f u a)) (l : List α)
    {u : State} (h : Reports s u) : Reports s (l.foldl f u) := by
  induction l generalizing u with
  | nil => exact h
  | cons a l ih => exact ih (hf u a h)

/-! ## The operations -/

theorem emit_reports {s u : State} {a0} (h : Reports s u) : Reports s (emit a0 u) := by
  unfold emit
  iterate 20 all_goals try with_reducible first | assumption | split | (refine .w ?_ rfl rfl rfl rfl rfl rfl rfl rfl rfl rfl rfl rfl rfl rfl rfl rfl rfl rfl rfl rfl rfl rfl rfl rfl rfl (fun _ => rfl)) | dsimp only

theorem draw_reports {s u : State} (h : Reports s u) : Reports s (draw u) := by
  unfold draw
  iterate 20 all_goals try with_reducible first | assumption | split | (refine .w ?_ rfl rfl rfl rfl rfl rfl rfl rfl rfl rfl rfl rfl rfl rfl rfl rfl rfl rfl rfl rfl rfl rfl rfl rfl rfl (fun _ => rfl)) | dsimp only

theorem State.modFn_reports {s u : State} {a1 a2 a3} (h : Reports s u) : Reports s (State.modFn u a1 a2 a3) := by
  unfold State.modFn
  iterate 20 all_goals try with_reducible first | assumption | split | (refine .w ?_ rfl rfl rfl rfl rfl rfl rfl rfl rfl rfl rfl rfl rfl rfl rfl rfl rfl rfl rfl rfl rfl rfl rfl rfl rfl (fun _ => rfl)) | dsimp only

theorem State.modLd_reports {s u : State} {a1 a2 a3} (h : Reports s u) : Reports s (State.modLd u a1 a2 a3) := by
  unfold State.modLd
  iterate 20 all_goals try with_reducible first | assumption | split | (refine .w ?_ rfl rfl rfl rfl rfl rfl rfl rfl rfl rfl rfl rfl rfl rfl rfl rfl rfl rfl rfl rfl rfl rfl rfl rfl rfl (fun _ => rfl)) | dsimp only

theorem fire_reports {s u : State} {a0 a1 a2} (h : Reports s u) : Reports s (fire a0 a1 a2 u) := by
  unfold fire
  iterate 20 all_goals try with_reducible first | assumption | split | apply emit_reports | apply State.modFn_reports | dsimp only

theorem intCause_reports {s u : State} {a0 a1 a2} (h : Reports s u) : Reports s (intCause a0 a1 a2 u) := by
  unfold intCause
  iterate 20 all_goals try with_reducible first | assumption | split | apply State.modFn_reports | apply fire_reports | (refine .w ?_ rfl rfl rfl rfl rfl rfl rfl rfl rfl rfl rfl rfl rfl rfl rfl rfl rfl rfl rfl rfl rfl rfl rfl rfl rfl (fun _ => rfl)) | dsimp only

theorem intCauseAll_reports {s u : State} {a0} (h : Reports s u) : Reports s (intCauseAll a0 u) := by
  unfold intCauseAll
  iterate 20 all_goals try with_reducible first | assumption | split | apply intCause_reports | (apply Reports.foldl; intros) | dsimp only

theorem countAccErr_reports {s u : State} {a0 a1} (h : Reports s u) : Reports s (countAccErr a0 a1 u) := by
  unfold countAccErr
  iterate 20 all_goals try with_reducible first | assumption | split | apply State.modFn_reports | dsimp only

theorem countQuiet_reports {s u : State} {a0 a1 a2} (h : Reports s u) : Reports s (countQuiet a0 a1 a2 u) := by
  unfold countQuiet
  iterate 20 all_goals try with_reducible first | assumption | split | (refine .w ?_ rfl rfl rfl rfl rfl rfl rfl rfl rfl rfl rfl rfl rfl rfl rfl rfl rfl rfl rfl rfl rfl rfl rfl rfl rfl (fun _ => rfl)) | dsimp only

theorem boxRest_fifoPut (m : MbChan) (a b c : Nat) : boxRest (fifoPut m a b c) = boxRest m := by
  unfold fifoPut
  dsimp only
  split <;> rfl

theorem modMbox_reports {s u : State} {c f} (hf : ∀ m, boxRest (f m) = boxRest m) (h : Reports s u) :
    Reports s (u.modMbox c f) := by
  refine h.trans ⟨by constructor <;> rfl, rfl, fun k => ?_⟩
  by_cases hk : k = c
  · subst hk; simp [State.mbox, State.modMbox, hf]
  · simp [State.mbox, State.modMbox, get_upd_other _ _ _ _ _ hk]

theorem notePut_reports {s u : State} {a0 a1 a2 a3} (h : Reports s u) : Reports s (notePut a0 a1 a2 a3 u) := by
  unfold notePut
  iterate 20 all_goals try with_reducible first | assumption | split | apply countQuiet_reports | apply fire_reports | apply modMbox_reports (fun _ => boxRest_fifoPut _ _ _ _) | dsimp only

theorem route_reports {s u : State} {a0 a1 a2 a3} (h : Reports s u) : Reports s (route a0 a1 a2 a3 u) := by
  unfold route
  iterate 20 all_goals try with_reducible first | assumption | split | apply notePut_reports | (apply Reports.foldl; intros) | dsimp only

theorem count_reports {s u : State} {a0 a1 a2 a3} (h : Reports s u) : Reports s (count a0 a1 a2 a3 u) := by
  unfold count
  iterate 20 all_goals try with_reducible first | assumption | split | apply route_reports | (apply Reports.foldl; intros) | (refine .w ?_ rfl rfl rfl rfl rfl rfl rfl rfl rfl rfl rfl rfl rfl rfl rfl rfl rfl rfl rfl rfl rfl rfl rfl rfl rfl (fun _ => rfl)) | dsimp only

theorem pauseWait_reports {s u : State} {a0} (h : Reports s u) : Reports s (pauseWait a0 u) := by
  unfold pauseWait
  iterate 20 all_goals try with_reducible first | assumption | split | apply count_reports | dsimp only

theorem raise_reports {s u : State} {a0 a1 a2 a3} (h : Reports s u) : Reports s (raise a0 a1 a2 a3 u) := by
  unfold raise
  iterate 20 all_goals try with_reducible first | assumption | split | apply route_reports | apply count_reports | dsimp only

theorem raiseTo_reports {s u : State} {a0 a1 a2 a3} (h : Reports s u) : Reports s (raiseTo a0 a1 a2 a3 u) := by
  unfold raiseTo
  iterate 20 all_goals try with_reducible first | assumption | split | apply notePut_reports | apply count_reports | (apply Reports.foldl; intros) | (refine .w ?_ rfl rfl rfl rfl rfl rfl rfl rfl rfl rfl rfl rfl rfl rfl rfl rfl rfl rfl rfl rfl rfl rfl rfl rfl rfl (fun _ => rfl)) | dsimp only

theorem commitStart_reports {s u : State} (h : Reports s u) : Reports s (commitStart u) := by
  unfold commitStart
  iterate 20 all_goals try with_reducible first | assumption | split | (refine .w ?_ rfl rfl rfl rfl rfl rfl rfl rfl rfl rfl rfl rfl rfl rfl rfl rfl rfl rfl rfl rfl rfl rfl rfl rfl rfl (fun _ => rfl)) | dsimp only

theorem commit_reports {s u : State} {a0} (h : Reports s u) : Reports s (commit a0 u) := by
  unfold commit
  iterate 20 all_goals try with_reducible first | assumption | split | apply commitStart_reports | (refine .w ?_ rfl rfl rfl rfl rfl rfl rfl rfl rfl rfl rfl rfl rfl rfl rfl rfl rfl rfl rfl rfl rfl rfl rfl rfl rfl (fun _ => rfl)) | dsimp only

theorem lgPut_reports {s u : State} {a0} (h : Reports s u) : Reports s (lgPut a0 u) := by
  unfold lgPut
  iterate 20 all_goals try with_reducible first | assumption | split | apply count_reports | (refine .w ?_ rfl rfl rfl rfl rfl rfl rfl rfl rfl rfl rfl rfl rfl rfl rfl rfl rfl rfl rfl rfl rfl rfl rfl rfl rfl (fun _ => rfl)) | dsimp only

theorem lgDrop_reports {s u : State} {a0} (h : Reports s u) : Reports s (lgDrop a0 u) := by
  unfold lgDrop
  iterate 20 all_goals try with_reducible first | assumption | split | (refine .w ?_ rfl rfl rfl rfl rfl rfl rfl rfl rfl rfl rfl rfl rfl rfl rfl rfl rfl rfl rfl rfl rfl rfl rfl rfl rfl (fun _ => rfl)) | dsimp only

theorem lgEvent_reports {s u : State} {a0} (h : Reports s u) : Reports s (lgEvent a0 u) := by
  unfold lgEvent
  iterate 20 all_goals try with_reducible first | assumption | split | apply lgPut_reports | apply lgDrop_reports | apply raise_reports | (refine .w ?_ rfl rfl rfl rfl rfl rfl rfl rfl rfl rfl rfl rfl rfl rfl rfl rfl rfl rfl rfl rfl rfl rfl rfl rfl rfl (fun _ => rfl)) | dsimp only

theorem lgRaise_reports {s u : State} (h : Reports s u) : Reports s (lgRaise u) := by
  unfold lgRaise
  iterate 20 all_goals try with_reducible first | assumption | split | apply commit_reports | (refine .w ?_ rfl rfl rfl rfl rfl rfl rfl rfl rfl rfl rfl rfl rfl rfl rfl rfl rfl rfl rfl rfl rfl rfl rfl rfl rfl (fun _ => rfl)) | dsimp only

theorem lgStage_reports {s u : State} {a0} (h : Reports s u) : Reports s (lgStage a0 u) := by
  unfold lgStage
  iterate 20 all_goals try with_reducible first | assumption | split | apply lgRaise_reports | apply lgEvent_reports | (refine .w ?_ rfl rfl rfl rfl rfl rfl rfl rfl rfl rfl rfl rfl rfl rfl rfl rfl rfl rfl rfl rfl rfl rfl rfl rfl rfl (fun _ => rfl)) | dsimp only

theorem ledger_reports {s u : State} {a0 a1 a2} (h : Reports s u) : Reports s (ledger a0 a1 a2 u) := by
  unfold ledger
  iterate 20 all_goals try with_reducible first | assumption | split | apply lgStage_reports | dsimp only

theorem ldLog_reports {s u : State} {a0 a1 a2 a3 a4 a5} (h : Reports s u) : Reports s (ldLog a0 a1 a2 a3 a4 a5 u) := by
  unfold ldLog
  iterate 20 all_goals try with_reducible first | assumption | split | apply State.modLd_reports | apply fire_reports | (refine .w ?_ rfl rfl rfl rfl rfl rfl rfl rfl rfl rfl rfl rfl rfl rfl rfl rfl rfl rfl rfl rfl rfl rfl rfl rfl rfl (fun _ => rfl)) | dsimp only

theorem cxlLog_reports {s u : State} {a0 a1 a2 a3 a4} (h : Reports s u) : Reports s (cxlLog a0 a1 a2 a3 a4 u) := by
  unfold cxlLog
  iterate 20 all_goals try with_reducible first | assumption | split | apply ldLog_reports | (apply Reports.foldl; intros) | (refine .w ?_ rfl rfl rfl rfl rfl rfl rfl rfl rfl rfl rfl rfl rfl rfl rfl rfl rfl rfl rfl rfl rfl rfl rfl rfl rfl (fun _ => rfl)) | dsimp only

theorem sampleLat_reports {s u : State} {a0 a1 a2 a3 a4} (h : Reports s u) : Reports s (sampleLat a0 a1 a2 a3 a4 u) := by
  unfold sampleLat
  iterate 20 all_goals try with_reducible first | assumption | split | apply draw_reports | apply count_reports | apply raise_reports | (refine .w ?_ rfl rfl rfl rfl rfl rfl rfl rfl rfl rfl rfl rfl rfl rfl rfl rfl rfl rfl rfl rfl rfl rfl rfl rfl rfl (fun _ => rfl)) | dsimp only

theorem sample_reports {s u : State} {a0 a1 a2 a3} (h : Reports s u) : Reports s (sample a0 a1 a2 a3 u) := by
  unfold sample
  iterate 20 all_goals try with_reducible first | assumption | split | apply sampleLat_reports | dsimp only

theorem mbIrq_reports {s u : State} {a0} (h : Reports s u) : Reports s (mbIrq a0 u) := by
  unfold mbIrq
  iterate 20 all_goals try with_reducible first | assumption | split | apply fire_reports | apply emit_reports | dsimp only

/-! ## Counting and raising events -/

/-- The same, and neither the ledger, the option store, the CXL event logs nor the free values have changed. -/
structure Counts (s t : State) : Prop where
  reports : Reports s t
  lg : t.lg = s.lg
  opt : t.opt = s.opt
  lds : t.px.lds = s.px.lds
  free : t.free = s.free

theorem Counts.refl (s : State) : Counts s s := ⟨.refl s, rfl, rfl, rfl, rfl⟩

theorem Counts.trans {s u t : State} (h : Counts s u) (k : Counts u t) : Counts s t :=
  ⟨h.reports.trans k.reports, k.lg.trans h.lg, k.opt.trans h.opt, k.lds.trans h.lds, k.free.trans h.free⟩

theorem Counts.foldl {α : Type} {s : State} {f : State → α → State} (hf : ∀ u a, Counts s u → Counts s (f u a)) (l : List α)
    {u : State} (h : Counts s u) : Counts s (l.foldl f u) := by
  induction l generalizing u with
  | nil => exact h
  | cons a l ih => exact ih (hf u a h)

/-- An update of counters, interrupts and output alone. -/
theorem Counts.w {s u : State} {board : Board} {tb : TbState} {hf : HfState} {ft : FtState} {te : TeState} {mc : McState} {mctl : McCtl} {eu : EuState} {tu : TuState} {tp : TuPair} {px : PxState} {su : SuState} {xe : XeState} {cc : CcState} {mb : MbState} {nor : Tab NorSlot} {norBytes : Tab Byte} {sec : SecState} {opt : OptState} {lg : LgState} {rpm : RpmState} {rpmx : RpmMore} {th : ThState} {pm : PmState} {dump : Dump} {latch : List (Agent × LoReg × Nat)} {noteLatch : List (Agent × Nat × Note)} {out : List Out} {free : Nat} {pending : List Instr}
    (h : Counts s u) (kboard : board = u.board) (ktb : tb = u.tb) (khf : hf = u.hf) (kft : ft = u.ft) (kte : te = u.te) (kmc : mc = u.mc) (kmctl : mctl = u.mctl) (keu : eu = u.eu) (ktu : tu = u.tu) (ktp : tp = u.tp) (kpx : pxRest px = pxRest u.px) (ksu : su = u.su) (kxe : xe = u.xe) (kcc : cc = u.cc) (knor : nor = u.nor) (knorBytes : norBytes = u.norBytes) (ksec : sec = u.sec) (krpm : rpm = u.rpm) (krpmx : rpmx = u.rpmx) (kth : th = u.th) (kdump : dump = u.dump) (klatch : latch = u.latch) (knoteLatch : noteLatch = u.noteLatch) (kpending : pending = u.pending)
    (km : ∀ k, boxRest (mb.chans.get {} k) = boxRest (u.mbox k)) (kl : lg = u.lg) (ko : opt = u.opt) (kd : px.lds = u.px.lds)
    (kf : free = u.free) : Counts s (State.mk board tb hf ft te mc mctl eu tu tp px su xe cc mb nor norBytes sec opt lg rpm rpmx th pm dump latch noteLatch out free pending) :=
  h.trans ⟨⟨⟨kboard, ktb, khf, kft, kte, kmc, kmctl, keu, by rw [ktu], ktp, kpx, ksu, kxe, kcc, knor, knorBytes, ksec, by rw [ko], krpm, krpmx, kth, kdump, klatch, knoteLatch, kpending⟩, ktu, km⟩, kl, ko, kd, kf⟩

theorem emit_counts {s u : State} {a0} (h : Counts s u) : Counts s (emit a0 u) := by
  unfold emit
  iterate 20 all_goals try with_reducible first | assumption | split | (refine .w ?_ rfl rfl rfl rfl rfl rfl rfl rfl rfl rfl rfl rfl rfl rfl rfl rfl rfl rfl rfl rfl rfl rfl rfl rfl (fun _ => rfl) rfl rfl rfl rfl) | dsimp only

theorem State.modFn_counts {s u : State} {a1 a2 a3} (h : Counts s u) : Counts s (State.modFn u a1 a2 a3) := by
  unfold State.modFn
  iterate 20 all_goals try with_reducible first | assumption | split | (refine .w ?_ rfl rfl rfl rfl rfl rfl rfl rfl rfl rfl rfl rfl rfl rfl rfl rfl rfl rfl rfl rfl rfl rfl rfl rfl (fun _ => rfl) rfl rfl rfl rfl) | dsimp only

theorem fire_counts {s u : State} {a0 a1 a2} (h : Counts s u) : Counts s (fire a0 a1 a2 u) := by
  unfold fire
  iterate 20 all_goals try with_reducible first | assumption | split | apply emit_counts | apply State.modFn_counts | dsimp only

theorem intCause_counts {s u : State} {a0 a1 a2} (h : Counts s u) : Counts s (intCause a0 a1 a2 u) := by
  unfold intCause
  iterate 20 all_goals try with_reducible first | assumption | split | apply State.modFn_counts | apply fire_counts | (refine .w ?_ rfl rfl rfl rfl rfl rfl rfl rfl rfl rfl rfl rfl rfl rfl rfl rfl rfl rfl rfl rfl rfl rfl rfl rfl (fun _ => rfl) rfl rfl rfl rfl) | dsimp only

theorem intCauseAll_counts {s u : State} {a0} (h : Counts s u) : Counts s (intCauseAll a0 u) := by
  unfold intCauseAll
  iterate 20 all_goals try with_reducible first | assumption | split | apply intCause_counts | (apply Counts.foldl; intros) | dsimp only

theorem countAccErr_counts {s u : State} {a0 a1} (h : Counts s u) : Counts s (countAccErr a0 a1 u) := by
  unfold countAccErr
  iterate 20 all_goals try with_reducible first | assumption | split | apply State.modFn_counts | dsimp only

theorem countQuiet_counts {s u : State} {a0 a1 a2} (h : Counts s u) : Counts s (countQuiet a0 a1 a2 u) := by
  unfold countQuiet
  iterate 20 all_goals try with_reducible first | assumption | split | (refine .w ?_ rfl rfl rfl rfl rfl rfl rfl rfl rfl rfl rfl rfl rfl rfl rfl rfl rfl rfl rfl rfl rfl rfl rfl rfl (fun _ => rfl) rfl rfl rfl rfl) | dsimp only

theorem modMbox_counts {s u : State} {c f} (hf : ∀ m, boxRest (f m) = boxRest m) (h : Counts s u) :
    Counts s (u.modMbox c f) :=
  h.trans ⟨modMbox_reports hf (.refl u), rfl, rfl, rfl, rfl⟩

theorem notePut_counts {s u : State} {a0 a1 a2 a3} (h : Counts s u) : Counts s (notePut a0 a1 a2 a3 u) := by
  unfold notePut
  iterate 20 all_goals try with_reducible first | assumption | split | apply countQuiet_counts | apply fire_counts | apply modMbox_counts (fun _ => boxRest_fifoPut _ _ _ _) | dsimp only

theorem route_counts {s u : State} {a0 a1 a2 a3} (h : Counts s u) : Counts s (route a0 a1 a2 a3 u) := by
  unfold route
  iterate 20 all_goals try with_reducible first | assumption | split | apply notePut_counts | (apply Counts.foldl; intros) | dsimp only

theorem count_counts {s u : State} {a0 a1 a2 a3} (h : Counts s u) : Counts s (count a0 a1 a2 a3 u) := by
  unfold count
  iterate 20 all_goals try with_reducible first | assumption | split | apply route_counts | (apply Counts.foldl; intros) | (refine .w ?_ rfl rfl rfl rfl rfl rfl rfl rfl rfl rfl rfl rfl rfl rfl rfl rfl rfl rfl rfl rfl rfl rfl rfl rfl (fun _ => rfl) rfl rfl rfl rfl) | dsimp only

theorem pauseWait_counts {s u : State} {a0} (h : Counts s u) : Counts s (pauseWait a0 u) := by
  unfold pauseWait
  iterate 20 all_goals try with_reducible first | assumption | split | apply count_counts | dsimp only

theorem raise_counts {s u : State} {a0 a1 a2 a3} (h : Counts s u) : Counts s (raise a0 a1 a2 a3 u) := by
  unfold raise
  iterate 20 all_goals try with_reducible first | assumption | split | apply route_counts | apply count_counts | dsimp only

theorem raiseTo_counts {s u : State} {a0 a1 a2 a3} (h : Counts s u) : Counts s (raiseTo a0 a1 a2 a3 u) := by
  unfold raiseTo
  iterate 20 all_goals try with_reducible first | assumption | split | apply notePut_counts | apply count_counts | (apply Counts.foldl; intros) | (refine .w ?_ rfl rfl rfl rfl rfl rfl rfl rfl rfl rfl rfl rfl rfl rfl rfl rfl rfl rfl rfl rfl rfl rfl rfl rfl (fun _ => rfl) rfl rfl rfl rfl) | dsimp only

theorem mbIrq_counts {s u : State} {a0} (h : Counts s u) : Counts s (mbIrq a0 u) := by
  unfold mbIrq
  iterate 20 all_goals try with_reducible first | assumption | split | apply fire_counts | apply emit_counts | dsimp only

end Sys2Proof.Laws
end

