-- ==== Sys2Proof/Laws/State.lean ====
section
/-! SUPPORT. What each named update of the state leaves as it was, field by field, and what the record it updates reads after it. -/

namespace Sys2Proof.Laws

open Sys2Proof Sys2Proof.Machine

@[simp] theorem run_true (t : State) : run true t = .next t := rfl
@[simp] theorem run_false (t : State) : run false t = .fault .noSuchElement := rfl

/-! ### `modPort` -/

section
variable (s : State) (p : Nat) (g : Port → Port)

@[simp] theorem modPort_board : (s.modPort p g).board = s.board := rfl
@[simp] theorem modPort_tb : (s.modPort p g).tb = s.tb := rfl
@[simp] theorem modPort_hf : (s.modPort p g).hf = s.hf := rfl
@[simp] theorem modPort_ft : (s.modPort p g).ft = s.ft := rfl
@[simp] theorem modPort_te : (s.modPort p g).te = s.te := rfl
@[simp] theorem modPort_mc : (s.modPort p g).mc = s.mc := rfl
@[simp] theorem modPort_mctl : (s.modPort p g).mctl = s.mctl := rfl
@[simp] theorem modPort_eu : (s.modPort p g).eu = s.eu := rfl
@[simp] theorem modPort_tu : (s.modPort p g).tu = s.tu := rfl
@[simp] theorem modPort_tp : (s.modPort p g).tp = s.tp := rfl
@[simp] theorem modPort_su : (s.modPort p g).su = s.su := rfl
@[simp] theorem modPort_xe : (s.modPort p g).xe = s.xe := rfl
@[simp] theorem modPort_cc : (s.modPort p g).cc = s.cc := rfl
@[simp] theorem modPort_mb : (s.modPort p g).mb = s.mb := rfl
@[simp] theorem modPort_nor : (s.modPort p g).nor = s.nor := rfl
@[simp] theorem modPort_norBytes : (s.modPort p g).norBytes = s.norBytes := rfl
@[simp] theorem modPort_sec : (s.modPort p g).sec = s.sec := rfl
@[simp] theorem modPort_opt : (s.modPort p g).opt = s.opt := rfl
@[simp] theorem modPort_lg : (s.modPort p g).lg = s.lg := rfl
@[simp] theorem modPort_rpm : (s.modPort p g).rpm = s.rpm := rfl
@[simp] theorem modPort_rpmx : (s.modPort p g).rpmx = s.rpmx := rfl
@[simp] theorem modPort_th : (s.modPort p g).th = s.th := rfl
@[simp] theorem modPort_pm : (s.modPort p g).pm = s.pm := rfl
@[simp] theorem modPort_dump : (s.modPort p g).dump = s.dump := rfl
@[simp] theorem modPort_latch : (s.modPort p g).latch = s.latch := rfl
@[simp] theorem modPort_noteLatch : (s.modPort p g).noteLatch = s.noteLatch := rfl
@[simp] theorem modPort_out : (s.modPort p g).out = s.out := rfl
@[simp] theorem modPort_free : (s.modPort p g).free = s.free := rfl
@[simp] theorem modPort_pending : (s.modPort p g).pending = s.pending := rfl
@[simp] theorem modPort_px_fns : (s.modPort p g).px.fns = s.px.fns := rfl
@[simp] theorem modPort_px_lds : (s.modPort p g).px.lds = s.px.lds := rfl
@[simp] theorem modPort_px_open_ : (s.modPort p g).px.open_ = s.px.open_ := rfl
@[simp] theorem modPort_px_poisonIdx : (s.modPort p g).px.poisonIdx = s.px.poisonIdx := rfl
@[simp] theorem modPort_px_poisonOver : (s.modPort p g).px.poisonOver = s.px.poisonOver := rfl
@[simp] theorem modPort_px_cdatChg : (s.modPort p g).px.cdatChg = s.px.cdatChg := rfl
@[simp] theorem modPort_px_qos : (s.modPort p g).px.qos = s.px.qos := rfl
@[simp] theorem modPort_px_rescan : (s.modPort p g).px.rescan = s.px.rescan := rfl
@[simp] theorem modPort_same : (s.modPort p g).port p = g (s.port p) := by
  simp [State.port, State.modPort]
theorem modPort_other (m : Nat) (h : m ≠ p) : (s.modPort p g).port m = s.port m := by
  simp [State.port, State.modPort, get_upd_other _ _ _ _ _ h]

end

/-! ### `modFn` -/

section
variable (s : State) (p f : Nat) (g : FnState → FnState)

@[simp] theorem modFn_board : (s.modFn p f g).board = s.board := rfl
@[simp] theorem modFn_tb : (s.modFn p f g).tb = s.tb := rfl
@[simp] theorem modFn_hf : (s.modFn p f g).hf = s.hf := rfl
@[simp] theorem modFn_ft : (s.modFn p f g).ft = s.ft := rfl
@[simp] theorem modFn_te : (s.modFn p f g).te = s.te := rfl
@[simp] theorem modFn_mc : (s.modFn p f g).mc = s.mc := rfl
@[simp] theorem modFn_mctl : (s.modFn p f g).mctl = s.mctl := rfl
@[simp] theorem modFn_eu : (s.modFn p f g).eu = s.eu := rfl
@[simp] theorem modFn_tu : (s.modFn p f g).tu = s.tu := rfl
@[simp] theorem modFn_tp : (s.modFn p f g).tp = s.tp := rfl
@[simp] theorem modFn_su : (s.modFn p f g).su = s.su := rfl
@[simp] theorem modFn_xe : (s.modFn p f g).xe = s.xe := rfl
@[simp] theorem modFn_cc : (s.modFn p f g).cc = s.cc := rfl
@[simp] theorem modFn_mb : (s.modFn p f g).mb = s.mb := rfl
@[simp] theorem modFn_nor : (s.modFn p f g).nor = s.nor := rfl
@[simp] theorem modFn_norBytes : (s.modFn p f g).norBytes = s.norBytes := rfl
@[simp] theorem modFn_sec : (s.modFn p f g).sec = s.sec := rfl
@[simp] theorem modFn_opt : (s.modFn p f g).opt = s.opt := rfl
@[simp] theorem modFn_lg : (s.modFn p f g).lg = s.lg := rfl
@[simp] theorem modFn_rpm : (s.modFn p f g).rpm = s.rpm := rfl
@[simp] theorem modFn_rpmx : (s.modFn p f g).rpmx = s.rpmx := rfl
@[simp] theorem modFn_th : (s.modFn p f g).th = s.th := rfl
@[simp] theorem modFn_pm : (s.modFn p f g).pm = s.pm := rfl
@[simp] theorem modFn_dump : (s.modFn p f g).dump = s.dump := rfl
@[simp] theorem modFn_latch : (s.modFn p f g).latch = s.latch := rfl
@[simp] theorem modFn_noteLatch : (s.modFn p f g).noteLatch = s.noteLatch := rfl
@[simp] theorem modFn_out : (s.modFn p f g).out = s.out := rfl
@[simp] theorem modFn_free : (s.modFn p f g).free = s.free := rfl
@[simp] theorem modFn_pending : (s.modFn p f g).pending = s.pending := rfl
@[simp] theorem modFn_px_ports : (s.modFn p f g).px.ports = s.px.ports := rfl
@[simp] theorem modFn_px_lds : (s.modFn p f g).px.lds = s.px.lds := rfl
@[simp] theorem modFn_px_open_ : (s.modFn p f g).px.open_ = s.px.open_ := rfl
@[simp] theorem modFn_px_poisonIdx : (s.modFn p f g).px.poisonIdx = s.px.poisonIdx := rfl
@[simp] theorem modFn_px_poisonOver : (s.modFn p f g).px.poisonOver = s.px.poisonOver := rfl
@[simp] theorem modFn_px_cdatChg : (s.modFn p f g).px.cdatChg = s.px.cdatChg := rfl
@[simp] theorem modFn_px_qos : (s.modFn p f g).px.qos = s.px.qos := rfl
@[simp] theorem modFn_px_rescan : (s.modFn p f g).px.rescan = s.px.rescan := rfl
@[simp] theorem modFn_same : (s.modFn p f g).fn p f = g (s.fn p f) := by
  simp [State.fn, State.modFn]
theorem modFn_other (m n : Nat) (h : m * 16 + n ≠ p * 16 + f) : (s.modFn p f g).fn m n = s.fn m n := by
  simp [State.fn, State.modFn, get_upd_other _ _ _ _ _ h]

end

/-! ### `modLd` -/

section
variable (s : State) (p l : Nat) (g : LdState → LdState)

@[simp] theorem modLd_board : (s.modLd p l g).board = s.board := rfl
@[simp] theorem modLd_tb : (s.modLd p l g).tb = s.tb := rfl
@[simp] theorem modLd_hf : (s.modLd p l g).hf = s.hf := rfl
@[simp] theorem modLd_ft : (s.modLd p l g).ft = s.ft := rfl
@[simp] theorem modLd_te : (s.modLd p l g).te = s.te := rfl
@[simp] theorem modLd_mc : (s.modLd p l g).mc = s.mc := rfl
@[simp] theorem modLd_mctl : (s.modLd p l g).mctl = s.mctl := rfl
@[simp] theorem modLd_eu : (s.modLd p l g).eu = s.eu := rfl
@[simp] theorem modLd_tu : (s.modLd p l g).tu = s.tu := rfl
@[simp] theorem modLd_tp : (s.modLd p l g).tp = s.tp := rfl
@[simp] theorem modLd_su : (s.modLd p l g).su = s.su := rfl
@[simp] theorem modLd_xe : (s.modLd p l g).xe = s.xe := rfl
@[simp] theorem modLd_cc : (s.modLd p l g).cc = s.cc := rfl
@[simp] theorem modLd_mb : (s.modLd p l g).mb = s.mb := rfl
@[simp] theorem modLd_nor : (s.modLd p l g).nor = s.nor := rfl
@[simp] theorem modLd_norBytes : (s.modLd p l g).norBytes = s.norBytes := rfl
@[simp] theorem modLd_sec : (s.modLd p l g).sec = s.sec := rfl
@[simp] theorem modLd_opt : (s.modLd p l g).opt = s.opt := rfl
@[simp] theorem modLd_lg : (s.modLd p l g).lg = s.lg := rfl
@[simp] theorem modLd_rpm : (s.modLd p l g).rpm = s.rpm := rfl
@[simp] theorem modLd_rpmx : (s.modLd p l g).rpmx = s.rpmx := rfl
@[simp] theorem modLd_th : (s.modLd p l g).th = s.th := rfl
@[simp] theorem modLd_pm : (s.modLd p l g).pm = s.pm := rfl
@[simp] theorem modLd_dump : (s.modLd p l g).dump = s.dump := rfl
@[simp] theorem modLd_latch : (s.modLd p l g).latch = s.latch := rfl
@[simp] theorem modLd_noteLatch : (s.modLd p l g).noteLatch = s.noteLatch := rfl
@[simp] theorem modLd_out : (s.modLd p l g).out = s.out := rfl
@[simp] theorem modLd_free : (s.modLd p l g).free = s.free := rfl
@[simp] theorem modLd_pending : (s.modLd p l g).pending = s.pending := rfl
@[simp] theorem modLd_px_ports : (s.modLd p l g).px.ports = s.px.ports := rfl
@[simp] theorem modLd_px_fns : (s.modLd p l g).px.fns = s.px.fns := rfl
@[simp] theorem modLd_px_open_ : (s.modLd p l g).px.open_ = s.px.open_ := rfl
@[simp] theorem modLd_px_poisonIdx : (s.modLd p l g).px.poisonIdx = s.px.poisonIdx := rfl
@[simp] theorem modLd_px_poisonOver : (s.modLd p l g).px.poisonOver = s.px.poisonOver := rfl
@[simp] theorem modLd_px_cdatChg : (s.modLd p l g).px.cdatChg = s.px.cdatChg := rfl
@[simp] theorem modLd_px_qos : (s.modLd p l g).px.qos = s.px.qos := rfl
@[simp] theorem modLd_px_rescan : (s.modLd p l g).px.rescan = s.px.rescan := rfl
@[simp] theorem modLd_same : (s.modLd p l g).ld p l = g (s.ld p l) := by
  simp [State.ld, State.modLd]
theorem modLd_other (m n : Nat) (h : m * 16 + n ≠ p * 16 + l) : (s.modLd p l g).ld m n = s.ld m n := by
  simp [State.ld, State.modLd, get_upd_other _ _ _ _ _ h]

end

/-! ### `modChan` -/

section
variable (s : State) (c : Nat) (g : Chan → Chan)

@[simp] theorem modChan_board : (s.modChan c g).board = s.board := rfl
@[simp] theorem modChan_tb : (s.modChan c g).tb = s.tb := rfl
@[simp] theorem modChan_hf : (s.modChan c g).hf = s.hf := rfl
@[simp] theorem modChan_ft : (s.modChan c g).ft = s.ft := rfl
@[simp] theorem modChan_te : (s.modChan c g).te = s.te := rfl
@[simp] theorem modChan_mc : (s.modChan c g).mc = s.mc := rfl
@[simp] theorem modChan_mctl : (s.modChan c g).mctl = s.mctl := rfl
@[simp] theorem modChan_eu : (s.modChan c g).eu = s.eu := rfl
@[simp] theorem modChan_tu : (s.modChan c g).tu = s.tu := rfl
@[simp] theorem modChan_tp : (s.modChan c g).tp = s.tp := rfl
@[simp] theorem modChan_px : (s.modChan c g).px = s.px := rfl
@[simp] theorem modChan_xe : (s.modChan c g).xe = s.xe := rfl
@[simp] theorem modChan_cc : (s.modChan c g).cc = s.cc := rfl
@[simp] theorem modChan_mb : (s.modChan c g).mb = s.mb := rfl
@[simp] theorem modChan_nor : (s.modChan c g).nor = s.nor := rfl
@[simp] theorem modChan_norBytes : (s.modChan c g).norBytes = s.norBytes := rfl
@[simp] theorem modChan_sec : (s.modChan c g).sec = s.sec := rfl
@[simp] theorem modChan_opt : (s.modChan c g).opt = s.opt := rfl
@[simp] theorem modChan_lg : (s.modChan c g).lg = s.lg := rfl
@[simp] theorem modChan_rpm : (s.modChan c g).rpm = s.rpm := rfl
@[simp] theorem modChan_rpmx : (s.modChan c g).rpmx = s.rpmx := rfl
@[simp] theorem modChan_th : (s.modChan c g).th = s.th := rfl
@[simp] theorem modChan_pm : (s.modChan c g).pm = s.pm := rfl
@[simp] theorem modChan_dump : (s.modChan c g).dump = s.dump := rfl
@[simp] theorem modChan_latch : (s.modChan c g).latch = s.latch := rfl
@[simp] theorem modChan_noteLatch : (s.modChan c g).noteLatch = s.noteLatch := rfl
@[simp] theorem modChan_out : (s.modChan c g).out = s.out := rfl
@[simp] theorem modChan_free : (s.modChan c g).free = s.free := rfl
@[simp] theorem modChan_pending : (s.modChan c g).pending = s.pending := rfl
@[simp] theorem modChan_su_edges : (s.modChan c g).su.edges = s.su.edges := rfl
@[simp] theorem modChan_same : (s.modChan c g).chan c = g (s.chan c) := by
  simp [State.chan, State.modChan]
theorem modChan_other (m : Nat) (h : m ≠ c) : (s.modChan c g).chan m = s.chan m := by
  simp [State.chan, State.modChan, get_upd_other _ _ _ _ _ h]

end

/-! ### `modMbox` -/

section
variable (s : State) (k : Nat) (g : MbChan → MbChan)

@[simp] theorem modMbox_board : (s.modMbox k g).board = s.board := rfl
@[simp] theorem modMbox_tb : (s.modMbox k g).tb = s.tb := rfl
@[simp] theorem modMbox_hf : (s.modMbox k g).hf = s.hf := rfl
@[simp] theorem modMbox_ft : (s.modMbox k g).ft = s.ft := rfl
@[simp] theorem modMbox_te : (s.modMbox k g).te = s.te := rfl
@[simp] theorem modMbox_mc : (s.modMbox k g).mc = s.mc := rfl
@[simp] theorem modMbox_mctl : (s.modMbox k g).mctl = s.mctl := rfl
@[simp] theorem modMbox_eu : (s.modMbox k g).eu = s.eu := rfl
@[simp] theorem modMbox_tu : (s.modMbox k g).tu = s.tu := rfl
@[simp] theorem modMbox_tp : (s.modMbox k g).tp = s.tp := rfl
@[simp] theorem modMbox_px : (s.modMbox k g).px = s.px := rfl
@[simp] theorem modMbox_su : (s.modMbox k g).su = s.su := rfl
@[simp] theorem modMbox_xe : (s.modMbox k g).xe = s.xe := rfl
@[simp] theorem modMbox_cc : (s.modMbox k g).cc = s.cc := rfl
@[simp] theorem modMbox_nor : (s.modMbox k g).nor = s.nor := rfl
@[simp] theorem modMbox_norBytes : (s.modMbox k g).norBytes = s.norBytes := rfl
@[simp] theorem modMbox_sec : (s.modMbox k g).sec = s.sec := rfl
@[simp] theorem modMbox_opt : (s.modMbox k g).opt = s.opt := rfl
@[simp] theorem modMbox_lg : (s.modMbox k g).lg = s.lg := rfl
@[simp] theorem modMbox_rpm : (s.modMbox k g).rpm = s.rpm := rfl
@[simp] theorem modMbox_rpmx : (s.modMbox k g).rpmx = s.rpmx := rfl
@[simp] theorem modMbox_th : (s.modMbox k g).th = s.th := rfl
@[simp] theorem modMbox_pm : (s.modMbox k g).pm = s.pm := rfl
@[simp] theorem modMbox_dump : (s.modMbox k g).dump = s.dump := rfl
@[simp] theorem modMbox_latch : (s.modMbox k g).latch = s.latch := rfl
@[simp] theorem modMbox_noteLatch : (s.modMbox k g).noteLatch = s.noteLatch := rfl
@[simp] theorem modMbox_out : (s.modMbox k g).out = s.out := rfl
@[simp] theorem modMbox_free : (s.modMbox k g).free = s.free := rfl
@[simp] theorem modMbox_pending : (s.modMbox k g).pending = s.pending := rfl
@[simp] theorem modMbox_mb_lock : (s.modMbox k g).mb.lock = s.mb.lock := rfl
@[simp] theorem modMbox_mb_rot : (s.modMbox k g).mb.rot = s.mb.rot := rfl
@[simp] theorem modMbox_mb_smbOff : (s.modMbox k g).mb.smbOff = s.mb.smbOff := rfl
@[simp] theorem modMbox_mb_sess : (s.modMbox k g).mb.sess = s.mb.sess := rfl
@[simp] theorem modMbox_mb_sessDone : (s.modMbox k g).mb.sessDone = s.mb.sessDone := rfl
@[simp] theorem modMbox_mb_sessLast : (s.modMbox k g).mb.sessLast = s.mb.sessLast := rfl
@[simp] theorem modMbox_mb_held : (s.modMbox k g).mb.held = s.mb.held := rfl
@[simp] theorem modMbox_same : (s.modMbox k g).mbox k = g (s.mbox k) := by
  simp [State.mbox, State.modMbox]
theorem modMbox_other (m : Nat) (h : m ≠ k) : (s.modMbox k g).mbox m = s.mbox m := by
  simp [State.mbox, State.modMbox, get_upd_other _ _ _ _ _ h]

end

/-! ### `modCpu` -/

section
variable (s : State) (i : Nat) (g : Core → Core)

@[simp] theorem modCpu_board : (s.modCpu i g).board = s.board := rfl
@[simp] theorem modCpu_tb : (s.modCpu i g).tb = s.tb := rfl
@[simp] theorem modCpu_hf : (s.modCpu i g).hf = s.hf := rfl
@[simp] theorem modCpu_ft : (s.modCpu i g).ft = s.ft := rfl
@[simp] theorem modCpu_te : (s.modCpu i g).te = s.te := rfl
@[simp] theorem modCpu_mc : (s.modCpu i g).mc = s.mc := rfl
@[simp] theorem modCpu_mctl : (s.modCpu i g).mctl = s.mctl := rfl
@[simp] theorem modCpu_eu : (s.modCpu i g).eu = s.eu := rfl
@[simp] theorem modCpu_tu : (s.modCpu i g).tu = s.tu := rfl
@[simp] theorem modCpu_tp : (s.modCpu i g).tp = s.tp := rfl
@[simp] theorem modCpu_px : (s.modCpu i g).px = s.px := rfl
@[simp] theorem modCpu_su : (s.modCpu i g).su = s.su := rfl
@[simp] theorem modCpu_xe : (s.modCpu i g).xe = s.xe := rfl
@[simp] theorem modCpu_mb : (s.modCpu i g).mb = s.mb := rfl
@[simp] theorem modCpu_nor : (s.modCpu i g).nor = s.nor := rfl
@[simp] theorem modCpu_norBytes : (s.modCpu i g).norBytes = s.norBytes := rfl
@[simp] theorem modCpu_sec : (s.modCpu i g).sec = s.sec := rfl
@[simp] theorem modCpu_opt : (s.modCpu i g).opt = s.opt := rfl
@[simp] theorem modCpu_lg : (s.modCpu i g).lg = s.lg := rfl
@[simp] theorem modCpu_rpm : (s.modCpu i g).rpm = s.rpm := rfl
@[simp] theorem modCpu_rpmx : (s.modCpu i g).rpmx = s.rpmx := rfl
@[simp] theorem modCpu_th : (s.modCpu i g).th = s.th := rfl
@[simp] theorem modCpu_pm : (s.modCpu i g).pm = s.pm := rfl
@[simp] theorem modCpu_dump : (s.modCpu i g).dump = s.dump := rfl
@[simp] theorem modCpu_latch : (s.modCpu i g).latch = s.latch := rfl
@[simp] theorem modCpu_noteLatch : (s.modCpu i g).noteLatch = s.noteLatch := rfl
@[simp] theorem modCpu_out : (s.modCpu i g).out = s.out := rfl
@[simp] theorem modCpu_free : (s.modCpu i g).free = s.free := rfl
@[simp] theorem modCpu_pending : (s.modCpu i g).pending = s.pending := rfl
@[simp] theorem modCpu_cc_degraded : (s.modCpu i g).cc.degraded = s.cc.degraded := rfl
@[simp] theorem modCpu_cc_icCore : (s.modCpu i g).cc.icCore = s.cc.icCore := rfl
@[simp] theorem modCpu_cc_fCore : (s.modCpu i g).cc.fCore = s.cc.fCore := rfl
@[simp] theorem modCpu_cc_sram : (s.modCpu i g).cc.sram = s.cc.sram := rfl
@[simp] theorem modCpu_cc_icSt : (s.modCpu i g).cc.icSt = s.cc.icSt := rfl
@[simp] theorem modCpu_cc_icFault : (s.modCpu i g).cc.icFault = s.cc.icFault := rfl
@[simp] theorem modCpu_cc_icWdt : (s.modCpu i g).cc.icWdt = s.cc.icWdt := rfl
@[simp] theorem modCpu_cc_icEntry : (s.modCpu i g).cc.icEntry = s.cc.icEntry := rfl
@[simp] theorem modCpu_cc_wins : (s.modCpu i g).cc.wins = s.cc.wins := rfl
@[simp] theorem modCpu_cc_served : (s.modCpu i g).cc.served = s.cc.served := rfl
@[simp] theorem modCpu_cc_fwSlot : (s.modCpu i g).cc.fwSlot = s.cc.fwSlot := rfl
@[simp] theorem modCpu_cc_fwVer : (s.modCpu i g).cc.fwVer = s.cc.fwVer := rfl
@[simp] theorem modCpu_cc_exhausted : (s.modCpu i g).cc.exhausted = s.cc.exhausted := rfl
@[simp] theorem modCpu_cc_icKick : (s.modCpu i g).cc.icKick = s.cc.icKick := rfl
@[simp] theorem modCpu_cc_rstOwed : (s.modCpu i g).cc.rstOwed = s.cc.rstOwed := rfl
@[simp] theorem modCpu_cc_beats : (s.modCpu i g).cc.beats = s.cc.beats := rfl
@[simp] theorem modCpu_same : (s.modCpu i g).cpu i = g (s.cpu i) := by
  simp [State.cpu, State.modCpu]
theorem modCpu_other (m : Nat) (h : m ≠ i) : (s.modCpu i g).cpu m = s.cpu m := by
  simp [State.cpu, State.modCpu, get_upd_other _ _ _ _ _ h]

end

/-! ### `modFrame` -/

section
variable (s : State) (f : Nat) (g : Frame → Frame)

@[simp] theorem modFrame_board : (s.modFrame f g).board = s.board := rfl
@[simp] theorem modFrame_tb : (s.modFrame f g).tb = s.tb := rfl
@[simp] theorem modFrame_hf : (s.modFrame f g).hf = s.hf := rfl
@[simp] theorem modFrame_ft : (s.modFrame f g).ft = s.ft := rfl
@[simp] theorem modFrame_mc : (s.modFrame f g).mc = s.mc := rfl
@[simp] theorem modFrame_mctl : (s.modFrame f g).mctl = s.mctl := rfl
@[simp] theorem modFrame_eu : (s.modFrame f g).eu = s.eu := rfl
@[simp] theorem modFrame_tu : (s.modFrame f g).tu = s.tu := rfl
@[simp] theorem modFrame_tp : (s.modFrame f g).tp = s.tp := rfl
@[simp] theorem modFrame_px : (s.modFrame f g).px = s.px := rfl
@[simp] theorem modFrame_su : (s.modFrame f g).su = s.su := rfl
@[simp] theorem modFrame_xe : (s.modFrame f g).xe = s.xe := rfl
@[simp] theorem modFrame_cc : (s.modFrame f g).cc = s.cc := rfl
@[simp] theorem modFrame_mb : (s.modFrame f g).mb = s.mb := rfl
@[simp] theorem modFrame_nor : (s.modFrame f g).nor = s.nor := rfl
@[simp] theorem modFrame_norBytes : (s.modFrame f g).norBytes = s.norBytes := rfl
@[simp] theorem modFrame_sec : (s.modFrame f g).sec = s.sec := rfl
@[simp] theorem modFrame_opt : (s.modFrame f g).opt = s.opt := rfl
@[simp] theorem modFrame_lg : (s.modFrame f g).lg = s.lg := rfl
@[simp] theorem modFrame_rpm : (s.modFrame f g).rpm = s.rpm := rfl
@[simp] theorem modFrame_rpmx : (s.modFrame f g).rpmx = s.rpmx := rfl
@[simp] theorem modFrame_th : (s.modFrame f g).th = s.th := rfl
@[simp] theorem modFrame_pm : (s.modFrame f g).pm = s.pm := rfl
@[simp] theorem modFrame_dump : (s.modFrame f g).dump = s.dump := rfl
@[simp] theorem modFrame_latch : (s.modFrame f g).latch = s.latch := rfl
@[simp] theorem modFrame_noteLatch : (s.modFrame f g).noteLatch = s.noteLatch := rfl
@[simp] theorem modFrame_out : (s.modFrame f g).out = s.out := rfl
@[simp] theorem modFrame_free : (s.modFrame f g).free = s.free := rfl
@[simp] theorem modFrame_pending : (s.modFrame f g).pending = s.pending := rfl
@[simp] theorem modFrame_te_turfs : (s.modFrame f g).te.turfs = s.te.turfs := rfl
@[simp] theorem modFrame_te_map : (s.modFrame f g).te.map = s.te.map := rfl
@[simp] theorem modFrame_te_segs : (s.modFrame f g).te.segs = s.te.segs := rfl
@[simp] theorem modFrame_te_kindRet : (s.modFrame f g).te.kindRet = s.te.kindRet := rfl
@[simp] theorem modFrame_te_tindex : (s.modFrame f g).te.tindex = s.te.tindex := rfl
@[simp] theorem modFrame_te_look : (s.modFrame f g).te.look = s.te.look := rfl
@[simp] theorem modFrame_te_waits : (s.modFrame f g).te.waits = s.te.waits := rfl
@[simp] theorem modFrame_te_pool : (s.modFrame f g).te.pool = s.te.pool := rfl
@[simp] theorem modFrame_te_firstDone : (s.modFrame f g).te.firstDone = s.te.firstDone := rfl
@[simp] theorem modFrame_te_destageAge : (s.modFrame f g).te.destageAge = s.te.destageAge := rfl
@[simp] theorem modFrame_te_period : (s.modFrame f g).te.period = s.te.period := rfl
@[simp] theorem modFrame_te_orderCnt : (s.modFrame f g).te.orderCnt = s.te.orderCnt := rfl
@[simp] theorem modFrame_te_lastServed : (s.modFrame f g).te.lastServed = s.te.lastServed := rfl
@[simp] theorem modFrame_te_ceilEpisode : (s.modFrame f g).te.ceilEpisode = s.te.ceilEpisode := rfl
@[simp] theorem modFrame_te_unmaps : (s.modFrame f g).te.unmaps = s.te.unmaps := rfl
@[simp] theorem modFrame_te_cfgPend : (s.modFrame f g).te.cfgPend = s.te.cfgPend := rfl
@[simp] theorem modFrame_te_unmapFwd : (s.modFrame f g).te.unmapFwd = s.te.unmapFwd := rfl
@[simp] theorem modFrame_te_winMap : (s.modFrame f g).te.winMap = s.te.winMap := rfl
@[simp] theorem modFrame_te_mapPend : (s.modFrame f g).te.mapPend = s.te.mapPend := rfl
@[simp] theorem modFrame_te_uGib : (s.modFrame f g).te.uGib = s.te.uGib := rfl
@[simp] theorem modFrame_same : (s.modFrame f g).frame f = g (s.frame f) := by
  simp [State.frame, State.modFrame]
theorem modFrame_other (m : Nat) (h : m ≠ f) : (s.modFrame f g).frame m = s.frame m := by
  simp [State.frame, State.modFrame, get_upd_other _ _ _ _ _ h]

end

/-! ### `modSeg` -/

section
variable (s : State) (n : Nat) (g : Seg → Seg)

@[simp] theorem modSeg_board : (s.modSeg n g).board = s.board := rfl
@[simp] theorem modSeg_tb : (s.modSeg n g).tb = s.tb := rfl
@[simp] theorem modSeg_hf : (s.modSeg n g).hf = s.hf := rfl
@[simp] theorem modSeg_ft : (s.modSeg n g).ft = s.ft := rfl
@[simp] theorem modSeg_mc : (s.modSeg n g).mc = s.mc := rfl
@[simp] theorem modSeg_mctl : (s.modSeg n g).mctl = s.mctl := rfl
@[simp] theorem modSeg_eu : (s.modSeg n g).eu = s.eu := rfl
@[simp] theorem modSeg_tu : (s.modSeg n g).tu = s.tu := rfl
@[simp] theorem modSeg_tp : (s.modSeg n g).tp = s.tp := rfl
@[simp] theorem modSeg_px : (s.modSeg n g).px = s.px := rfl
@[simp] theorem modSeg_su : (s.modSeg n g).su = s.su := rfl
@[simp] theorem modSeg_xe : (s.modSeg n g).xe = s.xe := rfl
@[simp] theorem modSeg_cc : (s.modSeg n g).cc = s.cc := rfl
@[simp] theorem modSeg_mb : (s.modSeg n g).mb = s.mb := rfl
@[simp] theorem modSeg_nor : (s.modSeg n g).nor = s.nor := rfl
@[simp] theorem modSeg_norBytes : (s.modSeg n g).norBytes = s.norBytes := rfl
@[simp] theorem modSeg_sec : (s.modSeg n g).sec = s.sec := rfl
@[simp] theorem modSeg_opt : (s.modSeg n g).opt = s.opt := rfl
@[simp] theorem modSeg_lg : (s.modSeg n g).lg = s.lg := rfl
@[simp] theorem modSeg_rpm : (s.modSeg n g).rpm = s.rpm := rfl
@[simp] theorem modSeg_rpmx : (s.modSeg n g).rpmx = s.rpmx := rfl
@[simp] theorem modSeg_th : (s.modSeg n g).th = s.th := rfl
@[simp] theorem modSeg_pm : (s.modSeg n g).pm = s.pm := rfl
@[simp] theorem modSeg_dump : (s.modSeg n g).dump = s.dump := rfl
@[simp] theorem modSeg_latch : (s.modSeg n g).latch = s.latch := rfl
@[simp] theorem modSeg_noteLatch : (s.modSeg n g).noteLatch = s.noteLatch := rfl
@[simp] theorem modSeg_out : (s.modSeg n g).out = s.out := rfl
@[simp] theorem modSeg_free : (s.modSeg n g).free = s.free := rfl
@[simp] theorem modSeg_pending : (s.modSeg n g).pending = s.pending := rfl
@[simp] theorem modSeg_te_turfs : (s.modSeg n g).te.turfs = s.te.turfs := rfl
@[simp] theorem modSeg_te_map : (s.modSeg n g).te.map = s.te.map := rfl
@[simp] theorem modSeg_te_frames : (s.modSeg n g).te.frames = s.te.frames := rfl
@[simp] theorem modSeg_te_kindRet : (s.modSeg n g).te.kindRet = s.te.kindRet := rfl
@[simp] theorem modSeg_te_tindex : (s.modSeg n g).te.tindex = s.te.tindex := rfl
@[simp] theorem modSeg_te_look : (s.modSeg n g).te.look = s.te.look := rfl
@[simp] theorem modSeg_te_waits : (s.modSeg n g).te.waits = s.te.waits := rfl
@[simp] theorem modSeg_te_pool : (s.modSeg n g).te.pool = s.te.pool := rfl
@[simp] theorem modSeg_te_firstDone : (s.modSeg n g).te.firstDone = s.te.firstDone := rfl
@[simp] theorem modSeg_te_destageAge : (s.modSeg n g).te.destageAge = s.te.destageAge := rfl
@[simp] theorem modSeg_te_period : (s.modSeg n g).te.period = s.te.period := rfl
@[simp] theorem modSeg_te_orderCnt : (s.modSeg n g).te.orderCnt = s.te.orderCnt := rfl
@[simp] theorem modSeg_te_lastServed : (s.modSeg n g).te.lastServed = s.te.lastServed := rfl
@[simp] theorem modSeg_te_ceilEpisode : (s.modSeg n g).te.ceilEpisode = s.te.ceilEpisode := rfl
@[simp] theorem modSeg_te_unmaps : (s.modSeg n g).te.unmaps = s.te.unmaps := rfl
@[simp] theorem modSeg_te_cfgPend : (s.modSeg n g).te.cfgPend = s.te.cfgPend := rfl
@[simp] theorem modSeg_te_unmapFwd : (s.modSeg n g).te.unmapFwd = s.te.unmapFwd := rfl
@[simp] theorem modSeg_te_winMap : (s.modSeg n g).te.winMap = s.te.winMap := rfl
@[simp] theorem modSeg_te_mapPend : (s.modSeg n g).te.mapPend = s.te.mapPend := rfl
@[simp] theorem modSeg_te_uGib : (s.modSeg n g).te.uGib = s.te.uGib := rfl
@[simp] theorem modSeg_same : (s.modSeg n g).seg n = g (s.seg n) := by
  simp [State.seg, State.modSeg]
theorem modSeg_other (m : Nat) (h : m ≠ n) : (s.modSeg n g).seg m = s.seg m := by
  simp [State.seg, State.modSeg, get_upd_other _ _ _ _ _ h]

end

/-! ### `modTurf` -/

section
variable (s : State) (t : Nat) (g : Turf → Turf)

@[simp] theorem modTurf_board : (s.modTurf t g).board = s.board := rfl
@[simp] theorem modTurf_tb : (s.modTurf t g).tb = s.tb := rfl
@[simp] theorem modTurf_hf : (s.modTurf t g).hf = s.hf := rfl
@[simp] theorem modTurf_ft : (s.modTurf t g).ft = s.ft := rfl
@[simp] theorem modTurf_mc : (s.modTurf t g).mc = s.mc := rfl
@[simp] theorem modTurf_mctl : (s.modTurf t g).mctl = s.mctl := rfl
@[simp] theorem modTurf_eu : (s.modTurf t g).eu = s.eu := rfl
@[simp] theorem modTurf_tu : (s.modTurf t g).tu = s.tu := rfl
@[simp] theorem modTurf_tp : (s.modTurf t g).tp = s.tp := rfl
@[simp] theorem modTurf_px : (s.modTurf t g).px = s.px := rfl
@[simp] theorem modTurf_su : (s.modTurf t g).su = s.su := rfl
@[simp] theorem modTurf_xe : (s.modTurf t g).xe = s.xe := rfl
@[simp] theorem modTurf_cc : (s.modTurf t g).cc = s.cc := rfl
@[simp] theorem modTurf_mb : (s.modTurf t g).mb = s.mb := rfl
@[simp] theorem modTurf_nor : (s.modTurf t g).nor = s.nor := rfl
@[simp] theorem modTurf_norBytes : (s.modTurf t g).norBytes = s.norBytes := rfl
@[simp] theorem modTurf_sec : (s.modTurf t g).sec = s.sec := rfl
@[simp] theorem modTurf_opt : (s.modTurf t g).opt = s.opt := rfl
@[simp] theorem modTurf_lg : (s.modTurf t g).lg = s.lg := rfl
@[simp] theorem modTurf_rpm : (s.modTurf t g).rpm = s.rpm := rfl
@[simp] theorem modTurf_rpmx : (s.modTurf t g).rpmx = s.rpmx := rfl
@[simp] theorem modTurf_th : (s.modTurf t g).th = s.th := rfl
@[simp] theorem modTurf_pm : (s.modTurf t g).pm = s.pm := rfl
@[simp] theorem modTurf_dump : (s.modTurf t g).dump = s.dump := rfl
@[simp] theorem modTurf_latch : (s.modTurf t g).latch = s.latch := rfl
@[simp] theorem modTurf_noteLatch : (s.modTurf t g).noteLatch = s.noteLatch := rfl
@[simp] theorem modTurf_out : (s.modTurf t g).out = s.out := rfl
@[simp] theorem modTurf_free : (s.modTurf t g).free = s.free := rfl
@[simp] theorem modTurf_pending : (s.modTurf t g).pending = s.pending := rfl
@[simp] theorem modTurf_te_map : (s.modTurf t g).te.map = s.te.map := rfl
@[simp] theorem modTurf_te_segs : (s.modTurf t g).te.segs = s.te.segs := rfl
@[simp] theorem modTurf_te_frames : (s.modTurf t g).te.frames = s.te.frames := rfl
@[simp] theorem modTurf_te_kindRet : (s.modTurf t g).te.kindRet = s.te.kindRet := rfl
@[simp] theorem modTurf_te_tindex : (s.modTurf t g).te.tindex = s.te.tindex := rfl
@[simp] theorem modTurf_te_look : (s.modTurf t g).te.look = s.te.look := rfl
@[simp] theorem modTurf_te_waits : (s.modTurf t g).te.waits = s.te.waits := rfl
@[simp] theorem modTurf_te_pool : (s.modTurf t g).te.pool = s.te.pool := rfl
@[simp] theorem modTurf_te_firstDone : (s.modTurf t g).te.firstDone = s.te.firstDone := rfl
@[simp] theorem modTurf_te_destageAge : (s.modTurf t g).te.destageAge = s.te.destageAge := rfl
@[simp] theorem modTurf_te_period : (s.modTurf t g).te.period = s.te.period := rfl
@[simp] theorem modTurf_te_orderCnt : (s.modTurf t g).te.orderCnt = s.te.orderCnt := rfl
@[simp] theorem modTurf_te_lastServed : (s.modTurf t g).te.lastServed = s.te.lastServed := rfl
@[simp] theorem modTurf_te_ceilEpisode : (s.modTurf t g).te.ceilEpisode = s.te.ceilEpisode := rfl
@[simp] theorem modTurf_te_unmaps : (s.modTurf t g).te.unmaps = s.te.unmaps := rfl
@[simp] theorem modTurf_te_cfgPend : (s.modTurf t g).te.cfgPend = s.te.cfgPend := rfl
@[simp] theorem modTurf_te_unmapFwd : (s.modTurf t g).te.unmapFwd = s.te.unmapFwd := rfl
@[simp] theorem modTurf_te_winMap : (s.modTurf t g).te.winMap = s.te.winMap := rfl
@[simp] theorem modTurf_te_mapPend : (s.modTurf t g).te.mapPend = s.te.mapPend := rfl
@[simp] theorem modTurf_te_uGib : (s.modTurf t g).te.uGib = s.te.uGib := rfl

end

/-! ### `modFtDev` -/

section
variable (s : State) (d : Nat) (g : FtDev → FtDev)

@[simp] theorem modFtDev_board : (s.modFtDev d g).board = s.board := rfl
@[simp] theorem modFtDev_tb : (s.modFtDev d g).tb = s.tb := rfl
@[simp] theorem modFtDev_hf : (s.modFtDev d g).hf = s.hf := rfl
@[simp] theorem modFtDev_te : (s.modFtDev d g).te = s.te := rfl
@[simp] theorem modFtDev_mc : (s.modFtDev d g).mc = s.mc := rfl
@[simp] theorem modFtDev_mctl : (s.modFtDev d g).mctl = s.mctl := rfl
@[simp] theorem modFtDev_eu : (s.modFtDev d g).eu = s.eu := rfl
@[simp] theorem modFtDev_tu : (s.modFtDev d g).tu = s.tu := rfl
@[simp] theorem modFtDev_tp : (s.modFtDev d g).tp = s.tp := rfl
@[simp] theorem modFtDev_px : (s.modFtDev d g).px = s.px := rfl
@[simp] theorem modFtDev_su : (s.modFtDev d g).su = s.su := rfl
@[simp] theorem modFtDev_xe : (s.modFtDev d g).xe = s.xe := rfl
@[simp] theorem modFtDev_cc : (s.modFtDev d g).cc = s.cc := rfl
@[simp] theorem modFtDev_mb : (s.modFtDev d g).mb = s.mb := rfl
@[simp] theorem modFtDev_nor : (s.modFtDev d g).nor = s.nor := rfl
@[simp] theorem modFtDev_norBytes : (s.modFtDev d g).norBytes = s.norBytes := rfl
@[simp] theorem modFtDev_sec : (s.modFtDev d g).sec = s.sec := rfl
@[simp] theorem modFtDev_opt : (s.modFtDev d g).opt = s.opt := rfl
@[simp] theorem modFtDev_lg : (s.modFtDev d g).lg = s.lg := rfl
@[simp] theorem modFtDev_rpm : (s.modFtDev d g).rpm = s.rpm := rfl
@[simp] theorem modFtDev_rpmx : (s.modFtDev d g).rpmx = s.rpmx := rfl
@[simp] theorem modFtDev_th : (s.modFtDev d g).th = s.th := rfl
@[simp] theorem modFtDev_pm : (s.modFtDev d g).pm = s.pm := rfl
@[simp] theorem modFtDev_dump : (s.modFtDev d g).dump = s.dump := rfl
@[simp] theorem modFtDev_latch : (s.modFtDev d g).latch = s.latch := rfl
@[simp] theorem modFtDev_noteLatch : (s.modFtDev d g).noteLatch = s.noteLatch := rfl
@[simp] theorem modFtDev_out : (s.modFtDev d g).out = s.out := rfl
@[simp] theorem modFtDev_free : (s.modFtDev d g).free = s.free := rfl
@[simp] theorem modFtDev_pending : (s.modFtDev d g).pending = s.pending := rfl
@[simp] theorem modFtDev_ft_trained : (s.modFtDev d g).ft.trained = s.ft.trained := rfl
@[simp] theorem modFtDev_ft_tested : (s.modFtDev d g).ft.tested = s.ft.tested := rfl
@[simp] theorem modFtDev_ft_failed : (s.modFtDev d g).ft.failed = s.ft.failed := rfl
@[simp] theorem modFtDev_ft_density : (s.modFtDev d g).ft.density = s.ft.density := rfl
@[simp] theorem modFtDev_ft_speed : (s.modFtDev d g).ft.speed = s.ft.speed := rfl
@[simp] theorem modFtDev_ft_remap : (s.modFtDev d g).ft.remap = s.ft.remap := rfl
@[simp] theorem modFtDev_ft_rowCe : (s.modFtDev d g).ft.rowCe = s.ft.rowCe := rfl
@[simp] theorem modFtDev_ft_spareQ : (s.modFtDev d g).ft.spareQ = s.ft.spareQ := rfl
@[simp] theorem modFtDev_ft_band : (s.modFtDev d g).ft.band = s.ft.band := rfl
@[simp] theorem modFtDev_ft_bandSeen : (s.modFtDev d g).ft.bandSeen = s.ft.bandSeen := rfl
@[simp] theorem modFtDev_ft_hotDev : (s.modFtDev d g).ft.hotDev = s.ft.hotDev := rfl
@[simp] theorem modFtDev_ft_patFrame : (s.modFtDev d g).ft.patFrame = s.ft.patFrame := rfl
@[simp] theorem modFtDev_ft_patLine : (s.modFtDev d g).ft.patLine = s.ft.patLine := rfl
@[simp] theorem modFtDev_ft_patPass : (s.modFtDev d g).ft.patPass = s.ft.patPass := rfl
@[simp] theorem modFtDev_ft_ceilGib : (s.modFtDev d g).ft.ceilGib = s.ft.ceilGib := rfl
@[simp] theorem modFtDev_ft_cand : (s.modFtDev d g).ft.cand = s.ft.cand := rfl
@[simp] theorem modFtDev_ft_life : (s.modFtDev d g).ft.life = s.ft.life := rfl
@[simp] theorem modFtDev_ft_failedLast : (s.modFtDev d g).ft.failedLast = s.ft.failedLast := rfl
@[simp] theorem modFtDev_ft_rawLock : (s.modFtDev d g).ft.rawLock = s.ft.rawLock := rfl
@[simp] theorem modFtDev_ft_rawEn : (s.modFtDev d g).ft.rawEn = s.ft.rawEn := rfl
@[simp] theorem modFtDev_ft_rawBusy : (s.modFtDev d g).ft.rawBusy = s.ft.rawBusy := rfl
@[simp] theorem modFtDev_ft_rawCmd : (s.modFtDev d g).ft.rawCmd = s.ft.rawCmd := rfl
@[simp] theorem modFtDev_ft_rawDev : (s.modFtDev d g).ft.rawDev = s.ft.rawDev := rfl
@[simp] theorem modFtDev_ft_rawLine : (s.modFtDev d g).ft.rawLine = s.ft.rawLine := rfl
@[simp] theorem modFtDev_ft_rawStatus : (s.modFtDev d g).ft.rawStatus = s.ft.rawStatus := rfl
@[simp] theorem modFtDev_ft_rawOutcome : (s.modFtDev d g).ft.rawOutcome = s.ft.rawOutcome := rfl
@[simp] theorem modFtDev_ft_rawPos : (s.modFtDev d g).ft.rawPos = s.ft.rawPos := rfl
@[simp] theorem modFtDev_ft_rawSynd : (s.modFtDev d g).ft.rawSynd = s.ft.rawSynd := rfl
@[simp] theorem modFtDev_ft_rawCheck : (s.modFtDev d g).ft.rawCheck = s.ft.rawCheck := rfl
@[simp] theorem modFtDev_ft_rawData : (s.modFtDev d g).ft.rawData = s.ft.rawData := rfl
@[simp] theorem modFtDev_ft_rawSlots : (s.modFtDev d g).ft.rawSlots = s.ft.rawSlots := rfl
@[simp] theorem modFtDev_ft_wb : (s.modFtDev d g).ft.wb = s.ft.wb := rfl
@[simp] theorem modFtDev_ft_lines : (s.modFtDev d g).ft.lines = s.ft.lines := rfl
@[simp] theorem modFtDev_ft_retireDev : (s.modFtDev d g).ft.retireDev = s.ft.retireDev := rfl
@[simp] theorem modFtDev_ft_ftStall : (s.modFtDev d g).ft.ftStall = s.ft.ftStall := rfl
@[simp] theorem modFtDev_same : (s.modFtDev d g).ftDev d = g (s.ftDev d) := by
  simp [State.ftDev, State.modFtDev]
theorem modFtDev_other (m : Nat) (h : m ≠ d) : (s.modFtDev d g).ftDev m = s.ftDev m := by
  simp [State.ftDev, State.modFtDev, get_upd_other _ _ _ _ _ h]

end

/-! ### `modLook` -/

section
variable (s : State) (p : Nat) (g : Look → Look)

@[simp] theorem modLook_board : (s.modLook p g).board = s.board := rfl
@[simp] theorem modLook_tb : (s.modLook p g).tb = s.tb := rfl
@[simp] theorem modLook_hf : (s.modLook p g).hf = s.hf := rfl
@[simp] theorem modLook_ft : (s.modLook p g).ft = s.ft := rfl
@[simp] theorem modLook_mc : (s.modLook p g).mc = s.mc := rfl
@[simp] theorem modLook_mctl : (s.modLook p g).mctl = s.mctl := rfl
@[simp] theorem modLook_eu : (s.modLook p g).eu = s.eu := rfl
@[simp] theorem modLook_tu : (s.modLook p g).tu = s.tu := rfl
@[simp] theorem modLook_tp : (s.modLook p g).tp = s.tp := rfl
@[simp] theorem modLook_px : (s.modLook p g).px = s.px := rfl
@[simp] theorem modLook_su : (s.modLook p g).su = s.su := rfl
@[simp] theorem modLook_xe : (s.modLook p g).xe = s.xe := rfl
@[simp] theorem modLook_cc : (s.modLook p g).cc = s.cc := rfl
@[simp] theorem modLook_mb : (s.modLook p g).mb = s.mb := rfl
@[simp] theorem modLook_nor : (s.modLook p g).nor = s.nor := rfl
@[simp] theorem modLook_norBytes : (s.modLook p g).norBytes = s.norBytes := rfl
@[simp] theorem modLook_sec : (s.modLook p g).sec = s.sec := rfl
@[simp] theorem modLook_opt : (s.modLook p g).opt = s.opt := rfl
@[simp] theorem modLook_lg : (s.modLook p g).lg = s.lg := rfl
@[simp] theorem modLook_rpm : (s.modLook p g).rpm = s.rpm := rfl
@[simp] theorem modLook_rpmx : (s.modLook p g).rpmx = s.rpmx := rfl
@[simp] theorem modLook_th : (s.modLook p g).th = s.th := rfl
@[simp] theorem modLook_pm : (s.modLook p g).pm = s.pm := rfl
@[simp] theorem modLook_dump : (s.modLook p g).dump = s.dump := rfl
@[simp] theorem modLook_latch : (s.modLook p g).latch = s.latch := rfl
@[simp] theorem modLook_noteLatch : (s.modLook p g).noteLatch = s.noteLatch := rfl
@[simp] theorem modLook_out : (s.modLook p g).out = s.out := rfl
@[simp] theorem modLook_free : (s.modLook p g).free = s.free := rfl
@[simp] theorem modLook_pending : (s.modLook p g).pending = s.pending := rfl
@[simp] theorem modLook_te_turfs : (s.modLook p g).te.turfs = s.te.turfs := rfl
@[simp] theorem modLook_te_map : (s.modLook p g).te.map = s.te.map := rfl
@[simp] theorem modLook_te_segs : (s.modLook p g).te.segs = s.te.segs := rfl
@[simp] theorem modLook_te_frames : (s.modLook p g).te.frames = s.te.frames := rfl
@[simp] theorem modLook_te_kindRet : (s.modLook p g).te.kindRet = s.te.kindRet := rfl
@[simp] theorem modLook_te_tindex : (s.modLook p g).te.tindex = s.te.tindex := rfl
@[simp] theorem modLook_te_waits : (s.modLook p g).te.waits = s.te.waits := rfl
@[simp] theorem modLook_te_pool : (s.modLook p g).te.pool = s.te.pool := rfl
@[simp] theorem modLook_te_firstDone : (s.modLook p g).te.firstDone = s.te.firstDone := rfl
@[simp] theorem modLook_te_destageAge : (s.modLook p g).te.destageAge = s.te.destageAge := rfl
@[simp] theorem modLook_te_period : (s.modLook p g).te.period = s.te.period := rfl
@[simp] theorem modLook_te_orderCnt : (s.modLook p g).te.orderCnt = s.te.orderCnt := rfl
@[simp] theorem modLook_te_lastServed : (s.modLook p g).te.lastServed = s.te.lastServed := rfl
@[simp] theorem modLook_te_ceilEpisode : (s.modLook p g).te.ceilEpisode = s.te.ceilEpisode := rfl
@[simp] theorem modLook_te_unmaps : (s.modLook p g).te.unmaps = s.te.unmaps := rfl
@[simp] theorem modLook_te_cfgPend : (s.modLook p g).te.cfgPend = s.te.cfgPend := rfl
@[simp] theorem modLook_te_unmapFwd : (s.modLook p g).te.unmapFwd = s.te.unmapFwd := rfl
@[simp] theorem modLook_te_winMap : (s.modLook p g).te.winMap = s.te.winMap := rfl
@[simp] theorem modLook_te_mapPend : (s.modLook p g).te.mapPend = s.te.mapPend := rfl
@[simp] theorem modLook_te_uGib : (s.modLook p g).te.uGib = s.te.uGib := rfl
@[simp] theorem modLook_same : (s.modLook p g).look p = g (s.look p) := by
  simp [State.look, State.modLook]
theorem modLook_other (m : Nat) (h : m ≠ p) : (s.modLook p g).look m = s.look m := by
  simp [State.look, State.modLook, get_upd_other _ _ _ _ _ h]

end

/-! ### `modSet` -/

section
variable (s : State) (k : Nat) (g : BlkSet → BlkSet)

@[simp] theorem modSet_board : (s.modSet k g).board = s.board := rfl
@[simp] theorem modSet_tb : (s.modSet k g).tb = s.tb := rfl
@[simp] theorem modSet_hf : (s.modSet k g).hf = s.hf := rfl
@[simp] theorem modSet_ft : (s.modSet k g).ft = s.ft := rfl
@[simp] theorem modSet_te : (s.modSet k g).te = s.te := rfl
@[simp] theorem modSet_mctl : (s.modSet k g).mctl = s.mctl := rfl
@[simp] theorem modSet_eu : (s.modSet k g).eu = s.eu := rfl
@[simp] theorem modSet_tu : (s.modSet k g).tu = s.tu := rfl
@[simp] theorem modSet_tp : (s.modSet k g).tp = s.tp := rfl
@[simp] theorem modSet_px : (s.modSet k g).px = s.px := rfl
@[simp] theorem modSet_su : (s.modSet k g).su = s.su := rfl
@[simp] theorem modSet_xe : (s.modSet k g).xe = s.xe := rfl
@[simp] theorem modSet_cc : (s.modSet k g).cc = s.cc := rfl
@[simp] theorem modSet_mb : (s.modSet k g).mb = s.mb := rfl
@[simp] theorem modSet_nor : (s.modSet k g).nor = s.nor := rfl
@[simp] theorem modSet_norBytes : (s.modSet k g).norBytes = s.norBytes := rfl
@[simp] theorem modSet_sec : (s.modSet k g).sec = s.sec := rfl
@[simp] theorem modSet_opt : (s.modSet k g).opt = s.opt := rfl
@[simp] theorem modSet_lg : (s.modSet k g).lg = s.lg := rfl
@[simp] theorem modSet_rpm : (s.modSet k g).rpm = s.rpm := rfl
@[simp] theorem modSet_rpmx : (s.modSet k g).rpmx = s.rpmx := rfl
@[simp] theorem modSet_th : (s.modSet k g).th = s.th := rfl
@[simp] theorem modSet_pm : (s.modSet k g).pm = s.pm := rfl
@[simp] theorem modSet_dump : (s.modSet k g).dump = s.dump := rfl
@[simp] theorem modSet_latch : (s.modSet k g).latch = s.latch := rfl
@[simp] theorem modSet_noteLatch : (s.modSet k g).noteLatch = s.noteLatch := rfl
@[simp] theorem modSet_out : (s.modSet k g).out = s.out := rfl
@[simp] theorem modSet_free : (s.modSet k g).free = s.free := rfl
@[simp] theorem modSet_pending : (s.modSet k g).pending = s.pending := rfl
@[simp] theorem modSet_mc_prof : (s.modSet k g).mc.prof = s.mc.prof := rfl
@[simp] theorem modSet_mc_formatted : (s.modSet k g).mc.formatted = s.mc.formatted := rfl
@[simp] theorem modSet_mc_slcDiv : (s.modSet k g).mc.slcDiv = s.mc.slcDiv := rfl
@[simp] theorem modSet_mc_fmt : (s.modSet k g).mc.fmt = s.mc.fmt := rfl
@[simp] theorem modSet_mc_luns : (s.modSet k g).mc.luns = s.mc.luns := rfl
@[simp] theorem modSet_mc_slots : (s.modSet k g).mc.slots = s.mc.slots := rfl
@[simp] theorem modSet_mc_mlines : (s.modSet k g).mc.mlines = s.mc.mlines := rfl
@[simp] theorem modSet_mc_rows : (s.modSet k g).mc.rows = s.mc.rows := rfl
@[simp] theorem modSet_mc_rowCnt : (s.modSet k g).mc.rowCnt = s.mc.rowCnt := rfl
@[simp] theorem modSet_mc_cordRows : (s.modSet k g).mc.cordRows = s.mc.cordRows := rfl
@[simp] theorem modSet_mc_lastCord : (s.modSet k g).mc.lastCord = s.mc.lastCord := rfl
@[simp] theorem modSet_mc_openRow : (s.modSet k g).mc.openRow = s.mc.openRow := rfl
@[simp] theorem modSet_mc_foldRow : (s.modSet k g).mc.foldRow = s.mc.foldRow := rfl
@[simp] theorem modSet_mc_rotCord : (s.modSet k g).mc.rotCord = s.mc.rotCord := rfl
@[simp] theorem modSet_mc_orderCnt : (s.modSet k g).mc.orderCnt = s.mc.orderCnt := rfl
@[simp] theorem modSet_mc_seq : (s.modSet k g).mc.seq = s.mc.seq := rfl
@[simp] theorem modSet_mc_jPend : (s.modSet k g).mc.jPend = s.mc.jPend := rfl
@[simp] theorem modSet_mc_journal : (s.modSet k g).mc.journal = s.mc.journal := rfl
@[simp] theorem modSet_mc_chunks : (s.modSet k g).mc.chunks = s.mc.chunks := rfl
@[simp] theorem modSet_mc_chunkNext : (s.modSet k g).mc.chunkNext = s.mc.chunkNext := rfl
@[simp] theorem modSet_mc_bst : (s.modSet k g).mc.bst = s.mc.bst := rfl
@[simp] theorem modSet_mc_remapMedia : (s.modSet k g).mc.remapMedia = s.mc.remapMedia := rfl
@[simp] theorem modSet_mc_sys : (s.modSet k g).mc.sys = s.mc.sys := rfl
@[simp] theorem modSet_mc_parSlots : (s.modSet k g).mc.parSlots = s.mc.parSlots := rfl
@[simp] theorem modSet_mc_relocOwed : (s.modSet k g).mc.relocOwed = s.mc.relocOwed := rfl
@[simp] theorem modSet_mc_destages : (s.modSet k g).mc.destages = s.mc.destages := rfl
@[simp] theorem modSet_mc_retry : (s.modSet k g).mc.retry = s.mc.retry := rfl
@[simp] theorem modSet_mc_retryRaised : (s.modSet k g).mc.retryRaised = s.mc.retryRaised := rfl
@[simp] theorem modSet_mc_reads : (s.modSet k g).mc.reads = s.mc.reads := rfl
@[simp] theorem modSet_mc_readCnt : (s.modSet k g).mc.readCnt = s.mc.readCnt := rfl
@[simp] theorem modSet_same : (s.modSet k g).setRec k = g (s.setRec k) := by
  simp [State.setRec, State.modSet]
theorem modSet_other (m : Nat) (h : m ≠ k) : (s.modSet k g).setRec m = s.setRec m := by
  simp [State.setRec, State.modSet, get_upd_other _ _ _ _ _ h]

end

/-! ### `modLun` -/

section
variable (s : State) (u : Nat) (g : Lun → Lun)

@[simp] theorem modLun_board : (s.modLun u g).board = s.board := rfl
@[simp] theorem modLun_tb : (s.modLun u g).tb = s.tb := rfl
@[simp] theorem modLun_hf : (s.modLun u g).hf = s.hf := rfl
@[simp] theorem modLun_ft : (s.modLun u g).ft = s.ft := rfl
@[simp] theorem modLun_te : (s.modLun u g).te = s.te := rfl
@[simp] theorem modLun_mctl : (s.modLun u g).mctl = s.mctl := rfl
@[simp] theorem modLun_eu : (s.modLun u g).eu = s.eu := rfl
@[simp] theorem modLun_tu : (s.modLun u g).tu = s.tu := rfl
@[simp] theorem modLun_tp : (s.modLun u g).tp = s.tp := rfl
@[simp] theorem modLun_px : (s.modLun u g).px = s.px := rfl
@[simp] theorem modLun_su : (s.modLun u g).su = s.su := rfl
@[simp] theorem modLun_xe : (s.modLun u g).xe = s.xe := rfl
@[simp] theorem modLun_cc : (s.modLun u g).cc = s.cc := rfl
@[simp] theorem modLun_mb : (s.modLun u g).mb = s.mb := rfl
@[simp] theorem modLun_nor : (s.modLun u g).nor = s.nor := rfl
@[simp] theorem modLun_norBytes : (s.modLun u g).norBytes = s.norBytes := rfl
@[simp] theorem modLun_sec : (s.modLun u g).sec = s.sec := rfl
@[simp] theorem modLun_opt : (s.modLun u g).opt = s.opt := rfl
@[simp] theorem modLun_lg : (s.modLun u g).lg = s.lg := rfl
@[simp] theorem modLun_rpm : (s.modLun u g).rpm = s.rpm := rfl
@[simp] theorem modLun_rpmx : (s.modLun u g).rpmx = s.rpmx := rfl
@[simp] theorem modLun_th : (s.modLun u g).th = s.th := rfl
@[simp] theorem modLun_pm : (s.modLun u g).pm = s.pm := rfl
@[simp] theorem modLun_dump : (s.modLun u g).dump = s.dump := rfl
@[simp] theorem modLun_latch : (s.modLun u g).latch = s.latch := rfl
@[simp] theorem modLun_noteLatch : (s.modLun u g).noteLatch = s.noteLatch := rfl
@[simp] theorem modLun_out : (s.modLun u g).out = s.out := rfl
@[simp] theorem modLun_free : (s.modLun u g).free = s.free := rfl
@[simp] theorem modLun_pending : (s.modLun u g).pending = s.pending := rfl
@[simp] theorem modLun_mc_prof : (s.modLun u g).mc.prof = s.mc.prof := rfl
@[simp] theorem modLun_mc_formatted : (s.modLun u g).mc.formatted = s.mc.formatted := rfl
@[simp] theorem modLun_mc_slcDiv : (s.modLun u g).mc.slcDiv = s.mc.slcDiv := rfl
@[simp] theorem modLun_mc_fmt : (s.modLun u g).mc.fmt = s.mc.fmt := rfl
@[simp] theorem modLun_mc_sets : (s.modLun u g).mc.sets = s.mc.sets := rfl
@[simp] theorem modLun_mc_slots : (s.modLun u g).mc.slots = s.mc.slots := rfl
@[simp] theorem modLun_mc_mlines : (s.modLun u g).mc.mlines = s.mc.mlines := rfl
@[simp] theorem modLun_mc_rows : (s.modLun u g).mc.rows = s.mc.rows := rfl
@[simp] theorem modLun_mc_rowCnt : (s.modLun u g).mc.rowCnt = s.mc.rowCnt := rfl
@[simp] theorem modLun_mc_cordRows : (s.modLun u g).mc.cordRows = s.mc.cordRows := rfl
@[simp] theorem modLun_mc_lastCord : (s.modLun u g).mc.lastCord = s.mc.lastCord := rfl
@[simp] theorem modLun_mc_openRow : (s.modLun u g).mc.openRow = s.mc.openRow := rfl
@[simp] theorem modLun_mc_foldRow : (s.modLun u g).mc.foldRow = s.mc.foldRow := rfl
@[simp] theorem modLun_mc_rotCord : (s.modLun u g).mc.rotCord = s.mc.rotCord := rfl
@[simp] theorem modLun_mc_orderCnt : (s.modLun u g).mc.orderCnt = s.mc.orderCnt := rfl
@[simp] theorem modLun_mc_seq : (s.modLun u g).mc.seq = s.mc.seq := rfl
@[simp] theorem modLun_mc_jPend : (s.modLun u g).mc.jPend = s.mc.jPend := rfl
@[simp] theorem modLun_mc_journal : (s.modLun u g).mc.journal = s.mc.journal := rfl
@[simp] theorem modLun_mc_chunks : (s.modLun u g).mc.chunks = s.mc.chunks := rfl
@[simp] theorem modLun_mc_chunkNext : (s.modLun u g).mc.chunkNext = s.mc.chunkNext := rfl
@[simp] theorem modLun_mc_bst : (s.modLun u g).mc.bst = s.mc.bst := rfl
@[simp] theorem modLun_mc_remapMedia : (s.modLun u g).mc.remapMedia = s.mc.remapMedia := rfl
@[simp] theorem modLun_mc_sys : (s.modLun u g).mc.sys = s.mc.sys := rfl
@[simp] theorem modLun_mc_parSlots : (s.modLun u g).mc.parSlots = s.mc.parSlots := rfl
@[simp] theorem modLun_mc_relocOwed : (s.modLun u g).mc.relocOwed = s.mc.relocOwed := rfl
@[simp] theorem modLun_mc_destages : (s.modLun u g).mc.destages = s.mc.destages := rfl
@[simp] theorem modLun_mc_retry : (s.modLun u g).mc.retry = s.mc.retry := rfl
@[simp] theorem modLun_mc_retryRaised : (s.modLun u g).mc.retryRaised = s.mc.retryRaised := rfl
@[simp] theorem modLun_mc_reads : (s.modLun u g).mc.reads = s.mc.reads := rfl
@[simp] theorem modLun_mc_readCnt : (s.modLun u g).mc.readCnt = s.mc.readCnt := rfl
@[simp] theorem modLun_same : (s.modLun u g).lun u = g (s.lun u) := by
  simp [State.lun, State.modLun]
theorem modLun_other (m : Nat) (h : m ≠ u) : (s.modLun u g).lun m = s.lun m := by
  simp [State.lun, State.modLun, get_upd_other _ _ _ _ _ h]

end

/-! ### `emit` -/

section
variable (s : State) (x : Out)

@[simp] theorem emit_board : (emit x s).board = s.board := rfl
@[simp] theorem emit_tb : (emit x s).tb = s.tb := rfl
@[simp] theorem emit_hf : (emit x s).hf = s.hf := rfl
@[simp] theorem emit_ft : (emit x s).ft = s.ft := rfl
@[simp] theorem emit_te : (emit x s).te = s.te := rfl
@[simp] theorem emit_mc : (emit x s).mc = s.mc := rfl
@[simp] theorem emit_mctl : (emit x s).mctl = s.mctl := rfl
@[simp] theorem emit_eu : (emit x s).eu = s.eu := rfl
@[simp] theorem emit_tu : (emit x s).tu = s.tu := rfl
@[simp] theorem emit_tp : (emit x s).tp = s.tp := rfl
@[simp] theorem emit_px : (emit x s).px = s.px := rfl
@[simp] theorem emit_su : (emit x s).su = s.su := rfl
@[simp] theorem emit_xe : (emit x s).xe = s.xe := rfl
@[simp] theorem emit_cc : (emit x s).cc = s.cc := rfl
@[simp] theorem emit_mb : (emit x s).mb = s.mb := rfl
@[simp] theorem emit_nor : (emit x s).nor = s.nor := rfl
@[simp] theorem emit_norBytes : (emit x s).norBytes = s.norBytes := rfl
@[simp] theorem emit_sec : (emit x s).sec = s.sec := rfl
@[simp] theorem emit_opt : (emit x s).opt = s.opt := rfl
@[simp] theorem emit_lg : (emit x s).lg = s.lg := rfl
@[simp] theorem emit_rpm : (emit x s).rpm = s.rpm := rfl
@[simp] theorem emit_rpmx : (emit x s).rpmx = s.rpmx := rfl
@[simp] theorem emit_th : (emit x s).th = s.th := rfl
@[simp] theorem emit_pm : (emit x s).pm = s.pm := rfl
@[simp] theorem emit_dump : (emit x s).dump = s.dump := rfl
@[simp] theorem emit_latch : (emit x s).latch = s.latch := rfl
@[simp] theorem emit_noteLatch : (emit x s).noteLatch = s.noteLatch := rfl
@[simp] theorem emit_out : (emit x s).out = x :: s.out := rfl
@[simp] theorem emit_free : (emit x s).free = s.free := rfl
@[simp] theorem emit_pending : (emit x s).pending = s.pending := rfl

end

end Sys2Proof.Laws
end

