-- ==== Sys2Proof/Laws/Answer.lean ====
section
/-! SUPPORT. The course of an Atorn request that its row presents: taken, checked, its effect, its reply. -/

namespace Sys2Proof.Laws

open Sys2Proof Sys2Proof.Machine Sys2Proof.Safety

/-! ## What answering leaves alone -/

theorem modMbox_rest {s u : State} {c f} (h : Rest s u) : Rest s (u.modMbox c f) := h.trans (by constructor <;> rfl)

theorem linkSend_rest {s u : State} {m} (h : Rest s u) : Rest s (linkSend m u) := by
  unfold linkSend
  split
  · exact h
  · exact (h.trans (by constructor <;> rfl)).trans (count_reports (emit_reports (.refl _))).rest

theorem outArea_rest {s u v : State} {c f d} (h : Rest s u) : Rest s (outArea v c f d u) := by
  unfold outArea
  split
  · exact h
  · dsimp only
    split
    · exact h.trans (emit_reports (.refl _)).rest
    · exact h

theorem Rest.ite {s u v : State} {c : Prop} [Decidable c] (h : Rest s u) (k : Rest s v) : Rest s (if c then u else v) := by
  by_cases hc : c
  · rw [if_pos hc]; exact h
  · rw [if_neg hc]; exact k

theorem replyNow_rest {s u : State} {c f l a b d} (h : Rest s u) : Rest s (replyNow c f l a b d u) := by
  unfold replyNow
  have k : Rest s (outArea u c f d u) := outArea_rest h
  refine .ite (linkSend_rest (modMbox_rest (k.trans (count_reports (.refl _)).rest))) (.ite ?_ ?_)
  · exact (modMbox_rest (k.trans (count_reports (.refl _)).rest)).trans (mbIrq_reports (.refl _)).rest
  · exact modMbox_rest (k.trans (count_reports (.refl _)).rest)

theorem replyWith_rest {s u : State} {c f l a b d} (h : Rest s u) : Rest s (replyWith c f l a b d u) := by
  unfold replyWith
  split
  · exact modMbox_rest h
  · exact replyNow_rest h

theorem reply_rest {s u : State} {rq a b d} (h : Rest s u) (e : inEmber u = false) : Rest s (reply rq a b d u) := by
  unfold reply
  split
  · exact h
  · dsimp only
    split
    · exact modMbox_rest h
    · simp only [e, Bool.false_and, Bool.false_eq_true, if_false]
      exact replyWith_rest h

theorem takeDirect_rest {s u : State} {rq l} (h : Rest s u) : Rest s (takeDirect rq l u) :=
  (modMbox_rest h).trans (count_reports (.refl _)).rest

theorem emptied_rest {s u v : State} {c} (h : Rest s u) : Rest s (emptied c v u) := by
  unfold emptied
  dsimp only
  split
  · exact h.trans (mbIrq_reports (.refl _)).rest
  · exact h

/-! ## Being taken -/

/-- The row's block mark of an opcode (R334). -/
abbrev blockOf (op : Nat) : Bool := ((opRow op).map (·.block)).getD false

/-- A request just taken, with its block mark. -/
def taken (s : State) (rq : Rq) (op : Nat) (b : Bool) : State :=
  takeDirect rq ((s.mbox rq.ch).flights ++ [directFlight s rq op b]) s

theorem begun_taken (s : State) (rq : Rq) (op : Nat) : begun s rq op = taken s rq op (blockOf op) := rfl

theorem taken_rest (s : State) (rq : Rq) (op : Nat) (b : Bool) : Rest s (taken s rq op b) := takeDirect_rest (.refl s)

theorem atorn_accepted {s : State} {rq : Rq} {op : Nat} {owns granted : State → Bool} {c : State → Cmd} {eff : State → State}
    (h : accepts s rq op (owns s) (granted s)) :
    atorn op rq owns granted c eff s
      = answered s rq (cmdRun rq (c (begun s rq op)) eff (begun s rq op)) := by
  obtain ⟨h1, h2, r, hr, hg⟩ := h
  have hw : waitingFlight s rq op = none := by
    unfold waitingFlight
    rw [List.find?_eq_none]
    intro f hf
    simp [h2 f hf]
  have ha : (s.mbox rq.ch).flights.any (fun f => f.tag == rq.tag) = false := by
    rw [List.any_eq_false]
    intro f hf
    simp [h2 f hf]
  simp only [atorn, hr, hw, h1, ha, hg, Bool.not_true, Bool.false_eq_true, if_false, answered, begun, Option.map_some,
    Option.getD_some]

/-- A command none of whose conditions holds has its effect (R333). -/
theorem cmdRun_eff {rq : Rq} {c : Cmd} {eff : State → State} {s : State} (hb : firstTrue c.bad 1 = none)
    (hd : c.denied = none) (hr : firstTrue c.refuse 1 = none) : cmdRun rq c eff s = eff s := by
  simp [cmdRun, hb, hd, hr]

theorem atornQ_accepted {s : State} {rq : Rq} {op : Nat} {c : State → Cmd} {eff : State → State}
    (h : accepts s rq op true true) :
    atornQ op rq c eff s
      = answered s rq (cmdRun rq (c (begun s rq op)) eff (begun s rq op)) :=
  atorn_accepted (owns := fun _ => true) (granted := fun _ => true) h

@[simp] theorem begun_board (s : State) (rq : Rq) (op : Nat) : (begun s rq op).board = s.board := (taken_rest s rq op _).board
@[simp] theorem begun_tb (s : State) (rq : Rq) (op : Nat) : (begun s rq op).tb = s.tb := (taken_rest s rq op _).tb
@[simp] theorem begun_hf (s : State) (rq : Rq) (op : Nat) : (begun s rq op).hf = s.hf := (taken_rest s rq op _).hf
@[simp] theorem begun_ft (s : State) (rq : Rq) (op : Nat) : (begun s rq op).ft = s.ft := (taken_rest s rq op _).ft
@[simp] theorem begun_te (s : State) (rq : Rq) (op : Nat) : (begun s rq op).te = s.te := (taken_rest s rq op _).te
@[simp] theorem begun_mc (s : State) (rq : Rq) (op : Nat) : (begun s rq op).mc = s.mc := (taken_rest s rq op _).mc
@[simp] theorem begun_mctl (s : State) (rq : Rq) (op : Nat) : (begun s rq op).mctl = s.mctl := (taken_rest s rq op _).mctl
@[simp] theorem begun_eu (s : State) (rq : Rq) (op : Nat) : (begun s rq op).eu = s.eu := (taken_rest s rq op _).eu
@[simp] theorem begun_tp (s : State) (rq : Rq) (op : Nat) : (begun s rq op).tp = s.tp := (taken_rest s rq op _).tp
@[simp] theorem begun_su (s : State) (rq : Rq) (op : Nat) : (begun s rq op).su = s.su := (taken_rest s rq op _).su
@[simp] theorem begun_xe (s : State) (rq : Rq) (op : Nat) : (begun s rq op).xe = s.xe := (taken_rest s rq op _).xe
@[simp] theorem begun_cc (s : State) (rq : Rq) (op : Nat) : (begun s rq op).cc = s.cc := (taken_rest s rq op _).cc
@[simp] theorem begun_nor (s : State) (rq : Rq) (op : Nat) : (begun s rq op).nor = s.nor := (taken_rest s rq op _).nor
@[simp] theorem begun_norBytes (s : State) (rq : Rq) (op : Nat) : (begun s rq op).norBytes = s.norBytes := (taken_rest s rq op _).norBytes
@[simp] theorem begun_sec (s : State) (rq : Rq) (op : Nat) : (begun s rq op).sec = s.sec := (taken_rest s rq op _).sec
@[simp] theorem begun_rpm (s : State) (rq : Rq) (op : Nat) : (begun s rq op).rpm = s.rpm := (taken_rest s rq op _).rpm
@[simp] theorem begun_rpmx (s : State) (rq : Rq) (op : Nat) : (begun s rq op).rpmx = s.rpmx := (taken_rest s rq op _).rpmx
@[simp] theorem begun_th (s : State) (rq : Rq) (op : Nat) : (begun s rq op).th = s.th := (taken_rest s rq op _).th
@[simp] theorem begun_dump (s : State) (rq : Rq) (op : Nat) : (begun s rq op).dump = s.dump := (taken_rest s rq op _).dump
@[simp] theorem begun_latch (s : State) (rq : Rq) (op : Nat) : (begun s rq op).latch = s.latch := (taken_rest s rq op _).latch
@[simp] theorem begun_noteLatch (s : State) (rq : Rq) (op : Nat) : (begun s rq op).noteLatch = s.noteLatch := (taken_rest s rq op _).noteLatch
@[simp] theorem begun_pending (s : State) (rq : Rq) (op : Nat) : (begun s rq op).pending = s.pending := (taken_rest s rq op _).pending
theorem takeDirect_counts (s : State) (rq : Rq) (l : List Flight) : (takeDirect rq l s).lg = s.lg ∧ (takeDirect rq l s).opt = s.opt ∧
    (takeDirect rq l s).px.lds = s.px.lds ∧ (takeDirect rq l s).free = s.free ∧ (takeDirect rq l s).tu = s.tu := by
  have h := count_counts (s := s.modMbox rq.ch (fun m =>
    { m with reqProd := (m.reqProd + 1) % 256, reqCons := (m.reqCons + 1) % 256,
             expect := some ((m.expect.getD 0 + 1) % 2 ^ 32), taken := recentTakes s m.taken ++ [s.tb.count],
             flights := l })) (a0 := 0x2C20) (a1 := rq.ch) (a2 := 0) (a3 := 1) (.refl _)
  exact ⟨h.lg, h.opt, h.lds, h.free, h.reports.tu⟩

@[simp] theorem begun_lg (s : State) (rq : Rq) (op : Nat) : (begun s rq op).lg = s.lg := (takeDirect_counts s rq _).1
@[simp] theorem begun_opt (s : State) (rq : Rq) (op : Nat) : (begun s rq op).opt = s.opt := (takeDirect_counts s rq _).2.1
@[simp] theorem begun_lds (s : State) (rq : Rq) (op : Nat) : (begun s rq op).px.lds = s.px.lds := (takeDirect_counts s rq _).2.2.1
@[simp] theorem begun_free (s : State) (rq : Rq) (op : Nat) : (begun s rq op).free = s.free := (takeDirect_counts s rq _).2.2.2.1
@[simp] theorem begun_tu (s : State) (rq : Rq) (op : Nat) : (begun s rq op).tu = s.tu := (takeDirect_counts s rq _).2.2.2.2

theorem pxRest_eq {a b : PxState} (h : pxRest a = pxRest b) : a.ports = b.ports ∧ a.open_ = b.open_ ∧ a.poisonIdx = b.poisonIdx
    ∧ a.poisonOver = b.poisonOver ∧ a.cdatChg = b.cdatChg ∧ a.qos = b.qos ∧ a.rescan = b.rescan := by
  simpa [pxRest] using h

@[simp] theorem begun_ports (s : State) (rq : Rq) (op : Nat) : (begun s rq op).px.ports = s.px.ports :=
  (pxRest_eq (taken_rest s rq op _).px).1
@[simp] theorem begun_open (s : State) (rq : Rq) (op : Nat) : (begun s rq op).px.open_ = s.px.open_ :=
  (pxRest_eq (taken_rest s rq op _).px).2.1
@[simp] theorem begun_rescan (s : State) (rq : Rq) (op : Nat) : (begun s rq op).px.rescan = s.px.rescan :=
  (pxRest_eq (taken_rest s rq op _).px).2.2.2.2.2.2
@[simp] theorem begun_page (s : State) (rq : Rq) (op : Nat) (k : Nat) : (begun s rq op).page k = s.page k := by
  simp [State.page]
@[simp] theorem begun_turf (s : State) (rq : Rq) (op : Nat) (k : Nat) : (begun s rq op).turf k = s.turf k := by
  simp [State.turf]
@[simp] theorem begun_chan (s : State) (rq : Rq) (op : Nat) (k : Nat) : (begun s rq op).chan k = s.chan k := by
  simp [State.chan]
@[simp] theorem begun_port (s : State) (rq : Rq) (op : Nat) (k : Nat) : (begun s rq op).port k = s.port k := by
  simp [State.port]

/-! ## Being answered -/

theorem boxRest_slots {a b : MbChan} (h : boxRest a = boxRest b) : a.slots = b.slots := (congrArg MbChan.slots h : _)
theorem boxRest_rplProd {a b : MbChan} (h : boxRest a = boxRest b) : a.rplProd = b.rplProd := (congrArg MbChan.rplProd h : _)
theorem boxRest_flights {a b : MbChan} (h : boxRest a = boxRest b) : a.flights = b.flights := (congrArg MbChan.flights h : _)

/-- The channel of a request is the one its taking left, but for its FIFO. -/
def asTaken (s t : State) (rq : Rq) (op : Nat) (b : Bool) : Prop :=
  boxRest (t.mbox rq.ch) = boxRest ((taken s rq op b).mbox rq.ch) ∧ t.tu = s.tu ∧ inEmber t = false ∧ ∀ m, linkMute t m = linkMute s m

theorem taken_box (s : State) (rq : Rq) (op : Nat) (b : Bool) :
    boxRest ((taken s rq op b).mbox rq.ch) = boxRest { s.mbox rq.ch with
      reqProd := ((s.mbox rq.ch).reqProd + 1) % 256, reqCons := ((s.mbox rq.ch).reqCons + 1) % 256,
      expect := some (((s.mbox rq.ch).expect.getD 0 + 1) % 2 ^ 32),
      taken := recentTakes s (s.mbox rq.ch).taken ++ [s.tb.count],
      flights := (s.mbox rq.ch).flights ++ [directFlight s rq op b] } := by
  unfold taken takeDirect
  rw [(count_reports (.refl _)).boxes]
  simp

theorem taken_tu (s : State) (rq : Rq) (op : Nat) (b : Bool) : (taken s rq op b).tu = s.tu := by
  unfold taken takeDirect
  rw [(count_reports (.refl _)).tu]
  rfl

theorem inEmber_eq {s t : State} (h : t.eu = s.eu) : inEmber t = inEmber s := by simp [inEmber, h]

theorem linkMute_eq {s t : State} (h : t.eu = s.eu) (k : t.tp = s.tp) (m : LinkMsg) : linkMute t m = linkMute s m := by
  simp [linkMute, linkQuiet, h, k]

theorem canTake_notEmber {s : State} {ch : Nat} (h : canTake s ch = true) : inEmber s = false := by
  simp only [canTake, chanServed, Bool.and_eq_true, Bool.not_eq_true'] at h
  exact h.1.1.2.1.1

theorem asTaken_of_reports {s t : State} {rq : Rq} {op : Nat} {b : Bool} (hc : canTake s rq.ch = true)
    (h : Reports (taken s rq op b) t) : asTaken s t rq op b :=
  ⟨h.boxes rq.ch, h.tu.trans (taken_tu s rq op b), by
    rw [inEmber_eq (h.rest.eu.trans (taken_rest s rq op b).eu)]; exact canTake_notEmber hc,
    linkMute_eq (h.rest.eu.trans (taken_rest s rq op b).eu) (h.rest.tp.trans (taken_rest s rq op b).tp)⟩

/-- The flight of a request just taken is found. -/
theorem find_taken {s t : State} {rq : Rq} {op : Nat} {b : Bool}
    (hf : ∀ f ∈ (s.mbox rq.ch).flights, f.tag ≠ rq.tag) (h : asTaken s t rq op b) :
    findFlight t rq.ch rq.tag = some (directFlight s rq op b) := by
  unfold findFlight
  rw [boxRest_flights (h.1.trans (taken_box s rq op b))]
  rw [List.find?_append]
  have : List.find? (fun f : Flight => f.tag == rq.tag && !f.replied) (s.mbox rq.ch).flights = none := by
    rw [List.find?_eq_none]
    intro f hm
    simp [hf f hm]
  rw [this]
  simp [directFlight]

theorem linkSend_sent (m : LinkMsg) (s : State) (hi : s.tu.idle = false) (hu : s.tu.lo.up = true ∨ s.tu.hi.up = true)
    (hm : linkMute s m = false) : ∃ x ∈ (linkSend m s).tu.sent, x.msg = m := by
  unfold linkSend
  rw [if_neg (by rcases hu with h | h <;> simp [hi, h, hm])]
  rw [(count_reports (emit_reports (.refl _))).tu]
  exact ⟨_, List.mem_append_right _ (List.mem_singleton.2 rfl), rfl⟩

theorem reply_taken {s t : State} {rq : Rq} {op : Nat} {b : Bool} {st det : Nat} {data : List Byte}
    (hf : ∀ f ∈ (s.mbox rq.ch).flights, f.tag ≠ rq.tag) (h : asTaken s t rq op b) :
    reply rq st det data t
      = replyNow rq.ch (directFlight s rq op b) ((t.mbox rq.ch).flights.erase (directFlight s rq op b)) st det data t := by
  unfold reply
  rw [find_taken hf h]
  simp only [h.2.2.1, Bool.false_and, Bool.false_eq_true, if_false]
  rw [if_neg (show ¬ (directFlight s rq op b).drop = true by simp [directFlight])]
  unfold replyWith
  rw [if_neg (by simp [directFlight])]

theorem slot_eq (s : State) (rq : Rq) (op st det : Nat) (b : Bool) (data : List Byte) :
    replySlot (directFlight s rq op b).opcode (directFlight s rq op b).flags (directFlight s rq op b).tag
      (if decide (data.length > (if decide ((directFlight s rq op b).flags % 2 = 1) = true then
          leNat (((directFlight s rq op b).payload.drop 12).take 4) else 240)) = true ∧ st = 0 then 1 else st)
      (directFlight s rq op b).cseq (if data.isEmpty then det else data.length)
      (if decide ((directFlight s rq op b).flags % 2 = 1) = true then [] else
        data.take (if decide ((directFlight s rq op b).flags % 2 = 1) = true then
          leNat (((directFlight s rq op b).payload.drop 12).take 4) else 240))
      = replyOf s rq op st det data := by
  simp [directFlight, replyOf]

theorem emptied_reports {s t : State} {ch : Nat} : Reports t (emptied ch s t) := by
  unfold emptied
  dsimp only
  split
  · exact mbIrq_reports (.refl _)
  · exact .refl _

theorem irqIf_reports {t : State} {ch : Nat} {c : Prop} [Decidable c] : Reports t (if c then mbIrq ch t else t) := by
  by_cases h : c
  · rw [if_pos h]; exact mbIrq_reports (.refl _)
  · rw [if_neg h]; exact .refl _

theorem outArea_direct (s t u : State) (rq : Rq) (op ch : Nat) (b : Bool) (d : List Byte) :
    outArea t ch (directFlight s rq op b) d u = u := by
  unfold outArea
  rw [if_pos (by simp [directFlight])]

/-- An accepted request's reply stands in its slot, or goes to the twin. -/
theorem replied_taken {s t : State} {rq : Rq} {op : Nat} {b : Bool} {st det : Nat} {data : List Byte}
    (hf : ∀ f ∈ (s.mbox rq.ch).flights, f.tag ≠ rq.tag) (h : asTaken s t rq op b) :
    replied s (emptied rq.ch s (reply rq st det data t)) rq op st det data := by
  rw [reply_taken hf h]
  have hs : (t.mbox rq.ch).slots = (s.mbox rq.ch).slots := by
    rw [boxRest_slots (h.1.trans (taken_box s rq op b))]
  have hp : (t.mbox rq.ch).rplProd = (s.mbox rq.ch).rplProd := by
    rw [boxRest_rplProd (h.1.trans (taken_box s rq op b))]
  constructor
  · intro hc
    have key : boxRest ((emptied rq.ch s (replyNow rq.ch (directFlight s rq op b)
        ((t.mbox rq.ch).flights.erase (directFlight s rq op b)) st det data t)).mbox rq.ch)
        = boxRest { t.mbox rq.ch with
            slots := (t.mbox rq.ch).slots.set [] (4 + (t.mbox rq.ch).rplProd % 4) (replyOf s rq op st det data),
            rplProd := ((t.mbox rq.ch).rplProd + 1) % 256,
            flights := startReady false ((t.mbox rq.ch).flights.erase (directFlight s rq op b)
              ++ [{ directFlight s rq op b with replied := true }]) } := by
      rw [emptied_reports.boxes]
      unfold replyNow
      simp only [hc, if_false, outArea_direct, slot_eq]
      rw [irqIf_reports.boxes]
      generalize statusQual _ = q
      have hb := (count_reports (a0 := 0x2C21) (a1 := rq.ch) (a2 := q) (a3 := 1) (.refl t)).boxes rq.ch
      simp only [modMbox_same, boxRest_slots hb, boxRest_rplProd hb]
      simp only [boxRest, MbChan.mk.injEq] at hb ⊢
      simp only [hb, and_self]
    rw [boxRest_slots key, boxRest_rplProd key, hp]
    simp
  · intro hc hi hu hm
    rw [emptied_reports.tu]
    unfold replyNow
    simp only [hc, if_true, slot_eq, outArea_direct]
    generalize statusQual _ = q
    generalize startReady false _ = fs
    have e1 : ((count 0x2C21 30 q 1 t).modMbox 30 (fun m => { m with flights := fs })).tu = s.tu :=
      (count_reports (.refl t)).tu.trans h.2.1
    have e2 : ∀ m, linkMute ((count 0x2C21 30 q 1 t).modMbox 30 (fun m => { m with flights := fs })) m = linkMute t m :=
      linkMute_eq (count_reports (.refl t)).rest.eu (count_reports (.refl t)).rest.tp
    exact linkSend_sent _ _ (by rw [e1]; exact hi) (by rw [e1]; exact hu) (by rw [e2, h.2.2.2]; exact hm)

end Sys2Proof.Laws
end

