-- ==== Sys2Proof/Laws/Begun.lean ====
section
/-! SUPPORT. Atorn requests from the front: an accepted request whose checks pass runs its effect and is answered; what a request
that has begun reads of the state is what it read before. -/

namespace Sys2Proof.Laws

open Sys2Proof Sys2Proof.Machine Sys2Proof.Safety

theorem q_done {s : State} {rq : Rq} {op : Nat} {c : State → Cmd} {eff : State → State} (h : accepts s rq op true true)
    (hb : firstTrue (c (begun s rq op)).bad 1 = none) (hd : (c (begun s rq op)).denied = none)
    (hr : firstTrue (c (begun s rq op)).refuse 1 = none) : atornQ op rq c eff s = doneBy s rq op eff := by
  rw [atornQ_accepted h, cmdRun_eff hb hd hr]; rfl
theorem a_done {s : State} {rq : Rq} {op : Nat} {owns granted : State → Bool} {c : State → Cmd} {eff : State → State}
    (h : accepts s rq op true true) (ho : owns s = true) (hg : granted s = true)
    (hb : firstTrue (c (begun s rq op)).bad 1 = none) (hd : (c (begun s rq op)).denied = none)
    (hr : firstTrue (c (begun s rq op)).refuse 1 = none) : atorn op rq owns granted c eff s = doneBy s rq op eff := by
  rw [atorn_accepted (by rw [ho, hg]; exact h), cmdRun_eff hb hd hr]; rfl
theorem ft_nil (n : Nat) : firstTrue [] n = none := rfl
theorem ft_false (t : List Bool) (n : Nat) : firstTrue (false :: t) n = firstTrue t (n + 1) := rfl
theorem ft_cons {b : Bool} {t : List Bool} {n : Nat} (h : b = false) (k : firstTrue t (n+1) = none) : firstTrue (b :: t) n = none :=
    by
  subst h; exact k
theorem run_ok {b : Bool} {t u : State} (h : b = true) (k : t = u) : run b t = .next u := by subst h; subst k; rfl
theorem canTake_not {s : State} {rq : Rq} {op : Nat} {o g : Bool} (h : accepts s rq op o g) : inEmber s = false :=
    canTake_notEmber h.1
@[simp] theorem begun_ftDev (s : State) (rq : Rq) (op : Nat) (k : Nat) : (begun s rq op).ftDev k = s.ftDev k := by
  simp [State.ftDev]
@[simp] theorem begun_frame (s : State) (rq : Rq) (op : Nat) (k : Nat) : (begun s rq op).frame k = s.frame k := by
  simp [State.frame]
@[simp] theorem begun_seg (s : State) (rq : Rq) (op : Nat) (k : Nat) : (begun s rq op).seg k = s.seg k := by simp [State.seg]
@[simp] theorem begun_cpu (s : State) (rq : Rq) (op : Nat) (k : Nat) : (begun s rq op).cpu k = s.cpu k := by simp [State.cpu]
@[simp] theorem begun_ld (s : State) (rq : Rq) (op : Nat) (p k : Nat) : (begun s rq op).ld p k = s.ld p k := by simp [State.ld]
theorem ft_iff : ∀ (l : List Bool) (n : Nat), firstTrue l n = none ↔ ∀ b ∈ l, b = false
  | [], _ => by simp [firstTrue]
  | true :: t, n => by simp [firstTrue]
  | false :: t, n => by simp [firstTrue, ft_iff t]
@[simp] theorem begun_uBytes (s : State) (rq : Rq) (op : Nat) : uBytes (begun s rq op) = uBytes s := by simp [uBytes]
@[simp] theorem begun_turfGet (s : State) (rq : Rq) (op : Nat) (i p) : turfGet (begun s rq op) i p = turfGet s i p := by
  simp [turfGet]
@[simp] theorem begun_turfOverlaps (s : State) (rq : Rq) (op : Nat) (i p q) : turfOverlaps (begun s rq op) i p q = turfOverlaps s i p q := by
  simp [turfOverlaps]
@[simp] theorem begun_badRange (s : State) (rq : Rq) (op : Nat) (p q) : badRange (begun s rq op) p q = badRange s p q := by
  simp [badRange]
@[simp] theorem begun_turfCount (s : State) (rq : Rq) (op : Nat) : turfCount (begun s rq op) = turfCount s := by simp [turfCount]
@[simp] theorem begun_jobReaches (s : State) (rq : Rq) (op : Nat) (p q) : jobReaches (begun s rq op) p q = jobReaches s p q := by
  simp [jobReaches]
@[simp] theorem begun_icReaches (s : State) (rq : Rq) (op : Nat) (p q) : icReaches (begun s rq op) p q = icReaches s p q := by
  simp [icReaches]
@[simp] theorem begun_winReaches (s : State) (rq : Rq) (op : Nat) (k p q) : winReaches (begun s rq op) k p q = winReaches s k p q := by
  simp [winReaches]
@[simp] theorem begun_ldReaches (s : State) (rq : Rq) (op : Nat) (a b p q) : ldReaches (begun s rq op) a b p q = ldReaches s a b p q := by
  simp [ldReaches]
@[simp] theorem begun_anyReaches (s : State) (rq : Rq) (op : Nat) (p q) : anyReaches (begun s rq op) p q = anyReaches s p q := by
  simp [anyReaches]
@[simp] theorem begun_agentReaches (s : State) (rq : Rq) (op : Nat) (a p q) : agentReaches (begun s rq op) a p q = agentReaches s a p q :=
    by
  cases a <;> simp [agentReaches]
@[simp] theorem begun_pairPool (s : State) (rq : Rq) (op : Nat) : pairPool (begun s rq op) = pairPool s := by simp [pairPool]
@[simp] theorem begun_otherReserves (s : State) (rq : Rq) (op : Nat) (i) : otherReserves (begun s rq op) i = otherReserves s i := by
  simp [otherReserves]
@[simp] theorem begun_grantCount (s : State) (rq : Rq) (op : Nat) : grantCount (begun s rq op) = grantCount s := by
  simp [grantCount]
@[simp] theorem begun_portFns (s : State) (rq : Rq) (op : Nat) (p) : portFns (begun s rq op) p = portFns s p := by simp [portFns]
@[simp] theorem begun_granteePresent (s : State) (rq : Rq) (op : Nat) (a) : granteePresent (begun s rq op) a = granteePresent s a :=
    by
  cases a <;> simp [granteePresent]
theorem coveredFrom_congr {s u : State} (h : s.te.turfs = u.te.turfs) (p n lo hi) : coveredFrom s p n lo hi = coveredFrom u p n lo hi :=
    by
  induction n generalizing lo with
  | zero => rfl
  | succ n ih => simp only [coveredFrom, turfAt, h, ih]
@[simp] theorem begun_covered (s : State) (rq : Rq) (op : Nat) (p a b) : covered (begun s rq op) p a b = covered s p a b := by
  unfold covered; exact coveredFrom_congr (by simp) _ _ _ _
@[simp] theorem begun_plainFn (s : State) (rq : Rq) (op : Nat) (a) : plainFn (begun s rq op) a = plainFn s a := by
  cases a <;> simp [plainFn]
theorem wf_may {s : State} {ag} (h : mayWrite s ag) : ag.wf = true := by
  cases ag <;> simp_all [mayWrite, Agent.wf, fnOk, coreOk] <;> omega
theorem regWrite_may {s : State} {ag b} (h : mayWrite s ag) : regWrite ag b s = b s := by
  cases ag <;> simp_all [mayWrite, regWrite, fnWrite]
theorem regRead_may {s : State} {ag v m b} (h : mayWrite s ag) : regRead ag v m b s = emit (.regRead ag v) (b s) := by
  cases ag <;> simp_all [mayWrite, regRead, fnWrite]
theorem begun_inEmber {s : State} {rq : Rq} {op : Nat} (h : accepts s rq op true true) : inEmber (begun s rq op) = false := by
  rw [inEmber_eq (t := begun s rq op) (s := s) (by simp)]; exact canTake_not h

end Sys2Proof.Laws
end

