-- ==== Sys2Proof/Laws/Keeps.lean ====
section
/-! SUPPORT. What every operation leaves as it is: the queue, the facts of the board, the free values drawn so far, and the
invariant of the device. -/

set_option linter.unusedTactic false
set_option linter.unreachableTactic false

namespace Sys2Proof.Laws

open Sys2Proof Sys2Proof.Machine Sys2Proof.Safety

/-- `t` follows from `s`: no command was taken or added, the board is the same, no free value was drawn back, and the
invariant holds where it held. -/
structure Keeps (s t : State) : Prop where
  queue : t.pending = s.pending
  board : t.board = s.board
  drawn : s.free ≤ t.free
  inv : Inv s → Inv t

theorem Keeps.refl (s : State) : Keeps s s := ⟨rfl, rfl, le_rfl, id⟩

theorem Keeps.put {s u v : State} (h : Keeps s u) (hq : v.pending = u.pending) (hb : v.board = u.board)
    (hf : u.free ≤ v.free) (hi : Inv u → Inv v) : Keeps s v :=
  ⟨hq.trans h.queue, hb.trans h.board, h.drawn.trans hf, fun x => hi (h.inv x)⟩

theorem Keeps.trans {s u v : State} (h : Keeps s u) (k : Keeps u v) : Keeps s v := h.put k.queue k.board k.drawn k.inv

/-- An update that touches nothing of what the relation looks at. -/
theorem Keeps.w {s u : State} {board : Board} {tb : TbState} {hf : HfState} {ft : FtState} {te : TeState} {mc : McState} {mctl : McCtl} {eu : EuState} {tu : TuState} {tp : TuPair} {px : PxState} {su : SuState} {xe : XeState} {cc : CcState} {mb : MbState} {nor : Tab NorSlot} {norBytes : Tab Byte} {sec : SecState} {opt : OptState} {lg : LgState} {rpm : RpmState} {rpmx : RpmMore} {th : ThState} {pm : PmState} {dump : Dump} {latch : List (Agent × LoReg × Nat)} {noteLatch : List (Agent × Nat × Note)} {out : List Out} {free : Nat} {pending : List Instr}
    (h : Keeps s u) (kq : pending = u.pending) (kb : board = u.board) (hft : ft.lines = u.ft.lines)
    (hml : mc.mlines = u.mc.mlines) (hsl : mc.slots = u.mc.slots) (hmap : te.map = u.te.map) (hsr : cc.sram = u.cc.sram)
    (hn : norBytes = u.norBytes) (hp : opt.pages = u.opt.pages) (hc : tb.count = u.tb.count) (hfr : tb.frac = u.tb.frac)
    (kf : u.free ≤ free) : Keeps s (State.mk board tb hf ft te mc mctl eu tu tp px su xe cc mb nor norBytes sec opt lg rpm rpmx th pm dump latch noteLatch out free pending) :=
  h.put kq kb kf (fun x => ⟨⟨hft ▸ x.mem.lines, hml ▸ x.mem.mlines, hsl ▸ x.mem.slots, hmap ▸ x.mem.map,
    hsr ▸ x.mem.sram, hn ▸ x.mem.nor, hp ▸ x.mem.pages⟩, by simp only [tbOk, hc, hfr]; exact x.tb⟩)

/-- An update of memories that keeps their form. -/
theorem Keeps.m {s u : State} {board : Board} {tb : TbState} {hf : HfState} {ft : FtState} {te : TeState} {mc : McState} {mctl : McCtl} {eu : EuState} {tu : TuState} {tp : TuPair} {px : PxState} {su : SuState} {xe : XeState} {cc : CcState} {mb : MbState} {nor : Tab NorSlot} {norBytes : Tab Byte} {sec : SecState} {opt : OptState} {lg : LgState} {rpm : RpmState} {rpmx : RpmMore} {th : ThState} {pm : PmState} {dump : Dump} {latch : List (Agent × LoReg × Nat)} {noteLatch : List (Agent × Nat × Note)} {out : List Out} {free : Nat} {pending : List Instr}
    (h : Keeps s u) (kq : pending = u.pending) (kb : board = u.board) (hft : Tab.wf zeroLine u.ft.lines = true → Tab.wf zeroLine ft.lines = true)
    (hml : Tab.wf zeroLine u.mc.mlines = true → Tab.wf zeroLine mc.mlines = true)
    (hsl : Tab.wf none u.mc.slots = true → Tab.wf none mc.slots = true)
    (hmap : Tab.wf .unmapped u.te.map = true → Tab.wf .unmapped te.map = true)
    (hsr : Tab.wf 0 u.cc.sram = true → Tab.wf 0 cc.sram = true)
    (hn : Tab.wf 0xFF u.norBytes = true → Tab.wf 0xFF norBytes = true)
    (hp : Tab.wf {} u.opt.pages = true → Tab.wf {} opt.pages = true)
    (ht : u.tb.count < 2 ^ 64 ∧ u.tb.frac < 2 ^ 32 → tb.count < 2 ^ 64 ∧ tb.frac < 2 ^ 32)
    (kf : u.free ≤ free) : Keeps s (State.mk board tb hf ft te mc mctl eu tu tp px su xe cc mb nor norBytes sec opt lg rpm rpmx th pm dump latch noteLatch out free pending) :=
  h.put kq kb kf (fun x => ⟨⟨hft x.mem.lines, hml x.mem.mlines, hsl x.mem.slots, hmap x.mem.map, hsr x.mem.sram,
    hn x.mem.nor, hp x.mem.pages⟩, ht x.tb⟩)

theorem Keeps.ite {s u v : State} {c : Prop} [Decidable c] (h : Keeps s u) (k : Keeps s v) : Keeps s (if c then u else v) := by
  by_cases hc : c
  · rw [if_pos hc]; exact h
  · rw [if_neg hc]; exact k

theorem Keeps.foldl {α : Type} {s : State} {f : State → α → State} (hf : ∀ u a, Keeps s u → Keeps s (f u a)) (l : List α)
    {u : State} (h : Keeps s u) : Keeps s (l.foldl f u) := by
  induction l generalizing u with
  | nil => exact h
  | cons a l ih => exact ih (hf u a h)

end Sys2Proof.Laws
end

