-- ==== Sys2Proof/Laws/KeepsOps.lean ====
section
/-! SUPPORT. What the operations of Machine/Ops.lean leave as it is. -/

namespace Sys2Proof.Laws

open Sys2Proof Sys2Proof.Machine Sys2Proof.Safety

theorem State.modChan_keeps {s u : State} {a1 a2} (h : Keeps s u) : Keeps s (State.modChan u a1 a2) := by
  unfold State.modChan
  iterate 20 all_goals try with_reducible first | assumption | split | (refine .w ?_ rfl rfl rfl rfl rfl rfl rfl rfl rfl rfl rfl le_rfl) | intro _ | dsimp only

theorem State.modCpu_keeps {s u : State} {a1 a2} (h : Keeps s u) : Keeps s (State.modCpu u a1 a2) := by
  unfold State.modCpu
  iterate 20 all_goals try with_reducible first | assumption | split | (refine .w ?_ rfl rfl rfl rfl rfl rfl rfl rfl rfl rfl rfl le_rfl) | intro _ | dsimp only

theorem State.modFn_keeps {s u : State} {a1 a2 a3} (h : Keeps s u) : Keeps s (State.modFn u a1 a2 a3) := by
  unfold State.modFn
  iterate 20 all_goals try with_reducible first | assumption | split | (refine .w ?_ rfl rfl rfl rfl rfl rfl rfl rfl rfl rfl rfl le_rfl) | intro _ | dsimp only

theorem State.modFrame_keeps {s u : State} {a1 a2} (h : Keeps s u) : Keeps s (State.modFrame u a1 a2) := by
  unfold State.modFrame
  iterate 20 all_goals try with_reducible first | assumption | split | (refine .w ?_ rfl rfl rfl rfl rfl rfl rfl rfl rfl rfl rfl le_rfl) | intro _ | dsimp only

theorem State.modFtDev_keeps {s u : State} {a1 a2} (h : Keeps s u) : Keeps s (State.modFtDev u a1 a2) := by
  unfold State.modFtDev
  iterate 20 all_goals try with_reducible first | assumption | split | (refine .w ?_ rfl rfl rfl rfl rfl rfl rfl rfl rfl rfl rfl le_rfl) | intro _ | dsimp only

theorem State.modLd_keeps {s u : State} {a1 a2 a3} (h : Keeps s u) : Keeps s (State.modLd u a1 a2 a3) := by
  unfold State.modLd
  iterate 20 all_goals try with_reducible first | assumption | split | (refine .w ?_ rfl rfl rfl rfl rfl rfl rfl rfl rfl rfl rfl le_rfl) | intro _ | dsimp only

theorem State.modMbox_keeps {s u : State} {a1 a2} (h : Keeps s u) : Keeps s (State.modMbox u a1 a2) := by
  unfold State.modMbox
  iterate 20 all_goals try with_reducible first | assumption | split | (refine .w ?_ rfl rfl rfl rfl rfl rfl rfl rfl rfl rfl rfl le_rfl) | intro _ | dsimp only

theorem State.modPort_keeps {s u : State} {a1 a2} (h : Keeps s u) : Keeps s (State.modPort u a1 a2) := by
  unfold State.modPort
  iterate 20 all_goals try with_reducible first | assumption | split | (refine .w ?_ rfl rfl rfl rfl rfl rfl rfl rfl rfl rfl rfl le_rfl) | intro _ | dsimp only

theorem State.modSeg_keeps {s u : State} {a1 a2} (h : Keeps s u) : Keeps s (State.modSeg u a1 a2) := by
  unfold State.modSeg
  iterate 20 all_goals try with_reducible first | assumption | split | (refine .w ?_ rfl rfl rfl rfl rfl rfl rfl rfl rfl rfl rfl le_rfl) | intro _ | dsimp only

theorem State.modTurf_keeps {s u : State} {a1 a2} (h : Keeps s u) : Keeps s (State.modTurf u a1 a2) := by
  unfold State.modTurf
  iterate 20 all_goals try with_reducible first | assumption | split | (refine .w ?_ rfl rfl rfl rfl rfl rfl rfl rfl rfl rfl rfl le_rfl) | intro _ | dsimp only

theorem commitStart_keeps {s u : State} (h : Keeps s u) : Keeps s (commitStart u) := by
  unfold commitStart
  iterate 20 all_goals try with_reducible first | assumption | split | (refine .w ?_ rfl rfl rfl rfl rfl rfl rfl rfl rfl rfl rfl le_rfl) | intro _ | dsimp only

theorem commit_keeps {s u : State} {a0} (h : Keeps s u) : Keeps s (commit a0 u) := by
  unfold commit
  iterate 20 all_goals try with_reducible first | assumption | split | apply commitStart_keeps | (refine .w ?_ rfl rfl rfl rfl rfl rfl rfl rfl rfl rfl rfl le_rfl) | intro _ | dsimp only

theorem countQuiet_keeps {s u : State} {a0 a1 a2} (h : Keeps s u) : Keeps s (countQuiet a0 a1 a2 u) := by
  unfold countQuiet
  iterate 20 all_goals try with_reducible first | assumption | split | (refine .w ?_ rfl rfl rfl rfl rfl rfl rfl rfl rfl rfl rfl le_rfl) | intro _ | dsimp only

theorem emit_keeps {s u : State} {a0} (h : Keeps s u) : Keeps s (emit a0 u) := by
  unfold emit
  iterate 20 all_goals try with_reducible first | assumption | split | (refine .w ?_ rfl rfl rfl rfl rfl rfl rfl rfl rfl rfl rfl le_rfl) | intro _ | dsimp only

theorem fire_keeps {s u : State} {a0 a1 a2} (h : Keeps s u) : Keeps s (fire a0 a1 a2 u) := by
  unfold fire
  iterate 20 all_goals try with_reducible first | assumption | split | apply emit_keeps | apply State.modFn_keeps | (refine .w ?_ rfl rfl rfl rfl rfl rfl rfl rfl rfl rfl rfl le_rfl) | intro _ | dsimp only

theorem notePut_keeps {s u : State} {a0 a1 a2 a3} (h : Keeps s u) : Keeps s (notePut a0 a1 a2 a3 u) := by
  unfold notePut
  iterate 20 all_goals try with_reducible first | assumption | split | apply countQuiet_keeps | apply State.modMbox_keeps | apply fire_keeps | (refine .w ?_ rfl rfl rfl rfl rfl rfl rfl rfl rfl rfl rfl le_rfl) | intro _ | dsimp only

theorem route_keeps {s u : State} {a0 a1 a2 a3} (h : Keeps s u) : Keeps s (route a0 a1 a2 a3 u) := by
  unfold route
  iterate 20 all_goals try with_reducible first | assumption | split | apply notePut_keeps | (apply Keeps.foldl; intros) | (refine .w ?_ rfl rfl rfl rfl rfl rfl rfl rfl rfl rfl rfl le_rfl) | intro _ | dsimp only

theorem count_keeps {s u : State} {a0 a1 a2 a3} (h : Keeps s u) : Keeps s (count a0 a1 a2 a3 u) := by
  unfold count
  iterate 20 all_goals try with_reducible first | assumption | split | apply route_keeps | (apply Keeps.foldl; intros) | (refine .w ?_ rfl rfl rfl rfl rfl rfl rfl rfl rfl rfl rfl le_rfl) | intro _ | dsimp only

theorem raise_keeps {s u : State} {a0 a1 a2 a3} (h : Keeps s u) : Keeps s (raise a0 a1 a2 a3 u) := by
  unfold raise
  iterate 20 all_goals try with_reducible first | assumption | split | apply route_keeps | apply count_keeps | (refine .w ?_ rfl rfl rfl rfl rfl rfl rfl rfl rfl rfl rfl le_rfl) | intro _ | dsimp only

theorem spareEvents_keeps {s u : State} {a0} (h : Keeps s u) : Keeps s (spareEvents a0 u) := by
  unfold spareEvents
  iterate 20 all_goals try with_reducible first | assumption | split | apply raise_keeps | (refine .w ?_ rfl rfl rfl rfl rfl rfl rfl rfl rfl rfl rfl le_rfl) | intro _ | dsimp only

@[simp] theorem wear_pages (o : OptState) (p : OptPage) : (wear o p).1.pages = o.pages := by
  unfold wear; split <;> rfl

theorem commitPage_wf (k : Nat) (w : Bool) (img : BitVec 512) (o : OptState) (h : Tab.wf {} o.pages = true) :
    Tab.wf {} (commitPage k w img o).pages = true := by
  unfold commitPage
  exact wf_set _ _ _ _ (by simpa using h)

theorem commitApply_keeps {s u : State} {c} (h : Keeps s u) : Keeps s (commitApply c u) := by
  refine spareEvents_keeps (count_keeps ?_)
  exact .m h rfl rfl id id id id id id (commitPage_wf _ _ _ _) id le_rfl

theorem countAccErr_keeps {s u : State} {a0 a1} (h : Keeps s u) : Keeps s (countAccErr a0 a1 u) := by
  unfold countAccErr
  iterate 20 all_goals try with_reducible first | assumption | split | apply State.modFn_keeps | (refine .w ?_ rfl rfl rfl rfl rfl rfl rfl rfl rfl rfl rfl le_rfl) | intro _ | dsimp only

theorem ldLog_keeps {s u : State} {a0 a1 a2 a3 a4 a5} (h : Keeps s u) : Keeps s (ldLog a0 a1 a2 a3 a4 a5 u) := by
  unfold ldLog
  iterate 20 all_goals try with_reducible first | assumption | split | apply State.modLd_keeps | apply fire_keeps | (refine .w ?_ rfl rfl rfl rfl rfl rfl rfl rfl rfl rfl rfl le_rfl) | intro _ | dsimp only

theorem cxlLog_keeps {s u : State} {a0 a1 a2 a3 a4} (h : Keeps s u) : Keeps s (cxlLog a0 a1 a2 a3 a4 u) := by
  unfold cxlLog
  iterate 20 all_goals try with_reducible first | assumption | split | apply ldLog_keeps | (apply Keeps.foldl; intros) | (refine .w ?_ rfl rfl rfl rfl rfl rfl rfl rfl rfl rfl rfl le_rfl) | intro _ | dsimp only

theorem draw_keeps {s u : State} (h : Keeps s u) : Keeps s (draw u) := h.put rfl rfl (Nat.le_succ _) (fun x => ⟨⟨x.mem.1, x.mem.2, x.mem.3, x.mem.4, x.mem.5, x.mem.6, x.mem.7⟩, x.tb⟩)

theorem logAer_keeps {s u : State} {a0 a1 a2} (h : Keeps s u) : Keeps s (logAer a0 a1 a2 u) := by
  unfold logAer
  iterate 20 all_goals try with_reducible first | assumption | split | apply emit_keeps | apply State.modFn_keeps | (refine .w ?_ rfl rfl rfl rfl rfl rfl rfl rfl rfl rfl rfl le_rfl) | intro _ | dsimp only

theorem fnWrite_keeps {s u : State} {a0 a1 f2} (hf2 : ∀ v, Keeps s v → Keeps s (f2 v)) (h : Keeps s u) : Keeps s (fnWrite a0 a1 f2 u) := by
  unfold fnWrite
  iterate 20 all_goals try with_reducible first | assumption | split | apply hf2 | apply logAer_keeps | (refine .w ?_ rfl rfl rfl rfl rfl rfl rfl rfl rfl rfl rfl le_rfl) | intro _ | dsimp only

theorem intCause_keeps {s u : State} {a0 a1 a2} (h : Keeps s u) : Keeps s (intCause a0 a1 a2 u) := by
  unfold intCause
  iterate 20 all_goals try with_reducible first | assumption | split | apply State.modFn_keeps | apply fire_keeps | (refine .w ?_ rfl rfl rfl rfl rfl rfl rfl rfl rfl rfl rfl le_rfl) | intro _ | dsimp only

theorem intCauseAll_keeps {s u : State} {a0} (h : Keeps s u) : Keeps s (intCauseAll a0 u) := by
  unfold intCauseAll
  iterate 20 all_goals try with_reducible first | assumption | split | apply intCause_keeps | (apply Keeps.foldl; intros) | (refine .w ?_ rfl rfl rfl rfl rfl rfl rfl rfl rfl rfl rfl le_rfl) | intro _ | dsimp only

theorem lgRaise_keeps {s u : State} (h : Keeps s u) : Keeps s (lgRaise u) := by
  unfold lgRaise
  iterate 20 all_goals try with_reducible first | assumption | split | apply commit_keeps | (refine .w ?_ rfl rfl rfl rfl rfl rfl rfl rfl rfl rfl rfl le_rfl) | intro _ | dsimp only

theorem lgPut_keeps {s u : State} {a0} (h : Keeps s u) : Keeps s (lgPut a0 u) := by
  unfold lgPut
  iterate 20 all_goals try with_reducible first | assumption | split | apply count_keeps | (refine .w ?_ rfl rfl rfl rfl rfl rfl rfl rfl rfl rfl rfl le_rfl) | intro _ | dsimp only

theorem lgDrop_keeps {s u : State} {a0} (h : Keeps s u) : Keeps s (lgDrop a0 u) := by
  unfold lgDrop
  iterate 20 all_goals try with_reducible first | assumption | split | (refine .w ?_ rfl rfl rfl rfl rfl rfl rfl rfl rfl rfl rfl le_rfl) | intro _ | dsimp only

theorem lgEvent_keeps {s u : State} {a0} (h : Keeps s u) : Keeps s (lgEvent a0 u) := by
  unfold lgEvent
  iterate 20 all_goals try with_reducible first | assumption | split | apply lgPut_keeps | apply lgDrop_keeps | apply raise_keeps | (refine .w ?_ rfl rfl rfl rfl rfl rfl rfl rfl rfl rfl rfl le_rfl) | intro _ | dsimp only

theorem lgStage_keeps {s u : State} {a0} (h : Keeps s u) : Keeps s (lgStage a0 u) := by
  unfold lgStage
  iterate 20 all_goals try with_reducible first | assumption | split | apply lgRaise_keeps | apply lgEvent_keeps | (refine .w ?_ rfl rfl rfl rfl rfl rfl rfl rfl rfl rfl rfl le_rfl) | intro _ | dsimp only

theorem ledger_keeps {s u : State} {a0 a1 a2} (h : Keeps s u) : Keeps s (ledger a0 a1 a2 u) := by
  unfold ledger
  iterate 20 all_goals try with_reducible first | assumption | split | apply lgStage_keeps | (refine .w ?_ rfl rfl rfl rfl rfl rfl rfl rfl rfl rfl rfl le_rfl) | intro _ | dsimp only

theorem pauseWait_keeps {s u : State} {a0} (h : Keeps s u) : Keeps s (pauseWait a0 u) := by
  unfold pauseWait
  iterate 20 all_goals try with_reducible first | assumption | split | apply count_keeps | (refine .w ?_ rfl rfl rfl rfl rfl rfl rfl rfl rfl rfl rfl le_rfl) | intro _ | dsimp only

theorem raiseTo_keeps {s u : State} {a0 a1 a2 a3} (h : Keeps s u) : Keeps s (raiseTo a0 a1 a2 a3 u) := by
  unfold raiseTo
  iterate 20 all_goals try with_reducible first | assumption | split | apply notePut_keeps | apply count_keeps | (apply Keeps.foldl; intros) | (refine .w ?_ rfl rfl rfl rfl rfl rfl rfl rfl rfl rfl rfl le_rfl) | intro _ | dsimp only

theorem regRead_keeps {s u : State} {a0 a1 a2 f3} (hf3 : ∀ v, Keeps s v → Keeps s (f3 v)) (h : Keeps s u) : Keeps s (regRead a0 a1 a2 f3 u) := by
  unfold regRead
  iterate 20 all_goals try with_reducible first | assumption | split | apply hf3 | apply emit_keeps | apply fnWrite_keeps | (refine .w ?_ rfl rfl rfl rfl rfl rfl rfl rfl rfl rfl rfl le_rfl) | intro _ | dsimp only

theorem regWrite_keeps {s u : State} {a0 f1} (hf1 : ∀ v, Keeps s v → Keeps s (f1 v)) (h : Keeps s u) : Keeps s (regWrite a0 f1 u) := by
  unfold regWrite
  iterate 20 all_goals try with_reducible first | assumption | split | apply hf1 | apply fnWrite_keeps | apply countAccErr_keeps | (refine .w ?_ rfl rfl rfl rfl rfl rfl rfl rfl rfl rfl rfl le_rfl) | intro _ | dsimp only

theorem sampleLat_keeps {s u : State} {a0 a1 a2 a3 a4} (h : Keeps s u) : Keeps s (sampleLat a0 a1 a2 a3 a4 u) := by
  unfold sampleLat
  iterate 20 all_goals try with_reducible first | assumption | split | apply draw_keeps | apply count_keeps | apply raise_keeps | (refine .w ?_ rfl rfl rfl rfl rfl rfl rfl rfl rfl rfl rfl le_rfl) | intro _ | dsimp only

theorem sample_keeps {s u : State} {a0 a1 a2 a3} (h : Keeps s u) : Keeps s (sample a0 a1 a2 a3 u) := by
  unfold sample
  iterate 20 all_goals try with_reducible first | assumption | split | apply sampleLat_keeps | (refine .w ?_ rfl rfl rfl rfl rfl rfl rfl rfl rfl rfl rfl le_rfl) | intro _ | dsimp only

theorem when__keeps {s u : State} {a0 f1} (hf1 : ∀ v, Keeps s v → Keeps s (f1 v)) (h : Keeps s u) : Keeps s (when_ a0 f1 u) := by
  unfold when_
  iterate 20 all_goals try with_reducible first | assumption | split | apply hf1 | (refine .w ?_ rfl rfl rfl rfl rfl rfl rfl rfl rfl rfl rfl le_rfl) | intro _ | dsimp only

end Sys2Proof.Laws
end

