-- ==== Sys2Proof/Laws/KeepsOperands.lean ====
section
/-! SUPPORT. What the operations of Machine/Operands.lean leave as it is. -/

namespace Sys2Proof.Laws

open Sys2Proof Sys2Proof.Machine Sys2Proof.Safety

theorem setRan_keeps {s u : State} {a0} (h : Keeps s u) : Keeps s (setRan a0 u) := by
  unfold setRan
  iterate 20 all_goals try with_reducible first | assumption | split | apply State.modMbox_keeps | (refine .w ?_ rfl rfl rfl rfl rfl rfl rfl rfl rfl rfl rfl le_rfl) | intro _ | dsimp only

theorem outArea_keeps {s u : State} {a0 a1 a2 a3} (h : Keeps s u) : Keeps s (outArea a0 a1 a2 a3 u) := by
  unfold outArea
  iterate 20 all_goals try with_reducible first | assumption | split | apply emit_keeps | (refine .w ?_ rfl rfl rfl rfl rfl rfl rfl rfl rfl rfl rfl le_rfl) | intro _ | dsimp only

theorem linkSend_keeps {s u : State} {a0} (h : Keeps s u) : Keeps s (linkSend a0 u) := by
  unfold linkSend
  iterate 20 all_goals try with_reducible first | assumption | split | apply count_keeps | apply emit_keeps | (refine .w ?_ rfl rfl rfl rfl rfl rfl rfl rfl rfl rfl rfl le_rfl) | intro _ | dsimp only

theorem mbIrq_keeps {s u : State} {a0} (h : Keeps s u) : Keeps s (mbIrq a0 u) := by
  unfold mbIrq
  iterate 20 all_goals try with_reducible first | assumption | split | apply fire_keeps | apply emit_keeps | (refine .w ?_ rfl rfl rfl rfl rfl rfl rfl rfl rfl rfl rfl le_rfl) | intro _ | dsimp only

theorem replyNow_keeps {s u : State} {a0 a1 a2 a3 a4 a5} (h : Keeps s u) : Keeps s (replyNow a0 a1 a2 a3 a4 a5 u) := by
  unfold replyNow
  iterate 20 all_goals try with_reducible first | assumption | split | apply outArea_keeps | apply count_keeps | apply linkSend_keeps | apply State.modMbox_keeps | apply mbIrq_keeps | (refine .w ?_ rfl rfl rfl rfl rfl rfl rfl rfl rfl rfl rfl le_rfl) | intro _ | dsimp only

theorem replyWith_keeps {s u : State} {a0 a1 a2 a3 a4 a5} (h : Keeps s u) : Keeps s (replyWith a0 a1 a2 a3 a4 a5 u) := by
  unfold replyWith
  iterate 20 all_goals try with_reducible first | assumption | split | apply State.modMbox_keeps | apply replyNow_keeps | (refine .w ?_ rfl rfl rfl rfl rfl rfl rfl rfl rfl rfl rfl le_rfl) | intro _ | dsimp only

theorem reply_keeps {s u : State} {a0 a1 a2 a3} (h : Keeps s u) : Keeps s (reply a0 a1 a2 a3 u) := by
  unfold reply
  iterate 20 all_goals try with_reducible first | assumption | split | apply State.modMbox_keeps | apply replyWith_keeps | (refine .w ?_ rfl rfl rfl rfl rfl rfl rfl rfl rfl rfl rfl le_rfl) | intro _ | dsimp only

theorem cmdRun_keeps {s u : State} {a0 a1 f2} (hf2 : ∀ v, Keeps s v → Keeps s (f2 v)) (h : Keeps s u) : Keeps s (cmdRun a0 a1 f2 u) := by
  unfold cmdRun
  iterate 20 all_goals try with_reducible first | assumption | split | apply hf2 | apply reply_keeps | (refine .w ?_ rfl rfl rfl rfl rfl rfl rfl rfl rfl rfl rfl le_rfl) | intro _ | dsimp only

theorem emptied_keeps {s u : State} {a0 a1} (h : Keeps s u) : Keeps s (emptied a0 a1 u) := by
  unfold emptied
  iterate 20 all_goals try with_reducible first | assumption | split | apply mbIrq_keeps | (refine .w ?_ rfl rfl rfl rfl rfl rfl rfl rfl rfl rfl rfl le_rfl) | intro _ | dsimp only

theorem takeDirect_keeps {s u : State} {a0 a1} (h : Keeps s u) : Keeps s (takeDirect a0 a1 u) := by
  unfold takeDirect
  iterate 20 all_goals try with_reducible first | assumption | split | apply count_keeps | apply State.modMbox_keeps | (refine .w ?_ rfl rfl rfl rfl rfl rfl rfl rfl rfl rfl rfl le_rfl) | intro _ | dsimp only

theorem atorn_keeps {s u : State} {a0 a1 a2 a3 a4 f5} (hf5 : ∀ v, Keeps s v → Keeps s (f5 v)) (h : Keeps s u) : Keeps s (atorn a0 a1 a2 a3 a4 f5 u) := by
  unfold atorn
  iterate 20 all_goals try with_reducible first | assumption | split | apply hf5 | apply setRan_keeps | apply cmdRun_keeps | apply reply_keeps | apply emptied_keeps | apply count_keeps | apply replyWith_keeps | apply takeDirect_keeps | (refine .w ?_ rfl rfl rfl rfl rfl rfl rfl rfl rfl rfl rfl le_rfl) | intro _ | dsimp only

theorem atornQ_keeps {s u : State} {a0 a1 a2 f3} (hf3 : ∀ v, Keeps s v → Keeps s (f3 v)) (h : Keeps s u) : Keeps s (atornQ a0 a1 a2 f3 u) := by
  unfold atornQ
  iterate 20 all_goals try with_reducible first | assumption | split | apply hf3 | apply atorn_keeps | (refine .w ?_ rfl rfl rfl rfl rfl rfl rfl rfl rfl rfl rfl le_rfl) | intro _ | dsimp only

theorem setCommitted_keeps {s u : State} {a0} (h : Keeps s u) : Keeps s (setCommitted a0 u) := by
  unfold setCommitted
  iterate 20 all_goals try with_reducible first | assumption | split | apply State.modMbox_keeps | (refine .w ?_ rfl rfl rfl rfl rfl rfl rfl rfl rfl rfl rfl le_rfl) | intro _ | dsimp only

theorem endBlock_keeps {s u : State} {a0 a1 a2} (h : Keeps s u) : Keeps s (endBlock a0 a1 a2 u) := by
  unfold endBlock
  iterate 20 all_goals try with_reducible first | assumption | split | apply reply_keeps | apply setCommitted_keeps | (refine .w ?_ rfl rfl rfl rfl rfl rfl rfl rfl rfl rfl rfl le_rfl) | intro _ | dsimp only

theorem ok_keeps {s u : State} {a0 a1} (h : Keeps s u) : Keeps s (ok a0 a1 u) := by
  unfold ok
  iterate 20 all_goals try with_reducible first | assumption | split | apply reply_keeps | (refine .w ?_ rfl rfl rfl rfl rfl rfl rfl rfl rfl rfl rfl le_rfl) | intro _ | dsimp only

theorem query_keeps {s u : State} {a0 a1 a2} (h : Keeps s u) : Keeps s (query a0 a1 a2 u) := by
  unfold query
  iterate 20 all_goals try with_reducible first | assumption | split | apply atornQ_keeps | apply ok_keeps | (refine .w ?_ rfl rfl rfl rfl rfl rfl rfl rfl rfl rfl rfl le_rfl) | intro _ | dsimp only

theorem twinCmd_keeps {s u : State} {a0 a1} (h : Keeps s u) : Keeps s (twinCmd a0 a1 u) := by
  unfold twinCmd
  iterate 20 all_goals try with_reducible first | assumption | split | apply linkSend_keeps | (refine .w ?_ rfl rfl rfl rfl rfl rfl rfl rfl rfl rfl rfl le_rfl) | intro _ | dsimp only

end Sys2Proof.Laws
end

