-- ==== Sys2Proof/Laws/KeepsControl.lean ====
section
/-! SUPPORT. What the operations of Machine/Control.lean leave as it is. -/

namespace Sys2Proof.Laws

open Sys2Proof Sys2Proof.Machine Sys2Proof.Safety

theorem dropWaits_keeps {s u : State} (h : Keeps s u) : Keeps s (dropWaits u) := by
  unfold dropWaits
  iterate 20 all_goals try with_reducible first | assumption | split | (refine .w ?_ rfl rfl rfl rfl rfl rfl rfl rfl rfl rfl rfl le_rfl) | intro _ | dsimp only

theorem ringEntry_keeps {s u : State} {a0 a1 a2 a3 a4 a5 a6 a7 a8} (h : Keeps s u) : Keeps s (ringEntry a0 a1 a2 a3 a4 a5 a6 a7 a8 u) := by
  unfold ringEntry
  iterate 20 all_goals try with_reducible first | assumption | split | apply emit_keeps | (refine .w ?_ rfl rfl rfl rfl rfl rfl rfl rfl rfl rfl rfl le_rfl) | intro _ | dsimp only

theorem starveEntry_keeps {s u : State} {a0 a1 a2 a3 a4 a5 a6} (h : Keeps s u) : Keeps s (starveEntry a0 a1 a2 a3 a4 a5 a6 u) := by
  unfold starveEntry
  iterate 20 all_goals try with_reducible first | assumption | split | apply ringEntry_keeps | apply State.modChan_keeps | apply raise_keeps | apply count_keeps | (refine .w ?_ rfl rfl rfl rfl rfl rfl rfl rfl rfl rfl rfl le_rfl) | intro _ | dsimp only

theorem streamNotify_keeps {s u : State} {a0} (h : Keeps s u) : Keeps s (streamNotify a0 u) := by
  unfold streamNotify
  iterate 20 all_goals try with_reducible first | assumption | split | apply linkSend_keeps | (refine .w ?_ rfl rfl rfl rfl rfl rfl rfl rfl rfl rfl rfl le_rfl) | intro _ | dsimp only

theorem stopEnd_keeps {s u : State} {a0 a1} (h : Keeps s u) : Keeps s (stopEnd a0 a1 u) := by
  unfold stopEnd
  iterate 20 all_goals try with_reducible first | assumption | split | apply starveEntry_keeps | apply State.modChan_keeps | apply streamNotify_keeps | (refine .w ?_ rfl rfl rfl rfl rfl rfl rfl rfl rfl rfl rfl le_rfl) | intro _ | dsimp only

theorem stopChan_keeps {s u : State} {a0 a1} (h : Keeps s u) : Keeps s (stopChan a0 a1 u) := by
  unfold stopChan
  iterate 20 all_goals try with_reducible first | assumption | split | apply stopEnd_keeps | apply State.modChan_keeps | (refine .w ?_ rfl rfl rfl rfl rfl rfl rfl rfl rfl rfl rfl le_rfl) | intro _ | dsimp only

theorem freeUncounted_keeps {s u : State} (h : Keeps s u) : Keeps s (freeUncounted u) := by
  unfold freeUncounted
  iterate 20 all_goals try with_reducible first | assumption | split | (apply Keeps.foldl; intros) | (refine .w ?_ rfl rfl rfl rfl rfl rfl rfl rfl rfl rfl rfl le_rfl) | (refine .m ?_ rfl rfl ?_ ?_ ?_ ?_ ?_ ?_ ?_ ?_ le_rfl) | exact id | exact fun _ => wf_nil _ | exact wf_set _ _ _ _ | exact wf_upd _ _ _ _ | exact wf_clear _ _ _ _ | exact fun h => wf_set _ _ _ _ (wf_set _ _ _ _ h) | exact wf_foldl _ _ (fun t b ht => wf_set _ t _ _ ht) _ _ | exact fun h => wf_foldl _ _ (fun t b ht => wf_set _ t _ _ ht) _ _ (wf_clear _ _ _ _ h) | intro _ | dsimp only

theorem emberEnter_keeps {s u : State} {a0} (h : Keeps s u) : Keeps s (emberEnter a0 u) := by
  unfold emberEnter
  iterate 20 all_goals try with_reducible first | assumption | split | apply intCauseAll_keeps | apply raiseTo_keeps | apply stopChan_keeps | apply dropWaits_keeps | apply freeUncounted_keeps | (apply Keeps.foldl; intros) | (refine .w ?_ rfl rfl rfl rfl rfl rfl rfl rfl rfl rfl rfl le_rfl) | intro _ | dsimp only

theorem fatalAll_keeps {s u : State} (h : Keeps s u) : Keeps s (fatalAll u) := by
  unfold fatalAll
  iterate 20 all_goals try with_reducible first | assumption | split | apply emit_keeps | apply State.modFn_keeps | (apply Keeps.foldl; intros) | (refine .w ?_ rfl rfl rfl rfl rfl rfl rfl rfl rfl rfl rfl le_rfl) | intro _ | dsimp only

theorem holdChan_keeps {s u : State} {a0 a1} (h : Keeps s u) : Keeps s (holdChan a0 a1 u) := by
  unfold holdChan
  iterate 20 all_goals try with_reducible first | assumption | split | apply streamNotify_keeps | apply State.modChan_keeps | (refine .w ?_ rfl rfl rfl rfl rfl rfl rfl rfl rfl rfl rfl le_rfl) | intro _ | dsimp only

theorem holdAll_keeps {s u : State} {a0} (h : Keeps s u) : Keeps s (holdAll a0 u) := by
  unfold holdAll
  iterate 20 all_goals try with_reducible first | assumption | split | apply holdChan_keeps | (apply Keeps.foldl; intros) | (refine .w ?_ rfl rfl rfl rfl rfl rfl rfl rfl rfl rfl rfl le_rfl) | intro _ | dsimp only

theorem haltSent_keeps {s u : State} (h : Keeps s u) : Keeps s (haltSent u) := by
  unfold haltSent
  iterate 20 all_goals try with_reducible first | assumption | split | (refine .w ?_ rfl rfl rfl rfl rfl rfl rfl rfl rfl rfl rfl le_rfl) | intro _ | dsimp only

theorem pairWrite_keeps {s u : State} {a0 a1} (h : Keeps s u) : Keeps s (pairWrite a0 a1 u) := by
  unfold pairWrite
  iterate 20 all_goals try with_reducible first | assumption | split | apply commit_keeps | (refine .w ?_ rfl rfl rfl rfl rfl rfl rfl rfl rfl rfl rfl le_rfl) | intro _ | dsimp only

theorem setPs_keeps {s u : State} {a0} (h : Keeps s u) : Keeps s (setPs a0 u) := by
  unfold setPs
  iterate 20 all_goals try with_reducible first | assumption | split | apply intCauseAll_keeps | (refine .w ?_ rfl rfl rfl rfl rfl rfl rfl rfl rfl rfl rfl le_rfl) | intro _ | dsimp only

theorem markDiverged_keeps {s u : State} (h : Keeps s u) : Keeps s (markDiverged u) := by
  unfold markDiverged
  iterate 20 all_goals try with_reducible first | assumption | split | apply State.modSeg_keeps | (apply Keeps.foldl; intros) | (refine .w ?_ rfl rfl rfl rfl rfl rfl rfl rfl rfl rfl rfl le_rfl) | intro _ | dsimp only

theorem leaveByNotice_keeps {s u : State} (h : Keeps s u) : Keeps s (leaveByNotice u) := by
  unfold leaveByNotice
  iterate 20 all_goals try with_reducible first | assumption | split | apply pairWrite_keeps | apply setPs_keeps | apply markDiverged_keeps | (refine .w ?_ rfl rfl rfl rfl rfl rfl rfl rfl rfl rfl rfl le_rfl) | intro _ | dsimp only

theorem sendNotice_keeps {s u : State} {a0} (h : Keeps s u) : Keeps s (sendNotice a0 u) := by
  unfold sendNotice
  iterate 20 all_goals try with_reducible first | assumption | split | apply leaveByNotice_keeps | apply linkSend_keeps | (refine .w ?_ rfl rfl rfl rfl rfl rfl rfl rfl rfl rfl rfl le_rfl) | intro _ | dsimp only

theorem frontFailed_keeps {s u : State} (h : Keeps s u) : Keeps s (frontFailed u) := by
  unfold frontFailed
  iterate 20 all_goals try with_reducible first | assumption | split | apply fatalAll_keeps | apply holdAll_keeps | apply haltSent_keeps | apply sendNotice_keeps | apply emberEnter_keeps | (refine .w ?_ rfl rfl rfl rfl rfl rfl rfl rfl rfl rfl rfl le_rfl) | intro _ | dsimp only

theorem integrityHalt_keeps {s u : State} {a0 a1} (h : Keeps s u) : Keeps s (integrityHalt a0 a1 u) := by
  unfold integrityHalt
  iterate 20 all_goals try with_reducible first | assumption | split | apply fatalAll_keeps | apply holdAll_keeps | apply haltSent_keeps | apply sendNotice_keeps | apply ledger_keeps | apply raiseTo_keeps | (refine .w ?_ rfl rfl rfl rfl rfl rfl rfl rfl rfl rfl rfl le_rfl) | intro _ | dsimp only

theorem readyWatch_keeps {s u : State} {f0} (hf0 : ∀ v, Keeps s v → Keeps s (f0 v)) (h : Keeps s u) : Keeps s (readyWatch f0 u) := by
  unfold readyWatch
  iterate 20 all_goals try with_reducible first | assumption | split | apply hf0 | apply intCauseAll_keeps | (refine .w ?_ rfl rfl rfl rfl rfl rfl rfl rfl rfl rfl rfl le_rfl) | intro _ | dsimp only

end Sys2Proof.Laws
end

