-- ==== Sys2Proof/Laws/KeepsFrontOps.lean ====
section
/-! SUPPORT. What the operations of Machine/FrontOps.lean leave as it is. -/

namespace Sys2Proof.Laws

open Sys2Proof Sys2Proof.Machine Sys2Proof.Safety

theorem dropFrame_keeps {s u : State} {a0} (h : Keeps s u) : Keeps s (dropFrame a0 u) := by
  unfold dropFrame
  iterate 20 all_goals try with_reducible first | assumption | split | (refine .w ?_ rfl rfl rfl rfl rfl rfl rfl rfl rfl rfl rfl le_rfl) | (refine .m ?_ rfl rfl ?_ ?_ ?_ ?_ ?_ ?_ ?_ ?_ le_rfl) | exact id | exact fun _ => wf_nil _ | exact wf_set _ _ _ _ | exact wf_upd _ _ _ _ | exact wf_clear _ _ _ _ | exact fun h => wf_set _ _ _ _ (wf_set _ _ _ _ h) | intro _ | dsimp only

theorem releaseClean_keeps {s u : State} {a0} (h : Keeps s u) : Keeps s (releaseClean a0 u) := by
  unfold releaseClean
  iterate 20 all_goals try with_reducible first | assumption | split | apply dropFrame_keeps | (refine .w ?_ rfl rfl rfl rfl rfl rfl rfl rfl rfl rfl rfl le_rfl) | (refine .m ?_ rfl rfl ?_ ?_ ?_ ?_ ?_ ?_ ?_ ?_ le_rfl) | exact id | exact fun _ => wf_nil _ | exact wf_set _ _ _ _ | exact wf_upd _ _ _ _ | exact wf_clear _ _ _ _ | exact fun h => wf_set _ _ _ _ (wf_set _ _ _ _ h) | intro _ | dsimp only

theorem retireStart_keeps {s u : State} {a0} (h : Keeps s u) : Keeps s (retireStart a0 u) := by
  unfold retireStart
  iterate 20 all_goals try with_reducible first | assumption | split | apply State.modFtDev_keeps | apply ledger_keeps | apply raise_keeps | apply releaseClean_keeps | (apply Keeps.foldl; intros) | (refine .w ?_ rfl rfl rfl rfl rfl rfl rfl rfl rfl rfl rfl le_rfl) | intro _ | dsimp only

theorem candidate_keeps {s u : State} {a0} (h : Keeps s u) : Keeps s (candidate a0 u) := by
  unfold candidate
  iterate 20 all_goals try with_reducible first | assumption | split | apply retireStart_keeps | apply frontFailed_keeps | (refine .w ?_ rfl rfl rfl rfl rfl rfl rfl rfl rfl rfl rfl le_rfl) | intro _ | dsimp only

theorem ftAccess_keeps {s u : State} {a0 a1} (h : Keeps s u) : Keeps s (ftAccess a0 a1 u) := by
  unfold ftAccess
  iterate 20 all_goals try with_reducible first | assumption | split | apply count_keeps | (refine .w ?_ rfl rfl rfl rfl rfl rfl rfl rfl rfl rfl rfl le_rfl) | intro _ | dsimp only

theorem checkRead_keeps {s u : State} {a0 a1} (h : Keeps s u) : Keeps s (checkRead a0 a1 u) := by
  unfold checkRead
  iterate 20 all_goals try with_reducible first | assumption | split | apply State.modFtDev_keeps | apply ftAccess_keeps | apply count_keeps | (refine .w ?_ rfl rfl rfl rfl rfl rfl rfl rfl rfl rfl rfl le_rfl) | intro _ | dsimp only

theorem checkWrite_keeps {s u : State} {a0 a1} (h : Keeps s u) : Keeps s (checkWrite a0 a1 u) := by
  unfold checkWrite
  iterate 20 all_goals try with_reducible first | assumption | split | apply State.modFtDev_keeps | (refine .w ?_ rfl rfl rfl rfl rfl rfl rfl rfl rfl rfl rfl le_rfl) | intro _ | dsimp only

theorem countEdc_keeps {s u : State} {a0 a1} (h : Keeps s u) : Keeps s (countEdc a0 a1 u) := by
  unfold countEdc
  iterate 20 all_goals try with_reducible first | assumption | split | apply State.modFtDev_keeps | (refine .w ?_ rfl rfl rfl rfl rfl rfl rfl rfl rfl rfl rfl le_rfl) | intro _ | dsimp only

theorem spareBegin_keeps2 {s u : State} {a b} (h : Keeps s u) : Keeps s (spareBegin a b u).2 := by
  unfold spareBegin
  iterate 20 all_goals try with_reducible first | assumption | dsimp only | split | apply raise_keeps | apply State.modFtDev_keeps | (refine .w ?_ rfl rfl rfl rfl rfl rfl rfl rfl rfl rfl rfl le_rfl)

theorem spareBegin_keeps {s u t : State} {a b x} (e : spareBegin a b u = (x, t)) (h : Keeps s u) : Keeps s t := by
  have k : Keeps s (spareBegin a b u).2 := spareBegin_keeps2 h; rw [e] at k; exact k

theorem spareRow_keeps {s u : State} {a0 a1} (h : Keeps s u) : Keeps s (spareRow a0 a1 u) := by
  unfold spareRow
  iterate 20 all_goals try with_reducible first | assumption | split | refine spareBegin_keeps ‹_› ?_ | refine spareBegin_keeps2 ?_ | apply candidate_keeps | (refine .w ?_ rfl rfl rfl rfl rfl rfl rfl rfl rfl rfl rfl le_rfl) | intro _ | dsimp only

theorem onCorrected_keeps {s u : State} {a0 a1} (h : Keeps s u) : Keeps s (onCorrected a0 a1 u) := by
  unfold onCorrected
  iterate 20 all_goals try with_reducible first | assumption | split | apply count_keeps | apply State.modFtDev_keeps | apply spareRow_keeps | (refine .w ?_ rfl rfl rfl rfl rfl rfl rfl rfl rfl rfl rfl le_rfl) | intro _ | dsimp only

theorem ueReport_keeps {s u : State} {a0 a1} (h : Keeps s u) : Keeps s (ueReport a0 a1 u) := by
  unfold ueReport
  iterate 20 all_goals try with_reducible first | assumption | split | apply raise_keeps | apply State.modFtDev_keeps | (refine .w ?_ rfl rfl rfl rfl rfl rfl rfl rfl rfl rfl rfl le_rfl) | intro _ | dsimp only

theorem poisonAdd_keeps {s u : State} {a0 a1} (h : Keeps s u) : Keeps s (poisonAdd a0 a1 u) := by
  unfold poisonAdd
  iterate 20 all_goals try with_reducible first | assumption | split | (refine .w ?_ rfl rfl rfl rfl rfl rfl rfl rfl rfl rfl rfl le_rfl) | intro _ | dsimp only

theorem putLine_keeps {s u : State} {a0 a1 a2} (h : Keeps s u) : Keeps s (putLine a0 a1 a2 u) := by
  unfold putLine
  iterate 20 all_goals try with_reducible first | assumption | split | apply checkWrite_keeps | apply ftAccess_keeps | (refine .w ?_ rfl rfl rfl rfl rfl rfl rfl rfl rfl rfl rfl le_rfl) | (refine .m ?_ rfl rfl ?_ ?_ ?_ ?_ ?_ ?_ ?_ ?_ le_rfl) | exact id | exact fun _ => wf_nil _ | exact wf_set _ _ _ _ | exact wf_upd _ _ _ _ | exact wf_clear _ _ _ _ | exact fun h => wf_set _ _ _ _ (wf_set _ _ _ _ h) | intro _ | dsimp only

theorem poisonLine_keeps {s u : State} {a0 a1} (h : Keeps s u) : Keeps s (poisonLine a0 a1 u) := by
  unfold poisonLine
  iterate 20 all_goals try with_reducible first | assumption | split | apply poisonAdd_keeps | apply putLine_keeps | (refine .w ?_ rfl rfl rfl rfl rfl rfl rfl rfl rfl rfl rfl le_rfl) | intro _ | dsimp only

theorem onUncorrectable_keeps {s u : State} {a0 a1} (h : Keeps s u) : Keeps s (onUncorrectable a0 a1 u) := by
  unfold onUncorrectable
  iterate 20 all_goals try with_reducible first | assumption | split | apply ueReport_keeps | apply cxlLog_keeps | apply poisonLine_keeps | apply spareRow_keeps | apply candidate_keeps | (refine .w ?_ rfl rfl rfl rfl rfl rfl rfl rfl rfl rfl rfl le_rfl) | intro _ | dsimp only

theorem lineFetch_keeps {s u : State} {a0 a1 a2} (h : Keeps s u) : Keeps s (lineFetch a0 a1 a2 u) := by
  unfold lineFetch
  iterate 20 all_goals try with_reducible first | assumption | split | apply countEdc_keeps | apply checkRead_keeps | apply ftAccess_keeps | (refine .w ?_ rfl rfl rfl rfl rfl rfl rfl rfl rfl rfl rfl le_rfl) | intro _ | dsimp only

theorem decoded_keeps {s u : State} {a b v r l} (h : Keeps s u) : Keeps s (decoded a b v r l u).2.2 := by
  unfold decoded
  iterate 20 all_goals try with_reducible first | assumption | dsimp only | split | apply raise_keeps | apply candidate_keeps | apply onCorrected_keeps | apply onUncorrectable_keeps | apply integrityHalt_keeps | apply lineFetch_keeps

theorem frameRead_keeps {s u : State} {a0} (h : Keeps s u) : Keeps s (frameRead a0 u) := by
  unfold frameRead
  iterate 20 all_goals try with_reducible first | assumption | split | apply State.modFtDev_keeps | apply ftAccess_keeps | apply count_keeps | (refine .w ?_ rfl rfl rfl rfl rfl rfl rfl rfl rfl rfl rfl le_rfl) | intro _ | dsimp only

theorem ftReadRest_keeps {s u : State} {a b c} (h : Keeps s u) : Keeps s (ftReadRest a b c u).2.2 := by
  unfold ftReadRest
  iterate 20 all_goals try with_reducible first | assumption | dsimp only | split | apply decoded_keeps | apply candidate_keeps | apply lineFetch_keeps

theorem ftReadRest_eq_keeps {s u t : State} {a b c x y} (e : ftReadRest a b c u = (x, y, t)) (h : Keeps s u) : Keeps s t := by
  have k : Keeps s (ftReadRest a b c u).2.2 := ftReadRest_keeps h; rw [e] at k; exact k

theorem ftRead_keeps2 {s u : State} {a b c} (h : Keeps s u) : Keeps s (ftRead a b c u).2 := by
  unfold ftRead
  exact ftReadRest_keeps h

theorem ftRead_keeps {s u t : State} {a b c x} (e : ftRead a b c u = (x, t)) (h : Keeps s u) : Keeps s t := by
  have k : Keeps s (ftRead a b c u).2 := ftRead_keeps2 h; rw [e] at k; exact k

theorem lineSent_keeps2 {s u : State} {a b} (h : Keeps s u) : Keeps s (lineSent a b u).2 := by
  unfold lineSent
  iterate 20 all_goals try with_reducible first | assumption | dsimp only | split | apply countEdc_keeps | apply candidate_keeps | apply ftAccess_keeps | (refine .w ?_ rfl rfl rfl rfl rfl rfl rfl rfl rfl rfl rfl le_rfl)

theorem lineSent_keeps {s u t : State} {a b x} (e : lineSent a b u = (x, t)) (h : Keeps s u) : Keeps s t := by
  have k : Keeps s (lineSent a b u).2 := lineSent_keeps2 h; rw [e] at k; exact k

theorem poisonDel_keeps {s u : State} {a0 a1} (h : Keeps s u) : Keeps s (poisonDel a0 a1 u) := by
  unfold poisonDel
  iterate 20 all_goals try with_reducible first | assumption | split | (refine .w ?_ rfl rfl rfl rfl rfl rfl rfl rfl rfl rfl rfl le_rfl) | intro _ | dsimp only

end Sys2Proof.Laws
end

