-- ==== Sys2Proof/Laws/KeepsTime.lean ====
section
/-! SUPPORT. What the operations of Machine/Time.lean leave as it is. -/

namespace Sys2Proof.Laws

open Sys2Proof Sys2Proof.Machine Sys2Proof.Safety

theorem hfPaceWrite_keeps {s u : State} {a0} (h : Keeps s u) : Keeps s (hfPaceWrite a0 u) := by
  unfold hfPaceWrite
  iterate 20 all_goals try with_reducible first | assumption | split | (refine .w ?_ rfl rfl rfl rfl rfl rfl rfl rfl rfl rfl rfl le_rfl) | intro _ | dsimp only

theorem tbAdvance_keeps {s u : State} {a0} (h : Keeps s u) : Keeps s (tbAdvance a0 u) := by
  unfold tbAdvance
  iterate 20 all_goals try with_reducible first | assumption | split | (refine .w ?_ rfl rfl rfl rfl rfl rfl rfl rfl rfl rfl rfl le_rfl) | (refine .m ?_ rfl rfl id id id id id id id (fun h => ⟨Nat.mod_lt _ (Nat.two_pow_pos _), Nat.mod_lt _ (Nat.two_pow_pos _)⟩) le_rfl) | intro _ | dsimp only

theorem ltCapture_keeps {s u : State} {a0 a1} (h : Keeps s u) : Keeps s (ltCapture a0 a1 u) := by
  unfold ltCapture
  iterate 20 all_goals try with_reducible first | assumption | split | apply count_keeps | (refine .w ?_ rfl rfl rfl rfl rfl rfl rfl rfl rfl rfl rfl le_rfl) | intro _ | dsimp only

theorem lineTrigEdge_keeps {s u : State} {a0 a1 a2 a3 a4 a5} (h : Keeps s u) : Keeps s (lineTrigEdge a0 a1 a2 a3 a4 a5 u) := by
  unfold lineTrigEdge
  iterate 20 all_goals try with_reducible first | assumption | split | apply tbAdvance_keeps | apply ltCapture_keeps | apply draw_keeps | (refine .w ?_ rfl rfl rfl rfl rfl rfl rfl rfl rfl rfl rfl le_rfl) | intro _ | dsimp only

theorem setLatch_keeps {s u : State} {a0 a1 a2} (h : Keeps s u) : Keeps s (setLatch a0 a1 a2 u) := by
  unfold setLatch
  iterate 20 all_goals try with_reducible first | assumption | split | (refine .w ?_ rfl rfl rfl rfl rfl rfl rfl rfl rfl rfl rfl le_rfl) | intro _ | dsimp only

theorem pairRead_keeps {s u : State} {a0 a1 a2} (h : Keeps s u) : Keeps s (pairRead a0 a1 a2 u) := by
  unfold pairRead
  iterate 20 all_goals try with_reducible first | assumption | split | apply emit_keeps | apply setLatch_keeps | (refine .w ?_ rfl rfl rfl rfl rfl rfl rfl rfl rfl rfl rfl le_rfl) | intro _ | dsimp only

theorem loReadLatch_keeps {s u : State} {a0 a1 a2} (h : Keeps s u) : Keeps s (loReadLatch a0 a1 a2 u) := by
  unfold loReadLatch
  iterate 20 all_goals try with_reducible first | assumption | split | apply pairRead_keeps | apply emit_keeps | apply fnWrite_keeps | (refine .w ?_ rfl rfl rfl rfl rfl rfl rfl rfl rfl rfl rfl le_rfl) | intro _ | dsimp only

theorem paceWindowEnd_keeps {s u : State} {a0} (h : Keeps s u) : Keeps s (paceWindowEnd a0 u) := by
  unfold paceWindowEnd
  iterate 20 all_goals try with_reducible first | assumption | split | apply ledger_keeps | apply raise_keeps | (refine .w ?_ rfl rfl rfl rfl rfl rfl rfl rfl rfl rfl rfl le_rfl) | intro _ | dsimp only

theorem shiftDeadlines_keeps {s u : State} {a0} (h : Keeps s u) : Keeps s (shiftDeadlines a0 u) := by
  unfold shiftDeadlines
  iterate 20 all_goals try with_reducible first | assumption | split | (refine .w ?_ rfl rfl rfl rfl rfl rfl rfl rfl rfl rfl rfl le_rfl) | intro _ | dsimp only

theorem onPpsEdge_keeps {s u : State} {a0} (h : Keeps s u) : Keeps s (onPpsEdge a0 u) := by
  unfold onPpsEdge
  iterate 20 all_goals try with_reducible first | assumption | split | apply count_keeps | apply shiftDeadlines_keeps | apply raise_keeps | (refine .w ?_ rfl rfl rfl rfl rfl rfl rfl rfl rfl rfl rfl le_rfl) | (refine .m ?_ rfl rfl id id id id id id id (fun h => ⟨Nat.mod_lt _ (Nat.two_pow_pos _), h.2⟩) le_rfl) | intro _ | dsimp only

theorem ppsEdge_keeps {s u : State} {a0 a1 a2} (h : Keeps s u) : Keeps s (ppsEdge a0 a1 a2 u) := by
  unfold ppsEdge
  iterate 20 all_goals try with_reducible first | assumption | split | apply tbAdvance_keeps | apply onPpsEdge_keeps | apply draw_keeps | (refine .w ?_ rfl rfl rfl rfl rfl rfl rfl rfl rfl rfl rfl le_rfl) | intro _ | dsimp only

theorem ppsLost_keeps {s u : State} (h : Keeps s u) : Keeps s (ppsLost u) := by
  unfold ppsLost
  iterate 20 all_goals try with_reducible first | assumption | split | apply raise_keeps | (refine .w ?_ rfl rfl rfl rfl rfl rfl rfl rfl rfl rfl rfl le_rfl) | intro _ | dsimp only

theorem ppsEnClear_keeps {s u : State} (h : Keeps s u) : Keeps s (ppsEnClear u) := by
  unfold ppsEnClear
  iterate 20 all_goals try with_reducible first | assumption | split | (refine .w ?_ rfl rfl rfl rfl rfl rfl rfl rfl rfl rfl rfl le_rfl) | intro _ | dsimp only

theorem ppsEnSet_keeps {s u : State} (h : Keeps s u) : Keeps s (ppsEnSet u) := by
  unfold ppsEnSet
  iterate 20 all_goals try with_reducible first | assumption | split | (refine .w ?_ rfl rfl rfl rfl rfl rfl rfl rfl rfl rfl rfl le_rfl) | intro _ | dsimp only

theorem stepEnClear_keeps {s u : State} (h : Keeps s u) : Keeps s (stepEnClear u) := by
  unfold stepEnClear
  iterate 20 all_goals try with_reducible first | assumption | split | (refine .w ?_ rfl rfl rfl rfl rfl rfl rfl rfl rfl rfl rfl le_rfl) | intro _ | dsimp only

theorem stepEnSet_keeps {s u : State} (h : Keeps s u) : Keeps s (stepEnSet u) := by
  unfold stepEnSet
  iterate 20 all_goals try with_reducible first | assumption | split | (refine .w ?_ rfl rfl rfl rfl rfl rfl rfl rfl rfl rfl rfl le_rfl) | intro _ | dsimp only

theorem tbPpsStatRead_keeps {s u : State} {a0} (h : Keeps s u) : Keeps s (tbPpsStatRead a0 u) := by
  unfold tbPpsStatRead
  iterate 20 all_goals try with_reducible first | assumption | split | apply regRead_keeps | (refine .w ?_ rfl rfl rfl rfl rfl rfl rfl rfl rfl rfl rfl le_rfl) | intro _ | dsimp only

theorem idleCycle_keeps {s u : State} (h : Keeps s u) : Keeps s (idleCycle u) := by
  unfold idleCycle
  iterate 20 all_goals try with_reducible first | assumption | split | apply tbAdvance_keeps | (refine .w ?_ rfl rfl rfl rfl rfl rfl rfl rfl rfl rfl rfl le_rfl) | intro _ | dsimp only

theorem refreshSeen_keeps {s u : State} (h : Keeps s u) : Keeps s (refreshSeen u) := by
  unfold refreshSeen
  iterate 20 all_goals try with_reducible first | assumption | split | (refine .w ?_ rfl rfl rfl rfl rfl rfl rfl rfl rfl rfl rfl le_rfl) | intro _ | dsimp only

end Sys2Proof.Laws
end

