-- ==== Sys2Proof/Laws/KeepsMediaOps.lean ====
section
/-! SUPPORT. What the operations of Machine/MediaOps.lean leave as it is. -/

namespace Sys2Proof.Laws

open Sys2Proof Sys2Proof.Machine Sys2Proof.Safety

theorem copyLines_wf (a b : Nat) (t : Tab LineVal) (h : Tab.wf zeroLine t = true) : Tab.wf zeroLine (copyLines a b t) = true :=
  wf_copy _ _ _ _ _ h

theorem State.modLun_keeps {s u : State} {a1 a2} (h : Keeps s u) : Keeps s (State.modLun u a1 a2) := by
  unfold State.modLun
  iterate 20 all_goals try with_reducible first | assumption | split | (refine .w ?_ rfl rfl rfl rfl rfl rfl rfl rfl rfl rfl rfl le_rfl) | intro _ | dsimp only

theorem State.modRow_keeps {s u : State} {a1 a2} (h : Keeps s u) : Keeps s (State.modRow u a1 a2) := by
  unfold State.modRow
  iterate 20 all_goals try with_reducible first | assumption | split | (refine .w ?_ rfl rfl rfl rfl rfl rfl rfl rfl rfl rfl rfl le_rfl) | intro _ | dsimp only

theorem State.modSet_keeps {s u : State} {a1 a2} (h : Keeps s u) : Keeps s (State.modSet u a1 a2) := by
  unfold State.modSet
  iterate 20 all_goals try with_reducible first | assumption | split | (refine .w ?_ rfl rfl rfl rfl rfl rfl rfl rfl rfl rfl rfl le_rfl) | intro _ | dsimp only

theorem ashSet_keeps {s u : State} {a0} (h : Keeps s u) : Keeps s (ashSet a0 u) := by
  unfold ashSet
  iterate 20 all_goals try with_reducible first | assumption | split | apply State.modSet_keeps | (refine .w ?_ rfl rfl rfl rfl rfl rfl rfl rfl rfl rfl rfl le_rfl) | intro _ | dsimp only

theorem takeSeqs_keeps2 {s u : State} {n} (h : Keeps s u) : Keeps s (takeSeqs n u).2 :=
  .w h rfl rfl rfl rfl rfl rfl rfl rfl rfl rfl rfl le_rfl

theorem takeSeqs_keeps {s u t : State} {n x} (e : takeSeqs n u = (x, t)) (h : Keeps s u) : Keeps s t := by
  cases e
  exact takeSeqs_keeps2 h

theorem sysWrite_keeps2 {s u : State} {a b} (h : Keeps s u) : Keeps s (sysWrite a b u).2 := by
  unfold sysWrite
  iterate 20 all_goals try with_reducible first | assumption | dsimp only | split | apply takeSeqs_keeps2 | (refine .w ?_ rfl rfl rfl rfl rfl rfl rfl rfl rfl rfl rfl le_rfl)

theorem sysWrite_keeps {s u t : State} {a b x} (e : sysWrite a b u = (x, t)) (h : Keeps s u) : Keeps s t := by
  have k : Keeps s (sysWrite a b u).2 := sysWrite_keeps2 h; rw [e] at k; exact k

theorem bstWrite_keeps {s u : State} (h : Keeps s u) : Keeps s (bstWrite u) := by
  unfold bstWrite
  iterate 20 all_goals try with_reducible first | assumption | split | refine sysWrite_keeps ‹_› ?_ | refine sysWrite_keeps2 ?_ | (refine .w ?_ rfl rfl rfl rfl rfl rfl rfl rfl rfl rfl rfl le_rfl) | intro _ | dsimp only

theorem takeSeq_keeps2 {s u : State} (h : Keeps s u) : Keeps s (takeSeq u).2 := takeSeqs_keeps2 h

theorem takeSeq_keeps {s u t : State} {x} (e : takeSeq u = (x, t)) (h : Keeps s u) : Keeps s t := takeSeqs_keeps e h

theorem journalWrite_keeps {s u : State} (h : Keeps s u) : Keeps s (journalWrite u) := by
  unfold journalWrite
  iterate 20 all_goals try with_reducible first | assumption | split | refine sysWrite_keeps ‹_› ?_ | refine sysWrite_keeps2 ?_ | (refine .w ?_ rfl rfl rfl rfl rfl rfl rfl rfl rfl rfl rfl le_rfl) | intro _ | dsimp only

theorem journalAdd_keeps {s u : State} {a0 a1 a2} (h : Keeps s u) : Keeps s (journalAdd a0 a1 a2 u) := by
  unfold journalAdd
  iterate 20 all_goals try with_reducible first | assumption | split | refine takeSeq_keeps ‹_› ?_ | refine takeSeq_keeps2 ?_ | apply journalWrite_keeps | (refine .w ?_ rfl rfl rfl rfl rfl rfl rfl rfl rfl rfl rfl le_rfl) | intro _ | dsimp only

theorem casLoc_keeps {s u : State} {a0 a1 a2} (h : Keeps s u) : Keeps s (casLoc a0 a1 a2 u) := by
  unfold casLoc
  iterate 20 all_goals try with_reducible first | assumption | split | apply journalAdd_keeps | apply State.modFrame_keeps | (refine .w ?_ rfl rfl rfl rfl rfl rfl rfl rfl rfl rfl rfl le_rfl) | (refine .m ?_ rfl rfl ?_ ?_ ?_ ?_ ?_ ?_ ?_ ?_ le_rfl) | exact id | exact fun _ => wf_nil _ | exact wf_set _ _ _ _ | exact wf_upd _ _ _ _ | exact wf_clear _ _ _ _ | exact fun h => wf_set _ _ _ _ (wf_set _ _ _ _ h) | intro _ | dsimp only

theorem journalTrim_keeps {s u : State} (h : Keeps s u) : Keeps s (journalTrim u) := by
  unfold journalTrim
  iterate 20 all_goals try with_reducible first | assumption | split | (apply Keeps.foldl; intros) | (refine .w ?_ rfl rfl rfl rfl rfl rfl rfl rfl rfl rfl rfl le_rfl) | intro _ | dsimp only

theorem chunkWrite_keeps {s u : State} {a0} (h : Keeps s u) : Keeps s (chunkWrite a0 u) := by
  unfold chunkWrite
  iterate 20 all_goals try with_reducible first | assumption | split | refine sysWrite_keeps ‹_› ?_ | refine sysWrite_keeps2 ?_ | apply journalAdd_keeps | apply journalTrim_keeps | (apply Keeps.foldl; intros) | (refine .w ?_ rfl rfl rfl rfl rfl rfl rfl rfl rfl rfl rfl le_rfl) | intro _ | dsimp only

theorem closeRow_keeps {s u : State} {a0} (h : Keeps s u) : Keeps s (closeRow a0 u) := by
  unfold closeRow
  iterate 20 all_goals try with_reducible first | assumption | split | apply State.modSet_keeps | apply State.modRow_keeps | (apply Keeps.foldl; intros) | (refine .w ?_ rfl rfl rfl rfl rfl rfl rfl rfl rfl rfl rfl le_rfl) | intro _ | dsimp only

theorem parityWrite_keeps {s u : State} {a0 a1 a2} (h : Keeps s u) : Keeps s (parityWrite a0 a1 a2 u) := by
  unfold parityWrite
  iterate 20 all_goals try with_reducible first | assumption | split | refine takeSeqs_keeps ‹_› ?_ | refine takeSeqs_keeps2 ?_ | (refine .w ?_ rfl rfl rfl rfl rfl rfl rfl rfl rfl rfl rfl le_rfl) | intro _ | dsimp only

theorem parityRest_keeps {s u : State} {a0} (h : Keeps s u) : Keeps s (parityRest a0 u) := by
  unfold parityRest
  iterate 20 all_goals try with_reducible first | assumption | split | apply parityWrite_keeps | (apply Keeps.foldl; intros) | (refine .w ?_ rfl rfl rfl rfl rfl rfl rfl rfl rfl rfl rfl le_rfl) | intro _ | dsimp only

theorem closeRowsOn_keeps {s u : State} {a0} (h : Keeps s u) : Keeps s (closeRowsOn a0 u) := by
  unfold closeRowsOn
  iterate 20 all_goals try with_reducible first | assumption | split | apply parityRest_keeps | apply closeRow_keeps | (apply Keeps.foldl; intros) | (refine .w ?_ rfl rfl rfl rfl rfl rfl rfl rfl rfl rfl rfl le_rfl) | intro _ | dsimp only

theorem takeSlot_keeps {s u t : State} {a x} (e : takeSlot a u = some (x, t)) (h : Keeps s u) : Keeps s t := by
  unfold takeSlot at e
  split at e
  · cases e
  · obtain ⟨l, _, e⟩ := Option.map_eq_some_iff.1 e
    dsimp only at e
    have k : ∀ n f, Keeps s ((takeSeqs n u).2.modRow a f) := fun n f => State.modRow_keeps (takeSeqs_keeps2 h)
    split at e
    all_goals cases e
    · exact k _ _
    · exact closeRow_keeps (k _ _)

theorem openSet_keeps {s u t : State} {a b c x} (e : openSet a b c u = some (x, t)) (h : Keeps s u) : Keeps s t := by
  unfold openSet at e
  obtain ⟨k, _, e⟩ := Option.map_eq_some_iff.1 e
  cases e
  exact State.modSet_keeps h

theorem openSets_keeps {s u t : State} {a b l x} (e : openSets a b l u = some (x, t)) (h : Keeps s u) : Keeps s t := by
  induction l generalizing u x with
  | nil => cases e; exact h
  | cons k l ih =>
    simp only [openSets] at e
    split at e
    · cases e
    · obtain ⟨y, ey, e⟩ := Option.map_eq_some_iff.1 e
      cases e
      exact ih ey (openSet_keeps ‹_› h)

theorem openRow_keeps {s u t : State} {a b c x} (e : openRow a b c u = some (x, t)) (h : Keeps s u) : Keeps s t := by
  unfold openRow at e
  dsimp only at e
  repeat' split at e
  all_goals cases e
  all_goals exact .w (openSets_keeps ‹_› (openSets_keeps ‹_› h)) rfl rfl rfl rfl rfl rfl rfl rfl rfl rfl rfl le_rfl

theorem destageSlot_keeps {s u t : State} {a n c x} (e : destageSlot a n c u = some (x, t)) (h : Keeps s u) : Keeps s t := by
  induction n generalizing c x with
  | zero => cases e
  | succ n ih =>
    simp only [destageSlot] at e
    split at e
    · cases e
    · split at e
      · obtain ⟨y, ey, e⟩ := Option.map_eq_some_iff.1 e
        cases e
        refine .w (takeSlot_keeps ey ?_) rfl rfl rfl rfl rfl rfl rfl rfl rfl rfl rfl le_rfl
        split at *
        · rename_i e; cases e; exact h
        · rename_i e
          obtain ⟨z, ez, e⟩ := Option.map_eq_some_iff.1 e
          cases e
          exact .w (openRow_keeps ez h) rfl rfl rfl rfl rfl rfl rfl rfl rfl rfl rfl le_rfl
      · exact ih e

theorem destageSlotNext_keeps {s u t : State} {a x} (e : destageSlotNext a u = some (x, t)) (h : Keeps s u) : Keeps s t :=
  destageSlot_keeps e h

theorem emberBudget_keeps {s u : State} (h : Keeps s u) : Keeps s (emberBudget u) := by
  unfold emberBudget
  iterate 20 all_goals try with_reducible first | assumption | split | apply ledger_keeps | (refine .w ?_ rfl rfl rfl rfl rfl rfl rfl rfl rfl rfl rfl le_rfl) | intro _ | dsimp only

theorem eraseSlots_keeps {s u : State} {a0} (h : Keeps s u) : Keeps s (eraseSlots a0 u) := by
  unfold eraseSlots
  iterate 20 all_goals try with_reducible first | assumption | split | (refine .w ?_ rfl rfl rfl rfl rfl rfl rfl rfl rfl rfl rfl le_rfl) | (refine .m ?_ rfl rfl ?_ ?_ ?_ ?_ ?_ ?_ ?_ ?_ le_rfl) | exact id | exact fun _ => wf_nil _ | exact wf_set _ _ _ _ | exact wf_upd _ _ _ _ | exact wf_clear _ _ _ _ | exact fun h => wf_set _ _ _ _ (wf_set _ _ _ _ h) | intro _ | dsimp only

theorem foldBest_keeps {s u : State} (h : Keeps s u) (l : List Nat) (a : Option (Nat × Nat × (Nat × State)))
    (ha : ∀ b, a = some b → Keeps s b.2.2.2) (b : Nat × Nat × (Nat × State))
    (e : l.foldl (fun (a : Option (Nat × Nat × (Nat × State))) c =>
      match openRow c true false u with
      | none => a
      | some x =>
        let w := cordWear u c
        match a with
        | none => some (w.1, w.2, x)
        | some b => if w.1 * b.2.1 < b.1 * w.2 then some (w.1, w.2, x) else a) a = some b) : Keeps s b.2.2.2 := by
  induction l generalizing a with
  | nil => exact ha b e
  | cons c l ih =>
    refine ih _ ?_ e
    intro b hb
    dsimp only at hb
    repeat' split at hb
    all_goals first | exact ha b hb | skip
    all_goals (cases hb; rename_i x hx _ _; try exact openRow_keeps (x := x.1) (t := x.2) hx h)
    all_goals first | exact openRow_keeps ‹_› h | exact ha _ rfl

theorem foldRowNow_keeps {s u t : State} {x} (e : foldRowNow u = some (x, t)) (h : Keeps s u) : Keeps s t := by
  unfold foldRowNow at e
  split at e
  · cases e; exact h
  · obtain ⟨b, eb, e⟩ := Option.map_eq_some_iff.1 e
    cases e
    exact .w (foldBest_keeps h _ _ (by intro b hb; cases hb) b eb) rfl rfl rfl rfl rfl rfl rfl rfl rfl rfl rfl le_rfl

theorem leavePreserve_keeps {s u : State} (h : Keeps s u) : Keeps s (leavePreserve u) := by
  unfold leavePreserve
  iterate 20 all_goals try with_reducible first | assumption | split | apply raise_keeps | apply State.modTurf_keeps | (apply Keeps.foldl; intros) | (refine .w ?_ rfl rfl rfl rfl rfl rfl rfl rfl rfl rfl rfl le_rfl) | intro _ | dsimp only

theorem levelEvent_keeps {s u : State} {a0 a1} (h : Keeps s u) : Keeps s (levelEvent a0 a1 u) := by
  unfold levelEvent
  iterate 20 all_goals try with_reducible first | assumption | split | apply ledger_keeps | apply raise_keeps | (refine .w ?_ rfl rfl rfl rfl rfl rfl rfl rfl rfl rfl rfl le_rfl) | intro _ | dsimp only

theorem setPoisoned_keeps {s u : State} {a0} (h : Keeps s u) : Keeps s (setPoisoned a0 u) := by
  unfold setPoisoned
  iterate 20 all_goals try with_reducible first | assumption | split | apply poisonAdd_keeps | apply journalAdd_keeps | (refine .w ?_ rfl rfl rfl rfl rfl rfl rfl rfl rfl rfl rfl le_rfl) | (refine .m ?_ rfl rfl ?_ ?_ ?_ ?_ ?_ ?_ ?_ ?_ le_rfl) | exact id | exact fun _ => wf_nil _ | exact wf_set _ _ _ _ | exact wf_upd _ _ _ _ | exact wf_clear _ _ _ _ | exact fun h => wf_set _ _ _ _ (wf_set _ _ _ _ h) | intro _ | dsimp only

theorem lostCopy_keeps {s u : State} {a0 a1} (h : Keeps s u) : Keeps s (lostCopy a0 a1 u) := by
  unfold lostCopy
  iterate 20 all_goals try with_reducible first | assumption | split | apply cxlLog_keeps | apply raise_keeps | apply setPoisoned_keeps | apply State.modFrame_keeps | apply dropFrame_keeps | (refine .w ?_ rfl rfl rfl rfl rfl rfl rfl rfl rfl rfl rfl le_rfl) | intro _ | dsimp only

theorem poisonUnit_keeps {s u : State} {a0 a1} (h : Keeps s u) : Keeps s (poisonUnit a0 a1 u) := by
  unfold poisonUnit
  iterate 20 all_goals try with_reducible first | assumption | split | apply poisonAdd_keeps | (apply Keeps.foldl; intros) | (refine .w ?_ rfl rfl rfl rfl rfl rfl rfl rfl rfl rfl rfl le_rfl) | (refine .m ?_ rfl rfl ?_ ?_ ?_ ?_ ?_ ?_ ?_ ?_ le_rfl) | exact id | exact fun _ => wf_nil _ | exact wf_set _ _ _ _ | exact wf_upd _ _ _ _ | exact wf_clear _ _ _ _ | exact fun h => wf_set _ _ _ _ (wf_set _ _ _ _ h) | exact wf_foldl _ _ (fun t b ht => wf_set _ t _ _ ht) _ _ | exact fun h => wf_foldl _ _ (fun t b ht => wf_set _ t _ _ ht) _ _ (wf_clear _ _ _ _ h) | intro _ | dsimp only

theorem unitLost_keeps {s u : State} {a0 a1 a2} (h : Keeps s u) : Keeps s (unitLost a0 a1 a2 u) := by
  unfold unitLost
  iterate 20 all_goals try with_reducible first | assumption | split | apply poisonUnit_keeps | apply cxlLog_keeps | apply raise_keeps | (refine .w ?_ rfl rfl rfl rfl rfl rfl rfl rfl rfl rfl rfl le_rfl) | intro _ | dsimp only

theorem lunLost_keeps {s u : State} {a0 a1} (h : Keeps s u) : Keeps s (lunLost a0 a1 u) := by
  unfold lunLost
  iterate 20 all_goals try with_reducible first | assumption | split | apply unitLost_keeps | (apply Keeps.foldl; intros) | (refine .w ?_ rfl rfl rfl rfl rfl rfl rfl rfl rfl rfl rfl le_rfl) | intro _ | dsimp only

theorem parityAfter_keeps {s u : State} {a0} (h : Keeps s u) : Keeps s (parityAfter a0 u) := by
  unfold parityAfter
  iterate 20 all_goals try with_reducible first | assumption | split | apply parityWrite_keeps | (refine .w ?_ rfl rfl rfl rfl rfl rfl rfl rfl rfl rfl rfl le_rfl) | intro _ | dsimp only

theorem moveSlot_keeps {s u : State} {a0 a1} (h : Keeps s u) : Keeps s (moveSlot a0 a1 u) := by
  unfold moveSlot
  iterate 20 all_goals try with_reducible first | assumption | split | refine foldRowNow_keeps ‹_› ?_ | refine takeSlot_keeps ‹_› ?_ | apply casLoc_keeps | apply parityAfter_keeps | (refine .w ?_ rfl rfl rfl rfl rfl rfl rfl rfl rfl rfl rfl le_rfl) | (refine .m ?_ rfl rfl ?_ ?_ ?_ ?_ ?_ ?_ ?_ ?_ le_rfl) | exact id | exact fun _ => wf_nil _ | exact wf_set _ _ _ _ | exact wf_upd _ _ _ _ | exact wf_clear _ _ _ _ | exact fun h => wf_set _ _ _ _ (wf_set _ _ _ _ h) | exact copyLines_wf _ _ _ | intro _ | dsimp only

theorem preserveEnd_keeps {s u : State} (h : Keeps s u) : Keeps s (preserveEnd u) := by
  unfold preserveEnd
  iterate 20 all_goals try with_reducible first | assumption | split | apply leavePreserve_keeps | (refine .w ?_ rfl rfl rfl rfl rfl rfl rfl rfl rfl rfl rfl le_rfl) | intro _ | dsimp only

theorem sparesEvent_keeps {s u : State} {a0} (h : Keeps s u) : Keeps s (sparesEvent a0 u) := by
  unfold sparesEvent
  iterate 20 all_goals try with_reducible first | assumption | split | apply cxlLog_keeps | apply raise_keeps | (refine .w ?_ rfl rfl rfl rfl rfl rfl rfl rfl rfl rfl rfl le_rfl) | intro _ | dsimp only

theorem mediaLevels_keeps {s u : State} (h : Keeps s u) : Keeps s (mediaLevels u) := by
  unfold mediaLevels
  iterate 20 all_goals try with_reducible first | assumption | split | apply preserveEnd_keeps | apply sparesEvent_keeps | apply levelEvent_keeps | (refine .w ?_ rfl rfl rfl rfl rfl rfl rfl rfl rfl rfl rfl le_rfl) | intro _ | dsimp only

theorem lunRetire_keeps {s u : State} {a0 a1} (h : Keeps s u) : Keeps s (lunRetire a0 a1 u) := by
  unfold lunRetire
  iterate 20 all_goals try with_reducible first | assumption | split | apply lunLost_keeps | apply closeRowsOn_keeps | apply State.modLun_keeps | apply moveSlot_keeps | apply lostCopy_keeps | apply ledger_keeps | apply raise_keeps | apply mediaLevels_keeps | apply emberBudget_keeps | (apply Keeps.foldl; intros) | (refine .w ?_ rfl rfl rfl rfl rfl rfl rfl rfl rfl rfl rfl le_rfl) | intro _ | dsimp only

theorem lunAshCheck_keeps {s u : State} {a0} (h : Keeps s u) : Keeps s (lunAshCheck a0 u) := by
  unfold lunAshCheck
  iterate 20 all_goals try with_reducible first | assumption | split | apply lunRetire_keeps | (refine .w ?_ rfl rfl rfl rfl rfl rfl rfl rfl rfl rfl rfl le_rfl) | intro _ | dsimp only

theorem moveAll_keeps {s u : State} {a0 a1} (h : Keeps s u) : Keeps s (moveAll a0 a1 u) := by
  unfold moveAll
  iterate 20 all_goals try with_reducible first | assumption | split | apply moveSlot_keeps | (apply Keeps.foldl; intros) | (refine .w ?_ rfl rfl rfl rfl rfl rfl rfl rfl rfl rfl rfl le_rfl) | intro _ | dsimp only

theorem parityAll_keeps {s u : State} (h : Keeps s u) : Keeps s (parityAll u) := by
  unfold parityAll
  iterate 20 all_goals try with_reducible first | assumption | split | apply parityRest_keeps | (apply Keeps.foldl; intros) | (refine .w ?_ rfl rfl rfl rfl rfl rfl rfl rfl rfl rfl rfl le_rfl) | intro _ | dsimp only

theorem remapWrite_keeps {s u : State} (h : Keeps s u) : Keeps s (remapWrite u) := by
  unfold remapWrite
  iterate 20 all_goals try with_reducible first | assumption | split | refine sysWrite_keeps ‹_› ?_ | refine sysWrite_keeps2 ?_ | (refine .w ?_ rfl rfl rfl rfl rfl rfl rfl rfl rfl rfl rfl le_rfl) | intro _ | dsimp only

theorem suspends_keeps {s u : State} {a0 a1} (h : Keeps s u) : Keeps s (suspends a0 a1 u) := by
  unfold suspends
  iterate 20 all_goals try with_reducible first | assumption | split | apply count_keeps | apply State.modSet_keeps | (refine .w ?_ rfl rfl rfl rfl rfl rfl rfl rfl rfl rfl rfl le_rfl) | intro _ | dsimp only

theorem toAsh_keeps {s u : State} {a0} (h : Keeps s u) : Keeps s (toAsh a0 u) := by
  unfold toAsh
  iterate 20 all_goals try with_reducible first | assumption | split | apply moveAll_keeps | apply lunAshCheck_keeps | apply ashSet_keeps | apply State.modSet_keeps | (refine .w ?_ rfl rfl rfl rfl rfl rfl rfl rfl rfl rfl rfl le_rfl) | intro _ | dsimp only

end Sys2Proof.Laws
end

