-- ==== Sys2Proof/Laws/KeepsTierOps.lean ====
section
/-! SUPPORT. What the operations of Machine/TierOps.lean leave as it is. -/

namespace Sys2Proof.Laws

open Sys2Proof Sys2Proof.Machine Sys2Proof.Safety

/-- The state an attempt leaves. -/
def tryState : Try → State
  | .done s => s
  | .hold _ _ s => s

theorem tryState_done (s : State) : tryState (.done s) = s := rfl

theorem tryState_hold (a : Machine.Acc) (y : Why) (s : State) : tryState (.hold a y s) = s := rfl

theorem State.modLook_keeps {s u : State} {a1 a2} (h : Keeps s u) : Keeps s (State.modLook u a1 a2) := by
  unfold State.modLook
  iterate 20 all_goals try with_reducible first | assumption | split | (refine .w ?_ rfl rfl rfl rfl rfl rfl rfl rfl rfl rfl rfl le_rfl) | intro _ | dsimp only

theorem ackPump_keeps {s u : State} (h : Keeps s u) : Keeps s (ackPump u) := by
  unfold ackPump
  iterate 20 all_goals try with_reducible first | assumption | split | apply linkSend_keeps | (refine .w ?_ rfl rfl rfl rfl rfl rfl rfl rfl rfl rfl rfl le_rfl) | intro _ | dsimp only

theorem completed_keeps {s u : State} {a0 a1 a2} (h : Keeps s u) : Keeps s (completed a0 a1 a2 u) := by
  unfold completed
  iterate 20 all_goals try with_reducible first | assumption | split | apply sample_keeps | apply count_keeps | (refine .w ?_ rfl rfl rfl rfl rfl rfl rfl rfl rfl rfl rfl le_rfl) | intro _ | dsimp only

theorem resvLost_keeps {s u : State} {a0} (h : Keeps s u) : Keeps s (resvLost a0 u) := by
  unfold resvLost
  iterate 20 all_goals try with_reducible first | assumption | split | apply count_keeps | apply State.modCpu_keeps | (refine .w ?_ rfl rfl rfl rfl rfl rfl rfl rfl rfl rfl rfl le_rfl) | intro _ | dsimp only

theorem retire_keeps {s u : State} {a0 a1} (h : Keeps s u) : Keeps s (retire a0 a1 u) := by
  unfold retire
  iterate 20 all_goals try with_reducible first | assumption | split | apply sample_keeps | apply count_keeps | apply resvLost_keeps | apply State.modCpu_keeps | (refine .w ?_ rfl rfl rfl rfl rfl rfl rfl rfl rfl rfl rfl le_rfl) | intro _ | dsimp only

theorem coreDone_keeps {s u : State} {a0 a1 a2} (h : Keeps s u) : Keeps s (coreDone a0 a1 a2 u) := by
  unfold coreDone
  iterate 20 all_goals try with_reducible first | assumption | split | apply emit_keeps | apply retire_keeps | apply State.modCpu_keeps | (refine .w ?_ rfl rfl rfl rfl rfl rfl rfl rfl rfl rfl rfl le_rfl) | intro _ | dsimp only

theorem storeError_keeps {s u : State} {a0 a1 a2 a3} (h : Keeps s u) : Keeps s (storeError a0 a1 a2 a3 u) := by
  unfold storeError
  iterate 20 all_goals try with_reducible first | assumption | split | apply State.modCpu_keeps | (refine .w ?_ rfl rfl rfl rfl rfl rfl rfl rfl rfl rfl rfl le_rfl) | intro _ | dsimp only

theorem coreBad_keeps {s u : State} {a0 a1 a2 a3} (h : Keeps s u) : Keeps s (coreBad a0 a1 a2 a3 u) := by
  unfold coreBad
  iterate 20 all_goals try with_reducible first | assumption | split | apply storeError_keeps | apply State.modCpu_keeps | (refine .w ?_ rfl rfl rfl rfl rfl rfl rfl rfl rfl rfl rfl le_rfl) | intro _ | dsimp only

theorem answerRead_keeps {s u : State} {a0 a1} (h : Keeps s u) : Keeps s (answerRead a0 a1 u) := by
  unfold answerRead
  iterate 20 all_goals try with_reducible first | assumption | split | apply completed_keeps | apply emit_keeps | apply count_keeps | apply State.modPort_keeps | apply coreDone_keeps | apply coreBad_keeps | (refine .w ?_ rfl rfl rfl rfl rfl rfl rfl rfl rfl rfl rfl le_rfl) | intro _ | dsimp only

theorem answerNotReady_keeps {s u : State} {a0} (h : Keeps s u) : Keeps s (answerNotReady a0 u) := by
  unfold answerNotReady
  iterate 20 all_goals try with_reducible first | assumption | split | apply answerRead_keeps | apply raise_keeps | apply emit_keeps | apply State.modPort_keeps | apply State.modFn_keeps | (refine .w ?_ rfl rfl rfl rfl rfl rfl rfl rfl rfl rfl rfl le_rfl) | intro _ | dsimp only

theorem sbErase_keeps {s u : State} {a0 a1} (h : Keeps s u) : Keeps s (sbErase a0 a1 u) := by
  unfold sbErase
  iterate 20 all_goals try with_reducible first | assumption | split | apply State.modCpu_keeps | (refine .w ?_ rfl rfl rfl rfl rfl rfl rfl rfl rfl rfl rfl le_rfl) | intro _ | dsimp only

theorem sbDrop_keeps {s u : State} {a0 a1} (h : Keeps s u) : Keeps s (sbDrop a0 a1 u) := by
  unfold sbDrop
  iterate 20 all_goals try with_reducible first | assumption | split | apply sbErase_keeps | (refine .w ?_ rfl rfl rfl rfl rfl rfl rfl rfl rfl rfl rfl le_rfl) | intro _ | dsimp only

theorem answerWrite_keeps {s u : State} {a0} (h : Keeps s u) : Keeps s (answerWrite a0 u) := by
  unfold answerWrite
  iterate 20 all_goals try with_reducible first | assumption | split | apply completed_keeps | apply emit_keeps | apply sbDrop_keeps | apply coreDone_keeps | (refine .w ?_ rfl rfl rfl rfl rfl rfl rfl rfl rfl rfl rfl le_rfl) | intro _ | dsimp only

theorem dirtiedRecord_keeps {s u : State} {a0} (h : Keeps s u) : Keeps s (dirtiedRecord a0 u) := by
  unfold dirtiedRecord
  iterate 20 all_goals try with_reducible first | assumption | split | apply journalAdd_keeps | apply State.modFrame_keeps | (refine .w ?_ rfl rfl rfl rfl rfl rfl rfl rfl rfl rfl rfl le_rfl) | intro _ | dsimp only

theorem dirtyFrame_keeps {s u : State} {a0} (h : Keeps s u) : Keeps s (dirtyFrame a0 u) := by
  unfold dirtyFrame
  iterate 20 all_goals try with_reducible first | assumption | split | apply State.modFrame_keeps | (refine .w ?_ rfl rfl rfl rfl rfl rfl rfl rfl rfl rfl rfl le_rfl) | intro _ | dsimp only

theorem needFrame_keeps {s u : State} {a0 a1 a2 a3 f4} (hf4 : ∀ a v, Keeps s v → Keeps s (tryState (f4 a v))) (h : Keeps s u) : Keeps s (tryState (needFrame a0 a1 a2 a3 f4 u)) := by
  unfold needFrame
  iterate 20 all_goals try with_reducible first | assumption | split | simp only [tryState_done, tryState_hold] | apply hf4 | apply State.modFrame_keeps | apply raise_keeps | (refine .w ?_ rfl rfl rfl rfl rfl rfl rfl rfl rfl rfl rfl le_rfl) | intro _ | dsimp only

theorem srcWritten_keeps {s u : State} {a0} (h : Keeps s u) : Keeps s (srcWritten a0 u) := by
  unfold srcWritten
  iterate 20 all_goals try with_reducible first | assumption | split | apply ledger_keeps | apply raise_keeps | apply State.modChan_keeps | (apply Keeps.foldl; intros) | (refine .w ?_ rfl rfl rfl rfl rfl rfl rfl rfl rfl rfl rfl le_rfl) | intro _ | dsimp only

theorem dropResv_keeps {s u : State} {a0} (h : Keeps s u) : Keeps s (dropResv a0 u) := by
  unfold dropResv
  iterate 20 all_goals try with_reducible first | assumption | split | apply resvLost_keeps | (apply Keeps.foldl; intros) | (refine .w ?_ rfl rfl rfl rfl rfl rfl rfl rfl rfl rfl rfl le_rfl) | intro _ | dsimp only

theorem replicaDone_keeps {s u : State} {a0 a1 a2} (h : Keeps s u) : Keeps s (replicaDone a0 a1 a2 u) := by
  unfold replicaDone
  iterate 20 all_goals try with_reducible first | assumption | split | apply count_keeps | apply State.modSeg_keeps | (refine .w ?_ rfl rfl rfl rfl rfl rfl rfl rfl rfl rfl rfl le_rfl) | intro _ | dsimp only

theorem migBegin_keeps {s u : State} {a0} (h : Keeps s u) : Keeps s (migBegin a0 u) := by
  unfold migBegin
  iterate 20 all_goals try with_reducible first | assumption | split | apply linkSend_keeps | apply State.modSeg_keeps | (refine .w ?_ rfl rfl rfl rfl rfl rfl rfl rfl rfl rfl rfl le_rfl) | intro _ | dsimp only

theorem watchWriters_keeps {s u : State} {a0} (h : Keeps s u) : Keeps s (watchWriters a0 u) := by
  unfold watchWriters
  iterate 20 all_goals try with_reducible first | assumption | split | apply State.modSeg_keeps | apply migBegin_keeps | (refine .w ?_ rfl rfl rfl rfl rfl rfl rfl rfl rfl rfl rfl le_rfl) | intro _ | dsimp only

theorem ordered_keeps {s u : State} {a0} (h : Keeps s u) : Keeps s (tryState (ordered a0 u)) := by
  unfold ordered
  iterate 20 all_goals try with_reducible first | assumption | split | simp only [tryState_done, tryState_hold] | apply srcWritten_keeps | apply dropResv_keeps | apply replicaDone_keeps | apply State.modSeg_keeps | apply watchWriters_keeps | apply linkSend_keeps | apply answerWrite_keeps | (refine .w ?_ rfl rfl rfl rfl rfl rfl rfl rfl rfl rfl rfl le_rfl) | intro _ | dsimp only

theorem leaveFilling_keeps {s u : State} {a0} (h : Keeps s u) : Keeps s (leaveFilling a0 u) := by
  unfold leaveFilling
  iterate 20 all_goals try with_reducible first | assumption | split | apply State.modFrame_keeps | (refine .w ?_ rfl rfl rfl rfl rfl rfl rfl rfl rfl rfl rfl le_rfl) | intro _ | dsimp only

theorem poisonCleared_keeps {s u : State} {a0} (h : Keeps s u) : Keeps s (poisonCleared a0 u) := by
  unfold poisonCleared
  iterate 20 all_goals try with_reducible first | assumption | split | apply poisonDel_keeps | (refine .w ?_ rfl rfl rfl rfl rfl rfl rfl rfl rfl rfl rfl le_rfl) | intro _ | dsimp only

theorem wrote_keeps {s u : State} {a0 a1} (h : Keeps s u) : Keeps s (wrote a0 a1 u) := by
  unfold wrote
  iterate 20 all_goals try with_reducible first | assumption | split | apply dirtiedRecord_keeps | apply State.modFrame_keeps | apply dirtyFrame_keeps | (refine .w ?_ rfl rfl rfl rfl rfl rfl rfl rfl rfl rfl rfl le_rfl) | intro _ | dsimp only

theorem writeLine_keeps {s u : State} {a0 a1} (h : Keeps s u) : Keeps s (tryState (writeLine a0 a1 u)) := by
  unfold writeLine
  iterate 20 all_goals try with_reducible first | assumption | split | simp only [tryState_done, tryState_hold] | refine lineSent_keeps ‹_› ?_ | refine lineSent_keeps2 ?_ | refine ftReadRest_eq_keeps ‹_› ?_ | apply poisonDel_keeps | apply putLine_keeps | apply ordered_keeps | apply leaveFilling_keeps | apply poisonCleared_keeps | apply wrote_keeps | apply answerRead_keeps | apply raiseTo_keeps | apply dirtiedRecord_keeps | apply dirtyFrame_keeps | apply count_keeps | (refine .w ?_ rfl rfl rfl rfl rfl rfl rfl rfl rfl rfl rfl le_rfl) | intro _ | dsimp only

theorem enterFilling_keeps {s u : State} {a0 a1 a2 a3 a4 a5} (h : Keeps s u) : Keeps s (enterFilling a0 a1 a2 a3 a4 a5 u) := by
  unfold enterFilling
  iterate 20 all_goals try with_reducible first | assumption | split | apply count_keeps | (refine .w ?_ rfl rfl rfl rfl rfl rfl rfl rfl rfl rfl rfl le_rfl) | (refine .m ?_ rfl rfl ?_ ?_ ?_ ?_ ?_ ?_ ?_ ?_ le_rfl) | exact id | exact fun _ => wf_nil _ | exact wf_set _ _ _ _ | exact wf_upd _ _ _ _ | exact wf_clear _ _ _ _ | exact fun h => wf_set _ _ _ _ (wf_set _ _ _ _ h) | intro _ | dsimp only

theorem holdAdmit_keeps {s u : State} {a0 a1} (h : Keeps s u) : Keeps s (tryState (holdAdmit a0 a1 u)) := by
  unfold holdAdmit
  iterate 20 all_goals try with_reducible first | assumption | split | simp only [tryState_done, tryState_hold] | apply count_keeps | apply ledger_keeps | apply raise_keeps | (refine .w ?_ rfl rfl rfl rfl rfl rfl rfl rfl rfl rfl rfl le_rfl) | intro _ | dsimp only

theorem keepFrame_keeps {s u : State} {a0} (h : Keeps s u) : Keeps s (keepFrame a0 u) := by
  unfold keepFrame
  iterate 20 all_goals try with_reducible first | assumption | split | apply State.modFrame_keeps | (refine .w ?_ rfl rfl rfl rfl rfl rfl rfl rfl rfl rfl rfl le_rfl) | intro _ | dsimp only

theorem replicaPath_keeps {s u : State} {a0 a1 a2} (h : Keeps s u) : Keeps s (tryState (replicaPath a0 a1 a2 u)) := by
  unfold replicaPath
  iterate 20 all_goals try with_reducible first | assumption | split | simp only [tryState_done, tryState_hold] | apply dirtiedRecord_keeps | apply dirtyFrame_keeps | apply State.modFrame_keeps | apply needFrame_keeps | apply writeLine_keeps | apply enterFilling_keeps | apply holdAdmit_keeps | apply keepFrame_keeps | (refine .w ?_ rfl rfl rfl rfl rfl rfl rfl rfl rfl rfl rfl le_rfl) | intro _ | dsimp only

theorem countDirty_keeps {s u : State} {a0 a1 a2 a3} (h : Keeps s u) : Keeps s (countDirty a0 a1 a2 a3 u) := by
  unfold countDirty
  iterate 20 all_goals try with_reducible first | assumption | split | apply dirtiedRecord_keeps | apply dirtyFrame_keeps | apply State.modFrame_keeps | (refine .w ?_ rfl rfl rfl rfl rfl rfl rfl rfl rfl rfl rfl le_rfl) | intro _ | dsimp only

theorem enterPreserve_keeps {s u : State} {a0} (h : Keeps s u) : Keeps s (enterPreserve a0 u) := by
  unfold enterPreserve
  iterate 20 all_goals try with_reducible first | assumption | split | apply cxlLog_keeps | apply raise_keeps | apply State.modTurf_keeps | (refine .w ?_ rfl rfl rfl rfl rfl rfl rfl rfl rfl rfl rfl le_rfl) | intro _ | dsimp only

theorem coreDiscard_keeps {s u : State} {a0} (h : Keeps s u) : Keeps s (coreDiscard a0 u) := by
  unfold coreDiscard
  iterate 20 all_goals try with_reducible first | assumption | split | apply storeError_keeps | apply sbDrop_keeps | apply State.modCpu_keeps | (refine .w ?_ rfl rfl rfl rfl rfl rfl rfl rfl rfl rfl rfl le_rfl) | intro _ | dsimp only

theorem discardReport_keeps {s u : State} {a0} (h : Keeps s u) : Keeps s (discardReport a0 u) := by
  unfold discardReport
  iterate 20 all_goals try with_reducible first | assumption | split | apply enterPreserve_keeps | apply raiseTo_keeps | apply answerWrite_keeps | apply State.modPort_keeps | apply emit_keeps | apply State.modFn_keeps | apply coreDiscard_keeps | (refine .w ?_ rfl rfl rfl rfl rfl rfl rfl rfl rfl rfl rfl le_rfl) | intro _ | dsimp only

theorem discardWrite_keeps {s u : State} {a0} (h : Keeps s u) : Keeps s (discardWrite a0 u) := by
  unfold discardWrite
  iterate 20 all_goals try with_reducible first | assumption | split | apply cxlLog_keeps | apply setPoisoned_keeps | apply linkSend_keeps | apply enterPreserve_keeps | apply discardReport_keeps | (refine .w ?_ rfl rfl rfl rfl rfl rfl rfl rfl rfl rfl rfl le_rfl) | intro _ | dsimp only

theorem writePath_keeps {s u : State} {a0 a1 a2} (h : Keeps s u) : Keeps s (tryState (writePath a0 a1 a2 u)) := by
  unfold writePath
  iterate 20 all_goals try with_reducible first | assumption | split | simp only [tryState_done, tryState_hold] | apply holdAdmit_keeps | apply needFrame_keeps | apply writeLine_keeps | apply countDirty_keeps | apply enterFilling_keeps | apply discardWrite_keeps | apply keepFrame_keeps | (refine .w ?_ rfl rfl rfl rfl rfl rfl rfl rfl rfl rfl rfl le_rfl) | intro _ | dsimp only

theorem forward_keeps {s u : State} {a0} (h : Keeps s u) : Keeps s (tryState (forward a0 u)) := by
  unfold forward
  iterate 20 all_goals try with_reducible first | assumption | split | simp only [tryState_done, tryState_hold] | apply linkSend_keeps | (refine .w ?_ rfl rfl rfl rfl rfl rfl rfl rfl rfl rfl rfl le_rfl) | intro _ | dsimp only

theorem readPath_keeps {s u : State} {a0 a1 a2} (h : Keeps s u) : Keeps s (tryState (readPath a0 a1 a2 u)) := by
  unfold readPath
  iterate 20 all_goals try with_reducible first | assumption | split | simp only [tryState_done, tryState_hold] | refine ftRead_keeps ‹_› ?_ | refine ftRead_keeps2 ?_ | apply answerRead_keeps | apply needFrame_keeps | apply enterFilling_keeps | apply State.modFrame_keeps | (refine .w ?_ rfl rfl rfl rfl rfl rfl rfl rfl rfl rfl rfl le_rfl) | intro _ | dsimp only

theorem serve_keeps {s u : State} {a0 a1 a2 a3} (h : Keeps s u) : Keeps s (tryState (serve a0 a1 a2 a3 u)) := by
  unfold serve
  iterate 20 all_goals try with_reducible first | assumption | split | simp only [tryState_done, tryState_hold] | apply replicaPath_keeps | apply answerNotReady_keeps | apply writePath_keeps | apply forward_keeps | apply coreDiscard_keeps | apply linkSend_keeps | apply readPath_keeps | (refine .w ?_ rfl rfl rfl rfl rfl rfl rfl rfl rfl rfl rfl le_rfl) | intro _ | dsimp only

theorem laLookup_keeps2 {s u : State} {a b c d} (h : Keeps s u) : Keeps s (laLookup a b c d u).2 := by
  unfold laLookup
  iterate 20 all_goals try with_reducible first | assumption | dsimp only | split | apply count_keeps | apply State.modLook_keeps | (refine .w ?_ rfl rfl rfl rfl rfl rfl rfl rfl rfl rfl rfl le_rfl)

theorem laLookup_keeps {s u t : State} {a b c d x} (e : laLookup a b c d u = (x, t)) (h : Keeps s u) : Keeps s t := by
  have k : Keeps s (laLookup a b c d u).2 := laLookup_keeps2 h; rw [e] at k; exact k

theorem enter_keeps {s u : State} {a0 a1 a2 a3} (h : Keeps s u) : Keeps s (tryState (enter a0 a1 a2 a3 u)) := by
  unfold enter
  iterate 20 all_goals try with_reducible first | assumption | split | simp only [tryState_done, tryState_hold] | refine laLookup_keeps ‹_› ?_ | refine laLookup_keeps2 ?_ | apply serve_keeps | (refine .w ?_ rfl rfl rfl rfl rfl rfl rfl rfl rfl rfl rfl le_rfl) | intro _ | dsimp only

theorem attempt_keeps {s u : State} {a0 a1 a2} (h : Keeps s u) : Keeps s (tryState (attempt a0 a1 a2 u)) := by
  unfold attempt
  iterate 20 all_goals try with_reducible first | assumption | split | simp only [tryState_done, tryState_hold] | apply answerWrite_keeps | apply answerNotReady_keeps | apply serve_keeps | apply count_keeps | apply enter_keeps | (refine .w ?_ rfl rfl rfl rfl rfl rfl rfl rfl rfl rfl rfl le_rfl) | intro _ | dsimp only

theorem attempt_done {s u t : State} {a b c} (e : attempt a b c u = .done t) (h : Keeps s u) : Keeps s t := by
  have k : Keeps s (tryState (attempt a b c u)) := attempt_keeps h; rw [e] at k; exact k

theorem attempt_hold {s u t : State} {a b c x y} (e : attempt a b c u = .hold x y t) (h : Keeps s u) : Keeps s t := by
  have k : Keeps s (tryState (attempt a b c u)) := attempt_keeps h; rw [e] at k; exact k

theorem homesMove_keeps {s u : State} {a0 a1 a2} (h : Keeps s u) : Keeps s (homesMove a0 a1 a2 u) := by
  unfold homesMove
  iterate 20 all_goals try with_reducible first | assumption | split | apply migBegin_keeps | (apply Keeps.foldl; intros) | (refine .w ?_ rfl rfl rfl rfl rfl rfl rfl rfl rfl rfl rfl le_rfl) | intro _ | dsimp only

theorem cfgPut_keeps {s u : State} {a0} (h : Keeps s u) : Keeps s (cfgPut a0 u) := by
  unfold cfgPut
  iterate 20 all_goals try with_reducible first | assumption | split | apply homesMove_keeps | (refine .w ?_ rfl rfl rfl rfl rfl rfl rfl rfl rfl rfl rfl le_rfl) | intro _ | dsimp only

theorem cfgOrdered_keeps {s u : State} {a0 a1} (h : Keeps s u) : Keeps s (cfgOrdered a0 a1 u) := by
  unfold cfgOrdered
  iterate 20 all_goals try with_reducible first | assumption | split | apply cfgPut_keeps | apply linkSend_keeps | (refine .w ?_ rfl rfl rfl rfl rfl rfl rfl rfl rfl rfl rfl le_rfl) | intro _ | dsimp only

theorem cfgAsk_keeps {s u : State} {a0 a1 a2} (h : Keeps s u) : Keeps s (cfgAsk a0 a1 a2 u) := by
  unfold cfgAsk
  iterate 20 all_goals try with_reducible first | assumption | split | apply cfgOrdered_keeps | apply linkSend_keeps | (refine .w ?_ rfl rfl rfl rfl rfl rfl rfl rfl rfl rfl rfl le_rfl) | intro _ | dsimp only

theorem cfgRetry_keeps {s u : State} {a0} (h : Keeps s u) : Keeps s (cfgRetry a0 u) := by
  unfold cfgRetry
  iterate 20 all_goals try with_reducible first | assumption | split | apply cfgOrdered_keeps | (refine .w ?_ rfl rfl rfl rfl rfl rfl rfl rfl rfl rfl rfl le_rfl) | intro _ | dsimp only

theorem evictCommit_keeps {s u : State} {a0} (h : Keeps s u) : Keeps s (evictCommit a0 u) := by
  unfold evictCommit
  iterate 20 all_goals try with_reducible first | assumption | split | apply count_keeps | apply dropFrame_keeps | (refine .w ?_ rfl rfl rfl rfl rfl rfl rfl rfl rfl rfl rfl le_rfl) | (refine .m ?_ rfl rfl ?_ ?_ ?_ ?_ ?_ ?_ ?_ ?_ le_rfl) | exact id | exact fun _ => wf_nil _ | exact wf_set _ _ _ _ | exact wf_upd _ _ _ _ | exact wf_clear _ _ _ _ | exact fun h => wf_set _ _ _ _ (wf_set _ _ _ _ h) | intro _ | dsimp only

theorem takeNow_keeps {s u t : State} {a x} (e : takeNow a u = some (x, t)) (h : Keeps s u) : Keeps s t := by
  unfold takeNow at e
  split at e
  · cases e; exact h
  · cases e; exact evictCommit_keeps (State.modFrame_keeps h)
  · cases e

theorem copyFrame_keeps {s u t : State} {a x} (e : copyFrame a u = some (x, t)) (h : Keeps s u) : Keeps s t := by
  unfold copyFrame at e
  dsimp only at e
  split at e
  · cases e; exact State.modFrame_keeps h
  · obtain ⟨y, ey, e⟩ := Option.map_eq_some_iff.1 e
    cases e
    exact State.modFrame_keeps (enterFilling_keeps (takeNow_keeps ey h))

theorem copyLinesIn_keeps {s u : State} {a0 a1 a2 a3} (h : Keeps s u) : Keeps s (copyLinesIn a0 a1 a2 a3 u) := by
  unfold copyLinesIn
  iterate 20 all_goals try with_reducible first | assumption | split | apply State.modFrame_keeps | apply poisonLine_keeps | apply poisonDel_keeps | apply putLine_keeps | (apply Keeps.foldl; intros) | (refine .w ?_ rfl rfl rfl rfl rfl rfl rfl rfl rfl rfl rfl le_rfl) | intro _ | dsimp only

theorem unmapNow_keeps {s u : State} {a0} (h : Keeps s u) : Keeps s (unmapNow a0 u) := by
  unfold unmapNow
  iterate 20 all_goals try with_reducible first | assumption | split | apply dropFrame_keeps | apply journalAdd_keeps | (refine .w ?_ rfl rfl rfl rfl rfl rfl rfl rfl rfl rfl rfl le_rfl) | (refine .m ?_ rfl rfl ?_ ?_ ?_ ?_ ?_ ?_ ?_ ?_ le_rfl) | exact id | exact fun _ => wf_nil _ | exact wf_set _ _ _ _ | exact wf_upd _ _ _ _ | exact wf_clear _ _ _ _ | exact fun h => wf_set _ _ _ _ (wf_set _ _ _ _ h) | intro _ | dsimp only

theorem copyStep_keeps {s u t : State} (e : copyStep u = some t) (h : Keeps s u) : Keeps s t := by
  unfold copyStep at e
  split at e
  · cases e
  · split at e
    · cases e
      exact linkSend_keeps (.w (State.modSeg_keeps (.w h rfl rfl rfl rfl rfl rfl rfl rfl rfl rfl rfl le_rfl))
        rfl rfl rfl rfl rfl rfl rfl rfl rfl rfl rfl le_rfl)
    · have h' : Keeps s { u with tp := { u.tp with copyQ := ‹List CopyIn› } } :=
        .w h rfl rfl rfl rfl rfl rfl rfl rfl rfl rfl rfl le_rfl
      split at e
      · cases e; exact unmapNow_keeps h'
      · split at e
        · cases e; exact setPoisoned_keeps (unmapNow_keeps h')
        · dsimp only at e
          repeat' split at e
          all_goals first | cases e; done | skip
          all_goals
            obtain ⟨y, ey, e⟩ := Option.map_eq_some_iff.1 e
            cases e
            exact leaveFilling_keeps (dirtiedRecord_keeps (copyLinesIn_keeps (copyFrame_keeps ey h')))

theorem copyPumpN_keeps {s u : State} {a0} (h : Keeps s u) : Keeps s (copyPumpN a0 u) := by
  induction a0 generalizing u  with
  | zero => exact h
  | succ n ih =>
    unfold copyPumpN
    iterate 20 all_goals try with_reducible first | assumption | split | apply ih | refine copyStep_keeps ‹_› ?_ | (refine .w ?_ rfl rfl rfl rfl rfl rfl rfl rfl rfl rfl rfl le_rfl) | intro _ | dsimp only

theorem copyPump_keeps {s u : State} (h : Keeps s u) : Keeps s (copyPump u) := by
  unfold copyPump
  iterate 20 all_goals try with_reducible first | assumption | split | apply copyPumpN_keeps | (refine .w ?_ rfl rfl rfl rfl rfl rfl rfl rfl rfl rfl rfl le_rfl) | intro _ | dsimp only

theorem endEpisode_keeps {s u : State} (h : Keeps s u) : Keeps s (endEpisode u) := by
  unfold endEpisode
  iterate 20 all_goals try with_reducible first | assumption | split | (refine .w ?_ rfl rfl rfl rfl rfl rfl rfl rfl rfl rfl rfl le_rfl) | intro _ | dsimp only

theorem fillLine_keeps {s u : State} {a0 a1 a2} (h : Keeps s u) : Keeps s (fillLine a0 a1 a2 u) := by
  unfold fillLine
  iterate 20 all_goals try with_reducible first | assumption | split | apply State.modFrame_keeps | apply putLine_keeps | (refine .w ?_ rfl rfl rfl rfl rfl rfl rfl rfl rfl rfl rfl le_rfl) | intro _ | dsimp only

theorem lineTake_keeps2 {s u : State} {a b c} (h : Keeps s u) : Keeps s (lineTake a b c u).2 := by
  unfold lineTake
  iterate 20 all_goals try with_reducible first | assumption | dsimp only | split | refine ftRead_keeps ‹_› ?_ | apply State.modFrame_keeps | (refine .w ?_ rfl rfl rfl rfl rfl rfl rfl rfl rfl rfl rfl le_rfl)

theorem lineTake_keeps {s u t : State} {a b c x} (e : lineTake a b c u = (x, t)) (h : Keeps s u) : Keeps s t := by
  have k : Keeps s (lineTake a b c u).2 := lineTake_keeps2 h; rw [e] at k; exact k

theorem linesTake_keeps2 {s u : State} {a r n l} (h : Keeps s u) : Keeps s (linesTake a r n l u).2 := by
  induction n generalizing u l with
  | zero => exact h
  | succ n ih => exact ih (lineTake_keeps2 h)

theorem linesTake_keeps {s u t : State} {a r n l x} (e : linesTake a r n l u = (x, t)) (h : Keeps s u) : Keeps s t := by
  have k : Keeps s (linesTake a r n l u).2 := linesTake_keeps2 h; rw [e] at k; exact k

theorem mapPut_keeps {s u : State} {a0 a1 a2 a3} (h : Keeps s u) : Keeps s (mapPut a0 a1 a2 a3 u) := by
  unfold mapPut
  iterate 20 all_goals try with_reducible first | assumption | split | (refine .w ?_ rfl rfl rfl rfl rfl rfl rfl rfl rfl rfl rfl le_rfl) | intro _ | dsimp only

theorem mapAsk_keeps {s u : State} {a0 a1 a2 a3 a4} (h : Keeps s u) : Keeps s (mapAsk a0 a1 a2 a3 a4 u) := by
  unfold mapAsk
  iterate 20 all_goals try with_reducible first | assumption | split | apply ok_keeps | apply mapPut_keeps | (refine .w ?_ rfl rfl rfl rfl rfl rfl rfl rfl rfl rfl rfl le_rfl) | intro _ | dsimp only

theorem mapsDone_keeps {s u : State} (h : Keeps s u) : Keeps s (mapsDone u) := by
  unfold mapsDone
  iterate 20 all_goals try with_reducible first | assumption | split | apply ok_keeps | apply mapPut_keeps | (apply Keeps.foldl; intros) | (refine .w ?_ rfl rfl rfl rfl rfl rfl rfl rfl rfl rfl rfl le_rfl) | intro _ | dsimp only

theorem migEnd_keeps {s u : State} {a0} (h : Keeps s u) : Keeps s (migEnd a0 u) := by
  unfold migEnd
  iterate 20 all_goals try with_reducible first | assumption | split | apply State.modSeg_keeps | apply linkSend_keeps | (refine .w ?_ rfl rfl rfl rfl rfl rfl rfl rfl rfl rfl rfl le_rfl) | intro _ | dsimp only

theorem migPump_keeps {s u : State} (h : Keeps s u) : Keeps s (migPump u) := by
  unfold migPump
  iterate 20 all_goals try with_reducible first | assumption | split | apply migEnd_keeps | apply migBegin_keeps | (refine .w ?_ rfl rfl rfl rfl rfl rfl rfl rfl rfl rfl rfl le_rfl) | intro _ | dsimp only

theorem replUnmapPump_keeps {s u : State} (h : Keeps s u) : Keeps s (replUnmapPump u) := by
  unfold replUnmapPump
  iterate 20 all_goals try with_reducible first | assumption | split | apply journalWrite_keeps | apply unmapNow_keeps | (apply Keeps.foldl; intros) | (refine .w ?_ rfl rfl rfl rfl rfl rfl rfl rfl rfl rfl rfl le_rfl) | intro _ | dsimp only

theorem setWaits_keeps {s u : State} {a0} (h : Keeps s u) : Keeps s (setWaits a0 u) := by
  unfold setWaits
  iterate 20 all_goals try with_reducible first | assumption | split | (refine .w ?_ rfl rfl rfl rfl rfl rfl rfl rfl rfl rfl rfl le_rfl) | intro _ | dsimp only

theorem retryWait_keeps {s u : State} {a1} (h : Keeps s u) : Keeps s (retryWait u a1) := by
  unfold retryWait
  iterate 20 all_goals try with_reducible first | assumption | split | refine attempt_done ‹_› ?_ | refine attempt_hold ‹_› ?_ | apply attempt_keeps | apply setWaits_keeps | (refine .w ?_ rfl rfl rfl rfl rfl rfl rfl rfl rfl rfl rfl le_rfl) | intro _ | dsimp only

theorem retryAll_keeps {s u : State} (h : Keeps s u) : Keeps s (retryAll u) := by
  unfold retryAll
  iterate 20 all_goals try with_reducible first | assumption | split | apply retryWait_keeps | (apply Keeps.foldl; intros) | (refine .w ?_ rfl rfl rfl rfl rfl rfl rfl rfl rfl rfl rfl le_rfl) | intro _ | dsimp only

theorem unmapsDone_keeps {s u : State} (h : Keeps s u) : Keeps s (unmapsDone u) := by
  unfold unmapsDone
  iterate 20 all_goals try with_reducible first | assumption | split | apply cfgRetry_keeps | apply ok_keeps | (apply Keeps.foldl; intros) | (refine .w ?_ rfl rfl rfl rfl rfl rfl rfl rfl rfl rfl rfl le_rfl) | intro _ | dsimp only

theorem settleN_keeps {s u : State} {a0} (h : Keeps s u) : Keeps s (settleN a0 u) := by
  induction a0 generalizing u  with
  | zero => exact h
  | succ n ih =>
    unfold settleN
    iterate 20 all_goals try with_reducible first | assumption | split | apply ih | apply retryAll_keeps | (refine .w ?_ rfl rfl rfl rfl rfl rfl rfl rfl rfl rfl rfl le_rfl) | intro _ | dsimp only

theorem settleWaits_keeps {s u : State} (h : Keeps s u) : Keeps s (settleWaits u) := by
  unfold settleWaits
  iterate 20 all_goals try with_reducible first | assumption | split | apply mapsDone_keeps | apply unmapsDone_keeps | apply endEpisode_keeps | apply settleN_keeps | (refine .w ?_ rfl rfl rfl rfl rfl rfl rfl rfl rfl rfl rfl le_rfl) | intro _ | dsimp only

theorem statusPump_keeps {s u : State} (h : Keeps s u) : Keeps s (statusPump u) := by
  unfold statusPump
  iterate 20 all_goals try with_reducible first | assumption | split | apply linkSend_keeps | (refine .w ?_ rfl rfl rfl rfl rfl rfl rfl rfl rfl rfl rfl le_rfl) | intro _ | dsimp only

theorem settle_keeps {s u : State} (h : Keeps s u) : Keeps s (settle u) := by
  unfold settle
  iterate 20 all_goals try with_reducible first | assumption | split | apply settleWaits_keeps | apply replUnmapPump_keeps | apply ackPump_keeps | apply copyPump_keeps | apply migPump_keeps | apply statusPump_keeps | (refine .w ?_ rfl rfl rfl rfl rfl rfl rfl rfl rfl rfl rfl le_rfl) | intro _ | dsimp only

theorem submit_keeps {s u : State} {a0} (h : Keeps s u) : Keeps s (submit a0 u) := by
  unfold submit
  iterate 20 all_goals try with_reducible first | assumption | split | refine attempt_done ‹_› ?_ | refine attempt_hold ‹_› ?_ | apply attempt_keeps | apply settle_keeps | apply setWaits_keeps | (refine .w ?_ rfl rfl rfl rfl rfl rfl rfl rfl rfl rfl rfl le_rfl) | intro _ | dsimp only

theorem unitAnswer_keeps {s u : State} {a0 a1 a2 a3} (h : Keeps s u) : Keeps s (unitAnswer a0 a1 a2 a3 u) := by
  unfold unitAnswer
  iterate 20 all_goals try with_reducible first | assumption | split | refine linesTake_keeps ‹_› ?_ | refine linesTake_keeps2 ?_ | apply linkSend_keeps | (refine .w ?_ rfl rfl rfl rfl rfl rfl rfl rfl rfl rfl rfl le_rfl) | intro _ | dsimp only

theorem unmapForward_keeps {s u : State} {a0} (h : Keeps s u) : Keeps s (unmapForward a0 u) := by
  unfold unmapForward
  iterate 20 all_goals try with_reducible first | assumption | split | apply linkSend_keeps | (refine .w ?_ rfl rfl rfl rfl rfl rfl rfl rfl rfl rfl rfl le_rfl) | intro _ | dsimp only

theorem unmapOrdered_keeps {s u : State} {a0} (h : Keeps s u) : Keeps s (unmapOrdered a0 u) := by
  unfold unmapOrdered
  iterate 20 all_goals try with_reducible first | assumption | split | apply State.modSeg_keeps | apply journalWrite_keeps | apply unmapNow_keeps | apply linkSend_keeps | (refine .w ?_ rfl rfl rfl rfl rfl rfl rfl rfl rfl rfl rfl le_rfl) | intro _ | dsimp only

theorem unmapStep_keeps {s u : State} {a0} (h : Keeps s u) : Keeps s (unmapStep a0 u) := by
  unfold unmapStep
  iterate 20 all_goals try with_reducible first | assumption | split | apply unmapOrdered_keeps | (refine .w ?_ rfl rfl rfl rfl rfl rfl rfl rfl rfl rfl rfl le_rfl) | intro _ | dsimp only

theorem unmapRange_keeps {s u : State} {a0 a1} (h : Keeps s u) : Keeps s (unmapRange a0 a1 u) := by
  unfold unmapRange
  iterate 20 all_goals try with_reducible first | assumption | split | apply unmapStep_keeps | apply unmapForward_keeps | (apply Keeps.foldl; intros) | (refine .w ?_ rfl rfl rfl rfl rfl rfl rfl rfl rfl rfl rfl le_rfl) | intro _ | dsimp only

end Sys2Proof.Laws
end

