-- ==== Sys2Proof/Laws/KeepsPortOps.lean ====
section
/-! SUPPORT. What the operations of Machine/PortOps.lean leave as it is. -/

namespace Sys2Proof.Laws

open Sys2Proof Sys2Proof.Machine Sys2Proof.Safety

theorem consumerLost_keeps {s u : State} {a0 a1} (h : Keeps s u) : Keeps s (consumerLost a0 a1 u) := by
  unfold consumerLost
  iterate 20 all_goals try with_reducible first | assumption | split | apply State.modPort_keeps | apply holdChan_keeps | apply raise_keeps | (apply Keeps.foldl; intros) | (refine .w ?_ rfl rfl rfl rfl rfl rfl rfl rfl rfl rfl rfl le_rfl) | intro _ | dsimp only

theorem allConsumersLost_keeps {s u : State} {a0} (h : Keeps s u) : Keeps s (allConsumersLost a0 u) := by
  unfold allConsumersLost
  iterate 20 all_goals try with_reducible first | assumption | split | apply consumerLost_keeps | (apply Keeps.foldl; intros) | (refine .w ?_ rfl rfl rfl rfl rfl rfl rfl rfl rfl rfl rfl le_rfl) | intro _ | dsimp only

theorem answerUr_keeps {s u : State} {a0 a1 a2 a3} (h : Keeps s u) : Keeps s (answerUr a0 a1 a2 a3 u) := by
  unfold answerUr
  iterate 20 all_goals try with_reducible first | assumption | split | apply emit_keeps | apply logAer_keeps | (refine .w ?_ rfl rfl rfl rfl rfl rfl rfl rfl rfl rfl rfl le_rfl) | intro _ | dsimp only

theorem cdatChange_keeps {s u : State} (h : Keeps s u) : Keeps s (cdatChange u) := by
  unfold cdatChange
  iterate 20 all_goals try with_reducible first | assumption | split | (refine .w ?_ rfl rfl rfl rfl rfl rfl rfl rfl rfl rfl rfl le_rfl) | intro _ | dsimp only

theorem closeSession_keeps {s u : State} {a0} (h : Keeps s u) : Keeps s (closeSession a0 u) := by
  unfold closeSession
  iterate 20 all_goals try with_reducible first | assumption | split | (refine .w ?_ rfl rfl rfl rfl rfl rfl rfl rfl rfl rfl rfl le_rfl) | intro _ | dsimp only

theorem chanReset_keeps {s u : State} {a0} (h : Keeps s u) : Keeps s (chanReset a0 u) := by
  unfold chanReset
  iterate 20 all_goals try with_reducible first | assumption | split | apply closeSession_keeps | apply State.modMbox_keeps | (refine .w ?_ rfl rfl rfl rfl rfl rfl rfl rfl rfl rfl rfl le_rfl) | intro _ | dsimp only

theorem dropAnswers_keeps {s u : State} {a0} (h : Keeps s u) : Keeps s (dropAnswers a0 u) := by
  unfold dropAnswers
  iterate 20 all_goals try with_reducible first | assumption | split | apply setWaits_keeps | (refine .w ?_ rfl rfl rfl rfl rfl rfl rfl rfl rfl rfl rfl le_rfl) | intro _ | dsimp only

theorem endDumps_keeps {s u : State} {a0} (h : Keeps s u) : Keeps s (endDumps a0 u) := by
  unfold endDumps
  iterate 20 all_goals try with_reducible first | assumption | split | (refine .w ?_ rfl rfl rfl rfl rfl rfl rfl rfl rfl rfl rfl le_rfl) | intro _ | dsimp only

theorem endFetches_keeps {s u : State} {a0} (h : Keeps s u) : Keeps s (endFetches a0 u) := by
  unfold endFetches
  iterate 20 all_goals try with_reducible first | assumption | split | apply State.modMbox_keeps | (refine .w ?_ rfl rfl rfl rfl rfl rfl rfl rfl rfl rfl rfl le_rfl) | intro _ | dsimp only

theorem unroute_keeps {s u : State} {a0} (h : Keeps s u) : Keeps s (unroute a0 u) := by
  unfold unroute
  iterate 20 all_goals try with_reducible first | assumption | split | apply State.modMbox_keeps | (refine .w ?_ rfl rfl rfl rfl rfl rfl rfl rfl rfl rfl rfl le_rfl) | intro _ | dsimp only

theorem fnReset_keeps {s u : State} {a0 a1} (h : Keeps s u) : Keeps s (fnReset a0 a1 u) := by
  unfold fnReset
  iterate 20 all_goals try with_reducible first | assumption | split | apply State.modFn_keeps | apply State.modLd_keeps | apply endFetches_keeps | apply endDumps_keeps | apply unroute_keeps | apply chanReset_keeps | (refine .w ?_ rfl rfl rfl rfl rfl rfl rfl rfl rfl rfl rfl le_rfl) | intro _ | dsimp only

theorem laInvalidate_keeps {s u : State} {a0} (h : Keeps s u) : Keeps s (laInvalidate a0 u) := by
  unfold laInvalidate
  iterate 20 all_goals try with_reducible first | assumption | split | apply settle_keeps | apply State.modLook_keeps | (refine .w ?_ rfl rfl rfl rfl rfl rfl rfl rfl rfl rfl rfl le_rfl) | intro _ | dsimp only

theorem portDown_keeps {s u : State} {a0} (h : Keeps s u) : Keeps s (portDown a0 u) := by
  unfold portDown
  iterate 20 all_goals try with_reducible first | assumption | split | apply dropAnswers_keeps | apply State.modLd_keeps | apply fnReset_keeps | apply State.modPort_keeps | apply laInvalidate_keeps | apply allConsumersLost_keeps | (apply Keeps.foldl; intros) | (refine .w ?_ rfl rfl rfl rfl rfl rfl rfl rfl rfl rfl rfl le_rfl) | intro _ | dsimp only

end Sys2Proof.Laws
end

