-- ==== Sys2Proof/Laws/KeepsTurfs.lean ====
section
/-! SUPPORT. What the operations of Machine/Turfs.lean leave as it is. -/

namespace Sys2Proof.Laws

open Sys2Proof Sys2Proof.Machine Sys2Proof.Safety

theorem billetUnmap_keeps {s u : State} {a0} (h : Keeps s u) : Keeps s (billetUnmap a0 u) := by
  unfold billetUnmap
  iterate 20 all_goals try with_reducible first | assumption | split | apply mediaLevels_keeps | apply settle_keeps | apply unmapStep_keeps | (refine .w ?_ rfl rfl rfl rfl rfl rfl rfl rfl rfl rfl rfl le_rfl) | intro _ | dsimp only

theorem hdmDecoderCommit_keeps {s u : State} {a0 a1 a2 a3 a4 a5 a6 a7 a8 a9 a10} (h : Keeps s u) : Keeps s (hdmDecoderCommit a0 a1 a2 a3 a4 a5 a6 a7 a8 a9 a10 u) := by
  unfold hdmDecoderCommit
  iterate 20 all_goals try with_reducible first | assumption | split | apply State.modLd_keeps | (refine .w ?_ rfl rfl rfl rfl rfl rfl rfl rfl rfl rfl rfl le_rfl) | intro _ | dsimp only

theorem turfPut_keeps {s u : State} {a0 a1 a2 a3} (h : Keeps s u) : Keeps s (turfPut a0 a1 a2 a3 u) := by
  unfold turfPut
  iterate 20 all_goals try with_reducible first | assumption | split | apply cfgAsk_keeps | apply setCommitted_keeps | apply settle_keeps | apply unmapRange_keeps | (refine .w ?_ rfl rfl rfl rfl rfl rfl rfl rfl rfl rfl rfl le_rfl) | intro _ | dsimp only

theorem turfCreate_keeps {s u : State} {a0 a1 a2 a3 a4} (h : Keeps s u) : Keeps s (turfCreate a0 a1 a2 a3 a4 u) := by
  unfold turfCreate
  iterate 20 all_goals try with_reducible first | assumption | split | apply atornQ_keeps | apply turfPut_keeps | (refine .w ?_ rfl rfl rfl rfl rfl rfl rfl rfl rfl rfl rfl le_rfl) | intro _ | dsimp only

theorem turfDestroy_keeps {s u : State} {a0 a1} (h : Keeps s u) : Keeps s (turfDestroy a0 a1 u) := by
  unfold turfDestroy
  iterate 20 all_goals try with_reducible first | assumption | split | apply atornQ_keeps | apply turfPut_keeps | (refine .w ?_ rfl rfl rfl rfl rfl rfl rfl rfl rfl rfl rfl le_rfl) | intro _ | dsimp only

theorem turfMod_keeps {s u : State} {a0 a1 a2} (h : Keeps s u) : Keeps s (turfMod a0 a1 a2 u) := by
  unfold turfMod
  iterate 20 all_goals try with_reducible first | assumption | split | apply turfPut_keeps | (refine .w ?_ rfl rfl rfl rfl rfl rfl rfl rfl rfl rfl rfl le_rfl) | intro _ | dsimp only

theorem turfGrant_keeps {s u : State} {a0 a1 a2 a3} (h : Keeps s u) : Keeps s (turfGrant a0 a1 a2 a3 u) := by
  unfold turfGrant
  iterate 20 all_goals try with_reducible first | assumption | split | apply atornQ_keeps | apply turfMod_keeps | (refine .w ?_ rfl rfl rfl rfl rfl rfl rfl rfl rfl rfl rfl le_rfl) | intro _ | dsimp only

theorem turfQuery_keeps {s u : State} {a0 a1} (h : Keeps s u) : Keeps s (turfQuery a0 a1 u) := by
  unfold turfQuery
  iterate 20 all_goals try with_reducible first | assumption | split | apply atorn_keeps | apply ok_keeps | (refine .w ?_ rfl rfl rfl rfl rfl rfl rfl rfl rfl rfl rfl le_rfl) | intro _ | dsimp only

theorem turfResize_keeps {s u : State} {a0 a1 a2} (h : Keeps s u) : Keeps s (turfResize a0 a1 a2 u) := by
  unfold turfResize
  iterate 20 all_goals try with_reducible first | assumption | split | apply atornQ_keeps | apply turfPut_keeps | (refine .w ?_ rfl rfl rfl rfl rfl rfl rfl rfl rfl rfl rfl le_rfl) | intro _ | dsimp only

theorem turfRevoke_keeps {s u : State} {a0 a1 a2} (h : Keeps s u) : Keeps s (turfRevoke a0 a1 a2 u) := by
  unfold turfRevoke
  iterate 20 all_goals try with_reducible first | assumption | split | apply atornQ_keeps | apply turfMod_keeps | (refine .w ?_ rfl rfl rfl rfl rfl rfl rfl rfl rfl rfl rfl le_rfl) | intro _ | dsimp only

theorem turfSet_keeps {s u : State} {a0 a1 a2 a3 a4 a5 a6} (h : Keeps s u) : Keeps s (turfSet a0 a1 a2 a3 a4 a5 a6 u) := by
  unfold turfSet
  iterate 20 all_goals try with_reducible first | assumption | split | apply atornQ_keeps | apply turfMod_keeps | (refine .w ?_ rfl rfl rfl rfl rfl rfl rfl rfl rfl rfl rfl le_rfl) | intro _ | dsimp only

theorem windowMap_keeps {s u : State} {a0 a1 a2 a3} (h : Keeps s u) : Keeps s (windowMap a0 a1 a2 a3 u) := by
  unfold windowMap
  iterate 20 all_goals try with_reducible first | assumption | split | apply atorn_keeps | apply mapAsk_keeps | apply setCommitted_keeps | (refine .w ?_ rfl rfl rfl rfl rfl rfl rfl rfl rfl rfl rfl le_rfl) | intro _ | dsimp only

end Sys2Proof.Laws
end

