-- ==== Sys2Proof/Laws/KeepsDestageOps.lean ====
section
/-! SUPPORT. What the operations of Machine/DestageOps.lean leave as it is. -/

namespace Sys2Proof.Laws

open Sys2Proof Sys2Proof.Machine Sys2Proof.Safety

theorem mediaBusy_keeps {s u : State} (h : Keeps s u) : Keeps s (mediaBusy u) := by
  unfold mediaBusy
  iterate 20 all_goals try with_reducible first | assumption | split | (refine .w ?_ rfl rfl rfl rfl rfl rfl rfl rfl rfl rfl rfl le_rfl) | intro _ | dsimp only

theorem destageInto_keeps {s u : State} {a0 a1 a2} (h : Keeps s u) : Keeps s (destageInto a0 a1 a2 u) := by
  unfold destageInto
  iterate 20 all_goals try with_reducible first | assumption | split | refine takeSeq_keeps ‹_› ?_ | refine takeSeq_keeps2 ?_ | apply mediaBusy_keeps | apply frameRead_keeps | apply State.modFrame_keeps | (refine .w ?_ rfl rfl rfl rfl rfl rfl rfl rfl rfl rfl rfl le_rfl) | intro _ | dsimp only

theorem destageStart_keeps {s u : State} {a0} (h : Keeps s u) : Keeps s (destageStart a0 u) := by
  unfold destageStart
  iterate 20 all_goals try with_reducible first | assumption | split | refine destageSlotNext_keeps ‹_› ?_ | apply destageInto_keeps | (refine .w ?_ rfl rfl rfl rfl rfl rfl rfl rfl rfl rfl rfl le_rfl) | intro _ | dsimp only

theorem destagePump_keeps {s u : State} (h : Keeps s u) : Keeps s (destagePump u) := by
  unfold destagePump
  iterate 20 all_goals try with_reducible first | assumption | split | apply destageStart_keeps | (refine .w ?_ rfl rfl rfl rfl rfl rfl rfl rfl rfl rfl rfl le_rfl) | intro _ | dsimp only

theorem afterAccess_keeps {s u : State} (h : Keeps s u) : Keeps s (afterAccess u) := by
  unfold afterAccess
  iterate 20 all_goals try with_reducible first | assumption | split | apply mediaLevels_keeps | apply destagePump_keeps | (refine .w ?_ rfl rfl rfl rfl rfl rfl rfl rfl rfl rfl rfl le_rfl) | intro _ | dsimp only

theorem dropDestage_keeps {s u : State} {a0} (h : Keeps s u) : Keeps s (dropDestage a0 u) := by
  unfold dropDestage
  iterate 20 all_goals try with_reducible first | assumption | split | (refine .w ?_ rfl rfl rfl rfl rfl rfl rfl rfl rfl rfl rfl le_rfl) | intro _ | dsimp only

theorem slotWrite_keeps {s u : State} {a0 a1} (h : Keeps s u) : Keeps s (slotWrite a0 a1 u) := by
  unfold slotWrite
  iterate 20 all_goals try with_reducible first | assumption | split | apply parityAfter_keeps | (apply Keeps.foldl; intros) | (refine .w ?_ rfl rfl rfl rfl rfl rfl rfl rfl rfl rfl rfl le_rfl) | (refine .m ?_ rfl rfl ?_ ?_ ?_ ?_ ?_ ?_ ?_ ?_ le_rfl) | exact id | exact fun _ => wf_nil _ | exact wf_set _ _ _ _ | exact wf_upd _ _ _ _ | exact wf_clear _ _ _ _ | exact fun h => wf_set _ _ _ _ (wf_set _ _ _ _ h) | exact wf_foldl _ _ (fun t b ht => wf_set _ t _ _ ht) _ _ | exact fun h => wf_foldl _ _ (fun t b ht => wf_set _ t _ _ ht) _ _ (wf_clear _ _ _ _ h) | intro _ | dsimp only

theorem destageEnd_keeps {s u : State} {a0} (h : Keeps s u) : Keeps s (destageEnd a0 u) := by
  unfold destageEnd
  iterate 20 all_goals try with_reducible first | assumption | split | apply State.modFrame_keeps | apply dropDestage_keeps | apply slotWrite_keeps | apply journalAdd_keeps | apply count_keeps | apply linkSend_keeps | (refine .w ?_ rfl rfl rfl rfl rfl rfl rfl rfl rfl rfl rfl le_rfl) | intro _ | dsimp only

theorem snapLine_keeps {s u : State} {a0 a1 a2 a3} (h : Keeps s u) : Keeps s (snapLine a0 a1 a2 a3 u) := by
  unfold snapLine
  iterate 20 all_goals try with_reducible first | assumption | split | (refine .w ?_ rfl rfl rfl rfl rfl rfl rfl rfl rfl rfl rfl le_rfl) | intro _ | dsimp only

theorem destageRead_keeps {s u : State} {a0 a2} (h : Keeps s u) : Keeps s (destageRead a0 u a2) := by
  unfold destageRead
  iterate 20 all_goals try with_reducible first | assumption | split | refine ftRead_keeps ‹_› ?_ | refine ftRead_keeps2 ?_ | apply snapLine_keeps | apply State.modFrame_keeps | (refine .w ?_ rfl rfl rfl rfl rfl rfl rfl rfl rfl rfl rfl le_rfl) | intro _ | dsimp only

end Sys2Proof.Laws
end

