-- ==== Sys2Proof/Laws/KeepsHostMem.lean ====
section
/-! SUPPORT. What the operations of Machine/HostMem.lean leave as it is. -/

namespace Sys2Proof.Laws

open Sys2Proof Sys2Proof.Machine Sys2Proof.Safety

theorem atomicOp_keeps {s u : State} {a0 a1 a2} (h : Keeps s u) : Keeps s (atomicOp a0 a1 a2 u) := by
  unfold atomicOp
  iterate 20 all_goals try with_reducible first | assumption | split | apply answerUr_keeps | (refine .w ?_ rfl rfl rfl rfl rfl rfl rfl rfl rfl rfl rfl le_rfl) | intro _ | dsimp only

theorem bar2Read_keeps {s u : State} {a0 a1 a2 a3 a4 a5} (h : Keeps s u) : Keeps s (bar2Read a0 a1 a2 a3 a4 a5 u) := by
  unfold bar2Read
  iterate 20 all_goals try with_reducible first | assumption | split | apply answerUr_keeps | apply answerNotReady_keeps | apply afterAccess_keeps | apply submit_keeps | (apply Keeps.foldl; intros) | (refine .w ?_ rfl rfl rfl rfl rfl rfl rfl rfl rfl rfl rfl le_rfl) | intro _ | dsimp only

theorem denied_keeps {s u : State} {a0 a1 a2} (h : Keeps s u) : Keeps s (denied a0 a1 a2 u) := by
  unfold denied
  iterate 20 all_goals try with_reducible first | assumption | split | apply notePut_keeps | apply count_keeps | (apply Keeps.foldl; intros) | (refine .w ?_ rfl rfl rfl rfl rfl rfl rfl rfl rfl rfl rfl le_rfl) | intro _ | dsimp only

theorem barWriteLost_keeps {s u : State} {a0 a1} (h : Keeps s u) : Keeps s (barWriteLost a0 a1 u) := by
  unfold barWriteLost
  iterate 20 all_goals try with_reducible first | assumption | split | apply logAer_keeps | apply State.modPort_keeps | (refine .w ?_ rfl rfl rfl rfl rfl rfl rfl rfl rfl rfl rfl le_rfl) | intro _ | dsimp only

theorem bar2Write_keeps {s u : State} {a0 a1 a2 a3 a4 a5 a6} (h : Keeps s u) : Keeps s (bar2Write a0 a1 a2 a3 a4 a5 a6 u) := by
  unfold bar2Write
  iterate 20 all_goals try with_reducible first | assumption | split | apply count_keeps | apply logAer_keeps | apply State.modPort_keeps | apply answerNotReady_keeps | apply afterAccess_keeps | apply submit_keeps | apply denied_keeps | apply barWriteLost_keeps | (apply Keeps.foldl; intros) | (refine .w ?_ rfl rfl rfl rfl rfl rfl rfl rfl rfl rfl rfl le_rfl) | intro _ | dsimp only

theorem cfgRead_keeps {s u : State} {a0 a1 a2} (h : Keeps s u) : Keeps s (cfgRead a0 a1 a2 u) := by
  unfold cfgRead
  iterate 20 all_goals try with_reducible first | assumption | split | apply emit_keeps | apply draw_keeps | (refine .w ?_ rfl rfl rfl rfl rfl rfl rfl rfl rfl rfl rfl le_rfl) | intro _ | dsimp only

theorem firePending_keeps {s u : State} {a0 a1} (h : Keeps s u) : Keeps s (firePending a0 a1 u) := by
  unfold firePending
  iterate 20 all_goals try with_reducible first | assumption | split | apply emit_keeps | apply State.modFn_keeps | (apply Keeps.foldl; intros) | (refine .w ?_ rfl rfl rfl rfl rfl rfl rfl rfl rfl rfl rfl le_rfl) | intro _ | dsimp only

theorem cfgWrite_keeps {s u : State} {a0 a1 a2 a3} (h : Keeps s u) : Keeps s (cfgWrite a0 a1 a2 a3 u) := by
  unfold cfgWrite
  iterate 20 all_goals try with_reducible first | assumption | split | apply State.modFn_keeps | apply firePending_keeps | (refine .w ?_ rfl rfl rfl rfl rfl rfl rfl rfl rfl rfl rfl le_rfl) | intro _ | dsimp only

theorem configRequest_keeps {s u : State} {a0 a1 a2 a3} (h : Keeps s u) : Keeps s (configRequest a0 a1 a2 a3 u) := by
  unfold configRequest
  iterate 20 all_goals try with_reducible first | assumption | split | apply emit_keeps | apply cfgWrite_keeps | apply cfgRead_keeps | (refine .w ?_ rfl rfl rfl rfl rfl rfl rfl rfl rfl rfl rfl le_rfl) | intro _ | dsimp only

theorem cxlWriteLost_keeps {s u : State} {a0 a1} (h : Keeps s u) : Keeps s (cxlWriteLost a0 a1 u) := by
  unfold cxlWriteLost
  iterate 20 all_goals try with_reducible first | assumption | split | apply emit_keeps | apply completed_keeps | apply State.modPort_keeps | (refine .w ?_ rfl rfl rfl rfl rfl rfl rfl rfl rfl rfl rfl le_rfl) | intro _ | dsimp only

theorem flr_keeps {s u : State} {a0 a1} (h : Keeps s u) : Keeps s (flr a0 a1 u) := by
  unfold flr
  iterate 20 all_goals try with_reducible first | assumption | split | apply fnReset_keeps | apply dropAnswers_keeps | (refine .w ?_ rfl rfl rfl rfl rfl rfl rfl rfl rfl rfl rfl le_rfl) | intro _ | dsimp only

theorem gpfFlush_keeps {s u : State} {a0} (h : Keeps s u) : Keeps s (gpfFlush a0 u) := by
  unfold gpfFlush
  iterate 20 all_goals try with_reducible first | assumption | split | apply emit_keeps | (refine .w ?_ rfl rfl rfl rfl rfl rfl rfl rfl rfl rfl rfl le_rfl) | intro _ | dsimp only

theorem memRead_keeps {s u : State} {a0 a1} (h : Keeps s u) : Keeps s (memRead a0 a1 u) := by
  unfold memRead
  iterate 20 all_goals try with_reducible first | assumption | split | apply answerNotReady_keeps | apply count_keeps | apply completed_keeps | apply emit_keeps | apply State.modPort_keeps | apply afterAccess_keeps | apply submit_keeps | (refine .w ?_ rfl rfl rfl rfl rfl rfl rfl rfl rfl rfl rfl le_rfl) | intro _ | dsimp only

theorem memReadData_keeps {s u : State} {a0 a1} (h : Keeps s u) : Keeps s (memReadData a0 a1 u) := by
  unfold memReadData
  iterate 20 all_goals try with_reducible first | assumption | split | apply memRead_keeps | (refine .w ?_ rfl rfl rfl rfl rfl rfl rfl rfl rfl rfl rfl le_rfl) | intro _ | dsimp only

theorem memspecrd_keeps {s u : State} {a0} (h : Keeps s u) : Keeps s (memspecrd a0 u) := by
  unfold memspecrd
  iterate 20 all_goals try with_reducible first | assumption | split | (refine .w ?_ rfl rfl rfl rfl rfl rfl rfl rfl rfl rfl rfl le_rfl) | intro _ | dsimp only

theorem memWrite_keeps {s u : State} {a0 a1 a2 a3 a4} (h : Keeps s u) : Keeps s (memWrite a0 a1 a2 a3 a4 u) := by
  unfold memWrite
  iterate 20 all_goals try with_reducible first | assumption | split | apply count_keeps | apply answerNotReady_keeps | apply cxlWriteLost_keeps | apply raise_keeps | apply emit_keeps | apply completed_keeps | apply State.modPort_keeps | apply afterAccess_keeps | apply submit_keeps | apply denied_keeps | (refine .w ?_ rfl rfl rfl rfl rfl rfl rfl rfl rfl rfl rfl le_rfl) | intro _ | dsimp only

theorem memwr_keeps {s u : State} {a0 a1 a2 a3} (h : Keeps s u) : Keeps s (memwr a0 a1 a2 a3 u) := by
  unfold memwr
  iterate 20 all_goals try with_reducible first | assumption | split | apply memWrite_keeps | (refine .w ?_ rfl rfl rfl rfl rfl rfl rfl rfl rfl rfl rfl le_rfl) | intro _ | dsimp only

theorem memwrptl_keeps {s u : State} {a0 a1 a2 a3 a4} (h : Keeps s u) : Keeps s (memwrptl a0 a1 a2 a3 a4 u) := by
  unfold memwrptl
  iterate 20 all_goals try with_reducible first | assumption | split | apply memWrite_keeps | (refine .w ?_ rfl rfl rfl rfl rfl rfl rfl rfl rfl rfl rfl le_rfl) | intro _ | dsimp only

theorem otherM2s_keeps {s u : State} {a0 a1} (h : Keeps s u) : Keeps s (otherM2s a0 a1 u) := by
  unfold otherM2s
  iterate 20 all_goals try with_reducible first | assumption | split | apply emit_keeps | (refine .w ?_ rfl rfl rfl rfl rfl rfl rfl rfl rfl rfl rfl le_rfl) | intro _ | dsimp only

end Sys2Proof.Laws
end

