-- ==== Sys2Proof/Laws/KeepsFront.lean ====
section
/-! SUPPORT. What the operations of Machine/Front.lean leave as it is. -/

namespace Sys2Proof.Laws

open Sys2Proof Sys2Proof.Machine Sys2Proof.Safety

theorem copyBad_keeps {s u : State} {a0 a1 a2 a4} (h : Keeps s u) : Keeps s (copyBad a0 a1 a2 u a4) := by
  unfold copyBad
  iterate 20 all_goals try with_reducible first | assumption | split | apply ueReport_keeps | apply putLine_keeps | apply cxlLog_keeps | apply poisonLine_keeps | (refine .w ?_ rfl rfl rfl rfl rfl rfl rfl rfl rfl rfl rfl le_rfl) | intro _ | dsimp only

theorem copyBads_keeps {s u : State} {a0 a1 a2 a3} (h : Keeps s u) : Keeps s (copyBads a0 a1 a2 a3 u) := by
  unfold copyBads
  iterate 20 all_goals try with_reducible first | assumption | split | apply copyBad_keeps | (apply Keeps.foldl; intros) | (refine .w ?_ rfl rfl rfl rfl rfl rfl rfl rfl rfl rfl rfl le_rfl) | intro _ | dsimp only

theorem correctedWriteBack_keeps {s u : State} {a0 a1} (h : Keeps s u) : Keeps s (correctedWriteBack a0 a1 u) := by
  unfold correctedWriteBack
  iterate 20 all_goals try with_reducible first | assumption | split | apply checkWrite_keeps | apply ftAccess_keeps | (refine .w ?_ rfl rfl rfl rfl rfl rfl rfl rfl rfl rfl rfl le_rfl) | intro _ | dsimp only

theorem frameForCopy_keeps {s u t : State} {x} (e : frameForCopy u = some (x, t)) (h : Keeps s u) : Keeps s t := by
  unfold frameForCopy at e
  repeat' split at e
  all_goals cases e
  · exact h
  · exact releaseClean_keeps h

theorem moveTable_keeps {s t : State} {o : Option State} {k} (ho : ∀ u, o = some u → Keeps s u) (e : moveTable o k = some t) : Keeps s t := by
  unfold moveTable at e
  obtain ⟨x, ex, e⟩ := Option.map_eq_some_iff.1 e
  obtain ⟨u, eu, ex⟩ := Option.bind_eq_some_iff.1 ex
  cases e
  exact .w (frameForCopy_keeps (x := x.1) (t := x.2) ex (ho u eu)) rfl rfl rfl rfl rfl rfl rfl rfl rfl rfl rfl le_rfl

theorem moveTables_keeps {s : State} (l : List Nat) : ∀ {o : Option State} {t}, (∀ u, o = some u → Keeps s u) → l.foldl moveTable o = some t → Keeps s t := by
  induction l with
  | nil => exact fun ho e => ho _ e
  | cons k l ih => exact fun ho e => ih (fun u => moveTable_keeps ho) e

theorem moveTablesOf_keeps {s u t : State} {l : List Nat} (e : l.foldl moveTable (some u) = some t) (h : Keeps s u) : Keeps s t :=
  moveTables_keeps l (by rintro _ ⟨⟩; exact h) e

theorem deviceRetired_keeps {s u : State} {a0} (h : Keeps s u) : Keeps s (deviceRetired a0 u) := by
  unfold deviceRetired
  iterate 20 all_goals try with_reducible first | assumption | split | refine moveTablesOf_keeps ‹_› ?_ | apply releaseClean_keeps | apply State.modFtDev_keeps | apply ledger_keeps | apply raise_keeps | apply endBlock_keeps | apply settle_keeps | (apply Keeps.foldl; intros) | (refine .w ?_ rfl rfl rfl rfl rfl rfl rfl rfl rfl rfl rfl le_rfl) | intro _ | dsimp only

theorem dirtyCeilingSet_keeps {s u : State} {a0 a1} (h : Keeps s u) : Keeps s (dirtyCeilingSet a0 a1 u) := by
  unfold dirtyCeilingSet
  iterate 20 all_goals try with_reducible first | assumption | split | apply atornQ_keeps | apply commit_keeps | (refine .w ?_ rfl rfl rfl rfl rfl rfl rfl rfl rfl rfl rfl le_rfl) | intro _ | dsimp only

theorem frameInto_keeps {s u : State} {a0 a1 a2} (h : Keeps s u) : Keeps s (frameInto a0 a1 a2 u) := by
  unfold frameInto
  iterate 20 all_goals try with_reducible first | assumption | split | (refine .w ?_ rfl rfl rfl rfl rfl rfl rfl rfl rfl rfl rfl le_rfl) | (refine .m ?_ rfl rfl ?_ ?_ ?_ ?_ ?_ ?_ ?_ ?_ le_rfl) | exact id | exact fun _ => wf_nil _ | exact wf_set _ _ _ _ | exact wf_upd _ _ _ _ | exact wf_clear _ _ _ _ | exact fun h => wf_set _ _ _ _ (wf_set _ _ _ _ h) | exact wf_copy _ _ _ _ _ | intro _ | dsimp only

theorem dirtyFrameCopy_keeps {s u : State} {a0 a1 a2} (h : Keeps s u) : Keeps s (dirtyFrameCopy a0 a1 a2 u) := by
  unfold dirtyFrameCopy
  iterate 20 all_goals try with_reducible first | assumption | split | refine frameForCopy_keeps ‹_› ?_ | apply frameInto_keeps | apply ftAccess_keeps | apply frameRead_keeps | apply dropDestage_keeps | apply settle_keeps | apply dirtiedRecord_keeps | apply copyBads_keeps | apply dropFrame_keeps | (refine .w ?_ rfl rfl rfl rfl rfl rfl rfl rfl rfl rfl rfl le_rfl) | intro _ | dsimp only

theorem frontQuery_keeps {s u : State} {a0} (h : Keeps s u) : Keeps s (frontQuery a0 u) := by
  unfold frontQuery
  iterate 20 all_goals try with_reducible first | assumption | split | apply query_keeps | (refine .w ?_ rfl rfl rfl rfl rfl rfl rfl rfl rfl rfl rfl le_rfl) | intro _ | dsimp only

theorem rawOp_keeps {s u : State} {a0} (h : Keeps s u) : Keeps s (rawOp a0 u) := by
  unfold rawOp
  iterate 20 all_goals try with_reducible first | assumption | split | apply draw_keeps | (refine .w ?_ rfl rfl rfl rfl rfl rfl rfl rfl rfl rfl rfl le_rfl) | intro _ | dsimp only

theorem frontRaw_keeps {s u : State} {a0 a1 a2 a3 a4 a5} (h : Keeps s u) : Keeps s (frontRaw a0 a1 a2 a3 a4 a5 u) := by
  unfold frontRaw
  iterate 20 all_goals try with_reducible first | assumption | split | apply atornQ_keeps | apply rawOp_keeps | apply ok_keeps | apply setCommitted_keeps | (refine .w ?_ rfl rfl rfl rfl rfl rfl rfl rfl rfl rfl rfl le_rfl) | intro _ | dsimp only

theorem frontRetire_keeps {s u : State} {a0 a1} (h : Keeps s u) : Keeps s (frontRetire a0 a1 u) := by
  unfold frontRetire
  iterate 20 all_goals try with_reducible first | assumption | split | apply atornQ_keeps | apply candidate_keeps | (refine .w ?_ rfl rfl rfl rfl rfl rfl rfl rfl rfl rfl rfl le_rfl) | intro _ | dsimp only

theorem rawBy_keeps {s u : State} {a0 a1} (h : Keeps s u) : Keeps s (rawBy a0 a1 u) := by
  unfold rawBy
  iterate 20 all_goals try with_reducible first | assumption | split | apply regWrite_keeps | apply rawOp_keeps | (refine .w ?_ rfl rfl rfl rfl rfl rfl rfl rfl rfl rfl rfl le_rfl) | intro _ | dsimp only

theorem ftRawDecode_keeps {s u : State} {a0} (h : Keeps s u) : Keeps s (ftRawDecode a0 u) := by
  unfold ftRawDecode
  iterate 20 all_goals try with_reducible first | assumption | split | apply rawBy_keeps | (refine .w ?_ rfl rfl rfl rfl rfl rfl rfl rfl rfl rfl rfl le_rfl) | intro _ | dsimp only

theorem ftRawLock_keeps {s u : State} {a0} (h : Keeps s u) : Keeps s (ftRawLock a0 u) := by
  unfold ftRawLock
  iterate 20 all_goals try with_reducible first | assumption | split | apply regWrite_keeps | (refine .w ?_ rfl rfl rfl rfl rfl rfl rfl rfl rfl rfl rfl le_rfl) | intro _ | dsimp only

theorem ftRawRead_keeps {s u : State} {a0} (h : Keeps s u) : Keeps s (ftRawRead a0 u) := by
  unfold ftRawRead
  iterate 20 all_goals try with_reducible first | assumption | split | apply rawBy_keeps | (refine .w ?_ rfl rfl rfl rfl rfl rfl rfl rfl rfl rfl rfl le_rfl) | intro _ | dsimp only

theorem ftRawWrite_keeps {s u : State} {a0} (h : Keeps s u) : Keeps s (ftRawWrite a0 u) := by
  unfold ftRawWrite
  iterate 20 all_goals try with_reducible first | assumption | split | apply rawBy_keeps | (refine .w ?_ rfl rfl rfl rfl rfl rfl rfl rfl rfl rfl rfl le_rfl) | intro _ | dsimp only

theorem ftRetrack_keeps {s u : State} {a0 a1 a2 a3} (h : Keeps s u) : Keeps s (ftRetrack a0 a1 a2 a3 u) := by
  unfold ftRetrack
  iterate 20 all_goals try with_reducible first | assumption | split | apply candidate_keeps | apply State.modFtDev_keeps | (refine .w ?_ rfl rfl rfl rfl rfl rfl rfl rfl rfl rfl rfl le_rfl) | intro _ | dsimp only

theorem gddrTemps_keeps {s u : State} {a0} (h : Keeps s u) : Keeps s (gddrTemps a0 u) := by
  unfold gddrTemps
  iterate 20 all_goals try with_reducible first | assumption | split | apply State.modFtDev_keeps | apply refreshSeen_keeps | (apply Keeps.foldl; intros) | (refine .w ?_ rfl rfl rfl rfl rfl rfl rfl rfl rfl rfl rfl le_rfl) | intro _ | dsimp only

theorem patrolNext_keeps {s u : State} (h : Keeps s u) : Keeps s (patrolNext u) := by
  unfold patrolNext
  iterate 20 all_goals try with_reducible first | assumption | split | (refine .w ?_ rfl rfl rfl rfl rfl rfl rfl rfl rfl rfl rfl le_rfl) | intro _ | dsimp only

theorem patrolStep_keeps {s u : State} {a0} (h : Keeps s u) : Keeps s (patrolStep a0 u) := by
  unfold patrolStep
  iterate 20 all_goals try with_reducible first | assumption | split | refine ftRead_keeps ‹_› ?_ | refine ftRead_keeps2 ?_ | apply patrolNext_keeps | (refine .w ?_ rfl rfl rfl rfl rfl rfl rfl rfl rfl rfl rfl le_rfl) | intro _ | dsimp only

theorem perBankRefresh_keeps {s u : State} (h : Keeps s u) : Keeps s (perBankRefresh u) := by
  unfold perBankRefresh
  iterate 20 all_goals try with_reducible first | assumption | split | (refine .w ?_ rfl rfl rfl rfl rfl rfl rfl rfl rfl rfl rfl le_rfl) | intro _ | dsimp only

theorem refreshCooler_keeps {s u : State} (h : Keeps s u) : Keeps s (refreshCooler u) := by
  unfold refreshCooler
  iterate 20 all_goals try with_reducible first | assumption | split | (refine .w ?_ rfl rfl rfl rfl rfl rfl rfl rfl rfl rfl rfl le_rfl) | intro _ | dsimp only

theorem sparingDone_keeps {s u : State} {a0} (h : Keeps s u) : Keeps s (sparingDone a0 u) := by
  unfold sparingDone
  iterate 20 all_goals try with_reducible first | assumption | split | apply remapWrite_keeps | (refine .w ?_ rfl rfl rfl rfl rfl rfl rfl rfl rfl rfl rfl le_rfl) | intro _ | dsimp only

theorem rowSparingCopy_keeps {s u : State} {a0} (h : Keeps s u) : Keeps s (rowSparingCopy a0 u) := by
  unfold rowSparingCopy
  iterate 20 all_goals try with_reducible first | assumption | split | refine ftRead_keeps ‹_› ?_ | refine ftRead_keeps2 ?_ | apply ftAccess_keeps | apply sparingDone_keeps | (refine .w ?_ rfl rfl rfl rfl rfl rfl rfl rfl rfl rfl rfl le_rfl) | intro _ | dsimp only

end Sys2Proof.Laws
end

