-- ==== Sys2Proof/Laws/KeepsTier.lean ====
section
/-! SUPPORT. What the operations of Machine/Tier.lean leave as it is. -/

namespace Sys2Proof.Laws

open Sys2Proof Sys2Proof.Machine Sys2Proof.Safety

theorem destageAged_keeps {s u : State} (h : Keeps s u) : Keeps s (destageAged u) := by
  unfold destageAged
  iterate 20 all_goals try with_reducible first | assumption | split | apply destageStart_keeps | (apply Keeps.foldl; intros) | (refine .w ?_ rfl rfl rfl rfl rfl rfl rfl rfl rfl rfl rfl le_rfl) | intro _ | dsimp only

theorem ageSweep_keeps {s u : State} (h : Keeps s u) : Keeps s (ageSweep u) := by
  unfold ageSweep
  iterate 20 all_goals try with_reducible first | assumption | split | apply settle_keeps | apply afterAccess_keeps | apply destageAged_keeps | (refine .w ?_ rfl rfl rfl rfl rfl rfl rfl rfl rfl rfl rfl le_rfl) | intro _ | dsimp only

theorem backgroundEviction_keeps {s u : State} (h : Keeps s u) : Keeps s (backgroundEviction u) := by
  unfold backgroundEviction
  iterate 20 all_goals try with_reducible first | assumption | split | apply State.modFrame_keeps | (refine .w ?_ rfl rfl rfl rfl rfl rfl rfl rfl rfl rfl rfl le_rfl) | intro _ | dsimp only

theorem cheaperPath_keeps {s u : State} {a0 a1} (h : Keeps s u) : Keeps s (cheaperPath a0 a1 u) := by
  unfold cheaperPath
  iterate 20 all_goals try with_reducible first | assumption | split | apply setWaits_keeps | apply linkSend_keeps | (refine .w ?_ rfl rfl rfl rfl rfl rfl rfl rfl rfl rfl rfl le_rfl) | intro _ | dsimp only

theorem destageComplete_keeps {s u : State} {a0 a1} (h : Keeps s u) : Keeps s (destageComplete a0 a1 u) := by
  unfold destageComplete
  iterate 20 all_goals try with_reducible first | assumption | split | apply destageRead_keeps | apply afterAccess_keeps | apply settle_keeps | apply destageEnd_keeps | (apply Keeps.foldl; intros) | (refine .w ?_ rfl rfl rfl rfl rfl rfl rfl rfl rfl rfl rfl le_rfl) | intro _ | dsimp only

theorem destageGiveUp_keeps {s u : State} {a0} (h : Keeps s u) : Keeps s (destageGiveUp a0 u) := by
  unfold destageGiveUp
  iterate 20 all_goals try with_reducible first | assumption | split | apply State.modFrame_keeps | apply dropDestage_keeps | apply raise_keeps | (refine .w ?_ rfl rfl rfl rfl rfl rfl rfl rfl rfl rfl rfl le_rfl) | intro _ | dsimp only

theorem destageRetry_keeps {s u : State} {a0} (h : Keeps s u) : Keeps s (destageRetry a0 u) := by
  unfold destageRetry
  iterate 20 all_goals try with_reducible first | assumption | split | apply destageStart_keeps | (refine .w ?_ rfl rfl rfl rfl rfl rfl rfl rfl rfl rfl rfl le_rfl) | intro _ | dsimp only

theorem evictTaken_keeps {s u : State} {a0} (h : Keeps s u) : Keeps s (evictTaken a0 u) := by
  unfold evictTaken
  iterate 20 all_goals try with_reducible first | assumption | split | apply retryWait_keeps | (refine .w ?_ rfl rfl rfl rfl rfl rfl rfl rfl rfl rfl rfl le_rfl) | intro _ | dsimp only

theorem evictionCommit_keeps {s u : State} {a0} (h : Keeps s u) : Keeps s (evictionCommit a0 u) := by
  unfold evictionCommit
  iterate 20 all_goals try with_reducible first | assumption | split | apply settle_keeps | apply evictTaken_keeps | apply evictCommit_keeps | (refine .w ?_ rfl rfl rfl rfl rfl rfl rfl rfl rfl rfl rfl le_rfl) | intro _ | dsimp only

theorem leaveRow_keeps {s u : State} {a0} (h : Keeps s u) : Keeps s (leaveRow a0 u) := by
  unfold leaveRow
  iterate 20 all_goals try with_reducible first | assumption | split | apply parityRest_keeps | apply closeRow_keeps | (refine .w ?_ rfl rfl rfl rfl rfl rfl rfl rfl rfl rfl rfl le_rfl) | intro _ | dsimp only

theorem programFail_keeps {s u : State} {a0} (h : Keeps s u) : Keeps s (programFail a0 u) := by
  unfold programFail
  iterate 20 all_goals try with_reducible first | assumption | split | refine destageSlotNext_keeps ‹_› ?_ | refine takeSeq_keeps ‹_› ?_ | refine takeSeq_keeps2 ?_ | apply dropDestage_keeps | apply toAsh_keeps | apply parityAfter_keeps | apply leaveRow_keeps | apply State.modFrame_keeps | apply mediaLevels_keeps | apply destageGiveUp_keeps | (refine .w ?_ rfl rfl rfl rfl rfl rfl rfl rfl rfl rfl rfl le_rfl) | intro _ | dsimp only

theorem fillArrived_keeps {s u : State} {a0} (h : Keeps s u) : Keeps s (fillArrived a0 u) := by
  unfold fillArrived
  iterate 20 all_goals try with_reducible first | assumption | split | apply afterAccess_keeps | apply settle_keeps | apply leaveFilling_keeps | (refine .w ?_ rfl rfl rfl rfl rfl rfl rfl rfl rfl rfl rfl le_rfl) | intro _ | dsimp only

theorem fillLineArrival_keeps {s u : State} {a0 a1} (h : Keeps s u) : Keeps s (fillLineArrival a0 a1 u) := by
  unfold fillLineArrival
  iterate 20 all_goals try with_reducible first | assumption | split | apply fillArrived_keeps | apply fillLine_keeps | (refine .w ?_ rfl rfl rfl rfl rfl rfl rfl rfl rfl rfl rfl le_rfl) | intro _ | dsimp only

theorem promoteAhead_keeps {s u : State} {a0} (h : Keeps s u) : Keeps s (promoteAhead a0 u) := by
  unfold promoteAhead
  iterate 20 all_goals try with_reducible first | assumption | split | apply enterFilling_keeps | (refine .w ?_ rfl rfl rfl rfl rfl rfl rfl rfl rfl rfl rfl le_rfl) | intro _ | dsimp only

theorem lookasideFill_keeps {s u : State} {a0} (h : Keeps s u) : Keeps s (lookasideFill a0 u) := by
  unfold lookasideFill
  iterate 20 all_goals try with_reducible first | assumption | split | apply State.modLook_keeps | apply setWaits_keeps | apply afterAccess_keeps | apply settle_keeps | apply promoteAhead_keeps | (refine .w ?_ rfl rfl rfl rfl rfl rfl rfl rfl rfl rfl rfl le_rfl) | intro _ | dsimp only

theorem fillUnit_keeps {s u : State} {a0 a1 a2} (h : Keeps s u) : Keeps s (fillUnit a0 a1 a2 u) := by
  unfold fillUnit
  iterate 20 all_goals try with_reducible first | assumption | split | apply fillLine_keeps | (apply Keeps.foldl; intros) | (refine .w ?_ rfl rfl rfl rfl rfl rfl rfl rfl rfl rfl rfl le_rfl) | intro _ | dsimp only

theorem readBegin_keeps {s u : State} {a0 a1 a2 a3 a4} (h : Keeps s u) : Keeps s (readBegin a0 a1 a2 a3 a4 u) := by
  unfold readBegin
  iterate 20 all_goals try with_reducible first | assumption | split | (refine .w ?_ rfl rfl rfl rfl rfl rfl rfl rfl rfl rfl rfl le_rfl) | intro _ | dsimp only

theorem mediaFillUnit_keeps {s u : State} {a0 a1 a2 a3} (h : Keeps s u) : Keeps s (mediaFillUnit a0 a1 a2 a3 u) := by
  unfold mediaFillUnit
  iterate 20 all_goals try with_reducible first | assumption | split | apply suspends_keeps | apply State.modFrame_keeps | apply mediaBusy_keeps | apply fillArrived_keeps | apply fillUnit_keeps | apply readBegin_keeps | (refine .w ?_ rfl rfl rfl rfl rfl rfl rfl rfl rfl rfl rfl le_rfl) | intro _ | dsimp only

theorem teLaInval_keeps {s u : State} {a0 a1} (h : Keeps s u) : Keeps s (teLaInval a0 a1 u) := by
  unfold teLaInval
  iterate 20 all_goals try with_reducible first | assumption | split | apply regWrite_keeps | apply laInvalidate_keeps | (refine .w ?_ rfl rfl rfl rfl rfl rfl rfl rfl rfl rfl rfl le_rfl) | intro _ | dsimp only

end Sys2Proof.Laws
end

