-- ==== Sys2Proof/Laws/KeepsMedia.lean ====
section
/-! SUPPORT. What the operations of Machine/Media.lean leave as it is. -/

namespace Sys2Proof.Laws

open Sys2Proof Sys2Proof.Machine Sys2Proof.Safety

theorem ashPump_keeps {s u : State} (h : Keeps s u) : Keeps s (ashPump u) := by
  unfold ashPump
  iterate 20 all_goals try with_reducible first | assumption | split | apply toAsh_keeps | (apply Keeps.foldl; intros) | (refine .w ?_ rfl rfl rfl rfl rfl rfl rfl rfl rfl rfl rfl le_rfl) | intro _ | dsimp only

theorem unlevel_keeps {s u : State} {a1} (h : Keeps s u) : Keeps s (unlevel u a1) := by
  unfold unlevel
  iterate 20 all_goals try with_reducible first | assumption | split | apply closeRowsOn_keeps | apply State.modLun_keeps | (refine .w ?_ rfl rfl rfl rfl rfl rfl rfl rfl rfl rfl rfl le_rfl) | intro _ | dsimp only

theorem bstCheckpoint_keeps {s u : State} {a0} (h : Keeps s u) : Keeps s (bstCheckpoint a0 u) := by
  unfold bstCheckpoint
  iterate 20 all_goals try with_reducible first | assumption | split | apply mediaLevels_keeps | apply bstWrite_keeps | apply unlevel_keeps | (apply Keeps.foldl; intros) | (refine .w ?_ rfl rfl rfl rfl rfl rfl rfl rfl rfl rfl rfl le_rfl) | intro _ | dsimp only

theorem checkpointChunk_keeps {s u : State} (h : Keeps s u) : Keeps s (checkpointChunk u) := by
  unfold checkpointChunk
  iterate 20 all_goals try with_reducible first | assumption | split | apply chunkWrite_keeps | (refine .w ?_ rfl rfl rfl rfl rfl rfl rfl rfl rfl rfl rfl le_rfl) | intro _ | dsimp only

theorem firstSample_keeps {s u : State} {a0 a1} (h : Keeps s u) : Keeps s (firstSample a0 a1 u) := by
  unfold firstSample
  iterate 20 all_goals try with_reducible first | assumption | split | apply State.modSet_keeps | apply toAsh_keeps | (refine .w ?_ rfl rfl rfl rfl rfl rfl rfl rfl rfl rfl rfl le_rfl) | intro _ | dsimp only

theorem refreshSchedule_keeps {s u : State} {a0} (h : Keeps s u) : Keeps s (refreshSchedule a0 u) := by
  unfold refreshSchedule
  iterate 20 all_goals try with_reducible first | assumption | split | apply State.modSet_keeps | (refine .w ?_ rfl rfl rfl rfl rfl rfl rfl rfl rfl rfl rfl le_rfl) | intro _ | dsimp only

theorem driftUp_keeps {s u : State} {a0} (h : Keeps s u) : Keeps s (driftUp a0 u) := by
  unfold driftUp
  iterate 20 all_goals try with_reducible first | assumption | split | apply State.modSet_keeps | apply refreshSchedule_keeps | (refine .w ?_ rfl rfl rfl rfl rfl rfl rfl rfl rfl rfl rfl le_rfl) | intro _ | dsimp only

theorem driftSample_keeps {s u : State} {a0 a1 a2} (h : Keeps s u) : Keeps s (driftSample a0 a1 a2 u) := by
  unfold driftSample
  iterate 20 all_goals try with_reducible first | assumption | split | apply firstSample_keeps | apply mediaLevels_keeps | apply driftUp_keeps | (refine .w ?_ rfl rfl rfl rfl rfl rfl rfl rfl rfl rfl rfl le_rfl) | intro _ | dsimp only

theorem dropRead_keeps {s u : State} {a0} (h : Keeps s u) : Keeps s (dropRead a0 u) := by
  unfold dropRead
  iterate 20 all_goals try with_reducible first | assumption | split | (refine .w ?_ rfl rfl rfl rfl rfl rfl rfl rfl rfl rfl rfl le_rfl) | intro _ | dsimp only

theorem relocPump_keeps {s u : State} (h : Keeps s u) : Keeps s (relocPump u) := by
  unfold relocPump
  iterate 20 all_goals try with_reducible first | assumption | split | apply moveSlot_keeps | (apply Keeps.foldl; intros) | (refine .w ?_ rfl rfl rfl rfl rfl rfl rfl rfl rfl rfl rfl le_rfl) | intro _ | dsimp only

theorem verifyEnd_keeps {s u : State} {a1} (h : Keeps s u) : Keeps s (verifyEnd u a1) := by
  unfold verifyEnd
  iterate 20 all_goals try with_reducible first | assumption | split | apply State.modSet_keeps | apply State.modRow_keeps | (apply Keeps.foldl; intros) | (refine .w ?_ rfl rfl rfl rfl rfl rfl rfl rfl rfl rfl rfl le_rfl) | intro _ | dsimp only

theorem owedWork_keeps {s u : State} (h : Keeps s u) : Keeps s (owedWork u) := by
  unfold owedWork
  iterate 20 all_goals try with_reducible first | assumption | split | apply ashPump_keeps | apply relocPump_keeps | apply mediaLevels_keeps | apply verifyEnd_keeps | (apply Keeps.foldl; intros) | (refine .w ?_ rfl rfl rfl rfl rfl rfl rfl rfl rfl rfl rfl le_rfl) | intro _ | dsimp only

theorem eraseComplete_keeps {s u : State} {a0 a1} (h : Keeps s u) : Keeps s (eraseComplete a0 a1 u) := by
  unfold eraseComplete
  iterate 20 all_goals try with_reducible first | assumption | split | apply State.modSet_keeps | apply eraseSlots_keeps | apply afterAccess_keeps | apply settle_keeps | apply owedWork_keeps | apply lunAshCheck_keeps | apply ashSet_keeps | (refine .w ?_ rfl rfl rfl rfl rfl rfl rfl rfl rfl rfl rfl le_rfl) | intro _ | dsimp only

theorem reclaimCopy_keeps {s u : State} (h : Keeps s u) : Keeps s (reclaimCopy u) := by
  unfold reclaimCopy
  iterate 20 all_goals try with_reducible first | assumption | split | apply moveSlot_keeps | apply pauseWait_keeps | (refine .w ?_ rfl rfl rfl rfl rfl rfl rfl rfl rfl rfl rfl le_rfl) | intro _ | dsimp only

theorem kilnFold_keeps {s u : State} (h : Keeps s u) : Keeps s (kilnFold u) := by
  unfold kilnFold
  iterate 20 all_goals try with_reducible first | assumption | split | apply mediaLevels_keeps | apply reclaimCopy_keeps | apply pauseWait_keeps | apply moveSlot_keeps | apply afterAccess_keeps | apply settle_keeps | apply count_keeps | (refine .w ?_ rfl rfl rfl rfl rfl rfl rfl rfl rfl rfl rfl le_rfl) | intro _ | dsimp only

theorem levelMove_keeps {s u : State} (h : Keeps s u) : Keeps s (levelMove u) := by
  unfold levelMove
  iterate 20 all_goals try with_reducible first | assumption | split | apply mediaLevels_keeps | apply moveAll_keeps | (refine .w ?_ rfl rfl rfl rfl rfl rfl rfl rfl rfl rfl rfl le_rfl) | intro _ | dsimp only

theorem lunTimeout_keeps {s u : State} {a0 a1} (h : Keeps s u) : Keeps s (lunTimeout a0 a1 u) := by
  unfold lunTimeout
  iterate 20 all_goals try with_reducible first | assumption | split | apply afterAccess_keeps | apply settle_keeps | apply owedWork_keeps | apply lunRetire_keeps | (refine .w ?_ rfl rfl rfl rfl rfl rfl rfl rfl rfl rfl rfl le_rfl) | intro _ | dsimp only

theorem recDeepRead_keeps {s u : State} {a0} (h : Keeps s u) : Keeps s (recDeepRead a0 u) := by
  unfold recDeepRead
  iterate 20 all_goals try with_reducible first | assumption | split | apply regRead_keeps | (refine .w ?_ rfl rfl rfl rfl rfl rfl rfl rfl rfl rfl rfl le_rfl) | intro _ | dsimp only

theorem mediaFormat_keeps {s u : State} {a0 a1 a2} (h : Keeps s u) : Keeps s (mediaFormat a0 a1 a2 u) := by
  unfold mediaFormat
  iterate 20 all_goals try with_reducible first | assumption | split | apply atornQ_keeps | apply twinCmd_keeps | (refine .w ?_ rfl rfl rfl rfl rfl rfl rfl rfl rfl rfl rfl le_rfl) | intro _ | dsimp only

theorem mediaIdle_keeps {s u : State} (h : Keeps s u) : Keeps s (mediaIdle u) := by
  unfold mediaIdle
  iterate 20 all_goals try with_reducible first | assumption | split | apply mediaLevels_keeps | (refine .w ?_ rfl rfl rfl rfl rfl rfl rfl rfl rfl rfl rfl le_rfl) | intro _ | dsimp only

theorem mediaQuery_keeps {s u : State} {a0} (h : Keeps s u) : Keeps s (mediaQuery a0 u) := by
  unfold mediaQuery
  iterate 20 all_goals try with_reducible first | assumption | split | apply query_keeps | (refine .w ?_ rfl rfl rfl rfl rfl rfl rfl rfl rfl rfl rfl le_rfl) | intro _ | dsimp only

theorem setClass_keeps {s u : State} {a0 a1} (h : Keeps s u) : Keeps s (setClass a0 a1 u) := by
  unfold setClass
  iterate 20 all_goals try with_reducible first | assumption | split | apply State.modSet_keeps | apply refreshSchedule_keeps | (refine .w ?_ rfl rfl rfl rfl rfl rfl rfl rfl rfl rfl rfl le_rfl) | intro _ | dsimp only

theorem readServes_keeps {s u : State} {a0} (h : Keeps s u) : Keeps s (readServes a0 u) := by
  unfold readServes
  iterate 20 all_goals try with_reducible first | assumption | split | apply fillArrived_keeps | apply fillUnit_keeps | apply unitAnswer_keeps | (refine .w ?_ rfl rfl rfl rfl rfl rfl rfl rfl rfl rfl rfl le_rfl) | intro _ | dsimp only

theorem relocate_keeps {s u : State} {a0} (h : Keeps s u) : Keeps s (relocate a0 u) := by
  unfold relocate
  iterate 20 all_goals try with_reducible first | assumption | split | (refine .w ?_ rfl rfl rfl rfl rfl rfl rfl rfl rfl rfl rfl le_rfl) | intro _ | dsimp only

theorem readAccept_keeps {s u : State} {a0 a1} (h : Keeps s u) : Keeps s (readAccept a0 a1 u) := by
  unfold readAccept
  iterate 20 all_goals try with_reducible first | assumption | split | apply dropRead_keeps | apply setClass_keeps | apply owedWork_keeps | apply readServes_keeps | apply relocate_keeps | (refine .w ?_ rfl rfl rfl rfl rfl rfl rfl rfl rfl rfl rfl le_rfl) | intro _ | dsimp only

theorem putRead_keeps {s u : State} {a0} (h : Keeps s u) : Keeps s (putRead a0 u) := by
  unfold putRead
  iterate 20 all_goals try with_reducible first | assumption | split | (refine .w ?_ rfl rfl rfl rfl rfl rfl rfl rfl rfl rfl rfl le_rfl) | intro _ | dsimp only

theorem readPoison_keeps {s u : State} {a0} (h : Keeps s u) : Keeps s (readPoison a0 u) := by
  unfold readPoison
  iterate 20 all_goals try with_reducible first | assumption | split | apply unitLost_keeps | apply dropRead_keeps | apply owedWork_keeps | apply readServes_keeps | apply relocate_keeps | (refine .w ?_ rfl rfl rfl rfl rfl rfl rfl rfl rfl rfl rfl le_rfl) | intro _ | dsimp only

theorem readAskTwin_keeps {s u : State} {a0} (h : Keeps s u) : Keeps s (readAskTwin a0 u) := by
  unfold readAskTwin
  iterate 20 all_goals try with_reducible first | assumption | split | apply linkSend_keeps | apply putRead_keeps | apply readPoison_keeps | (refine .w ?_ rfl rfl rfl rfl rfl rfl rfl rfl rfl rfl rfl le_rfl) | intro _ | dsimp only

theorem readNext_keeps {s u : State} {a0} (h : Keeps s u) : Keeps s (readNext a0 u) := by
  unfold readNext
  iterate 20 all_goals try with_reducible first | assumption | split | apply count_keeps | apply putRead_keeps | apply readAskTwin_keeps | (refine .w ?_ rfl rfl rfl rfl rfl rfl rfl rfl rfl rfl rfl le_rfl) | intro _ | dsimp only

theorem readComplete_keeps {s u : State} {a0 a1 a2 a3} (h : Keeps s u) : Keeps s (readComplete a0 a1 a2 a3 u) := by
  unfold readComplete
  iterate 20 all_goals try with_reducible first | assumption | split | apply suspends_keeps | apply readAccept_keeps | apply raise_keeps | apply integrityHalt_keeps | apply readNext_keeps | apply putRead_keeps | (refine .w ?_ rfl rfl rfl rfl rfl rfl rfl rfl rfl rfl rfl le_rfl) | intro _ | dsimp only

theorem mediaRetire_keeps {s u : State} {a0 a1 a2 a3} (h : Keeps s u) : Keeps s (mediaRetire a0 a1 a2 a3 u) := by
  unfold mediaRetire
  iterate 20 all_goals try with_reducible first | assumption | split | apply atornQ_keeps | apply lunTimeout_keeps | (refine .w ?_ rfl rfl rfl rfl rfl rfl rfl rfl rfl rfl rfl le_rfl) | intro _ | dsimp only

theorem rowVerify_keeps {s u : State} {a0 a1} (h : Keeps s u) : Keeps s (rowVerify a0 a1 u) := by
  unfold rowVerify
  iterate 20 all_goals try with_reducible first | assumption | split | apply State.modSet_keeps | apply readBegin_keeps | apply owedWork_keeps | apply State.modRow_keeps | (apply Keeps.foldl; intros) | (refine .w ?_ rfl rfl rfl rfl rfl rfl rfl rfl rfl rfl rfl le_rfl) | intro _ | dsimp only

theorem smoulderStep_keeps {s u : State} (h : Keeps s u) : Keeps s (smoulderStep u) := by
  unfold smoulderStep
  iterate 20 all_goals try with_reducible first | assumption | split | apply owedWork_keeps | apply reclaimCopy_keeps | (refine .w ?_ rfl rfl rfl rfl rfl rfl rfl rfl rfl rfl rfl le_rfl) | intro _ | dsimp only

theorem wearRebuilt_keeps {s u : State} {a0} (h : Keeps s u) : Keeps s (wearRebuilt a0 u) := by
  unfold wearRebuilt
  iterate 20 all_goals try with_reducible first | assumption | split | apply State.modLun_keeps | apply mediaLevels_keeps | apply ledger_keeps | apply raise_keeps | (refine .w ?_ rfl rfl rfl rfl rfl rfl rfl rfl rfl rfl rfl le_rfl) | intro _ | dsimp only

end Sys2Proof.Laws
end

