-- ==== Sys2Proof/Laws/KeepsResetOps.lean ====
section
/-! SUPPORT. What the operations of Machine/ResetOps.lean leave as it is. -/

namespace Sys2Proof.Laws

open Sys2Proof Sys2Proof.Machine Sys2Proof.Safety

theorem unlocksEnd_keeps {s u : State} (h : Keeps s u) : Keeps s (unlocksEnd u) := by
  unfold unlocksEnd
  iterate 20 all_goals try with_reducible first | assumption | split | apply State.modMbox_keeps | (apply Keeps.foldl; intros) | (refine .w ?_ rfl rfl rfl rfl rfl rfl rfl rfl rfl rfl rfl le_rfl) | intro _ | dsimp only

theorem clusterDown_keeps {s u : State} (h : Keeps s u) : Keeps s (clusterDown u) := by
  unfold clusterDown
  iterate 20 all_goals try with_reducible first | assumption | split | apply unlocksEnd_keeps | apply setWaits_keeps | (apply Keeps.foldl; intros) | (refine .w ?_ rfl rfl rfl rfl rfl rfl rfl rfl rfl rfl rfl le_rfl) | (refine .m ?_ rfl rfl ?_ ?_ ?_ ?_ ?_ ?_ ?_ ?_ le_rfl) | exact id | exact fun _ => wf_nil _ | exact wf_set _ _ _ _ | exact wf_upd _ _ _ _ | exact wf_clear _ _ _ _ | exact fun h => wf_set _ _ _ _ (wf_set _ _ _ _ h) | exact wf_foldl _ _ (fun t b ht => wf_set _ t _ _ ht) _ _ | exact fun h => wf_foldl _ _ (fun t b ht => wf_set _ t _ _ ht) _ _ (wf_clear _ _ _ _ h) | intro _ | dsimp only

theorem durable_keeps {s u : State} (h : Keeps s u) : Keeps s (durable u) := by
  exact .m h rfl rfl (fun _ => rfl) id id (fun _ => rfl) (fun _ => rfl) id id (fun _ => by decide) le_rfl

theorem coldDown_keeps {s u : State} (h : Keeps s u) : Keeps s (coldDown u) := by
  unfold coldDown
  iterate 20 all_goals try with_reducible first | assumption | split | apply durable_keeps | (refine .w ?_ rfl rfl rfl rfl rfl rfl rfl rfl rfl rfl rfl le_rfl) | intro _ | dsimp only

theorem downHalf_keeps {s u : State} (h : Keeps s u) : Keeps s (downHalf u) := by
  unfold downHalf
  iterate 20 all_goals try with_reducible first | assumption | split | (refine .w ?_ rfl rfl rfl rfl rfl rfl rfl rfl rfl rfl rfl le_rfl) | intro _ | dsimp only

theorem epochCommit_keeps {s u : State} {a0 a1} (h : Keeps s u) : Keeps s (epochCommit a0 a1 u) := by
  unfold epochCommit
  iterate 20 all_goals try with_reducible first | assumption | split | apply commit_keeps | (refine .w ?_ rfl rfl rfl rfl rfl rfl rfl rfl rfl rfl rfl le_rfl) | intro _ | dsimp only

theorem epochOpenCommit_keeps {s u : State} (h : Keeps s u) : Keeps s (epochOpenCommit u) := by
  unfold epochOpenCommit
  iterate 20 all_goals try with_reducible first | assumption | split | apply epochCommit_keeps | (refine .w ?_ rfl rfl rfl rfl rfl rfl rfl rfl rfl rfl rfl le_rfl) | intro _ | dsimp only

theorem epochWithdraw_keeps {s u : State} (h : Keeps s u) : Keeps s (epochWithdraw u) := by
  unfold epochWithdraw
  iterate 20 all_goals try with_reducible first | assumption | split | (refine .w ?_ rfl rfl rfl rfl rfl rfl rfl rfl rfl rfl rfl le_rfl) | intro _ | dsimp only

theorem fsCommit_keeps {s u : State} {a0 a1} (h : Keeps s u) : Keeps s (fsCommit a0 a1 u) := by
  unfold fsCommit
  iterate 20 all_goals try with_reducible first | assumption | split | apply commit_keeps | (refine .w ?_ rfl rfl rfl rfl rfl rfl rfl rfl rfl rfl rfl le_rfl) | intro _ | dsimp only

theorem commitCut_wf (o : OptState) (n : Nat) (h : Tab.wf {} o.pages = true) : Tab.wf {} (commitCut o n).pages = true := by
  unfold commitCut
  dsimp only
  repeat' split
  all_goals exact h

theorem powerDown_keeps {s u : State} (h : Keeps s u) : Keeps s (powerDown u) :=
  draw_keeps (.m (durable_keeps h) rfl rfl id id id id id id (commitCut_wf _ _) id le_rfl)

theorem warmDown_keeps {s u : State} (h : Keeps s u) : Keeps s (warmDown u) := by
  unfold warmDown
  iterate 20 all_goals try with_reducible first | assumption | split | apply holdAll_keeps | apply portDown_keeps | apply clusterDown_keeps | (apply Keeps.foldl; intros) | (refine .w ?_ rfl rfl rfl rfl rfl rfl rfl rfl rfl rfl rfl le_rfl) | intro _ | dsimp only

theorem reachDown_keeps {s u : State} {a0} (h : Keeps s u) : Keeps s (reachDown a0 u) := by
  unfold reachDown
  iterate 20 all_goals try with_reducible first | assumption | split | apply powerDown_keeps | apply coldDown_keeps | apply warmDown_keeps | apply clusterDown_keeps | apply portDown_keeps | (refine .w ?_ rfl rfl rfl rfl rfl rfl rfl rfl rfl rfl rfl le_rfl) | intro _ | dsimp only

theorem rstTake_keeps {s u : State} {a0} (h : Keeps s u) : Keeps s (rstTake a0 u) := by
  unfold rstTake
  iterate 20 all_goals try with_reducible first | assumption | split | apply reachDown_keeps | apply ledger_keeps | (refine .w ?_ rfl rfl rfl rfl rfl rfl rfl rfl rfl rfl rfl le_rfl) | intro _ | dsimp only

theorem rstAssert_keeps {s u : State} {a0} (h : Keeps s u) : Keeps s (rstAssert a0 u) := by
  unfold rstAssert
  iterate 20 all_goals try with_reducible first | assumption | split | apply rstTake_keeps | apply emberEnter_keeps | (refine .w ?_ rfl rfl rfl rfl rfl rfl rfl rfl rfl rfl rfl le_rfl) | intro _ | dsimp only

theorem portPulse_keeps {s u : State} {a0} (h : Keeps s u) : Keeps s (portPulse a0 u) := by
  unfold portPulse
  iterate 20 all_goals try with_reducible first | assumption | split | apply rstAssert_keeps | (refine .w ?_ rfl rfl rfl rfl rfl rfl rfl rfl rfl rfl rfl le_rfl) | intro _ | dsimp only

theorem recoveryEnter_keeps {s u : State} {a0} (h : Keeps s u) : Keeps s (recoveryEnter a0 u) := by
  unfold recoveryEnter
  iterate 20 all_goals try with_reducible first | assumption | split | (refine .w ?_ rfl rfl rfl rfl rfl rfl rfl rfl rfl rfl rfl le_rfl) | intro _ | dsimp only

theorem snapLedger_keeps {s u : State} {a0} (h : Keeps s u) : Keeps s (snapLedger a0 u) := by
  unfold snapLedger
  iterate 20 all_goals try with_reducible first | assumption | split | apply raise_keeps | apply ledger_keeps | (refine .w ?_ rfl rfl rfl rfl rfl rfl rfl rfl rfl rfl rfl le_rfl) | intro _ | dsimp only

theorem snapTake_keeps {s u : State} {a0 a1 a2 a3 a4} (h : Keeps s u) : Keeps s (snapTake a0 a1 a2 a3 a4 u) := by
  unfold snapTake
  iterate 20 all_goals try with_reducible first | assumption | split | (refine .w ?_ rfl rfl rfl rfl rfl rfl rfl rfl rfl rfl rfl le_rfl) | intro _ | dsimp only

theorem startFail_keeps {s u : State} {a0} (h : Keeps s u) : Keeps s (startFail a0 u) := by
  unfold startFail
  iterate 20 all_goals try with_reducible first | assumption | split | apply ledger_keeps | apply fsCommit_keeps | (refine .w ?_ rfl rfl rfl rfl rfl rfl rfl rfl rfl rfl rfl le_rfl) | intro _ | dsimp only

theorem timedShutdown_keeps {s u : State} {a0} (h : Keeps s u) : Keeps s (timedShutdown a0 u) := by
  unfold timedShutdown
  iterate 20 all_goals try with_reducible first | assumption | split | apply commitStart_keeps | apply epochWithdraw_keeps | apply fsCommit_keeps | apply downHalf_keeps | (refine .w ?_ rfl rfl rfl rfl rfl rfl rfl rfl rfl rfl rfl le_rfl) | intro _ | dsimp only

end Sys2Proof.Laws
end

