-- ==== Sys2Proof/Laws/KeepsTwinOps.lean ====
section
/-! SUPPORT. What the operations of Machine/TwinOps.lean leave as it is. -/

namespace Sys2Proof.Laws

open Sys2Proof Sys2Proof.Machine Sys2Proof.Safety

theorem asksLost_keeps {s u : State} (h : Keeps s u) : Keeps s (asksLost u) := by
  unfold asksLost
  iterate 20 all_goals try with_reducible first | assumption | split | apply readPoison_keeps | (apply Keeps.foldl; intros) | (refine .w ?_ rfl rfl rfl rfl rfl rfl rfl rfl rfl rfl rfl le_rfl) | intro _ | dsimp only

theorem pairChange_keeps {s u : State} {f0} (hf0 : ∀ v, Keeps s v → Keeps s (f0 v)) (h : Keeps s u) : Keeps s (pairChange f0 u) := by
  unfold pairChange
  iterate 20 all_goals try with_reducible first | assumption | split | apply hf0 | apply settle_keeps | apply readyWatch_keeps | (refine .w ?_ rfl rfl rfl rfl rfl rfl rfl rfl rfl rfl rfl le_rfl) | intro _ | dsimp only

theorem twinRecord_keeps {s u : State} {a0 a1} (h : Keeps s u) : Keeps s (twinRecord a0 a1 u) := by
  unfold twinRecord
  iterate 20 all_goals try with_reducible first | assumption | split | apply cxlLog_keeps | (refine .w ?_ rfl rfl rfl rfl rfl rfl rfl rfl rfl rfl rfl le_rfl) | intro _ | dsimp only

theorem becomeFenced_keeps {s u : State} (h : Keeps s u) : Keeps s (becomeFenced u) := by
  unfold becomeFenced
  iterate 20 all_goals try with_reducible first | assumption | split | apply pairChange_keeps | apply twinRecord_keeps | apply markDiverged_keeps | apply pairWrite_keeps | apply holdAll_keeps | apply setPs_keeps | (refine .w ?_ rfl rfl rfl rfl rfl rfl rfl rfl rfl rfl rfl le_rfl) | intro _ | dsimp only

theorem cfgSend_keeps {s u : State} {a0} (h : Keeps s u) : Keeps s (cfgSend a0 u) := by
  unfold cfgSend
  iterate 20 all_goals try with_reducible first | assumption | split | apply linkSend_keeps | (refine .w ?_ rfl rfl rfl rfl rfl rfl rfl rfl rfl rfl rfl le_rfl) | intro _ | dsimp only

theorem cfgCopy_keeps {s u : State} (h : Keeps s u) : Keeps s (cfgCopy u) := by
  unfold cfgCopy
  iterate 20 all_goals try with_reducible first | assumption | split | apply cfgSend_keeps | (apply Keeps.foldl; intros) | (refine .w ?_ rfl rfl rfl rfl rfl rfl rfl rfl rfl rfl rfl le_rfl) | intro _ | dsimp only

theorem takeoverBegin_keeps {s u : State} {a0} (h : Keeps s u) : Keeps s (takeoverBegin a0 u) := by
  unfold takeoverBegin
  iterate 20 all_goals try with_reducible first | assumption | split | apply ledger_keeps | apply raise_keeps | apply becomeFenced_keeps | apply pairWrite_keeps | (refine .w ?_ rfl rfl rfl rfl rfl rfl rfl rfl rfl rfl rfl le_rfl) | intro _ | dsimp only

theorem claimTake_keeps {s u : State} (h : Keeps s u) : Keeps s (claimTake u) := by
  unfold claimTake
  iterate 20 all_goals try with_reducible first | assumption | split | apply takeoverBegin_keeps | (refine .w ?_ rfl rfl rfl rfl rfl rfl rfl rfl rfl rfl rfl le_rfl) | intro _ | dsimp only

theorem copyBillet_keeps {s u : State} {a0} (h : Keeps s u) : Keeps s (copyBillet a0 u) := by
  unfold copyBillet
  iterate 20 all_goals try with_reducible first | assumption | split | apply linkSend_keeps | (apply Keeps.foldl; intros) | (refine .w ?_ rfl rfl rfl rfl rfl rfl rfl rfl rfl rfl rfl le_rfl) | intro _ | dsimp only

theorem copySegment_keeps {s u : State} {a0} (h : Keeps s u) : Keeps s (copySegment a0 u) := by
  unfold copySegment
  iterate 20 all_goals try with_reducible first | assumption | split | apply copyBillet_keeps | apply linkSend_keeps | (apply Keeps.foldl; intros) | (refine .w ?_ rfl rfl rfl rfl rfl rfl rfl rfl rfl rfl rfl le_rfl) | intro _ | dsimp only

theorem decide__keeps {s u : State} (h : Keeps s u) : Keeps s (decide_ u) := by
  unfold decide_
  iterate 20 all_goals try with_reducible first | assumption | split | apply becomeFenced_keeps | apply takeoverBegin_keeps | apply claimTake_keeps | (refine .w ?_ rfl rfl rfl rfl rfl rfl rfl rfl rfl rfl rfl le_rfl) | intro _ | dsimp only

theorem freshSession_keeps {s u : State} {a0} (h : Keeps s u) : Keeps s (freshSession a0 u) := by
  unfold freshSession
  iterate 20 all_goals try with_reducible first | assumption | split | apply State.modMbox_keeps | (refine .w ?_ rfl rfl rfl rfl rfl rfl rfl rfl rfl rfl rfl le_rfl) | intro _ | dsimp only

theorem genListPump_keeps {s u : State} (h : Keeps s u) : Keeps s (genListPump u) := by
  unfold genListPump
  iterate 20 all_goals try with_reducible first | assumption | split | apply linkSend_keeps | (refine .w ?_ rfl rfl rfl rfl rfl rfl rfl rfl rfl rfl rfl le_rfl) | intro _ | dsimp only

theorem setHomes_keeps {s u : State} (h : Keeps s u) : Keeps s (setHomes u) := by
  unfold setHomes
  iterate 20 all_goals try with_reducible first | assumption | split | apply State.modSeg_keeps | (apply Keeps.foldl; intros) | (refine .w ?_ rfl rfl rfl rfl rfl rfl rfl rfl rfl rfl rfl le_rfl) | intro _ | dsimp only

theorem resyncFinish_keeps {s u : State} (h : Keeps s u) : Keeps s (resyncFinish u) := by
  unfold resyncFinish
  iterate 20 all_goals try with_reducible first | assumption | split | apply linkSend_keeps | apply pairWrite_keeps | apply pairChange_keeps | apply setHomes_keeps | apply setPs_keeps | apply twinRecord_keeps | (refine .w ?_ rfl rfl rfl rfl rfl rfl rfl rfl rfl rfl rfl le_rfl) | intro _ | dsimp only

theorem resyncNext_keeps {s u : State} (h : Keeps s u) : Keeps s (resyncNext u) := by
  unfold resyncNext
  iterate 20 all_goals try with_reducible first | assumption | split | apply copySegment_keeps | apply resyncFinish_keeps | (refine .w ?_ rfl rfl rfl rfl rfl rfl rfl rfl rfl rfl rfl le_rfl) | intro _ | dsimp only

theorem genListTake_keeps {s u : State} {a0 a1} (h : Keeps s u) : Keeps s (genListTake a0 a1 u) := by
  unfold genListTake
  iterate 20 all_goals try with_reducible first | assumption | split | apply cfgCopy_keeps | apply resyncNext_keeps | (refine .w ?_ rfl rfl rfl rfl rfl rfl rfl rfl rfl rfl rfl le_rfl) | intro _ | dsimp only

theorem linkCover_keeps {s u : State} {a0} (h : Keeps s u) : Keeps s (linkCover a0 u) := by
  unfold linkCover
  iterate 20 all_goals try with_reducible first | assumption | split | (refine .w ?_ rfl rfl rfl rfl rfl rfl rfl rfl rfl rfl rfl le_rfl) | intro _ | dsimp only

theorem linkGap_keeps {s u : State} (h : Keeps s u) : Keeps s (linkGap u) := by
  unfold linkGap
  iterate 20 all_goals try with_reducible first | assumption | split | apply linkSend_keeps | (refine .w ?_ rfl rfl rfl rfl rfl rfl rfl rfl rfl rfl rfl le_rfl) | intro _ | dsimp only

theorem migAbort_keeps {s u : State} (h : Keeps s u) : Keeps s (migAbort u) := by
  unfold migAbort
  iterate 20 all_goals try with_reducible first | assumption | split | apply State.modSeg_keeps | (apply Keeps.foldl; intros) | (refine .w ?_ rfl rfl rfl rfl rfl rfl rfl rfl rfl rfl rfl le_rfl) | intro _ | dsimp only

theorem linkIdle_keeps {s u : State} (h : Keeps s u) : Keeps s (linkIdle u) := by
  unfold linkIdle
  iterate 20 all_goals try with_reducible first | assumption | split | apply chanReset_keeps | apply migAbort_keeps | (refine .w ?_ rfl rfl rfl rfl rfl rfl rfl rfl rfl rfl rfl le_rfl) | intro _ | dsimp only

theorem toPairing_keeps {s u : State} (h : Keeps s u) : Keeps s (toPairing u) := by
  unfold toPairing
  iterate 20 all_goals try with_reducible first | assumption | split | apply pairChange_keeps | apply setPs_keeps | apply holdAll_keeps | apply twinRecord_keeps | (refine .w ?_ rfl rfl rfl rfl rfl rfl rfl rfl rfl rfl rfl le_rfl) | intro _ | dsimp only

theorem lossOutcome_keeps {s u : State} (h : Keeps s u) : Keeps s (lossOutcome u) := by
  unfold lossOutcome
  iterate 20 all_goals try with_reducible first | assumption | split | apply decide__keeps | apply takeoverBegin_keeps | apply toPairing_keeps | (refine .w ?_ rfl rfl rfl rfl rfl rfl rfl rfl rfl rfl rfl le_rfl) | intro _ | dsimp only

theorem lossOfLink_keeps {s u : State} (h : Keeps s u) : Keeps s (lossOfLink u) := by
  unfold lossOfLink
  iterate 20 all_goals try with_reducible first | assumption | split | apply settle_keeps | apply lossOutcome_keeps | apply asksLost_keeps | apply linkIdle_keeps | (refine .w ?_ rfl rfl rfl rfl rfl rfl rfl rfl rfl rfl rfl le_rfl) | intro _ | dsimp only

theorem linkResend_keeps {s u : State} {a0} (h : Keeps s u) : Keeps s (linkResend a0 u) := by
  unfold linkResend
  iterate 20 all_goals try with_reducible first | assumption | split | apply lossOfLink_keeps | apply emit_keeps | apply count_keeps | (apply Keeps.foldl; intros) | (refine .w ?_ rfl rfl rfl rfl rfl rfl rfl rfl rfl rfl rfl le_rfl) | intro _ | dsimp only

theorem linkTagFail_keeps {s u : State} {a0} (h : Keeps s u) : Keeps s (linkTagFail a0 u) := by
  unfold linkTagFail
  iterate 20 all_goals try with_reducible first | assumption | split | apply lossOfLink_keeps | apply raise_keeps | apply integrityHalt_keeps | (refine .w ?_ rfl rfl rfl rfl rfl rfl rfl rfl rfl rfl rfl le_rfl) | intro _ | dsimp only

theorem linkRx_keeps {s u : State} {a0 a1 f2} (hf2 : ∀ v, Keeps s v → Keeps s (f2 v)) (h : Keeps s u) : Keeps s (linkRx a0 a1 f2 u) := by
  unfold linkRx
  iterate 20 all_goals try with_reducible first | assumption | split | apply hf2 | apply linkTagFail_keeps | apply lossOfLink_keeps | apply linkCover_keeps | apply linkGap_keeps | apply genListPump_keeps | (refine .w ?_ rfl rfl rfl rfl rfl rfl rfl rfl rfl rfl rfl le_rfl) | intro _ | dsimp only

theorem noticeTaken_keeps {s u : State} {a0 a1} (h : Keeps s u) : Keeps s (noticeTaken a0 a1 u) := by
  unfold noticeTaken
  iterate 20 all_goals try with_reducible first | assumption | split | apply leaveByNotice_keeps | apply asksLost_keeps | apply linkIdle_keeps | apply migAbort_keeps | apply settle_keeps | apply takeoverBegin_keeps | apply toPairing_keeps | (refine .w ?_ rfl rfl rfl rfl rfl rfl rfl rfl rfl rfl rfl le_rfl) | intro _ | dsimp only

theorem pairRefuse_keeps {s u : State} {a0 a1 a2} (h : Keeps s u) : Keeps s (pairRefuse a0 a1 a2 u) := by
  unfold pairRefuse
  iterate 20 all_goals try with_reducible first | assumption | split | apply raise_keeps | apply ledger_keeps | apply linkIdle_keeps | apply pairChange_keeps | apply setPs_keeps | (refine .w ?_ rfl rfl rfl rfl rfl rfl rfl rfl rfl rfl rfl le_rfl) | intro _ | dsimp only

theorem retrainPump_keeps {s u : State} (h : Keeps s u) : Keeps s (retrainPump u) := by
  unfold retrainPump
  iterate 20 all_goals try with_reducible first | assumption | split | (refine .w ?_ rfl rfl rfl rfl rfl rfl rfl rfl rfl rfl rfl le_rfl) | intro _ | dsimp only

theorem retrainDegraded_keeps {s u : State} (h : Keeps s u) : Keeps s (retrainDegraded u) := by
  unfold retrainDegraded
  iterate 20 all_goals try with_reducible first | assumption | split | apply retrainPump_keeps | (refine .w ?_ rfl rfl rfl rfl rfl rfl rfl rfl rfl rfl rfl le_rfl) | intro _ | dsimp only

theorem pairJoin_keeps {s u : State} {a0 a1 a2 a3 a4} (h : Keeps s u) : Keeps s (pairJoin a0 a1 a2 a3 a4 u) := by
  unfold pairJoin
  iterate 20 all_goals try with_reducible first | assumption | split | apply retrainDegraded_keeps | apply cdatChange_keeps | apply pairWrite_keeps | apply pairChange_keeps | apply setPs_keeps | (refine .w ?_ rfl rfl rfl rfl rfl rfl rfl rfl rfl rfl rfl le_rfl) | intro _ | dsimp only

theorem pairAct_keeps {s u : State} {a0 a1 a2} (h : Keeps s u) : Keeps s (pairAct a0 a1 a2 u) := by
  unfold pairAct
  iterate 20 all_goals try with_reducible first | assumption | split | apply pairRefuse_keeps | apply pairJoin_keeps | (refine .w ?_ rfl rfl rfl rfl rfl rfl rfl rfl rfl rfl rfl le_rfl) | intro _ | dsimp only

theorem pairLead_keeps {s u : State} {a0} (h : Keeps s u) : Keeps s (pairLead a0 u) := by
  unfold pairLead
  iterate 20 all_goals try with_reducible first | assumption | split | apply pairAct_keeps | apply linkSend_keeps | (refine .w ?_ rfl rfl rfl rfl rfl rfl rfl rfl rfl rfl rfl le_rfl) | intro _ | dsimp only

theorem partnerStart_keeps {s u : State} {a0} (h : Keeps s u) : Keeps s (partnerStart a0 u) := by
  unfold partnerStart
  iterate 20 all_goals try with_reducible first | assumption | split | apply streamNotify_keeps | apply State.modChan_keeps | (apply Keeps.foldl; intros) | (refine .w ?_ rfl rfl rfl rfl rfl rfl rfl rfl rfl rfl rfl le_rfl) | intro _ | dsimp only

theorem partnersWait_keeps {s u : State} (h : Keeps s u) : Keeps s (partnersWait u) := by
  unfold partnersWait
  iterate 20 all_goals try with_reducible first | assumption | split | apply raise_keeps | (apply Keeps.foldl; intros) | (refine .w ?_ rfl rfl rfl rfl rfl rfl rfl rfl rfl rfl rfl le_rfl) | intro _ | dsimp only

theorem resyncEnded_keeps {s u : State} {a0} (h : Keeps s u) : Keeps s (resyncEnded a0 u) := by
  unfold resyncEnded
  iterate 20 all_goals try with_reducible first | assumption | split | apply unmapNow_keeps | apply pairWrite_keeps | apply pairChange_keeps | apply setHomes_keeps | apply setPs_keeps | apply twinRecord_keeps | (apply Keeps.foldl; intros) | (refine .w ?_ rfl rfl rfl rfl rfl rfl rfl rfl rfl rfl rfl le_rfl) | intro _ | dsimp only

theorem segAcked_keeps {s u : State} {a0} (h : Keeps s u) : Keeps s (segAcked a0 u) := by
  unfold segAcked
  iterate 20 all_goals try with_reducible first | assumption | split | apply resyncNext_keeps | apply settle_keeps | (refine .w ?_ rfl rfl rfl rfl rfl rfl rfl rfl rfl rfl rfl le_rfl) | intro _ | dsimp only

theorem sessionBegin_keeps {s u : State} (h : Keeps s u) : Keeps s (sessionBegin u) := by
  unfold sessionBegin
  iterate 20 all_goals try with_reducible first | assumption | split | apply readyWatch_keeps | apply setPs_keeps | apply freshSession_keeps | apply pairWrite_keeps | (refine .w ?_ rfl rfl rfl rfl rfl rfl rfl rfl rfl rfl rfl le_rfl) | intro _ | dsimp only

theorem sessionCommitted_keeps {s u : State} (h : Keeps s u) : Keeps s (sessionCommitted u) := by
  unfold sessionCommitted
  iterate 20 all_goals try with_reducible first | assumption | split | apply linkSend_keeps | (refine .w ?_ rfl rfl rfl rfl rfl rfl rfl rfl rfl rfl rfl le_rfl) | intro _ | dsimp only

theorem takeoverDone_keeps {s u : State} (h : Keeps s u) : Keeps s (takeoverDone u) := by
  unfold takeoverDone
  iterate 20 all_goals try with_reducible first | assumption | split | apply State.modSeg_keeps | apply pairChange_keeps | apply setPs_keeps | apply cdatChange_keeps | apply twinRecord_keeps | apply ledger_keeps | apply raise_keeps | apply partnerStart_keeps | apply partnersWait_keeps | apply endBlock_keeps | (apply Keeps.foldl; intros) | (refine .w ?_ rfl rfl rfl rfl rfl rfl rfl rfl rfl rfl rfl le_rfl) | intro _ | dsimp only

end Sys2Proof.Laws
end

