-- ==== Sys2Proof/Laws/KeepsLedgerOps.lean ====
section
/-! SUPPORT. What the operations of Machine/LedgerOps.lean leave as it is. -/

namespace Sys2Proof.Laws

open Sys2Proof Sys2Proof.Machine Sys2Proof.Safety

theorem lgChoose_keeps {s u : State} (h : Keeps s u) : Keeps s (lgChoose u) := by
  unfold lgChoose
  iterate 20 all_goals try with_reducible first | assumption | split | apply commit_keeps | (refine .w ?_ rfl rfl rfl rfl rfl rfl rfl rfl rfl rfl rfl le_rfl) | intro _ | dsimp only

theorem lgDrain_keeps {s u : State} {a0} (h : Keeps s u) : Keeps s (lgDrain a0 u) := by
  induction a0 generalizing u  with
  | zero => exact h
  | succ n ih =>
    unfold lgDrain
    iterate 20 all_goals try with_reducible first | assumption | split | apply ih | apply lgRaise_keeps | apply lgEvent_keeps | (refine .w ?_ rfl rfl rfl rfl rfl rfl rfl rfl rfl rfl rfl le_rfl) | intro _ | dsimp only

theorem lgProgrammed_keeps {s u : State} (h : Keeps s u) : Keeps s (lgProgrammed u) := by
  unfold lgProgrammed
  iterate 20 all_goals try with_reducible first | assumption | split | (apply Keeps.foldl; intros) | (refine .w ?_ rfl rfl rfl rfl rfl rfl rfl rfl rfl rfl rfl le_rfl) | intro _ | dsimp only

theorem lgFlush_keeps {s u : State} (h : Keeps s u) : Keeps s (lgFlush u) := by
  unfold lgFlush
  iterate 20 all_goals try with_reducible first | assumption | split | apply lgProgrammed_keeps | (refine .w ?_ rfl rfl rfl rfl rfl rfl rfl rfl rfl rfl rfl le_rfl) | intro _ | dsimp only

theorem lgOnline_keeps {s u : State} (h : Keeps s u) : Keeps s (lgOnline u) := by
  unfold lgOnline
  iterate 20 all_goals try with_reducible first | assumption | split | apply lgChoose_keeps | (refine .w ?_ rfl rfl rfl rfl rfl rfl rfl rfl rfl rfl rfl le_rfl) | intro _ | dsimp only

theorem lgRaised_keeps {s u : State} (h : Keeps s u) : Keeps s (lgRaised u) := by
  unfold lgRaised
  iterate 20 all_goals try with_reducible first | assumption | split | apply lgDrain_keeps | (refine .w ?_ rfl rfl rfl rfl rfl rfl rfl rfl rfl rfl rfl le_rfl) | intro _ | dsimp only

theorem lgResume_keeps {s u : State} (h : Keeps s u) : Keeps s (lgResume u) := by
  unfold lgResume
  iterate 20 all_goals try with_reducible first | assumption | split | apply lgStage_keeps | (refine .w ?_ rfl rfl rfl rfl rfl rfl rfl rfl rfl rfl rfl le_rfl) | intro _ | dsimp only

end Sys2Proof.Laws
end

