-- ==== Sys2Proof/Laws/KeepsNolene.lean ====
section
/-! SUPPORT. What the operations of Machine/Nolene.lean leave as it is. -/

namespace Sys2Proof.Laws

open Sys2Proof Sys2Proof.Machine Sys2Proof.Safety



end Sys2Proof.Laws
end

