-- ==== Sys2Proof/Laws/KeepsStreamOps.lean ====
section
/-! SUPPORT. What the operations of Machine/StreamOps.lean leave as it is. -/

namespace Sys2Proof.Laws

open Sys2Proof Sys2Proof.Machine Sys2Proof.Safety

theorem admitWatch_keeps {s u : State} {f0} (hf0 : ∀ v, Keeps s v → Keeps s (f0 v)) (h : Keeps s u) : Keeps s (admitWatch f0 u) := by
  unfold admitWatch
  iterate 20 all_goals try with_reducible first | assumption | split | apply hf0 | apply raise_keeps | (apply Keeps.foldl; intros) | (refine .w ?_ rfl rfl rfl rfl rfl rfl rfl rfl rfl rfl rfl le_rfl) | intro _ | dsimp only

theorem unpin_keeps {s u : State} {a0} (h : Keeps s u) : Keeps s (unpin a0 u) := by
  unfold unpin
  iterate 20 all_goals try with_reducible first | assumption | split | apply setWaits_keeps | apply State.modChan_keeps | (refine .w ?_ rfl rfl rfl rfl rfl rfl rfl rfl rfl rfl rfl le_rfl) | intro _ | dsimp only

theorem heldFor_keeps {s u : State} {a0 a1} (h : Keeps s u) : Keeps s (heldFor a0 a1 u) := by
  unfold heldFor
  iterate 20 all_goals try with_reducible first | assumption | split | apply streamNotify_keeps | apply unpin_keeps | apply State.modChan_keeps | (refine .w ?_ rfl rfl rfl rfl rfl rfl rfl rfl rfl rfl rfl le_rfl) | intro _ | dsimp only

theorem relEmpty_keeps {s u : State} {a0} (h : Keeps s u) : Keeps s (relEmpty a0 u) := by
  unfold relEmpty
  iterate 20 all_goals try with_reducible first | assumption | split | apply unpin_keeps | apply stopEnd_keeps | apply raise_keeps | apply heldFor_keeps | (refine .w ?_ rfl rfl rfl rfl rfl rfl rfl rfl rfl rfl rfl le_rfl) | intro _ | dsimp only

theorem jobDone_keeps {s u : State} {a0} (h : Keeps s u) : Keeps s (jobDone a0 u) := by
  unfold jobDone
  iterate 20 all_goals try with_reducible first | assumption | split | apply raise_keeps | apply unpin_keeps | apply State.modChan_keeps | (refine .w ?_ rfl rfl rfl rfl rfl rfl rfl rfl rfl rfl rfl le_rfl) | intro _ | dsimp only

theorem headEnd_keeps {s u : State} {a0} (h : Keeps s u) : Keeps s (headEnd a0 u) := by
  unfold headEnd
  iterate 20 all_goals try with_reducible first | assumption | split | apply ringEntry_keeps | apply emit_keeps | apply State.modChan_keeps | apply sampleLat_keeps | apply count_keeps | apply jobDone_keeps | apply streamNotify_keeps | apply starveEntry_keeps | (refine .w ?_ rfl rfl rfl rfl rfl rfl rfl rfl rfl rfl rfl le_rfl) | intro _ | dsimp only

theorem headsEnd_keeps {s u : State} {a0 a1} (h : Keeps s u) : Keeps s (headsEnd a0 a1 u) := by
  induction a0 generalizing u a1 with
  | zero => exact h
  | succ n ih =>
    unfold headsEnd
    iterate 20 all_goals try with_reducible first | assumption | split | apply ih | apply headEnd_keeps | (refine .w ?_ rfl rfl rfl rfl rfl rfl rfl rfl rfl rfl rfl le_rfl) | intro _ | dsimp only

theorem relFlush_keeps {s u : State} {a0} (h : Keeps s u) : Keeps s (relFlush a0 u) := by
  unfold relFlush
  iterate 20 all_goals try with_reducible first | assumption | split | apply relEmpty_keeps | apply headsEnd_keeps | (refine .w ?_ rfl rfl rfl rfl rfl rfl rfl rfl rfl rfl rfl le_rfl) | intro _ | dsimp only

theorem streamFetch_keeps {s u : State} {a0 a1} (h : Keeps s u) : Keeps s (streamFetch a0 a1 u) := by
  unfold streamFetch
  iterate 20 all_goals try with_reducible first | assumption | split | refine lineTake_keeps ‹_› ?_ | refine lineTake_keeps2 ?_ | (apply Keeps.foldl; intros) | (refine .w ?_ rfl rfl rfl rfl rfl rfl rfl rfl rfl rfl rfl le_rfl) | intro _ | dsimp only

theorem pinFetch_keeps {s u : State} {a0} (h : Keeps s u) : Keeps s (pinFetch a0 u) := by
  unfold pinFetch
  iterate 20 all_goals try with_reducible first | assumption | split | apply submit_keeps | (apply Keeps.foldl; intros) | (refine .w ?_ rfl rfl rfl rfl rfl rfl rfl rfl rfl rfl rfl le_rfl) | intro _ | dsimp only

theorem pinHolds_keeps {s u : State} {a0} (h : Keeps s u) : Keeps s (pinHolds a0 u) := by
  unfold pinHolds
  iterate 20 all_goals try with_reducible first | assumption | split | apply keepFrame_keeps | (refine .w ?_ rfl rfl rfl rfl rfl rfl rfl rfl rfl rfl rfl le_rfl) | intro _ | dsimp only

theorem pinWindow_keeps {s u : State} {a0} (h : Keeps s u) : Keeps s (pinWindow a0 u) := by
  unfold pinWindow
  iterate 20 all_goals try with_reducible first | assumption | split | apply State.modChan_keeps | apply setWaits_keeps | apply raise_keeps | apply pinFetch_keeps | apply pinHolds_keeps | (apply Keeps.foldl; intros) | (refine .w ?_ rfl rfl rfl rfl rfl rfl rfl rfl rfl rfl rfl le_rfl) | intro _ | dsimp only

theorem chanDecide_keeps {s u : State} {a0 a1 a2} (h : Keeps s u) : Keeps s (chanDecide a0 a1 a2 u) := by
  unfold chanDecide
  iterate 20 all_goals try with_reducible first | assumption | split | apply count_keeps | apply State.modChan_keeps | apply relFlush_keeps | apply streamFetch_keeps | apply pauseWait_keeps | apply pinWindow_keeps | (refine .w ?_ rfl rfl rfl rfl rfl rfl rfl rfl rfl rfl rfl le_rfl) | intro _ | dsimp only

theorem engineFault_keeps {s u : State} {a0 a1} (h : Keeps s u) : Keeps s (engineFault a0 a1 u) := by
  unfold engineFault
  iterate 20 all_goals try with_reducible first | assumption | split | apply State.modChan_keeps | (refine .w ?_ rfl rfl rfl rfl rfl rfl rfl rfl rfl rfl rfl le_rfl) | intro _ | dsimp only

theorem laneRetire_keeps {s u : State} {a0 a1} (h : Keeps s u) : Keeps s (laneRetire a0 a1 u) := by
  unfold laneRetire
  iterate 20 all_goals try with_reducible first | assumption | split | apply admitWatch_keeps | apply commit_keeps | apply ledger_keeps | apply raise_keeps | (refine .w ?_ rfl rfl rfl rfl rfl rfl rfl rfl rfl rfl rfl le_rfl) | intro _ | dsimp only

theorem laneFault_keeps {s u : State} {a0 a1} (h : Keeps s u) : Keeps s (laneFault a0 a1 u) := by
  unfold laneFault
  iterate 20 all_goals try with_reducible first | assumption | split | apply laneRetire_keeps | (refine .w ?_ rfl rfl rfl rfl rfl rfl rfl rfl rfl rfl rfl le_rfl) | intro _ | dsimp only

theorem lanesStart_keeps {s u : State} {a0} (h : Keeps s u) : Keeps s (lanesStart a0 u) := by
  unfold lanesStart
  iterate 20 all_goals try with_reducible first | assumption | split | (apply Keeps.foldl; intros) | (refine .w ?_ rfl rfl rfl rfl rfl rfl rfl rfl rfl rfl rfl le_rfl) | intro _ | dsimp only

theorem lineEnd_keeps {s u : State} {a0} (h : Keeps s u) : Keeps s (lineEnd a0 u) := by
  unfold lineEnd
  iterate 20 all_goals try with_reducible first | assumption | split | apply relFlush_keeps | apply headEnd_keeps | (refine .w ?_ rfl rfl rfl rfl rfl rfl rfl rfl rfl rfl rfl le_rfl) | intro _ | dsimp only

theorem relFinishN_keeps {s u : State} {a0 a1} (h : Keeps s u) : Keeps s (relFinishN a0 a1 u) := by
  induction a0 generalizing u a1 with
  | zero => exact h
  | succ n ih =>
    unfold relFinishN
    iterate 20 all_goals try with_reducible first | assumption | split | apply ih | apply lineEnd_keeps | apply State.modChan_keeps | (refine .w ?_ rfl rfl rfl rfl rfl rfl rfl rfl rfl rfl rfl le_rfl) | intro _ | dsimp only

theorem relFinish_keeps {s u : State} {a0} (h : Keeps s u) : Keeps s (relFinish a0 u) := by
  unfold relFinish
  iterate 20 all_goals try with_reducible first | assumption | split | apply relFinishN_keeps | (refine .w ?_ rfl rfl rfl rfl rfl rfl rfl rfl rfl rfl rfl le_rfl) | intro _ | dsimp only

end Sys2Proof.Laws
end

