-- ==== Sys2Proof/Laws/KeepsEmberOps.lean ====
section
/-! SUPPORT. What the operations of Machine/EmberOps.lean leave as it is. -/

namespace Sys2Proof.Laws

open Sys2Proof Sys2Proof.Machine Sys2Proof.Safety

theorem sealedMap_wf (s : State) : Tab.wf .unmapped (sealedMap s) = true :=
  wf_foldl _ _ (fun t b ht => wf_set _ t _ _ ht) _ _ (wf_nil _)

theorem scanMap_wf (s : State) : Tab.wf .unmapped (scanMap s) = true :=
  wf_foldl _ _ (fun t b ht => wf_set _ t _ _ ht) _ _ (wf_nil _)

theorem boundRecord_keeps {s u : State} (h : Keeps s u) : Keeps s (boundRecord u) := by
  unfold boundRecord
  iterate 20 all_goals try with_reducible first | assumption | split | apply commit_keeps | (refine .w ?_ rfl rfl rfl rfl rfl rfl rfl rfl rfl rfl rfl le_rfl) | intro _ | dsimp only

theorem checkpointAll_keeps {s u : State} (h : Keeps s u) : Keeps s (checkpointAll u) := by
  unfold checkpointAll
  iterate 20 all_goals try with_reducible first | assumption | split | apply chunkWrite_keeps | (apply Keeps.foldl; intros) | (refine .w ?_ rfl rfl rfl rfl rfl rfl rfl rfl rfl rfl rfl le_rfl) | intro _ | dsimp only

theorem commandsEnd_keeps {s u : State} (h : Keeps s u) : Keeps s (commandsEnd u) := by
  unfold commandsEnd
  iterate 20 all_goals try with_reducible first | assumption | split | apply reply_keeps | (apply Keeps.foldl; intros) | (refine .w ?_ rfl rfl rfl rfl rfl rfl rfl rfl rfl rfl rfl le_rfl) | intro _ | dsimp only

theorem commitsAbandoned_keeps {s u : State} (h : Keeps s u) : Keeps s (commitsAbandoned u) := by
  unfold commitsAbandoned
  iterate 20 all_goals try with_reducible first | assumption | split | (refine .w ?_ rfl rfl rfl rfl rfl rfl rfl rfl rfl rfl rfl le_rfl) | intro _ | dsimp only

theorem coresHalt_keeps {s u : State} (h : Keeps s u) : Keeps s (coresHalt u) := by
  unfold coresHalt
  iterate 20 all_goals try with_reducible first | assumption | split | apply setWaits_keeps | (apply Keeps.foldl; intros) | (refine .w ?_ rfl rfl rfl rfl rfl rfl rfl rfl rfl rfl rfl le_rfl) | intro _ | dsimp only

theorem coresResume_keeps {s u : State} (h : Keeps s u) : Keeps s (coresResume u) := by
  unfold coresResume
  iterate 20 all_goals try with_reducible first | assumption | split | (apply Keeps.foldl; intros) | (refine .w ?_ rfl rfl rfl rfl rfl rfl rfl rfl rfl rfl rfl le_rfl) | intro _ | dsimp only

theorem drillReply_keeps {s u : State} (h : Keeps s u) : Keeps s (drillReply u) := by
  unfold drillReply
  iterate 20 all_goals try with_reducible first | assumption | split | apply ok_keeps | (refine .w ?_ rfl rfl rfl rfl rfl rfl rfl rfl rfl rfl rfl le_rfl) | intro _ | dsimp only

theorem heldReplies_keeps {s u : State} (h : Keeps s u) : Keeps s (heldReplies u) := by
  unfold heldReplies
  iterate 20 all_goals try with_reducible first | assumption | split | apply reply_keeps | (apply Keeps.foldl; intros) | (refine .w ?_ rfl rfl rfl rfl rfl rfl rfl rfl rfl rfl rfl le_rfl) | intro _ | dsimp only

theorem emberReturned_keeps {s u : State} (h : Keeps s u) : Keeps s (emberReturned u) := by
  unfold emberReturned
  iterate 20 all_goals try with_reducible first | assumption | split | apply laInvalidate_keeps | apply coresResume_keeps | apply drillReply_keeps | apply heldReplies_keeps | apply intCauseAll_keeps | apply raise_keeps | apply takeoverBegin_keeps | apply rstTake_keeps | apply afterAccess_keeps | apply settle_keeps | apply commitStart_keeps | (apply Keeps.foldl; intros) | (refine .w ?_ rfl rfl rfl rfl rfl rfl rfl rfl rfl rfl rfl le_rfl) | intro _ | dsimp only

theorem evictionsEnd_keeps {s u : State} (h : Keeps s u) : Keeps s (evictionsEnd u) := by
  unfold evictionsEnd
  iterate 20 all_goals try with_reducible first | assumption | split | apply settle_keeps | apply evictCommit_keeps | (apply Keeps.foldl; intros) | (refine .w ?_ rfl rfl rfl rfl rfl rfl rfl rfl rfl rfl rfl le_rfl) | intro _ | dsimp only

theorem fillWhole_keeps {s u : State} {a0} (h : Keeps s u) : Keeps s (fillWhole a0 u) := by
  unfold fillWhole
  iterate 20 all_goals try with_reducible first | assumption | split | apply fillLine_keeps | apply leaveFilling_keeps | (apply Keeps.foldl; intros) | (refine .w ?_ rfl rfl rfl rfl rfl rfl rfl rfl rfl rfl rfl le_rfl) | intro _ | dsimp only

theorem flushFills_keeps {s u : State} (h : Keeps s u) : Keeps s (flushFills u) := by
  unfold flushFills
  iterate 20 all_goals try with_reducible first | assumption | split | apply settle_keeps | apply fillWhole_keeps | (apply Keeps.foldl; intros) | (refine .w ?_ rfl rfl rfl rfl rfl rfl rfl rfl rfl rfl rfl le_rfl) | intro _ | dsimp only

theorem flushBad_keeps {s u : State} {a0 a2} (h : Keeps s u) : Keeps s (flushBad a0 u a2) := by
  unfold flushBad
  iterate 20 all_goals try with_reducible first | assumption | split | apply onUncorrectable_keeps | apply snapLine_keeps | apply poisonDel_keeps | apply putLine_keeps | (refine .w ?_ rfl rfl rfl rfl rfl rfl rfl rfl rfl rfl rfl le_rfl) | intro _ | dsimp only

theorem flushPoison_keeps {s u : State} {a0 a1} (h : Keeps s u) : Keeps s (flushPoison a0 a1 u) := by
  unfold flushPoison
  iterate 20 all_goals try with_reducible first | assumption | split | apply flushBad_keeps | (apply Keeps.foldl; intros) | (refine .w ?_ rfl rfl rfl rfl rfl rfl rfl rfl rfl rfl rfl le_rfl) | intro _ | dsimp only

theorem flushOnce_keeps {s u : State} {a0} (h : Keeps s u) : Keeps s (flushOnce a0 u) := by
  unfold flushOnce
  iterate 20 all_goals try with_reducible first | assumption | split | refine destageSlotNext_keeps ‹_› ?_ | apply destageEnd_keeps | apply destageInto_keeps | (refine .w ?_ rfl rfl rfl rfl rfl rfl rfl rfl rfl rfl rfl le_rfl) | intro _ | dsimp only

theorem flushFrame_keeps {s u : State} {a0} (h : Keeps s u) : Keeps s (flushFrame a0 u) := by
  unfold flushFrame
  split
  · exact h
  · dsimp only
    have h1 : Keeps s (if ((u.frame a0).st == .filling) = true then fillWhole a0 u else u) := by
      split
      · exact fillWhole_keeps h
      · exact h
    generalize (if ((u.frame a0).st == .filling) = true then fillWhole a0 u else u) = v at h1 ⊢
    have h2 : Keeps s (if ((v.frame a0).st == .destaging) = true then destageEnd a0 v else v) := by
      split
      · exact destageEnd_keeps h1
      · exact h1
    generalize (if ((v.frame a0).st == .destaging) = true then destageEnd a0 v else v) = w at h2 ⊢
    have h3 : Keeps s (if ((w.frame a0).st == .dirty) = true then flushOnce a0 w else w) := by
      split
      · exact flushOnce_keeps h2
      · exact h2
    generalize (if ((w.frame a0).st == .dirty) = true then flushOnce a0 w else w) = x at h3 ⊢
    split
    · exact h3
    · exact .w h3 rfl rfl rfl rfl rfl rfl rfl rfl rfl rfl rfl le_rfl

theorem flushAll_keeps {s u : State} {a0 a1} (h : Keeps s u) : Keeps s (flushAll a0 a1 u) := by
  unfold flushAll
  iterate 20 all_goals try with_reducible first | assumption | split | apply flushFills_keeps | apply flushPoison_keeps | apply flushFrame_keeps | apply lgFlush_keeps | apply parityAll_keeps | apply journalWrite_keeps | apply setWaits_keeps | (apply Keeps.foldl; intros) | (refine .w ?_ rfl rfl rfl rfl rfl rfl rfl rfl rfl rfl rfl le_rfl) | intro _ | dsimp only

theorem sealWrite_keeps {s u : State} {a0 a1 a2} (h : Keeps s u) : Keeps s (sealWrite a0 a1 a2 u) := by
  unfold sealWrite
  iterate 20 all_goals try with_reducible first | assumption | split | refine takeSeq_keeps ‹_› ?_ | refine takeSeq_keeps2 ?_ | apply remapWrite_keeps | apply bstWrite_keeps | apply parityAll_keeps | apply draw_keeps | apply boundRecord_keeps | apply epochCommit_keeps | apply lgFlush_keeps | (refine .w ?_ rfl rfl rfl rfl rfl rfl rfl rfl rfl rfl rfl le_rfl) | (refine .w ?_ rfl rfl rfl rfl rfl rfl rfl rfl rfl rfl rfl (Nat.le_add_right _ _)) | intro _ | dsimp only

theorem flushEnd_keeps {s u : State} {a0 a1 a2} (h : Keeps s u) : Keeps s (flushEnd a0 a1 a2 u) := by
  unfold flushEnd
  iterate 20 all_goals try with_reducible first | assumption | split | apply flushAll_keeps | apply sealWrite_keeps | (refine .w ?_ rfl rfl rfl rfl rfl rfl rfl rfl rfl rfl rfl le_rfl) | intro _ | dsimp only

theorem formatKeys_keeps {s u : State} (h : Keeps s u) : Keeps s (formatKeys u) := by
  unfold formatKeys
  iterate 20 all_goals try with_reducible first | assumption | split | apply draw_keeps | apply commit_keeps | (refine .w ?_ rfl rfl rfl rfl rfl rfl rfl rfl rfl rfl rfl le_rfl) | intro _ | dsimp only

theorem formatDone_keeps {s u : State} {a0 a1} (h : Keeps s u) : Keeps s (formatDone a0 a1 u) := by
  unfold formatDone
  iterate 20 all_goals try with_reducible first | assumption | split | apply draw_keeps | apply cdatChange_keeps | apply checkpointAll_keeps | apply formatKeys_keeps | apply epochOpenCommit_keeps | apply sealWrite_keeps | (refine .w ?_ rfl rfl rfl rfl rfl rfl rfl rfl rfl rfl rfl le_rfl) | (refine .m ?_ rfl rfl ?_ ?_ ?_ ?_ ?_ ?_ ?_ ?_ le_rfl) | exact id | exact fun _ => wf_nil _ | exact wf_set _ _ _ _ | exact wf_upd _ _ _ _ | exact wf_clear _ _ _ _ | exact fun h => wf_set _ _ _ _ (wf_set _ _ _ _ h) | intro _ | dsimp only

theorem formatPair_keeps {s u : State} (h : Keeps s u) : Keeps s (formatPair u) := by
  unfold formatPair
  iterate 20 all_goals try with_reducible first | assumption | split | apply pairWrite_keeps | (refine .w ?_ rfl rfl rfl rfl rfl rfl rfl rfl rfl rfl rfl le_rfl) | intro _ | dsimp only

theorem formatReply_keeps {s u : State} (h : Keeps s u) : Keeps s (formatReply u) := by
  unfold formatReply
  iterate 20 all_goals try with_reducible first | assumption | split | apply mediaLevels_keeps | apply endBlock_keeps | (refine .w ?_ rfl rfl rfl rfl rfl rfl rfl rfl rfl rfl rfl le_rfl) | intro _ | dsimp only

theorem spareRows_keeps2 {s u : State} {l} (h : Keeps s u) : Keeps s (spareRows l u).2 := by
  unfold spareRows
  have k : ∀ (l : List (Nat × Nat)) (a : List Nat × State), Keeps s a.2 → Keeps s (l.foldl (fun a r =>
    if u.ft.life.getLsbD r.1 then a
    else match spareBegin r.1 r.2 a.2 with
      | (true, t) => (a.1, t)
      | (false, t) => (a.1 ++ [r.1], t)) a).2 := by
    intro l
    induction l with
    | nil => exact fun a ha => ha
    | cons r l ih =>
      intro a ha
      refine ih _ ?_
      dsimp only
      split
      · exact ha
      · split <;> exact spareBegin_keeps ‹_› ha
  exact k l _ h

theorem spareRows_keeps {s u t : State} {l x} (e : spareRows l u = (x, t)) (h : Keeps s u) : Keeps s t := by
  have k : Keeps s (spareRows l u).2 := spareRows_keeps2 h; rw [e] at k; exact k

theorem retireNow_keeps {s u : State} {a1} (h : Keeps s u) : Keeps s (retireNow u a1) := by
  unfold retireNow
  iterate 20 all_goals try with_reducible first | assumption | split | apply ledger_keeps | apply raise_keeps | apply State.modFtDev_keeps | (refine .w ?_ rfl rfl rfl rfl rfl rfl rfl rfl rfl rfl rfl le_rfl) | intro _ | dsimp only

theorem ftStart_keeps {s u : State} {a0} (h : Keeps s u) : Keeps s (ftStart a0 u) := by
  unfold ftStart
  iterate 20 all_goals try with_reducible first | assumption | split | refine spareRows_keeps ‹_› ?_ | refine spareRows_keeps2 ?_ | apply State.modFtDev_keeps | apply retireNow_keeps | apply ledger_keeps | apply recoveryEnter_keeps | apply frontFailed_keeps | (apply Keeps.foldl; intros) | (refine .w ?_ rfl rfl rfl rfl rfl rfl rfl rfl rfl rfl rfl le_rfl) | (refine .m ?_ rfl rfl ?_ ?_ ?_ ?_ ?_ ?_ ?_ ?_ le_rfl) | exact id | exact fun _ => wf_nil _ | exact wf_set _ _ _ _ | exact wf_upd _ _ _ _ | exact wf_clear _ _ _ _ | exact fun h => wf_set _ _ _ _ (wf_set _ _ _ _ h) | exact wf_foldl _ _ (fun t b ht => wf_set _ t _ _ ht) _ _ | exact fun h => wf_foldl _ _ (fun t b ht => wf_set _ t _ _ ht) _ _ (wf_clear _ _ _ _ h) | intro _ | dsimp only

theorem jobsReturn_keeps {s u : State} {a0} (h : Keeps s u) : Keeps s (jobsReturn a0 u) := by
  unfold jobsReturn
  iterate 20 all_goals try with_reducible first | assumption | split | apply State.modSeg_keeps | (apply Keeps.foldl; intros) | (refine .w ?_ rfl rfl rfl rfl rfl rfl rfl rfl rfl rfl rfl le_rfl) | intro _ | dsimp only

theorem mapLoad_keeps {s u : State} {m} (hm : Tab.wf .unmapped m = true) (h : Keeps s u) : Keeps s (mapLoad m u) :=
  .m h rfl rfl id id id (fun _ => hm) id id id id le_rfl

theorem portsOpen_keeps {s u : State} (h : Keeps s u) : Keeps s (portsOpen u) := by
  unfold portsOpen
  iterate 20 all_goals try with_reducible first | assumption | split | apply readyWatch_keeps | apply setPs_keeps | apply raise_keeps | apply raiseTo_keeps | apply ledger_keeps | apply cxlLog_keeps | apply mediaLevels_keeps | apply sessionBegin_keeps | (refine .w ?_ rfl rfl rfl rfl rfl rfl rfl rfl rfl rfl rfl le_rfl) | intro _ | dsimp only

theorem startOpened_keeps {s u : State} (h : Keeps s u) : Keeps s (startOpened u) := by
  unfold startOpened
  iterate 20 all_goals try with_reducible first | assumption | split | apply integrityHalt_keeps | apply portsOpen_keeps | (refine .w ?_ rfl rfl rfl rfl rfl rfl rfl rfl rfl rfl rfl le_rfl) | intro _ | dsimp only

theorem openedNow_keeps {s u : State} (h : Keeps s u) : Keeps s (openedNow u) := by
  unfold openedNow
  iterate 20 all_goals try with_reducible first | assumption | split | apply emberReturned_keeps | apply startOpened_keeps | apply formatReply_keeps | apply formatPair_keeps | (refine .w ?_ rfl rfl rfl rfl rfl rfl rfl rfl rfl rfl rfl le_rfl) | intro _ | dsimp only

theorem quiesceEnd_keeps {s u : State} {a0} (h : Keeps s u) : Keeps s (quiesceEnd a0 u) := by
  unfold quiesceEnd
  iterate 20 all_goals try with_reducible first | assumption | split | apply evictionsEnd_keeps | apply relFinish_keeps | apply coresHalt_keeps | apply commandsEnd_keeps | apply commitsAbandoned_keeps | apply ledger_keeps | apply sendNotice_keeps | apply setWaits_keeps | (apply Keeps.foldl; intros) | (refine .w ?_ rfl rfl rfl rfl rfl rfl rfl rfl rfl rfl rfl le_rfl) | intro _ | dsimp only

theorem returnTry_keeps {s u : State} (h : Keeps s u) : Keeps s (returnTry u) := by
  unfold returnTry
  iterate 20 all_goals try with_reducible first | assumption | split | apply epochOpenCommit_keeps | (refine .w ?_ rfl rfl rfl rfl rfl rfl rfl rfl rfl rfl rfl le_rfl) | intro _ | dsimp only

theorem unitCopied_keeps {s u : State} {a0 a1 a2} (h : Keeps s u) : Keeps s (unitCopied a0 a1 a2 u) := by
  unfold unitCopied
  iterate 20 all_goals try with_reducible first | assumption | split | (refine .w ?_ rfl rfl rfl rfl rfl rfl rfl rfl rfl rfl rfl le_rfl) | (refine .m ?_ rfl rfl ?_ ?_ ?_ ?_ ?_ ?_ ?_ ?_ le_rfl) | exact id | exact fun _ => wf_nil _ | exact wf_set _ _ _ _ | exact wf_upd _ _ _ _ | exact wf_clear _ _ _ _ | exact fun h => wf_set _ _ _ _ (wf_set _ _ _ _ h) | exact wf_copy _ _ _ _ _ | intro _ | dsimp only

theorem scanBillet_keeps {s u : State} {a0 a2} (h : Keeps s u) : Keeps s (scanBillet a0 u a2) := by
  unfold scanBillet
  iterate 20 all_goals try with_reducible first | assumption | split | apply moveSlot_keeps | apply unitCopied_keeps | apply poisonUnit_keeps | (apply Keeps.foldl; intros) | (refine .w ?_ rfl rfl rfl rfl rfl rfl rfl rfl rfl rfl rfl le_rfl) | (refine .m ?_ rfl rfl ?_ ?_ ?_ ?_ ?_ ?_ ?_ ?_ le_rfl) | exact id | exact fun _ => wf_nil _ | exact wf_set _ _ _ _ | exact wf_upd _ _ _ _ | exact wf_clear _ _ _ _ | exact fun h => wf_set _ _ _ _ (wf_set _ _ _ _ h) | exact wf_foldl _ _ (fun t b ht => wf_set _ t _ _ ht) _ _ | exact fun h => wf_foldl _ _ (fun t b ht => wf_set _ t _ _ ht) _ _ (wf_clear _ _ _ _ h) | intro _ | dsimp only

theorem scanSets_keeps {s u : State} (h : Keeps s u) : Keeps s (scanSets u) := by
  unfold scanSets
  iterate 20 all_goals try with_reducible first | assumption | split | apply closeRow_keeps | (apply Keeps.foldl; intros) | (refine .w ?_ rfl rfl rfl rfl rfl rfl rfl rfl rfl rfl rfl le_rfl) | intro _ | dsimp only

theorem scanUnits_keeps {s u : State} {a0} (h : Keeps s u) : Keeps s (scanUnits a0 u) := by
  unfold scanUnits
  iterate 20 all_goals try with_reducible first | assumption | split | apply scanBillet_keeps | (apply Keeps.foldl; intros) | (refine .w ?_ rfl rfl rfl rfl rfl rfl rfl rfl rfl rfl rfl le_rfl) | intro _ | dsimp only

theorem sealedNow_keeps {s u : State} (h : Keeps s u) : Keeps s (sealedNow u) := by
  unfold sealedNow
  iterate 20 all_goals try with_reducible first | assumption | split | apply timedShutdown_keeps | apply rstTake_keeps | apply returnTry_keeps | (refine .w ?_ rfl rfl rfl rfl rfl rfl rfl rfl rfl rfl rfl le_rfl) | intro _ | dsimp only

theorem sealedRecord_keeps {s u : State} (h : Keeps s u) : Keeps s (sealedRecord u) := by
  unfold sealedRecord
  iterate 20 all_goals try with_reducible first | assumption | split | apply sealedNow_keeps | (refine .w ?_ rfl rfl rfl rfl rfl rfl rfl rfl rfl rfl rfl le_rfl) | intro _ | dsimp only

theorem unlessFailed_keeps {s u : State} {f0} (hf0 : ∀ v, Keeps s v → Keeps s (f0 v)) (h : Keeps s u) : Keeps s (unlessFailed f0 u) := by
  unfold unlessFailed
  iterate 20 all_goals try with_reducible first | assumption | split | apply hf0 | (refine .w ?_ rfl rfl rfl rfl rfl rfl rfl rfl rfl rfl rfl le_rfl) | intro _ | dsimp only

theorem tablesReturn_keeps {s u : State} {a0} (h : Keeps s u) : Keeps s (tablesReturn a0 u) := by
  unfold tablesReturn
  iterate 20 all_goals try with_reducible first | assumption | split | apply setHomes_keeps | apply jobsReturn_keeps | (refine .w ?_ rfl rfl rfl rfl rfl rfl rfl rfl rfl rfl rfl le_rfl) | intro _ | dsimp only

theorem startBare_keeps {s u : State} (h : Keeps s u) : Keeps s (startBare u) := by
  unfold startBare
  iterate 20 all_goals try with_reducible first | assumption | split | apply unlessFailed_keeps | apply portsOpen_keeps | apply tablesReturn_keeps | apply ftStart_keeps | (refine .w ?_ rfl rfl rfl rfl rfl rfl rfl rfl rfl rfl rfl le_rfl) | intro _ | dsimp only

end Sys2Proof.Laws
end

