-- ==== Sys2Proof/Laws/KeepsEmber.lean ====
section
/-! SUPPORT. What the operations of Machine/Ember.lean leave as it is. -/

namespace Sys2Proof.Laws

open Sys2Proof Sys2Proof.Machine Sys2Proof.Safety

theorem emberDrill_keeps {s u : State} {a0} (h : Keeps s u) : Keeps s (emberDrill a0 u) := by
  unfold emberDrill
  iterate 20 all_goals try with_reducible first | assumption | split | apply atornQ_keeps | apply emberEnter_keeps | apply ok_keeps | (refine .w ?_ rfl rfl rfl rfl rfl rfl rfl rfl rfl rfl rfl le_rfl) | intro _ | dsimp only

theorem emberQuery_keeps {s u : State} {a0} (h : Keeps s u) : Keeps s (emberQuery a0 u) := by
  unfold emberQuery
  iterate 20 all_goals try with_reducible first | assumption | split | apply query_keeps | (refine .w ?_ rfl rfl rfl rfl rfl rfl rfl rfl rfl rfl rfl le_rfl) | intro _ | dsimp only

theorem scanLoad_keeps {s u : State} {a0 a1} (h : Keeps s u) : Keeps s (scanLoad a0 a1 u) := by
  unfold scanLoad
  iterate 20 all_goals try with_reducible first | assumption | split | refine mapLoad_keeps (sealedMap_wf _) ?_ | refine mapLoad_keeps (scanMap_wf _) ?_ | apply mapLoad_keeps | apply scanSets_keeps | apply setPoisoned_keeps | apply scanUnits_keeps | apply tablesReturn_keeps | apply epochOpenCommit_keeps | apply sealWrite_keeps | apply checkpointAll_keeps | apply journalWrite_keeps | (apply Keeps.foldl; intros) | (refine .w ?_ rfl rfl rfl rfl rfl rfl rfl rfl rfl rfl rfl le_rfl) | intro _ | dsimp only

theorem fullScan_keeps {s u : State} {a0 a1 a2} (h : Keeps s u) : Keeps s (fullScan a0 a1 a2 u) := by
  unfold fullScan
  iterate 20 all_goals try with_reducible first | assumption | split | apply ledger_keeps | apply unlessFailed_keeps | apply scanLoad_keeps | apply ftStart_keeps | (apply Keeps.foldl; intros) | (refine .w ?_ rfl rfl rfl rfl rfl rfl rfl rfl rfl rfl rfl le_rfl) | intro _ | dsimp only

theorem holdupSet_keeps {s u : State} {a0 a1 a2} (h : Keeps s u) : Keeps s (holdupSet a0 a1 a2 u) := by
  unfold holdupSet
  iterate 20 all_goals try with_reducible first | assumption | split | apply atornQ_keeps | apply commit_keeps | (refine .w ?_ rfl rfl rfl rfl rfl rfl rfl rfl rfl rfl rfl le_rfl) | intro _ | dsimp only

theorem warnAccepted_keeps {s u : State} (h : Keeps s u) : Keeps s (warnAccepted u) := by
  unfold warnAccepted
  iterate 20 all_goals try with_reducible first | assumption | split | apply emberEnter_keeps | apply timedShutdown_keeps | (refine .w ?_ rfl rfl rfl rfl rfl rfl rfl rfl rfl rfl rfl le_rfl) | intro _ | dsimp only

theorem warnReleaseHeld_keeps {s u : State} (h : Keeps s u) : Keeps s (warnReleaseHeld u) := by
  unfold warnReleaseHeld
  iterate 20 all_goals try with_reducible first | assumption | split | apply startBare_keeps | apply returnTry_keeps | (refine .w ?_ rfl rfl rfl rfl rfl rfl rfl rfl rfl rfl rfl le_rfl) | intro _ | dsimp only

theorem warnReleased_keeps {s u : State} (h : Keeps s u) : Keeps s (warnReleased u) := by
  unfold warnReleased
  iterate 20 all_goals try with_reducible first | assumption | split | (refine .w ?_ rfl rfl rfl rfl rfl rfl rfl rfl rfl rfl rfl le_rfl) | intro _ | dsimp only

theorem holdTimeout_keeps {s u : State} (h : Keeps s u) : Keeps s (holdTimeout u) := by
  unfold holdTimeout
  iterate 20 all_goals try with_reducible first | assumption | split | apply returnTry_keeps | apply timedShutdown_keeps | (refine .w ?_ rfl rfl rfl rfl rfl rfl rfl rfl rfl rfl rfl le_rfl) | intro _ | dsimp only

theorem restartLoad_keeps {s u : State} (h : Keeps s u) : Keeps s (restartLoad u) := by
  unfold restartLoad
  iterate 20 all_goals try with_reducible first | assumption | split | refine mapLoad_keeps (sealedMap_wf _) ?_ | refine mapLoad_keeps (scanMap_wf _) ?_ | apply mapLoad_keeps | apply tablesReturn_keeps | apply epochOpenCommit_keeps | (refine .w ?_ rfl rfl rfl rfl rfl rfl rfl rfl rfl rfl rfl le_rfl) | intro _ | dsimp only

theorem sealedRestart_keeps {s u : State} {a0 a1} (h : Keeps s u) : Keeps s (sealedRestart a0 a1 u) := by
  unfold sealedRestart
  iterate 20 all_goals try with_reducible first | assumption | split | apply unlessFailed_keeps | apply restartLoad_keeps | apply ftStart_keeps | apply ledger_keeps | (refine .w ?_ rfl rfl rfl rfl rfl rfl rfl rfl rfl rfl rfl le_rfl) | intro _ | dsimp only

end Sys2Proof.Laws
end

