-- ==== Sys2Proof/Laws/KeepsTwin.lean ====
section
/-! SUPPORT. What the operations of Machine/Twin.lean leave as it is. -/

namespace Sys2Proof.Laws

open Sys2Proof Sys2Proof.Machine Sys2Proof.Safety

theorem cmdReplyTaken_keeps {s u : State} {a0} (h : Keeps s u) : Keeps s (cmdReplyTaken a0 u) := by
  unfold cmdReplyTaken
  iterate 20 all_goals try with_reducible first | assumption | split | apply endBlock_keeps | apply formatReply_keeps | (refine .w ?_ rfl rfl rfl rfl rfl rfl rfl rfl rfl rfl rfl le_rfl) | intro _ | dsimp only

theorem cmdReplyRx_keeps {s u : State} {a0 a1} (h : Keeps s u) : Keeps s (cmdReplyRx a0 a1 u) := by
  unfold cmdReplyRx
  iterate 20 all_goals try with_reducible first | assumption | split | apply linkRx_keeps | apply cmdReplyTaken_keeps | (refine .w ?_ rfl rfl rfl rfl rfl rfl rfl rfl rfl rfl rfl le_rfl) | intro _ | dsimp only

theorem cmdTaken_keeps {s u : State} {a0} (h : Keeps s u) : Keeps s (cmdTaken a0 u) := by
  unfold cmdTaken
  iterate 20 all_goals try with_reducible first | assumption | split | apply count_keeps | apply linkSend_keeps | apply State.modMbox_keeps | (refine .w ?_ rfl rfl rfl rfl rfl rfl rfl rfl rfl rfl rfl le_rfl) | intro _ | dsimp only

theorem cmdRx_keeps {s u : State} {a0 a1} (h : Keeps s u) : Keeps s (cmdRx a0 a1 u) := by
  unfold cmdRx
  iterate 20 all_goals try with_reducible first | assumption | split | apply linkRx_keeps | apply cmdTaken_keeps | (refine .w ?_ rfl rfl rfl rfl rfl rfl rfl rfl rfl rfl rfl le_rfl) | intro _ | dsimp only

theorem copyTaken_keeps {s u : State} {a0} (h : Keeps s u) : Keeps s (copyTaken a0 u) := by
  unfold copyTaken
  iterate 20 all_goals try with_reducible first | assumption | split | apply afterAccess_keeps | apply settle_keeps | (refine .w ?_ rfl rfl rfl rfl rfl rfl rfl rfl rfl rfl rfl le_rfl) | intro _ | dsimp only

theorem creditTaken_keeps {s u : State} {a0} (h : Keeps s u) : Keeps s (creditTaken a0 u) := by
  unfold creditTaken
  iterate 20 all_goals try with_reducible first | assumption | split | apply afterAccess_keeps | apply settle_keeps | (refine .w ?_ rfl rfl rfl rfl rfl rfl rfl rfl rfl rfl rfl le_rfl) | intro _ | dsimp only

theorem creditRx_keeps {s u : State} {a0 a1} (h : Keeps s u) : Keeps s (creditRx a0 a1 u) := by
  unfold creditRx
  iterate 20 all_goals try with_reducible first | assumption | split | apply linkRx_keeps | apply creditTaken_keeps | (refine .w ?_ rfl rfl rfl rfl rfl rfl rfl rfl rfl rfl rfl le_rfl) | intro _ | dsimp only

theorem deniedReport_keeps {s u : State} {a0} (h : Keeps s u) : Keeps s (deniedReport a0 u) := by
  unfold deniedReport
  iterate 20 all_goals try with_reducible first | assumption | split | apply denied_keeps | apply answerWrite_keeps | apply State.modPort_keeps | apply logAer_keeps | apply coreDiscard_keeps | (refine .w ?_ rfl rfl rfl rfl rfl rfl rfl rfl rfl rfl rfl le_rfl) | intro _ | dsimp only

theorem emberNoticeRx_keeps {s u : State} {a0 a1 a2} (h : Keeps s u) : Keeps s (emberNoticeRx a0 a1 a2 u) := by
  unfold emberNoticeRx
  iterate 20 all_goals try with_reducible first | assumption | split | apply linkRx_keeps | apply noticeTaken_keeps | (refine .w ?_ rfl rfl rfl rfl rfl rfl rfl rfl rfl rfl rfl le_rfl) | intro _ | dsimp only

theorem fwdTaken_keeps {s u : State} {a0 a1 a2 a3 a4 a5} (h : Keeps s u) : Keeps s (fwdTaken a0 a1 a2 a3 a4 a5 u) := by
  unfold fwdTaken
  iterate 20 all_goals try with_reducible first | assumption | split | apply settle_keeps | apply cfgOrdered_keeps | apply pauseWait_keeps | apply unmapStep_keeps | apply linkSend_keeps | apply afterAccess_keeps | apply submit_keeps | (apply Keeps.foldl; intros) | (refine .w ?_ rfl rfl rfl rfl rfl rfl rfl rfl rfl rfl rfl le_rfl) | intro _ | dsimp only

theorem fwdRx_keeps {s u : State} {a0 a1 a2 a3 a4 a5 a6} (h : Keeps s u) : Keeps s (fwdRx a0 a1 a2 a3 a4 a5 a6 u) := by
  unfold fwdRx
  iterate 20 all_goals try with_reducible first | assumption | split | apply linkRx_keeps | apply fwdTaken_keeps | (refine .w ?_ rfl rfl rfl rfl rfl rfl rfl rfl rfl rfl rfl le_rfl) | intro _ | dsimp only

theorem fwdResultTaken_keeps {s u : State} {a0 a1} (h : Keeps s u) : Keeps s (fwdResultTaken a0 a1 u) := by
  unfold fwdResultTaken
  iterate 20 all_goals try with_reducible first | assumption | split | apply setWaits_keeps | apply settle_keeps | apply discardReport_keeps | apply deniedReport_keeps | (apply Keeps.foldl; intros) | (refine .w ?_ rfl rfl rfl rfl rfl rfl rfl rfl rfl rfl rfl le_rfl) | intro _ | dsimp only

theorem fwdResultRx_keeps {s u : State} {a0 a1 a2} (h : Keeps s u) : Keeps s (fwdResultRx a0 a1 a2 u) := by
  unfold fwdResultRx
  iterate 20 all_goals try with_reducible first | assumption | split | apply linkRx_keeps | apply fwdResultTaken_keeps | (refine .w ?_ rfl rfl rfl rfl rfl rfl rfl rfl rfl rfl rfl le_rfl) | intro _ | dsimp only

theorem genListRx_keeps {s u : State} {a0 a1 a2} (h : Keeps s u) : Keeps s (genListRx a0 a1 a2 u) := by
  unfold genListRx
  iterate 20 all_goals try with_reducible first | assumption | split | apply linkRx_keeps | apply genListTake_keeps | (refine .w ?_ rfl rfl rfl rfl rfl rfl rfl rfl rfl rfl rfl le_rfl) | intro _ | dsimp only

theorem haltNoticeTaken_keeps {s u : State} {a0 a1} (h : Keeps s u) : Keeps s (haltNoticeTaken a0 a1 u) := by
  unfold haltNoticeTaken
  iterate 20 all_goals try with_reducible first | assumption | split | apply noticeTaken_keeps | (refine .w ?_ rfl rfl rfl rfl rfl rfl rfl rfl rfl rfl rfl le_rfl) | intro _ | dsimp only

theorem haltNoticeRx_keeps {s u : State} {a0 a1 a2} (h : Keeps s u) : Keeps s (haltNoticeRx a0 a1 a2 u) := by
  unfold haltNoticeRx
  iterate 20 all_goals try with_reducible first | assumption | split | apply linkRx_keeps | apply haltNoticeTaken_keeps | (refine .w ?_ rfl rfl rfl rfl rfl rfl rfl rfl rfl rfl rfl le_rfl) | intro _ | dsimp only

theorem helloTaken_keeps {s u : State} {a0} (h : Keeps s u) : Keeps s (helloTaken a0 u) := by
  unfold helloTaken
  iterate 20 all_goals try with_reducible first | assumption | split | apply pairLead_keeps | apply linkSend_keeps | apply pairRefuse_keeps | (refine .w ?_ rfl rfl rfl rfl rfl rfl rfl rfl rfl rfl rfl le_rfl) | intro _ | dsimp only

theorem helloRx_keeps {s u : State} {a0 a1} (h : Keeps s u) : Keeps s (helloRx a0 a1 u) := by
  unfold helloRx
  iterate 20 all_goals try with_reducible first | assumption | split | apply linkRx_keeps | apply helloTaken_keeps | (refine .w ?_ rfl rfl rfl rfl rfl rfl rfl rfl rfl rfl rfl le_rfl) | intro _ | dsimp only

theorem keepaliveRx_keeps {s u : State} {a0} (h : Keeps s u) : Keeps s (keepaliveRx a0 u) := by
  unfold keepaliveRx
  iterate 20 all_goals try with_reducible first | assumption | split | apply linkRx_keeps | (refine .w ?_ rfl rfl rfl rfl rfl rfl rfl rfl rfl rfl rfl le_rfl) | intro _ | dsimp only

theorem keepaliveTimer_keeps {s u : State} (h : Keeps s u) : Keeps s (keepaliveTimer u) := by
  unfold keepaliveTimer
  iterate 20 all_goals try with_reducible first | assumption | split | apply linkSend_keeps | (refine .w ?_ rfl rfl rfl rfl rfl rfl rfl rfl rfl rfl rfl le_rfl) | intro _ | dsimp only

theorem linkGapTimeout_keeps {s u : State} (h : Keeps s u) : Keeps s (linkGapTimeout u) := by
  unfold linkGapTimeout
  iterate 20 all_goals try with_reducible first | assumption | split | apply lossOfLink_keeps | (refine .w ?_ rfl rfl rfl rfl rfl rfl rfl rfl rfl rfl rfl le_rfl) | intro _ | dsimp only

theorem migBeginTaken_keeps {s u : State} {a0} (h : Keeps s u) : Keeps s (migBeginTaken a0 u) := by
  unfold migBeginTaken
  iterate 20 all_goals try with_reducible first | assumption | split | apply linkSend_keeps | apply State.modSeg_keeps | (refine .w ?_ rfl rfl rfl rfl rfl rfl rfl rfl rfl rfl rfl le_rfl) | intro _ | dsimp only

theorem migBeginRx_keeps {s u : State} {a0 a1} (h : Keeps s u) : Keeps s (migBeginRx a0 a1 u) := by
  unfold migBeginRx
  iterate 20 all_goals try with_reducible first | assumption | split | apply linkRx_keeps | apply migBeginTaken_keeps | (refine .w ?_ rfl rfl rfl rfl rfl rfl rfl rfl rfl rfl rfl le_rfl) | intro _ | dsimp only

theorem migDoneTaken_keeps {s u : State} {a0} (h : Keeps s u) : Keeps s (migDoneTaken a0 u) := by
  unfold migDoneTaken
  iterate 20 all_goals try with_reducible first | assumption | split | apply State.modSeg_keeps | apply afterAccess_keeps | apply settle_keeps | (refine .w ?_ rfl rfl rfl rfl rfl rfl rfl rfl rfl rfl rfl le_rfl) | intro _ | dsimp only

theorem migDoneRx_keeps {s u : State} {a0 a1 a2} (h : Keeps s u) : Keeps s (migDoneRx a0 a1 a2 u) := by
  unfold migDoneRx
  iterate 20 all_goals try with_reducible first | assumption | split | apply linkRx_keeps | apply migDoneTaken_keeps | (refine .w ?_ rfl rfl rfl rfl rfl rfl rfl rfl rfl rfl rfl le_rfl) | intro _ | dsimp only

theorem migReadyTaken_keeps {s u : State} {a0} (h : Keeps s u) : Keeps s (migReadyTaken a0 u) := by
  unfold migReadyTaken
  iterate 20 all_goals try with_reducible first | assumption | split | apply settle_keeps | (refine .w ?_ rfl rfl rfl rfl rfl rfl rfl rfl rfl rfl rfl le_rfl) | intro _ | dsimp only

theorem migReadyRx_keeps {s u : State} {a0 a1} (h : Keeps s u) : Keeps s (migReadyRx a0 a1 u) := by
  unfold migReadyRx
  iterate 20 all_goals try with_reducible first | assumption | split | apply linkRx_keeps | apply migReadyTaken_keeps | (refine .w ?_ rfl rfl rfl rfl rfl rfl rfl rfl rfl rfl rfl le_rfl) | intro _ | dsimp only

theorem pairResultTaken_keeps {s u : State} {a0 a1 a2} (h : Keeps s u) : Keeps s (pairResultTaken a0 a1 a2 u) := by
  unfold pairResultTaken
  iterate 20 all_goals try with_reducible first | assumption | split | apply pairAct_keeps | (refine .w ?_ rfl rfl rfl rfl rfl rfl rfl rfl rfl rfl rfl le_rfl) | intro _ | dsimp only

theorem pairResultRx_keeps {s u : State} {a0 a1 a2 a3 a4} (h : Keeps s u) : Keeps s (pairResultRx a0 a1 a2 a3 a4 u) := by
  unfold pairResultRx
  iterate 20 all_goals try with_reducible first | assumption | split | apply linkRx_keeps | apply pairResultTaken_keeps | (refine .w ?_ rfl rfl rfl rfl rfl rfl rfl rfl rfl rfl rfl le_rfl) | intro _ | dsimp only

theorem peerResetTaken_keeps {s u : State} (h : Keeps s u) : Keeps s (peerResetTaken u) := by
  unfold peerResetTaken
  iterate 20 all_goals try with_reducible first | assumption | split | apply rstAssert_keeps | (refine .w ?_ rfl rfl rfl rfl rfl rfl rfl rfl rfl rfl rfl le_rfl) | intro _ | dsimp only

theorem peerResetRx_keeps {s u : State} {a0} (h : Keeps s u) : Keeps s (peerResetRx a0 u) := by
  unfold peerResetRx
  iterate 20 all_goals try with_reducible first | assumption | split | apply linkRx_keeps | apply peerResetTaken_keeps | (refine .w ?_ rfl rfl rfl rfl rfl rfl rfl rfl rfl rfl rfl le_rfl) | intro _ | dsimp only

theorem peerStatusTaken_keeps {s u : State} {a0 a1} (h : Keeps s u) : Keeps s (peerStatusTaken a0 a1 u) := by
  unfold peerStatusTaken
  iterate 20 all_goals try with_reducible first | assumption | split | (refine .w ?_ rfl rfl rfl rfl rfl rfl rfl rfl rfl rfl rfl le_rfl) | intro _ | dsimp only

theorem peerStatusRx_keeps {s u : State} {a0 a1 a2 a3 a4} (h : Keeps s u) : Keeps s (peerStatusRx a0 a1 a2 a3 a4 u) := by
  unfold peerStatusRx
  iterate 20 all_goals try with_reducible first | assumption | split | apply linkRx_keeps | apply peerStatusTaken_keeps | (refine .w ?_ rfl rfl rfl rfl rfl rfl rfl rfl rfl rfl rfl le_rfl) | intro _ | dsimp only

theorem peerStatusTimer_keeps {s u : State} (h : Keeps s u) : Keeps s (peerStatusTimer u) := by
  unfold peerStatusTimer
  iterate 20 all_goals try with_reducible first | assumption | split | apply linkSend_keeps | (refine .w ?_ rfl rfl rfl rfl rfl rfl rfl rfl rfl rfl rfl le_rfl) | intro _ | dsimp only

theorem pseqClaim_keeps {s u : State} (h : Keeps s u) : Keeps s (pseqClaim u) := by
  unfold pseqClaim
  iterate 20 all_goals try with_reducible first | assumption | split | apply becomeFenced_keeps | (refine .w ?_ rfl rfl rfl rfl rfl rfl rfl rfl rfl rfl rfl le_rfl) | intro _ | dsimp only

theorem pseqLive_keeps {s u : State} {a0} (h : Keeps s u) : Keeps s (pseqLive a0 u) := by
  unfold pseqLive
  iterate 20 all_goals try with_reducible first | assumption | split | (refine .w ?_ rfl rfl rfl rfl rfl rfl rfl rfl rfl rfl rfl le_rfl) | intro _ | dsimp only

theorem pseqNotLive_keeps {s u : State} {a0} (h : Keeps s u) : Keeps s (pseqNotLive a0 u) := by
  unfold pseqNotLive
  iterate 20 all_goals try with_reducible first | assumption | split | apply claimTake_keeps | apply raise_keeps | (refine .w ?_ rfl rfl rfl rfl rfl rfl rfl rfl rfl rfl rfl le_rfl) | intro _ | dsimp only

theorem quorumEnd_keeps {s u : State} (h : Keeps s u) : Keeps s (quorumEnd u) := by
  unfold quorumEnd
  iterate 20 all_goals try with_reducible first | assumption | split | apply takeoverBegin_keeps | apply becomeFenced_keeps | (refine .w ?_ rfl rfl rfl rfl rfl rfl rfl rfl rfl rfl rfl le_rfl) | intro _ | dsimp only

theorem replRec_keeps {s u : State} {a0 a1 a2 a3} (h : Keeps s u) : Keeps s (replRec a0 a1 a2 a3 u) := by
  unfold replRec
  iterate 20 all_goals try with_reducible first | assumption | split | apply cfgPut_keeps | apply State.modSeg_keeps | apply submit_keeps | (apply Keeps.foldl; intros) | (refine .w ?_ rfl rfl rfl rfl rfl rfl rfl rfl rfl rfl rfl le_rfl) | intro _ | dsimp only

theorem replTaken_keeps {s u : State} {a0 a1 a2 a3} (h : Keeps s u) : Keeps s (replTaken a0 a1 a2 a3 u) := by
  unfold replTaken
  iterate 20 all_goals try with_reducible first | assumption | split | apply afterAccess_keeps | apply settle_keeps | apply replRec_keeps | apply pauseWait_keeps | (apply Keeps.foldl; intros) | (refine .w ?_ rfl rfl rfl rfl rfl rfl rfl rfl rfl rfl rfl le_rfl) | intro _ | dsimp only

theorem replRx_keeps {s u : State} {a0 a1 a2 a3 a4} (h : Keeps s u) : Keeps s (replRx a0 a1 a2 a3 a4 u) := by
  unfold replRx
  iterate 20 all_goals try with_reducible first | assumption | split | apply linkRx_keeps | apply replTaken_keeps | (refine .w ?_ rfl rfl rfl rfl rfl rfl rfl rfl rfl rfl rfl le_rfl) | intro _ | dsimp only

theorem replAcked_keeps {s u : State} {a0} (h : Keeps s u) : Keeps s (replAcked a0 u) := by
  unfold replAcked
  iterate 20 all_goals try with_reducible first | assumption | split | apply afterAccess_keeps | apply settle_keeps | (refine .w ?_ rfl rfl rfl rfl rfl rfl rfl rfl rfl rfl rfl le_rfl) | intro _ | dsimp only

theorem replAckRx_keeps {s u : State} {a0 a1} (h : Keeps s u) : Keeps s (replAckRx a0 a1 u) := by
  unfold replAckRx
  iterate 20 all_goals try with_reducible first | assumption | split | apply linkRx_keeps | apply replAcked_keeps | (refine .w ?_ rfl rfl rfl rfl rfl rfl rfl rfl rfl rfl rfl le_rfl) | intro _ | dsimp only

theorem replAckTimeout_keeps {s u : State} (h : Keeps s u) : Keeps s (replAckTimeout u) := by
  unfold replAckTimeout
  iterate 20 all_goals try with_reducible first | assumption | split | apply lossOfLink_keeps | (refine .w ?_ rfl rfl rfl rfl rfl rfl rfl rfl rfl rfl rfl le_rfl) | intro _ | dsimp only

theorem resyncDoneRx_keeps {s u : State} {a0 a1} (h : Keeps s u) : Keeps s (resyncDoneRx a0 a1 u) := by
  unfold resyncDoneRx
  iterate 20 all_goals try with_reducible first | assumption | split | apply linkRx_keeps | apply resyncEnded_keeps | (refine .w ?_ rfl rfl rfl rfl rfl rfl rfl rfl rfl rfl rfl le_rfl) | intro _ | dsimp only

theorem retryRx_keeps {s u : State} {a0 a1} (h : Keeps s u) : Keeps s (retryRx a0 a1 u) := by
  unfold retryRx
  iterate 20 all_goals try with_reducible first | assumption | split | apply linkRx_keeps | apply linkResend_keeps | (refine .w ?_ rfl rfl rfl rfl rfl rfl rfl rfl rfl rfl rfl le_rfl) | intro _ | dsimp only

theorem segAckRx_keeps {s u : State} {a0 a1} (h : Keeps s u) : Keeps s (segAckRx a0 a1 u) := by
  unfold segAckRx
  iterate 20 all_goals try with_reducible first | assumption | split | apply linkRx_keeps | apply segAcked_keeps | (refine .w ?_ rfl rfl rfl rfl rfl rfl rfl rfl rfl rfl rfl le_rfl) | intro _ | dsimp only

theorem segDoneRx_keeps {s u : State} {a0 a1 a2} (h : Keeps s u) : Keeps s (segDoneRx a0 a1 a2 u) := by
  unfold segDoneRx
  iterate 20 all_goals try with_reducible first | assumption | split | apply linkRx_keeps | apply copyTaken_keeps | (refine .w ?_ rfl rfl rfl rfl rfl rfl rfl rfl rfl rfl rfl le_rfl) | intro _ | dsimp only

theorem streamSeen_keeps {s u : State} {a1} (h : Keeps s u) : Keeps s (streamSeen u a1) := by
  unfold streamSeen
  iterate 20 all_goals try with_reducible first | assumption | split | apply State.modChan_keeps | (apply Keeps.foldl; intros) | (refine .w ?_ rfl rfl rfl rfl rfl rfl rfl rfl rfl rfl rfl le_rfl) | intro _ | dsimp only

theorem streamStateTaken_keeps {s u : State} {a0} (h : Keeps s u) : Keeps s (streamStateTaken a0 u) := by
  unfold streamStateTaken
  iterate 20 all_goals try with_reducible first | assumption | split | apply streamSeen_keeps | (apply Keeps.foldl; intros) | (refine .w ?_ rfl rfl rfl rfl rfl rfl rfl rfl rfl rfl rfl le_rfl) | intro _ | dsimp only

theorem streamStateRx_keeps {s u : State} {a0 a1} (h : Keeps s u) : Keeps s (streamStateRx a0 a1 u) := by
  unfold streamStateRx
  iterate 20 all_goals try with_reducible first | assumption | split | apply linkRx_keeps | apply streamStateTaken_keeps | (refine .w ?_ rfl rfl rfl rfl rfl rfl rfl rfl rfl rfl rfl le_rfl) | intro _ | dsimp only

theorem streamStateTimer_keeps {s u : State} (h : Keeps s u) : Keeps s (streamStateTimer u) := by
  unfold streamStateTimer
  iterate 20 all_goals try with_reducible first | assumption | split | apply linkSend_keeps | (refine .w ?_ rfl rfl rfl rfl rfl rfl rfl rfl rfl rfl rfl le_rfl) | intro _ | dsimp only

theorem twinHomeSet_keeps {s u : State} {a0 a1 a2 a3} (h : Keeps s u) : Keeps s (twinHomeSet a0 a1 a2 a3 u) := by
  unfold twinHomeSet
  iterate 20 all_goals try with_reducible first | assumption | split | apply atornQ_keeps | apply settle_keeps | apply cfgAsk_keeps | apply setCommitted_keeps | (refine .w ?_ rfl rfl rfl rfl rfl rfl rfl rfl rfl rfl rfl le_rfl) | intro _ | dsimp only

theorem twinPeerReset_keeps {s u : State} {a0} (h : Keeps s u) : Keeps s (twinPeerReset a0 u) := by
  unfold twinPeerReset
  iterate 20 all_goals try with_reducible first | assumption | split | apply atornQ_keeps | apply ok_keeps | apply linkSend_keeps | (refine .w ?_ rfl rfl rfl rfl rfl rfl rfl rfl rfl rfl rfl le_rfl) | intro _ | dsimp only

theorem setTwinPort_keeps {s u : State} {a0 a1} (h : Keeps s u) : Keeps s (setTwinPort a0 a1 u) := by
  unfold setTwinPort
  iterate 20 all_goals try with_reducible first | assumption | split | (refine .w ?_ rfl rfl rfl rfl rfl rfl rfl rfl rfl rfl rfl le_rfl) | intro _ | dsimp only

theorem portDegrade_keeps {s u : State} {a0 a1} (h : Keeps s u) : Keeps s (portDegrade a0 a1 u) := by
  unfold portDegrade
  iterate 20 all_goals try with_reducible first | assumption | split | apply ledger_keeps | apply raise_keeps | apply setTwinPort_keeps | apply lossOfLink_keeps | (refine .w ?_ rfl rfl rfl rfl rfl rfl rfl rfl rfl rfl rfl le_rfl) | intro _ | dsimp only

theorem portSilent_keeps {s u : State} {a0} (h : Keeps s u) : Keeps s (portSilent a0 u) := by
  unfold portSilent
  iterate 20 all_goals try with_reducible first | assumption | split | apply setTwinPort_keeps | apply lossOfLink_keeps | (refine .w ?_ rfl rfl rfl rfl rfl rfl rfl rfl rfl rfl rfl le_rfl) | intro _ | dsimp only

theorem portTrained_keeps {s u : State} {a0 a1} (h : Keeps s u) : Keeps s (portTrained a0 a1 u) := by
  unfold portTrained
  iterate 20 all_goals try with_reducible first | assumption | split | apply retrainPump_keeps | apply setTwinPort_keeps | apply sessionBegin_keeps | (refine .w ?_ rfl rfl rfl rfl rfl rfl rfl rfl rfl rfl rfl le_rfl) | intro _ | dsimp only

theorem twinQuery_keeps {s u : State} {a0} (h : Keeps s u) : Keeps s (twinQuery a0 u) := by
  unfold twinQuery
  iterate 20 all_goals try with_reducible first | assumption | split | apply query_keeps | (refine .w ?_ rfl rfl rfl rfl rfl rfl rfl rfl rfl rfl rfl le_rfl) | intro _ | dsimp only

theorem twinRetrain_keeps {s u : State} {a0} (h : Keeps s u) : Keeps s (twinRetrain a0 u) := by
  unfold twinRetrain
  iterate 20 all_goals try with_reducible first | assumption | split | apply atornQ_keeps | apply ok_keeps | apply retrainDegraded_keeps | (refine .w ?_ rfl rfl rfl rfl rfl rfl rfl rfl rfl rfl rfl le_rfl) | intro _ | dsimp only

theorem retrainAttempt_keeps {s u : State} (h : Keeps s u) : Keeps s (retrainAttempt u) := by
  unfold retrainAttempt
  iterate 20 all_goals try with_reducible first | assumption | split | (refine .w ?_ rfl rfl rfl rfl rfl rfl rfl rfl rfl rfl rfl le_rfl) | intro _ | dsimp only

theorem twinTakeover_keeps {s u : State} {a0} (h : Keeps s u) : Keeps s (twinTakeover a0 u) := by
  unfold twinTakeover
  iterate 20 all_goals try with_reducible first | assumption | split | apply atornQ_keeps | apply takeoverBegin_keeps | (refine .w ?_ rfl rfl rfl rfl rfl rfl rfl rfl rfl rfl rfl le_rfl) | intro _ | dsimp only

theorem twinUnpair_keeps {s u : State} {a0} (h : Keeps s u) : Keeps s (twinUnpair a0 u) := by
  unfold twinUnpair
  iterate 20 all_goals try with_reducible first | assumption | split | apply atornQ_keeps | apply pairWrite_keeps | apply draw_keeps | (refine .w ?_ rfl rfl rfl rfl rfl rfl rfl rfl rfl rfl rfl le_rfl) | intro _ | dsimp only

theorem unitCopyRx_keeps {s u : State} {a0 a1 a2 a3 a4 a5} (h : Keeps s u) : Keeps s (unitCopyRx a0 a1 a2 a3 a4 a5 u) := by
  unfold unitCopyRx
  iterate 20 all_goals try with_reducible first | assumption | split | apply linkRx_keeps | apply copyTaken_keeps | (refine .w ?_ rfl rfl rfl rfl rfl rfl rfl rfl rfl rfl rfl le_rfl) | intro _ | dsimp only

theorem unitRead_keeps {s u : State} {a0 a1 a2 a4} (h : Keeps s u) : Keeps s (unitRead a0 a1 a2 u a4) := by
  unfold unitRead
  iterate 20 all_goals try with_reducible first | assumption | split | apply answerRead_keeps | (refine .w ?_ rfl rfl rfl rfl rfl rfl rfl rfl rfl rfl rfl le_rfl) | intro _ | dsimp only

theorem unitRecover_keeps {s u : State} {a0 a1 a2 a4} (h : Keeps s u) : Keeps s (unitRecover a0 a1 a2 u a4) := by
  unfold unitRecover
  iterate 20 all_goals try with_reducible first | assumption | split | apply poisonAdd_keeps | apply readAccept_keeps | apply readPoison_keeps | (apply Keeps.foldl; intros) | (refine .w ?_ rfl rfl rfl rfl rfl rfl rfl rfl rfl rfl rfl le_rfl) | (refine .m ?_ rfl rfl ?_ ?_ ?_ ?_ ?_ ?_ ?_ ?_ le_rfl) | exact id | exact fun _ => wf_nil _ | exact wf_set _ _ _ _ | exact wf_upd _ _ _ _ | exact wf_clear _ _ _ _ | exact fun h => wf_set _ _ _ _ (wf_set _ _ _ _ h) | exact wf_foldl _ _ (fun t b ht => wf_set _ t _ _ ht) _ _ | exact fun h => wf_foldl _ _ (fun t b ht => wf_set _ t _ _ ht) _ _ (wf_clear _ _ _ _ h) | intro _ | dsimp only

theorem unitInstall_keeps {s u : State} {a0 a1 a2 a3} (h : Keeps s u) : Keeps s (unitInstall a0 a1 a2 a3 u) := by
  unfold unitInstall
  iterate 20 all_goals try with_reducible first | assumption | split | apply setWaits_keeps | apply fillArrived_keeps | apply fillUnit_keeps | apply count_keeps | (refine .w ?_ rfl rfl rfl rfl rfl rfl rfl rfl rfl rfl rfl le_rfl) | intro _ | dsimp only

theorem unitReplyTaken_keeps {s u : State} {a0 a1 a2 a3 a4} (h : Keeps s u) : Keeps s (unitReplyTaken a0 a1 a2 a3 a4 u) := by
  unfold unitReplyTaken
  iterate 20 all_goals try with_reducible first | assumption | split | apply setWaits_keeps | apply unitRead_keeps | apply unitRecover_keeps | apply unitInstall_keeps | apply afterAccess_keeps | apply settle_keeps | (apply Keeps.foldl; intros) | (refine .w ?_ rfl rfl rfl rfl rfl rfl rfl rfl rfl rfl rfl le_rfl) | intro _ | dsimp only

theorem unitReplyRx_keeps {s u : State} {a0 a1 a2 a3 a4 a5} (h : Keeps s u) : Keeps s (unitReplyRx a0 a1 a2 a3 a4 a5 u) := by
  unfold unitReplyRx
  iterate 20 all_goals try with_reducible first | assumption | split | apply linkRx_keeps | apply unitReplyTaken_keeps | (refine .w ?_ rfl rfl rfl rfl rfl rfl rfl rfl rfl rfl rfl le_rfl) | intro _ | dsimp only

theorem unitStatus_keeps {s u : State} {a0 a1 a2} (h : Keeps s u) : Keeps s (unitStatus a0 a1 a2 u) := by
  unfold unitStatus
  iterate 20 all_goals try with_reducible first | assumption | split | apply linkSend_keeps | (refine .w ?_ rfl rfl rfl rfl rfl rfl rfl rfl rfl rfl rfl le_rfl) | intro _ | dsimp only

theorem unitReqTaken_keeps {s u : State} {a0 a1 a2 a3 a4} (h : Keeps s u) : Keeps s (unitReqTaken a0 a1 a2 a3 a4 u) := by
  unfold unitReqTaken
  iterate 20 all_goals try with_reducible first | assumption | split | apply unitStatus_keeps | apply unitAnswer_keeps | apply readBegin_keeps | apply mediaBusy_keeps | (refine .w ?_ rfl rfl rfl rfl rfl rfl rfl rfl rfl rfl rfl le_rfl) | intro _ | dsimp only

theorem unitReqRx_keeps {s u : State} {a0 a1 a2 a3 a4 a5} (h : Keeps s u) : Keeps s (unitReqRx a0 a1 a2 a3 a4 a5 u) := by
  unfold unitReqRx
  iterate 20 all_goals try with_reducible first | assumption | split | apply linkRx_keeps | apply unitReqTaken_keeps | apply pauseWait_keeps | (refine .w ?_ rfl rfl rfl rfl rfl rfl rfl rfl rfl rfl rfl le_rfl) | intro _ | dsimp only

theorem unpaired_keeps {s u : State} {a0 a1} (h : Keeps s u) : Keeps s (unpaired a0 a1 u) := by
  unfold unpaired
  iterate 20 all_goals try with_reducible first | assumption | split | apply ok_keeps | apply setCommitted_keeps | apply pairChange_keeps | apply setPs_keeps | (refine .w ?_ rfl rfl rfl rfl rfl rfl rfl rfl rfl rfl rfl le_rfl) | intro _ | dsimp only

end Sys2Proof.Laws
end

