-- ==== Sys2Proof/Laws/KeepsStreams.lean ====
section
/-! SUPPORT. What the operations of Machine/Streams.lean leave as it is. -/

namespace Sys2Proof.Laws

open Sys2Proof Sys2Proof.Machine Sys2Proof.Safety

theorem armedRun_keeps {s u : State} {a0} (h : Keeps s u) : Keeps s (armedRun a0 u) := by
  unfold armedRun
  iterate 20 all_goals try with_reducible first | assumption | split | apply streamNotify_keeps | apply State.modChan_keeps | (refine .w ?_ rfl rfl rfl rfl rfl rfl rfl rfl rfl rfl rfl le_rfl) | intro _ | dsimp only

theorem channelArmed_keeps {s u : State} {a0} (h : Keeps s u) : Keeps s (channelArmed a0 u) := by
  unfold channelArmed
  iterate 20 all_goals try with_reducible first | assumption | split | apply raise_keeps | apply State.modChan_keeps | apply armedRun_keeps | (refine .w ?_ rfl rfl rfl rfl rfl rfl rfl rfl rfl rfl rfl le_rfl) | intro _ | dsimp only

theorem countStreams_keeps {s u : State} {a0 a1} (h : Keeps s u) : Keeps s (countStreams a0 a1 u) := by
  unfold countStreams
  iterate 20 all_goals try with_reducible first | assumption | split | apply State.modSeg_keeps | (apply Keeps.foldl; intros) | (refine .w ?_ rfl rfl rfl rfl rfl rfl rfl rfl rfl rfl rfl le_rfl) | intro _ | dsimp only

theorem creditDoorbell_keeps {s u : State} {a0 a1 a2 a3 a4} (h : Keeps s u) : Keeps s (creditDoorbell a0 a1 a2 a3 a4 u) := by
  unfold creditDoorbell
  iterate 20 all_goals try with_reducible first | assumption | split | apply State.modChan_keeps | (refine .w ?_ rfl rfl rfl rfl rfl rfl rfl rfl rfl rfl rfl le_rfl) | intro _ | dsimp only

theorem lineReleaseComplete_keeps {s u : State} {a0} (h : Keeps s u) : Keeps s (lineReleaseComplete a0 u) := by
  unfold lineReleaseComplete
  iterate 20 all_goals try with_reducible first | assumption | split | apply lineEnd_keeps | (refine .w ?_ rfl rfl rfl rfl rfl rfl rfl rfl rfl rfl rfl le_rfl) | intro _ | dsimp only

theorem primeTimeout_keeps {s u : State} {a0} (h : Keeps s u) : Keeps s (primeTimeout a0 u) := by
  unfold primeTimeout
  iterate 20 all_goals try with_reducible first | assumption | split | apply raise_keeps | apply heldFor_keeps | (refine .w ?_ rfl rfl rfl rfl rfl rfl rfl rfl rfl rfl rfl le_rfl) | intro _ | dsimp only

theorem setChan_keeps {s u : State} {a0 a1} (h : Keeps s u) : Keeps s (setChan a0 a1 u) := by
  unfold setChan
  iterate 20 all_goals try with_reducible first | assumption | split | apply State.modChan_keeps | (refine .w ?_ rfl rfl rfl rfl rfl rfl rfl rfl rfl rfl rfl le_rfl) | intro _ | dsimp only

theorem jobLoad_keeps {s u : State} {a0 a1 a2} (h : Keeps s u) : Keeps s (jobLoad a0 a1 a2 u) := by
  unfold jobLoad
  iterate 20 all_goals try with_reducible first | assumption | split | apply reply_keeps | apply ok_keeps | apply setCommitted_keeps | apply countStreams_keeps | apply setChan_keeps | (refine .w ?_ rfl rfl rfl rfl rfl rfl rfl rfl rfl rfl rfl le_rfl) | intro _ | dsimp only

theorem streamJobLoad_keeps {s u : State} {a0 a1 a2} (h : Keeps s u) : Keeps s (streamJobLoad a0 a1 a2 u) := by
  unfold streamJobLoad
  iterate 20 all_goals try with_reducible first | assumption | split | apply atornQ_keeps | apply jobLoad_keeps | (refine .w ?_ rfl rfl rfl rfl rfl rfl rfl rfl rfl rfl rfl le_rfl) | intro _ | dsimp only

theorem streamJobUnload_keeps {s u : State} {a0 a1} (h : Keeps s u) : Keeps s (streamJobUnload a0 a1 u) := by
  unfold streamJobUnload
  iterate 20 all_goals try with_reducible first | assumption | split | apply atorn_keeps | apply countStreams_keeps | apply ok_keeps | apply setCommitted_keeps | apply State.modChan_keeps | (refine .w ?_ rfl rfl rfl rfl rfl rfl rfl rfl rfl rfl rfl le_rfl) | intro _ | dsimp only

theorem streamQuery_keeps {s u : State} {a0 a1} (h : Keeps s u) : Keeps s (streamQuery a0 a1 u) := by
  unfold streamQuery
  iterate 20 all_goals try with_reducible first | assumption | split | apply atornQ_keeps | apply ok_keeps | (refine .w ?_ rfl rfl rfl rfl rfl rfl rfl rfl rfl rfl rfl le_rfl) | intro _ | dsimp only

theorem prime_keeps {s u : State} {a0 a1 a2 a3} (h : Keeps s u) : Keeps s (prime a0 a1 a2 a3 u) := by
  unfold prime
  iterate 20 all_goals try with_reducible first | assumption | split | apply stepEnClear_keeps | apply State.modChan_keeps | apply streamNotify_keeps | apply pinWindow_keeps | (refine .w ?_ rfl rfl rfl rfl rfl rfl rfl rfl rfl rfl rfl le_rfl) | intro _ | dsimp only

theorem streamResume_keeps {s u : State} {a0 a1 a2 a3 a4 a5} (h : Keeps s u) : Keeps s (streamResume a0 a1 a2 a3 a4 a5 u) := by
  unfold streamResume
  iterate 20 all_goals try with_reducible first | assumption | split | apply atorn_keeps | apply ok_keeps | apply setCommitted_keeps | apply prime_keeps | (refine .w ?_ rfl rfl rfl rfl rfl rfl rfl rfl rfl rfl rfl le_rfl) | intro _ | dsimp only

theorem ringClear_keeps {s u : State} {a0} (h : Keeps s u) : Keeps s (ringClear a0 u) := by
  unfold ringClear
  iterate 20 all_goals try with_reducible first | assumption | split | apply emit_keeps | (apply Keeps.foldl; intros) | (refine .w ?_ rfl rfl rfl rfl rfl rfl rfl rfl rfl rfl rfl le_rfl) | intro _ | dsimp only

theorem streamStart_keeps {s u : State} {a0 a1 a2 a3 a4} (h : Keeps s u) : Keeps s (streamStart a0 a1 a2 a3 a4 u) := by
  unfold streamStart
  iterate 20 all_goals try with_reducible first | assumption | split | apply atorn_keeps | apply ok_keeps | apply setCommitted_keeps | apply prime_keeps | apply ringClear_keeps | (refine .w ?_ rfl rfl rfl rfl rfl rfl rfl rfl rfl rfl rfl le_rfl) | intro _ | dsimp only

theorem streamStop_keeps {s u : State} {a0 a1} (h : Keeps s u) : Keeps s (streamStop a0 a1 u) := by
  unfold streamStop
  iterate 20 all_goals try with_reducible first | assumption | split | apply atorn_keeps | apply relFinish_keeps | apply stopChan_keeps | apply ok_keeps | apply setCommitted_keeps | apply unpin_keeps | (refine .w ?_ rfl rfl rfl rfl rfl rfl rfl rfl rfl rfl rfl le_rfl) | intro _ | dsimp only

theorem lateMaxWrite_keeps {s u : State} {a0 a1 a2} (h : Keeps s u) : Keeps s (lateMaxWrite a0 a1 a2 u) := by
  unfold lateMaxWrite
  iterate 20 all_goals try with_reducible first | assumption | split | apply regWrite_keeps | apply State.modChan_keeps | (refine .w ?_ rfl rfl rfl rfl rfl rfl rfl rfl rfl rfl rfl le_rfl) | intro _ | dsimp only

theorem triggerDecision_keeps {s u : State} {a0 a1} (h : Keeps s u) : Keeps s (triggerDecision a0 a1 u) := by
  unfold triggerDecision
  iterate 20 all_goals try with_reducible first | assumption | split | apply chanDecide_keeps | (apply Keeps.foldl; intros) | (refine .w ?_ rfl rfl rfl rfl rfl rfl rfl rfl rfl rfl rfl le_rfl) | intro _ | dsimp only

end Sys2Proof.Laws
end

