-- ==== Sys2Proof/Laws/KeepsExpand.lean ====
section
/-! SUPPORT. What the operations of Machine/Expand.lean leave as it is. -/

namespace Sys2Proof.Laws

open Sys2Proof Sys2Proof.Machine Sys2Proof.Safety

theorem laneDrops_keeps {s u : State} {a0} (h : Keeps s u) : Keeps s (laneDrops a0 u) := by
  unfold laneDrops
  iterate 20 all_goals try with_reducible first | assumption | split | apply engineFault_keeps | (refine .w ?_ rfl rfl rfl rfl rfl rfl rfl rfl rfl rfl rfl le_rfl) | intro _ | dsimp only

theorem laneTimeout_keeps {s u : State} {a0} (h : Keeps s u) : Keeps s (laneTimeout a0 u) := by
  unfold laneTimeout
  iterate 20 all_goals try with_reducible first | assumption | split | apply laneFault_keeps | apply laneDrops_keeps | (refine .w ?_ rfl rfl rfl rfl rfl rfl rfl rfl rfl rfl rfl le_rfl) | intro _ | dsimp only

theorem noleneCheck_keeps {s u : State} {a0 a1 a2} (h : Keeps s u) : Keeps s (noleneCheck a0 a1 a2 u) := by
  unfold noleneCheck
  iterate 20 all_goals try with_reducible first | assumption | split | apply atornQ_keeps | apply ok_keeps | (refine .w ?_ rfl rfl rfl rfl rfl rfl rfl rfl rfl rfl rfl le_rfl) | intro _ | dsimp only

theorem spareActivate_keeps {s u : State} (h : Keeps s u) : Keeps s (spareActivate u) := by
  unfold spareActivate
  iterate 20 all_goals try with_reducible first | assumption | split | (refine .w ?_ rfl rfl rfl rfl rfl rfl rfl rfl rfl rfl rfl le_rfl) | intro _ | dsimp only

theorem stickRendered_keeps {s u : State} {a0 a1 a2 a3} (h : Keeps s u) : Keeps s (stickRendered a0 a1 a2 a3 u) := by
  unfold stickRendered
  iterate 20 all_goals try with_reducible first | assumption | split | apply count_keeps | apply State.modChan_keeps | apply laneFault_keeps | apply engineFault_keeps | (refine .w ?_ rfl rfl rfl rfl rfl rfl rfl rfl rfl rfl rfl le_rfl) | intro _ | dsimp only

theorem laneTest_keeps {s u : State} {a0 a1} (h : Keeps s u) : Keeps s (laneTest a0 a1 u) := by
  unfold laneTest
  iterate 20 all_goals try with_reducible first | assumption | split | apply laneFault_keeps | apply laneDrops_keeps | (refine .w ?_ rfl rfl rfl rfl rfl rfl rfl rfl rfl rfl rfl le_rfl) | intro _ | dsimp only

theorem testStick_keeps {s u : State} {a0} (h : Keeps s u) : Keeps s (testStick a0 u) := by
  unfold testStick
  iterate 20 all_goals try with_reducible first | assumption | split | apply laneTest_keeps | (apply Keeps.foldl; intros) | (refine .w ?_ rfl rfl rfl rfl rfl rfl rfl rfl rfl rfl rfl le_rfl) | intro _ | dsimp only

theorem xeLaneRetire_keeps {s u : State} {a0 a1} (h : Keeps s u) : Keeps s (xeLaneRetire a0 a1 u) := by
  unfold xeLaneRetire
  iterate 20 all_goals try with_reducible first | assumption | split | apply atornQ_keeps | (refine .w ?_ rfl rfl rfl rfl rfl rfl rfl rfl rfl rfl rfl le_rfl) | intro _ | dsimp only

theorem xeQuery_keeps {s u : State} {a0} (h : Keeps s u) : Keeps s (xeQuery a0 u) := by
  unfold xeQuery
  iterate 20 all_goals try with_reducible first | assumption | split | apply query_keeps | (refine .w ?_ rfl rfl rfl rfl rfl rfl rfl rfl rfl rfl rfl le_rfl) | intro _ | dsimp only

theorem xeLaneRetired_keeps {s u : State} (h : Keeps s u) : Keeps s (xeLaneRetired u) := by
  unfold xeLaneRetired
  iterate 20 all_goals try with_reducible first | assumption | split | apply laneRetire_keeps | (apply Keeps.foldl; intros) | (refine .w ?_ rfl rfl rfl rfl rfl rfl rfl rfl rfl rfl rfl le_rfl) | intro _ | dsimp only

end Sys2Proof.Laws
end

