-- ==== Sys2Proof/Laws/KeepsPorts.lean ====
section
/-! SUPPORT. What the operations of Machine/Ports.lean leave as it is. -/

namespace Sys2Proof.Laws

open Sys2Proof Sys2Proof.Machine Sys2Proof.Safety

theorem cxlCmd_keeps {s u : State} {a0 a1 f2} (hf2 : ∀ v, Keeps s v → Keeps s (f2 v)) (h : Keeps s u) : Keeps s (cxlCmd a0 a1 f2 u) := by
  unfold cxlCmd
  iterate 20 all_goals try with_reducible first | assumption | split | apply hf2 | apply fnWrite_keeps | (refine .w ?_ rfl rfl rfl rfl rfl rfl rfl rfl rfl rfl rfl le_rfl) | intro _ | dsimp only

theorem cxlDone_keeps {s u : State} {a0 a1 a2 a3} (h : Keeps s u) : Keeps s (cxlDone a0 a1 a2 a3 u) := by
  unfold cxlDone
  iterate 20 all_goals try with_reducible first | assumption | split | apply fire_keeps | apply emit_keeps | (refine .w ?_ rfl rfl rfl rfl rfl rfl rfl rfl rfl rfl rfl le_rfl) | intro _ | dsimp only

theorem clearRecords_keeps {s u : State} {a0 a1 a2 a3 a4} (h : Keeps s u) : Keeps s (clearRecords a0 a1 a2 a3 a4 u) := by
  unfold clearRecords
  iterate 20 all_goals try with_reducible first | assumption | split | apply cxlCmd_keeps | apply cxlDone_keeps | apply State.modLd_keeps | (refine .w ?_ rfl rfl rfl rfl rfl rfl rfl rfl rfl rfl rfl le_rfl) | intro _ | dsimp only

theorem consumerCor_keeps {s u : State} {a0 a1} (h : Keeps s u) : Keeps s (consumerCor a0 a1 u) := by
  unfold consumerCor
  iterate 20 all_goals try with_reducible first | assumption | split | apply State.modPort_keeps | (refine .w ?_ rfl rfl rfl rfl rfl rfl rfl rfl rfl rfl rfl le_rfl) | intro _ | dsimp only

theorem consumerFatal_keeps {s u : State} {a0 a1} (h : Keeps s u) : Keeps s (consumerFatal a0 a1 u) := by
  unfold consumerFatal
  iterate 20 all_goals try with_reducible first | assumption | split | apply consumerLost_keeps | (refine .w ?_ rfl rfl rfl rfl rfl rfl rfl rfl rfl rfl rfl le_rfl) | intro _ | dsimp only

theorem consumerInt_keeps {s u : State} {a0 a1} (h : Keeps s u) : Keeps s (consumerInt a0 a1 u) := by
  unfold consumerInt
  iterate 20 all_goals try with_reducible first | assumption | split | apply raise_keeps | (refine .w ?_ rfl rfl rfl rfl rfl rfl rfl rfl rfl rfl rfl le_rfl) | intro _ | dsimp only

theorem cxlOther_keeps {s u : State} {a0 a1 a2} (h : Keeps s u) : Keeps s (cxlOther a0 a1 a2 u) := by
  unfold cxlOther
  iterate 20 all_goals try with_reducible first | assumption | split | apply cxlCmd_keeps | apply cxlDone_keeps | (refine .w ?_ rfl rfl rfl rfl rfl rfl rfl rfl rfl rfl rfl le_rfl) | intro _ | dsimp only

theorem disabledRetry_keeps {s u : State} {a0} (h : Keeps s u) : Keeps s (disabledRetry a0 u) := by
  unfold disabledRetry
  iterate 20 all_goals try with_reducible first | assumption | split | apply State.modPort_keeps | (refine .w ?_ rfl rfl rfl rfl rfl rfl rfl rfl rfl rfl rfl le_rfl) | intro _ | dsimp only

theorem effectsLog_keeps {s u : State} {a0 a1} (h : Keeps s u) : Keeps s (effectsLog a0 a1 u) := by
  unfold effectsLog
  iterate 20 all_goals try with_reducible first | assumption | split | apply cxlCmd_keeps | apply cxlDone_keeps | (refine .w ?_ rfl rfl rfl rfl rfl rfl rfl rfl rfl rfl rfl le_rfl) | intro _ | dsimp only

theorem enumerated_keeps {s u : State} {a0 a1} (h : Keeps s u) : Keeps s (enumerated a0 a1 u) := by
  unfold enumerated
  iterate 20 all_goals try with_reducible first | assumption | split | apply State.modPort_keeps | apply ledger_keeps | apply raise_keeps | apply endBlock_keeps | (apply Keeps.foldl; intros) | (refine .w ?_ rfl rfl rfl rfl rfl rfl rfl rfl rfl rfl rfl le_rfl) | intro _ | dsimp only

theorem getPolicy_keeps {s u : State} {a0 a1} (h : Keeps s u) : Keeps s (getPolicy a0 a1 u) := by
  unfold getPolicy
  iterate 20 all_goals try with_reducible first | assumption | split | apply cxlCmd_keeps | apply cxlDone_keeps | (refine .w ?_ rfl rfl rfl rfl rfl rfl rfl rfl rfl rfl rfl le_rfl) | intro _ | dsimp only

theorem getRecords_keeps {s u : State} {a0 a1 a2} (h : Keeps s u) : Keeps s (getRecords a0 a1 a2 u) := by
  unfold getRecords
  iterate 20 all_goals try with_reducible first | assumption | split | apply cxlCmd_keeps | apply cxlDone_keeps | (refine .w ?_ rfl rfl rfl rfl rfl rfl rfl rfl rfl rfl rfl le_rfl) | intro _ | dsimp only

theorem healthInfo_keeps {s u : State} {a0 a1} (h : Keeps s u) : Keeps s (healthInfo a0 a1 u) := by
  unfold healthInfo
  iterate 20 all_goals try with_reducible first | assumption | split | apply cxlCmd_keeps | apply cxlDone_keeps | apply draw_keeps | (refine .w ?_ rfl rfl rfl rfl rfl rfl rfl rfl rfl rfl rfl le_rfl) | intro _ | dsimp only

theorem fmCmd_keeps {s u : State} {a0 f1} (hf1 : ∀ v, Keeps s v → Keeps s (f1 v)) (h : Keeps s u) : Keeps s (fmCmd a0 f1 u) := by
  unfold fmCmd
  iterate 20 all_goals try with_reducible first | assumption | split | apply hf1 | (refine .w ?_ rfl rfl rfl rfl rfl rfl rfl rfl rfl rfl rfl le_rfl) | intro _ | dsimp only

theorem getAllocs_keeps {s u : State} {a0} (h : Keeps s u) : Keeps s (getAllocs a0 u) := by
  unfold getAllocs
  iterate 20 all_goals try with_reducible first | assumption | split | apply fmCmd_keeps | apply emit_keeps | (refine .w ?_ rfl rfl rfl rfl rfl rfl rfl rfl rfl rfl rfl le_rfl) | intro _ | dsimp only

theorem ldInfo_keeps {s u : State} {a0} (h : Keeps s u) : Keeps s (ldInfo a0 u) := by
  unfold ldInfo
  iterate 20 all_goals try with_reducible first | assumption | split | apply fmCmd_keeps | apply emit_keeps | (refine .w ?_ rfl rfl rfl rfl rfl rfl rfl rfl rfl rfl rfl le_rfl) | intro _ | dsimp only

theorem poisonList_keeps {s u : State} {a0 a1 a2 a3} (h : Keeps s u) : Keeps s (poisonList a0 a1 a2 a3 u) := by
  unfold poisonList
  iterate 20 all_goals try with_reducible first | assumption | split | apply cxlCmd_keeps | apply cxlDone_keeps | (refine .w ?_ rfl rfl rfl rfl rfl rfl rfl rfl rfl rfl rfl le_rfl) | intro _ | dsimp only

theorem getQos_keeps {s u : State} {a0} (h : Keeps s u) : Keeps s (getQos a0 u) := by
  unfold getQos
  iterate 20 all_goals try with_reducible first | assumption | split | apply fmCmd_keeps | apply emit_keeps | (refine .w ?_ rfl rfl rfl rfl rfl rfl rfl rfl rfl rfl rfl le_rfl) | intro _ | dsimp only

theorem qosStatus_keeps {s u : State} {a0} (h : Keeps s u) : Keeps s (qosStatus a0 u) := by
  unfold qosStatus
  iterate 20 all_goals try with_reducible first | assumption | split | apply fmCmd_keeps | apply emit_keeps | apply draw_keeps | (refine .w ?_ rfl rfl rfl rfl rfl rfl rfl rfl rfl rfl rfl le_rfl) | intro _ | dsimp only

theorem supportedLogs_keeps {s u : State} {a0 a1} (h : Keeps s u) : Keeps s (supportedLogs a0 a1 u) := by
  unfold supportedLogs
  iterate 20 all_goals try with_reducible first | assumption | split | apply cxlCmd_keeps | apply cxlDone_keeps | (refine .w ?_ rfl rfl rfl rfl rfl rfl rfl rfl rfl rfl rfl le_rfl) | intro _ | dsimp only

theorem identifyMem_keeps {s u : State} {a0 a1} (h : Keeps s u) : Keeps s (identifyMem a0 a1 u) := by
  unfold identifyMem
  iterate 20 all_goals try with_reducible first | assumption | split | apply cxlCmd_keeps | apply cxlDone_keeps | (refine .w ?_ rfl rfl rfl rfl rfl rfl rfl rfl rfl rfl rfl le_rfl) | intro _ | dsimp only

theorem inboundUr_keeps {s u : State} {a0} (h : Keeps s u) : Keeps s (inboundUr a0 u) := by
  unfold inboundUr
  iterate 20 all_goals try with_reducible first | assumption | split | apply count_keeps | apply State.modPort_keeps | (refine .w ?_ rfl rfl rfl rfl rfl rfl rfl rfl rfl rfl rfl le_rfl) | intro _ | dsimp only

theorem hostWidth_keeps {s u : State} {a0} (h : Keeps s u) : Keeps s (hostWidth a0 u) := by
  unfold hostWidth
  iterate 20 all_goals try with_reducible first | assumption | split | apply cdatChange_keeps | (refine .w ?_ rfl rfl rfl rfl rfl rfl rfl rfl rfl rfl rfl le_rfl) | intro _ | dsimp only

theorem upconfigure_keeps {s u : State} {a0 a1} (h : Keeps s u) : Keeps s (upconfigure a0 a1 u) := by
  unfold upconfigure
  iterate 20 all_goals try with_reducible first | assumption | split | apply setTwinPort_keeps | apply hostWidth_keeps | apply State.modPort_keeps | (refine .w ?_ rfl rfl rfl rfl rfl rfl rfl rfl rfl rfl rfl le_rfl) | intro _ | dsimp only

theorem vectorUnmask_keeps {s u : State} {a0 a1 a2} (h : Keeps s u) : Keeps s (vectorUnmask a0 a1 a2 u) := by
  unfold vectorUnmask
  iterate 20 all_goals try with_reducible first | assumption | split | apply fnWrite_keeps | apply firePending_keeps | apply State.modFn_keeps | (refine .w ?_ rfl rfl rfl rfl rfl rfl rfl rfl rfl rfl rfl le_rfl) | intro _ | dsimp only

theorem linkRefused_keeps {s u : State} {a0} (h : Keeps s u) : Keeps s (linkRefused a0 u) := by
  unfold linkRefused
  iterate 20 all_goals try with_reducible first | assumption | split | apply raise_keeps | apply State.modPort_keeps | (refine .w ?_ rfl rfl rfl rfl rfl rfl rfl rfl rfl rfl rfl le_rfl) | intro _ | dsimp only

theorem laneFailed_keeps {s u : State} {a0} (h : Keeps s u) : Keeps s (laneFailed a0 u) := by
  unfold laneFailed
  iterate 20 all_goals try with_reducible first | assumption | split | apply State.modPort_keeps | apply linkRefused_keeps | apply admitWatch_keeps | apply portPulse_keeps | apply hostWidth_keeps | apply raise_keeps | (refine .w ?_ rfl rfl rfl rfl rfl rfl rfl rfl rfl rfl rfl le_rfl) | intro _ | dsimp only

theorem portLinkUp_keeps {s u : State} {a0 a1 a2 a3 a4 a5} (h : Keeps s u) : Keeps s (portLinkUp a0 a1 a2 a3 a4 a5 u) := by
  unfold portLinkUp
  iterate 20 all_goals try with_reducible first | assumption | split | apply linkRefused_keeps | apply State.modPort_keeps | apply raise_keeps | apply hostWidth_keeps | (refine .w ?_ rfl rfl rfl rfl rfl rfl rfl rfl rfl rfl rfl le_rfl) | intro _ | dsimp only

theorem portQuery_keeps {s u : State} {a0 a1} (h : Keeps s u) : Keeps s (portQuery a0 a1 u) := by
  unfold portQuery
  iterate 20 all_goals try with_reducible first | assumption | split | apply atornQ_keeps | apply ok_keeps | (refine .w ?_ rfl rfl rfl rfl rfl rfl rfl rfl rfl rfl rfl le_rfl) | intro _ | dsimp only

theorem portRescan_keeps {s u : State} {a0 a1} (h : Keeps s u) : Keeps s (portRescan a0 a1 u) := by
  unfold portRescan
  iterate 20 all_goals try with_reducible first | assumption | split | apply atornQ_keeps | apply ok_keeps | (refine .w ?_ rfl rfl rfl rfl rfl rfl rfl rfl rfl rfl rfl le_rfl) | intro _ | dsimp only

theorem portRetrain_keeps {s u : State} {a0 a1} (h : Keeps s u) : Keeps s (portRetrain a0 a1 u) := by
  unfold portRetrain
  iterate 20 all_goals try with_reducible first | assumption | split | apply atornQ_keeps | apply ok_keeps | apply setCommitted_keeps | apply rstAssert_keeps | (refine .w ?_ rfl rfl rfl rfl rfl rfl rfl rfl rfl rfl rfl le_rfl) | intro _ | dsimp only

theorem setPolicy_keeps {s u : State} {a0 a1 a2 a3} (h : Keeps s u) : Keeps s (setPolicy a0 a1 a2 a3 u) := by
  unfold setPolicy
  iterate 20 all_goals try with_reducible first | assumption | split | apply cxlCmd_keeps | apply cxlDone_keeps | apply State.modLd_keeps | apply State.modPort_keeps | (apply Keeps.foldl; intros) | (refine .w ?_ rfl rfl rfl rfl rfl rfl rfl rfl rfl rfl rfl le_rfl) | intro _ | dsimp only

theorem setAllocs_keeps {s u : State} {a0 a1} (h : Keeps s u) : Keeps s (setAllocs a0 a1 u) := by
  unfold setAllocs
  iterate 20 all_goals try with_reducible first | assumption | split | apply fmCmd_keeps | apply emit_keeps | (refine .w ?_ rfl rfl rfl rfl rfl rfl rfl rfl rfl rfl rfl le_rfl) | intro _ | dsimp only

theorem setQos_keeps {s u : State} {a0 a1} (h : Keeps s u) : Keeps s (setQos a0 a1 u) := by
  unfold setQos
  iterate 20 all_goals try with_reducible first | assumption | split | apply fmCmd_keeps | apply emit_keeps | (refine .w ?_ rfl rfl rfl rfl rfl rfl rfl rfl rfl rfl rfl le_rfl) | intro _ | dsimp only

theorem pathDown_keeps {s u : State} {a0 a1} (h : Keeps s u) : Keeps s (pathDown a0 a1 u) := by
  unfold pathDown
  iterate 20 all_goals try with_reducible first | assumption | split | apply consumerLost_keeps | (refine .w ?_ rfl rfl rfl rfl rfl rfl rfl rfl rfl rfl rfl le_rfl) | intro _ | dsimp only

end Sys2Proof.Laws
end

