-- ==== Sys2Proof/Laws/KeepsClusterOps.lean ====
section
/-! SUPPORT. What the operations of Machine/ClusterOps.lean leave as it is. -/

namespace Sys2Proof.Laws

open Sys2Proof Sys2Proof.Machine Sys2Proof.Safety

theorem coreFail_keeps {s u : State} {a0 a1} (h : Keeps s u) : Keeps s (coreFail a0 a1 u) := by
  unfold coreFail
  iterate 20 all_goals try with_reducible first | assumption | split | apply State.modCpu_keeps | apply rstAssert_keeps | apply commit_keeps | apply startFail_keeps | (apply Keeps.foldl; intros) | (refine .w ?_ rfl rfl rfl rfl rfl rfl rfl rfl rfl rfl rfl le_rfl) | intro _ | dsimp only

theorem fwLoad_keeps {s u : State} (h : Keeps s u) : Keeps s (fwLoad u) := by
  unfold fwLoad
  iterate 20 all_goals try with_reducible first | assumption | split | apply ledger_keeps | apply raise_keeps | (refine .w ?_ rfl rfl rfl rfl rfl rfl rfl rfl rfl rfl rfl le_rfl) | intro _ | dsimp only

theorem icInstall_keeps {s u : State} {a0 a1 a2} (h : Keeps s u) : Keeps s (icInstall a0 a1 a2 u) := by
  unfold icInstall
  iterate 20 all_goals try with_reducible first | assumption | split | apply State.modCpu_keeps | (refine .w ?_ rfl rfl rfl rfl rfl rfl rfl rfl rfl rfl rfl le_rfl) | intro _ | dsimp only

theorem icFromNor_keeps {s u : State} (h : Keeps s u) : Keeps s (icFromNor u) := by
  unfold icFromNor
  iterate 20 all_goals try with_reducible first | assumption | split | apply icInstall_keeps | (refine .w ?_ rfl rfl rfl rfl rfl rfl rfl rfl rfl rfl rfl le_rfl) | intro _ | dsimp only

theorem icAutostart_keeps {s u : State} (h : Keeps s u) : Keeps s (icAutostart u) := by
  unfold icAutostart
  iterate 20 all_goals try with_reducible first | assumption | split | apply icFromNor_keeps | (refine .w ?_ rfl rfl rfl rfl rfl rfl rfl rfl rfl rfl rfl le_rfl) | intro _ | dsimp only

theorem icHalt_keeps {s u : State} (h : Keeps s u) : Keeps s (icHalt u) := by
  unfold icHalt
  iterate 20 all_goals try with_reducible first | assumption | split | apply setWaits_keeps | apply State.modCpu_keeps | (refine .w ?_ rfl rfl rfl rfl rfl rfl rfl rfl rfl rfl rfl le_rfl) | intro _ | dsimp only

theorem icFaultNow_keeps {s u : State} {a0} (h : Keeps s u) : Keeps s (icFaultNow a0 u) := by
  unfold icFaultNow
  iterate 20 all_goals try with_reducible first | assumption | split | apply chanReset_keeps | apply icHalt_keeps | apply ledger_keeps | apply raise_keeps | (refine .w ?_ rfl rfl rfl rfl rfl rfl rfl rfl rfl rfl rfl le_rfl) | intro _ | dsimp only

theorem rolesAssign_keeps {s u : State} {a0 a1} (h : Keeps s u) : Keeps s (rolesAssign a0 a1 u) := by
  unfold rolesAssign
  iterate 20 all_goals try with_reducible first | assumption | split | apply commit_keeps | apply ledger_keeps | apply raise_keeps | apply notePut_keeps | apply count_keeps | (apply Keeps.foldl; intros) | (refine .w ?_ rfl rfl rfl rfl rfl rfl rfl rfl rfl rfl rfl le_rfl) | intro _ | dsimp only

theorem rowSpare_keeps {s u : State} {a0 a1 a2} (h : Keeps s u) : Keeps s (rowSpare a0 a1 a2 u) := by
  unfold rowSpare
  iterate 20 all_goals try with_reducible first | assumption | split | apply commit_keeps | apply raise_keeps | apply State.modCpu_keeps | (refine .w ?_ rfl rfl rfl rfl rfl rfl rfl rfl rfl rfl rfl le_rfl) | intro _ | dsimp only

theorem settleFlight_keeps {s u : State} {a0 a2} (h : Keeps s u) : Keeps s (settleFlight a0 u a2) := by
  unfold settleFlight
  iterate 20 all_goals try with_reducible first | assumption | split | apply reply_keeps | (refine .w ?_ rfl rfl rfl rfl rfl rfl rfl rfl rfl rfl rfl le_rfl) | intro _ | dsimp only

theorem settleFlights_keeps {s u : State} (h : Keeps s u) : Keeps s (settleFlights u) := by
  unfold settleFlights
  iterate 20 all_goals try with_reducible first | assumption | split | apply settleFlight_keeps | (apply Keeps.foldl; intros) | (refine .w ?_ rfl rfl rfl rfl rfl rfl rfl rfl rfl rfl rfl le_rfl) | intro _ | dsimp only

theorem tcmBadCount_keeps {s u : State} {a0 a1 a2} (h : Keeps s u) : Keeps s (tcmBadCount a0 a1 a2 u) := by
  unfold tcmBadCount
  iterate 20 all_goals try with_reducible first | assumption | split | apply ledger_keeps | apply State.modCpu_keeps | (refine .w ?_ rfl rfl rfl rfl rfl rfl rfl rfl rfl rfl rfl le_rfl) | intro _ | dsimp only

theorem tcmBadFails_keeps {s u : State} {a0} (h : Keeps s u) : Keeps s (tcmBadFails a0 u) := by
  unfold tcmBadFails
  iterate 20 all_goals try with_reducible first | assumption | split | apply icFaultNow_keeps | apply coreFail_keeps | (refine .w ?_ rfl rfl rfl rfl rfl rfl rfl rfl rfl rfl rfl le_rfl) | intro _ | dsimp only

theorem tcmBadMet_keeps {s u : State} {a0 a1 a2} (h : Keeps s u) : Keeps s (tcmBadMet a0 a1 a2 u) := by
  unfold tcmBadMet
  iterate 20 all_goals try with_reducible first | assumption | split | apply tcmBadCount_keeps | apply rowSpare_keeps | apply State.modCpu_keeps | (refine .w ?_ rfl rfl rfl rfl rfl rfl rfl rfl rfl rfl rfl le_rfl) | intro _ | dsimp only

theorem tcmBadUse_keeps {s u : State} {a0 a1 a2} (h : Keeps s u) : Keeps s (tcmBadUse a0 a1 a2 u) := by
  unfold tcmBadUse
  iterate 20 all_goals try with_reducible first | assumption | split | apply tcmBadFails_keeps | apply tcmBadMet_keeps | (refine .w ?_ rfl rfl rfl rfl rfl rfl rfl rfl rfl rfl rfl le_rfl) | intro _ | dsimp only

theorem tcmCorrected_keeps {s u : State} {a0 a1 a2} (h : Keeps s u) : Keeps s (tcmCorrected a0 a1 a2 u) := by
  unfold tcmCorrected
  iterate 20 all_goals try with_reducible first | assumption | split | apply State.modCpu_keeps | apply rowSpare_keeps | (refine .w ?_ rfl rfl rfl rfl rfl rfl rfl rfl rfl rfl rfl le_rfl) | intro _ | dsimp only

end Sys2Proof.Laws
end

