-- ==== Sys2Proof/Laws/KeepsCluster.lean ====
section
/-! SUPPORT. What the operations of Machine/Cluster.lean leave as it is. -/

namespace Sys2Proof.Laws

open Sys2Proof Sys2Proof.Machine Sys2Proof.Safety

theorem coreOnlyWrite_keeps {s u : State} {a0 f1} (hf1 : ∀ v, Keeps s v → Keeps s (f1 v)) (h : Keeps s u) : Keeps s (coreOnlyWrite a0 f1 u) := by
  unfold coreOnlyWrite
  iterate 20 all_goals try with_reducible first | assumption | split | apply hf1 | apply fnWrite_keeps | apply countAccErr_keeps | (refine .w ?_ rfl rfl rfl rfl rfl rfl rfl rfl rfl rfl rfl le_rfl) | intro _ | dsimp only

theorem ccHeartbeatWrite_keeps {s u : State} {a0 a1} (h : Keeps s u) : Keeps s (ccHeartbeatWrite a0 a1 u) := by
  unfold ccHeartbeatWrite
  iterate 20 all_goals try with_reducible first | assumption | split | apply coreOnlyWrite_keeps | (refine .w ?_ rfl rfl rfl rfl rfl rfl rfl rfl rfl rfl rfl le_rfl) | intro _ | dsimp only

theorem ccIcKickWrite_keeps {s u : State} {a0} (h : Keeps s u) : Keeps s (ccIcKickWrite a0 u) := by
  unfold ccIcKickWrite
  iterate 20 all_goals try with_reducible first | assumption | split | apply coreOnlyWrite_keeps | (refine .w ?_ rfl rfl rfl rfl rfl rfl rfl rfl rfl rfl rfl le_rfl) | intro _ | dsimp only

theorem sterrClear_keeps {s u : State} {a0} (h : Keeps s u) : Keeps s (sterrClear a0 u) := by
  unfold sterrClear
  iterate 20 all_goals try with_reducible first | assumption | split | apply State.modCpu_keeps | (refine .w ?_ rfl rfl rfl rfl rfl rfl rfl rfl rfl rfl rfl le_rfl) | intro _ | dsimp only

theorem ccWrite_keeps {s u : State} {a0 f1} (hf1 : ∀ v, Keeps s v → Keeps s (f1 v)) (h : Keeps s u) : Keeps s (ccWrite a0 f1 u) := by
  unfold ccWrite
  iterate 20 all_goals try with_reducible first | assumption | split | apply hf1 | apply fnWrite_keeps | apply countAccErr_keeps | apply regWrite_keeps | (refine .w ?_ rfl rfl rfl rfl rfl rfl rfl rfl rfl rfl rfl le_rfl) | intro _ | dsimp only

theorem ccSterrInfoClear_keeps {s u : State} {a0 a1} (h : Keeps s u) : Keeps s (ccSterrInfoClear a0 a1 u) := by
  unfold ccSterrInfoClear
  iterate 20 all_goals try with_reducible first | assumption | split | apply sterrClear_keeps | apply ccWrite_keeps | (refine .w ?_ rfl rfl rfl rfl rfl rfl rfl rfl rfl rfl rfl le_rfl) | intro _ | dsimp only

theorem clusterResetComplete_keeps {s u : State} {a0} (h : Keeps s u) : Keeps s (clusterResetComplete a0 u) := by
  unfold clusterResetComplete
  iterate 20 all_goals try with_reducible first | assumption | split | apply rolesAssign_keeps | apply fwLoad_keeps | apply icAutostart_keeps | apply settleFlights_keeps | (refine .w ?_ rfl rfl rfl rfl rfl rfl rfl rfl rfl rfl rfl le_rfl) | intro _ | dsimp only

theorem coreLogicFault_keeps {s u : State} {a0} (h : Keeps s u) : Keeps s (coreLogicFault a0 u) := by
  unfold coreLogicFault
  iterate 20 all_goals try with_reducible first | assumption | split | apply coreFail_keeps | (refine .w ?_ rfl rfl rfl rfl rfl rfl rfl rfl rfl rfl rfl le_rfl) | intro _ | dsimp only

theorem coreQuery_keeps {s u : State} {a0} (h : Keeps s u) : Keeps s (coreQuery a0 u) := by
  unfold coreQuery
  iterate 20 all_goals try with_reducible first | assumption | split | apply query_keeps | (refine .w ?_ rfl rfl rfl rfl rfl rfl rfl rfl rfl rfl rfl le_rfl) | intro _ | dsimp only

theorem heartbeatMissed_keeps {s u : State} {a0} (h : Keeps s u) : Keeps s (heartbeatMissed a0 u) := by
  unfold heartbeatMissed
  iterate 20 all_goals try with_reducible first | assumption | split | apply coreFail_keeps | (refine .w ?_ rfl rfl rfl rfl rfl rfl rfl rfl rfl rfl rfl le_rfl) | intro _ | dsimp only

theorem icLoad_keeps {s u : State} {a0 a1 a2 a3 a4} (h : Keeps s u) : Keeps s (icLoad a0 a1 a2 a3 a4 u) := by
  unfold icLoad
  iterate 20 all_goals try with_reducible first | assumption | split | apply atornQ_keeps | apply ok_keeps | apply icInstall_keeps | apply reply_keeps | (refine .w ?_ rfl rfl rfl rfl rfl rfl rfl rfl rfl rfl rfl le_rfl) | intro _ | dsimp only

theorem icStart_keeps {s u : State} {a0 a1} (h : Keeps s u) : Keeps s (icStart a0 a1 u) := by
  unfold icStart
  iterate 20 all_goals try with_reducible first | assumption | split | apply atornQ_keeps | apply State.modCpu_keeps | apply ok_keeps | (refine .w ?_ rfl rfl rfl rfl rfl rfl rfl rfl rfl rfl rfl le_rfl) | intro _ | dsimp only

theorem icStop_keeps {s u : State} {a0} (h : Keeps s u) : Keeps s (icStop a0 u) := by
  unfold icStop
  iterate 20 all_goals try with_reducible first | assumption | split | apply atornQ_keeps | apply ok_keeps | apply icHalt_keeps | (refine .w ?_ rfl rfl rfl rfl rfl rfl rfl rfl rfl rfl rfl le_rfl) | intro _ | dsimp only

theorem icWatchdogExpiry_keeps {s u : State} (h : Keeps s u) : Keeps s (icWatchdogExpiry u) := by
  unfold icWatchdogExpiry
  iterate 20 all_goals try with_reducible first | assumption | split | apply icFaultNow_keeps | (refine .w ?_ rfl rfl rfl rfl rfl rfl rfl rfl rfl rfl rfl le_rfl) | intro _ | dsimp only

theorem icWindowMap_keeps {s u : State} {a0 a1 a2 a3 a4} (h : Keeps s u) : Keeps s (icWindowMap a0 a1 a2 a3 a4 u) := by
  unfold icWindowMap
  iterate 20 all_goals try with_reducible first | assumption | split | apply atornQ_keeps | apply mapAsk_keeps | apply setCommitted_keeps | (refine .w ?_ rfl rfl rfl rfl rfl rfl rfl rfl rfl rfl rfl le_rfl) | intro _ | dsimp only

theorem patrolBad_keeps {s u : State} {a0 a1 a2} (h : Keeps s u) : Keeps s (patrolBad a0 a1 a2 u) := by
  unfold patrolBad
  iterate 20 all_goals try with_reducible first | assumption | split | apply tcmBadMet_keeps | (refine .w ?_ rfl rfl rfl rfl rfl rfl rfl rfl rfl rfl rfl le_rfl) | intro _ | dsimp only

theorem tcmPatrol_keeps {s u : State} {a0 a1 a2 a3} (h : Keeps s u) : Keeps s (tcmPatrol a0 a1 a2 a3 u) := by
  unfold tcmPatrol
  iterate 20 all_goals try with_reducible first | assumption | split | apply patrolBad_keeps | apply tcmCorrected_keeps | (apply Keeps.foldl; intros) | (refine .w ?_ rfl rfl rfl rfl rfl rfl rfl rfl rfl rfl rfl le_rfl) | intro _ | dsimp only

end Sys2Proof.Laws
end

