-- ==== Sys2Proof/Laws/KeepsMailbox.lean ====
section
/-! SUPPORT. What the operations of Machine/Mailbox.lean leave as it is. -/

namespace Sys2Proof.Laws

open Sys2Proof Sys2Proof.Machine Sys2Proof.Safety

theorem blockEnd_keeps {s u : State} {a0} (h : Keeps s u) : Keeps s (blockEnd a0 u) := by
  unfold blockEnd
  iterate 20 all_goals try with_reducible first | assumption | split | apply ok_keeps | apply formatDone_keeps | apply xeLaneRetired_keeps | (refine .w ?_ rfl rfl rfl rfl rfl rfl rfl rfl rfl rfl rfl le_rfl) | intro _ | dsimp only

theorem dbReject_keeps {s u : State} {a0} (h : Keeps s u) : Keeps s (dbReject a0 u) := by
  unfold dbReject
  iterate 20 all_goals try with_reducible first | assumption | split | apply State.modMbox_keeps | (refine .w ?_ rfl rfl rfl rfl rfl rfl rfl rfl rfl rfl rfl le_rfl) | intro _ | dsimp only

theorem inAreaEnd_keeps {s u : State} {a0 a1 a2 a3} (h : Keeps s u) : Keeps s (inAreaEnd a0 a1 a2 a3 u) := by
  unfold inAreaEnd
  iterate 20 all_goals try with_reducible first | assumption | split | apply reply_keeps | apply State.modMbox_keeps | (refine .w ?_ rfl rfl rfl rfl rfl rfl rfl rfl rfl rfl rfl le_rfl) | intro _ | dsimp only

theorem icAreaWrite_keeps {s u : State} {a1 a2} (h : Keeps s u) : Keeps s (icAreaWrite u a1 a2) := by
  unfold icAreaWrite
  iterate 20 all_goals try with_reducible first | assumption | split | apply submit_keeps | (apply Keeps.foldl; intros) | (refine .w ?_ rfl rfl rfl rfl rfl rfl rfl rfl rfl rfl rfl le_rfl) | intro _ | dsimp only

theorem outAreaEnd_keeps {s u : State} {a0 a1 a2 a3} (h : Keeps s u) : Keeps s (outAreaEnd a0 a1 a2 a3 u) := by
  unfold outAreaEnd
  iterate 20 all_goals try with_reducible first | assumption | split | apply afterAccess_keeps | apply replyNow_keeps | apply icAreaWrite_keeps | (refine .w ?_ rfl rfl rfl rfl rfl rfl rfl rfl rfl rfl rfl le_rfl) | intro _ | dsimp only

theorem descArea_keeps {s u : State} {a0 a1 a2} (h : Keeps s u) : Keeps s (descArea a0 a1 a2 u) := by
  unfold descArea
  iterate 20 all_goals try with_reducible first | assumption | split | apply inAreaEnd_keeps | apply outAreaEnd_keeps | (refine .w ?_ rfl rfl rfl rfl rfl rfl rfl rfl rfl rfl rfl le_rfl) | intro _ | dsimp only

theorem winAccess_keeps {s u : State} {a0 a1 f2} (hf2 : ∀ v, Keeps s v → Keeps s (f2 v)) (h : Keeps s u) : Keeps s (winAccess a0 a1 f2 u) := by
  unfold winAccess
  iterate 20 all_goals try with_reducible first | assumption | split | apply hf2 | apply fnWrite_keeps | (refine .w ?_ rfl rfl rfl rfl rfl rfl rfl rfl rfl rfl rfl le_rfl) | intro _ | dsimp only

theorem senderAccess_keeps {s u : State} {a0 f1} (hf1 : ∀ v, Keeps s v → Keeps s (f1 v)) (h : Keeps s u) : Keeps s (senderAccess a0 f1 u) := by
  unfold senderAccess
  iterate 20 all_goals try with_reducible first | assumption | split | apply hf1 | apply winAccess_keeps | (refine .w ?_ rfl rfl rfl rfl rfl rfl rfl rfl rfl rfl rfl le_rfl) | intro _ | dsimp only

theorem doorbell_keeps {s u : State} {a0 a1 f2} (hf2 : ∀ v, Keeps s v → Keeps s (f2 v)) (h : Keeps s u) : Keeps s (doorbell a0 a1 f2 u) := by
  unfold doorbell
  iterate 20 all_goals try with_reducible first | assumption | split | apply hf2 | apply senderAccess_keeps | apply dbReject_keeps | (refine .w ?_ rfl rfl rfl rfl rfl rfl rfl rfl rfl rfl rfl le_rfl) | intro _ | dsimp only

theorem fwActivate_keeps {s u : State} {a0} (h : Keeps s u) : Keeps s (fwActivate a0 u) := by
  unfold fwActivate
  iterate 20 all_goals try with_reducible first | assumption | split | apply atornQ_keeps | apply rstAssert_keeps | (refine .w ?_ rfl rfl rfl rfl rfl rfl rfl rfl rfl rfl rfl le_rfl) | intro _ | dsimp only

theorem fwQuery_keeps {s u : State} {a0} (h : Keeps s u) : Keeps s (fwQuery a0 u) := by
  unfold fwQuery
  iterate 20 all_goals try with_reducible first | assumption | split | apply query_keeps | (refine .w ?_ rfl rfl rfl rfl rfl rfl rfl rfl rfl rfl rfl le_rfl) | intro _ | dsimp only

theorem slotErase_keeps {s u : State} {a0} (h : Keeps s u) : Keeps s (slotErase a0 u) := by
  unfold slotErase
  iterate 20 all_goals try with_reducible first | assumption | split | (refine .w ?_ rfl rfl rfl rfl rfl rfl rfl rfl rfl rfl rfl le_rfl) | (refine .m ?_ rfl rfl ?_ ?_ ?_ ?_ ?_ ?_ ?_ ?_ le_rfl) | exact id | exact fun _ => wf_nil _ | exact wf_set _ _ _ _ | exact wf_upd _ _ _ _ | exact wf_clear _ _ _ _ | exact fun h => wf_set _ _ _ _ (wf_set _ _ _ _ h) | intro _ | dsimp only

theorem fwUpdateBegin_keeps {s u : State} {a0 a1 a2} (h : Keeps s u) : Keeps s (fwUpdateBegin a0 a1 a2 u) := by
  unfold fwUpdateBegin
  iterate 20 all_goals try with_reducible first | assumption | split | apply atornQ_keeps | apply slotErase_keeps | (refine .w ?_ rfl rfl rfl rfl rfl rfl rfl rfl rfl rfl rfl le_rfl) | intro _ | dsimp only

theorem norWrite_keeps {s u : State} {a0 a1} (h : Keeps s u) : Keeps s (norWrite a0 a1 u) := by
  unfold norWrite
  iterate 20 all_goals try with_reducible first | assumption | split | (apply Keeps.foldl; intros) | (refine .w ?_ rfl rfl rfl rfl rfl rfl rfl rfl rfl rfl rfl le_rfl) | (refine .m ?_ rfl rfl ?_ ?_ ?_ ?_ ?_ ?_ ?_ ?_ le_rfl) | exact id | exact fun _ => wf_nil _ | exact wf_set _ _ _ _ | exact wf_upd _ _ _ _ | exact wf_clear _ _ _ _ | exact fun h => wf_set _ _ _ _ (wf_set _ _ _ _ h) | exact wf_foldl _ _ (fun t b ht => wf_set _ t _ _ ht) _ _ | exact fun h => wf_foldl _ _ (fun t b ht => wf_set _ t _ _ ht) _ _ (wf_clear _ _ _ _ h) | intro _ | dsimp only

theorem fwUpdateData_keeps {s u : State} {a0 a1 a2} (h : Keeps s u) : Keeps s (fwUpdateData a0 a1 a2 u) := by
  unfold fwUpdateData
  iterate 20 all_goals try with_reducible first | assumption | split | apply atornQ_keeps | apply ok_keeps | apply norWrite_keeps | (refine .w ?_ rfl rfl rfl rfl rfl rfl rfl rfl rfl rfl rfl le_rfl) | intro _ | dsimp only

theorem sessionClose_keeps {s u : State} (h : Keeps s u) : Keeps s (sessionClose u) := by
  unfold sessionClose
  iterate 20 all_goals try with_reducible first | assumption | split | (refine .w ?_ rfl rfl rfl rfl rfl rfl rfl rfl rfl rfl rfl le_rfl) | intro _ | dsimp only

theorem slotMark_keeps {s u : State} {a0 a1} (h : Keeps s u) : Keeps s (slotMark a0 a1 u) := by
  unfold slotMark
  iterate 20 all_goals try with_reducible first | assumption | split | (refine .w ?_ rfl rfl rfl rfl rfl rfl rfl rfl rfl rfl rfl le_rfl) | intro _ | dsimp only

theorem fwUpdateEnd_keeps {s u : State} {a0 a1} (h : Keeps s u) : Keeps s (fwUpdateEnd a0 a1 u) := by
  unfold fwUpdateEnd
  iterate 20 all_goals try with_reducible first | assumption | split | apply atornQ_keeps | apply reply_keeps | apply sessionClose_keeps | apply slotMark_keeps | apply ok_keeps | apply commit_keeps | (refine .w ?_ rfl rfl rfl rfl rfl rfl rfl rfl rfl rfl rfl le_rfl) | intro _ | dsimp only

theorem identify_keeps {s u : State} {a0} (h : Keeps s u) : Keeps s (identify a0 u) := by
  unfold identify
  iterate 20 all_goals try with_reducible first | assumption | split | apply query_keeps | (refine .w ?_ rfl rfl rfl rfl rfl rfl rfl rfl rfl rfl rfl le_rfl) | intro _ | dsimp only

theorem mbBindLockSet_keeps {s u : State} {a0} (h : Keeps s u) : Keeps s (mbBindLockSet a0 u) := by
  unfold mbBindLockSet
  iterate 20 all_goals try with_reducible first | assumption | split | (refine .w ?_ rfl rfl rfl rfl rfl rfl rfl rfl rfl rfl rfl le_rfl) | intro _ | dsimp only

theorem mbCtlReset_keeps {s u : State} {a0} (h : Keeps s u) : Keeps s (mbCtlReset a0 u) := by
  unfold mbCtlReset
  iterate 20 all_goals try with_reducible first | assumption | split | apply senderAccess_keeps | apply chanReset_keeps | (refine .w ?_ rfl rfl rfl rfl rfl rfl rfl rfl rfl rfl rfl le_rfl) | intro _ | dsimp only

theorem popNote_keeps2 {s u : State} {a} (h : Keeps s u) : Keeps s (popNote a u).2 := by
  unfold popNote
  iterate 20 all_goals try with_reducible first | assumption | dsimp only | split | apply State.modMbox_keeps | (refine .w ?_ rfl rfl rfl rfl rfl rfl rfl rfl rfl rfl rfl le_rfl)

theorem popNote_keeps {s u t : State} {a x} (e : popNote a u = (x, t)) (h : Keeps s u) : Keeps s t := by
  have k : Keeps s (popNote a u).2 := popNote_keeps2 h; rw [e] at k; exact k

theorem mbNotePop_keeps {s u : State} {a0 a1} (h : Keeps s u) : Keeps s (mbNotePop a0 a1 u) := by
  unfold mbNotePop
  iterate 20 all_goals try with_reducible first | assumption | split | refine popNote_keeps ‹_› ?_ | refine popNote_keeps2 ?_ | apply winAccess_keeps | apply emit_keeps | (refine .w ?_ rfl rfl rfl rfl rfl rfl rfl rfl rfl rfl rfl le_rfl) | intro _ | dsimp only

theorem lostClear_keeps {s u : State} {a0} (h : Keeps s u) : Keeps s (lostClear a0 u) := by
  unfold lostClear
  iterate 20 all_goals try with_reducible first | assumption | split | apply State.modMbox_keeps | (refine .w ?_ rfl rfl rfl rfl rfl rfl rfl rfl rfl rfl rfl le_rfl) | intro _ | dsimp only

theorem mbNoteStatRead_keeps {s u : State} {a0} (h : Keeps s u) : Keeps s (mbNoteStatRead a0 u) := by
  unfold mbNoteStatRead
  iterate 20 all_goals try with_reducible first | assumption | split | apply senderAccess_keeps | apply emit_keeps | apply lostClear_keeps | (refine .w ?_ rfl rfl rfl rfl rfl rfl rfl rfl rfl rfl rfl le_rfl) | intro _ | dsimp only

theorem mbQuery_keeps {s u : State} {a0 a1} (h : Keeps s u) : Keeps s (mbQuery a0 a1 u) := by
  unfold mbQuery
  iterate 20 all_goals try with_reducible first | assumption | split | apply atornQ_keeps | apply ok_keeps | (refine .w ?_ rfl rfl rfl rfl rfl rfl rfl rfl rfl rfl rfl le_rfl) | intro _ | dsimp only

theorem reqDb_keeps {s u : State} {a0 a1} (h : Keeps s u) : Keeps s (reqDb a0 a1 u) := by
  unfold reqDb
  iterate 20 all_goals try with_reducible first | assumption | split | apply State.modMbox_keeps | apply dbReject_keeps | (refine .w ?_ rfl rfl rfl rfl rfl rfl rfl rfl rfl rfl rfl le_rfl) | intro _ | dsimp only

theorem rplDb_keeps {s u : State} {a0 a1} (h : Keeps s u) : Keeps s (rplDb a0 a1 u) := by
  unfold rplDb
  iterate 20 all_goals try with_reducible first | assumption | split | apply State.modMbox_keeps | apply dbReject_keeps | (refine .w ?_ rfl rfl rfl rfl rfl rfl rfl rfl rfl rfl rfl le_rfl) | intro _ | dsimp only

theorem nop_keeps {s u : State} {a0} (h : Keeps s u) : Keeps s (nop a0 u) := by
  unfold nop
  iterate 20 all_goals try with_reducible first | assumption | split | apply query_keeps | (refine .w ?_ rfl rfl rfl rfl rfl rfl rfl rfl rfl rfl rfl le_rfl) | intro _ | dsimp only

theorem takeFrom.takeOn_keeps {s u : State} {a0 a2 a3 a4 f5} (hf5 : ∀ x0 x1 v, Keeps s v → Keeps s (f5 x0 x1 v)) (h : Keeps s u) : Keeps s (takeFrom.takeOn a0 u a2 a3 a4 f5) := by
  unfold takeFrom.takeOn
  iterate 20 all_goals try with_reducible first | assumption | split | apply hf5 | apply State.modMbox_keeps | apply count_keeps | (refine .w ?_ rfl rfl rfl rfl rfl rfl rfl rfl rfl rfl rfl le_rfl) | intro _ | dsimp only

theorem takeFrom_keeps {s u : State} {a0} (h : Keeps s u) : Keeps s (takeFrom a0 u) := by
  unfold takeFrom
  iterate 20 all_goals try with_reducible first | assumption | split | apply count_keeps | apply State.modMbox_keeps | apply replyWith_keeps | apply emptied_keeps | apply takeFrom.takeOn_keeps | (refine .w ?_ rfl rfl rfl rfl rfl rfl rfl rfl rfl rfl rfl le_rfl) | intro _ | dsimp only

theorem requestTaken_keeps {s u : State} (h : Keeps s u) : Keeps s (requestTaken u) := by
  unfold requestTaken
  iterate 20 all_goals try with_reducible first | assumption | split | apply takeFrom_keeps | (refine .w ?_ rfl rfl rfl rfl rfl rfl rfl rfl rfl rfl rfl le_rfl) | intro _ | dsimp only

theorem smbusDo_keeps {s u : State} {a0 f1} (hf1 : ∀ v, Keeps s v → Keeps s (f1 v)) (h : Keeps s u) : Keeps s (smbusDo a0 f1 u) := by
  unfold smbusDo
  iterate 20 all_goals try with_reducible first | assumption | split | apply hf1 | (refine .w ?_ rfl rfl rfl rfl rfl rfl rfl rfl rfl rfl rfl le_rfl) | intro _ | dsimp only

theorem smbusReset_keeps {s u : State} {a0} (h : Keeps s u) : Keeps s (smbusReset a0 u) := by
  unfold smbusReset
  iterate 20 all_goals try with_reducible first | assumption | split | apply chanReset_keeps | (refine .w ?_ rfl rfl rfl rfl rfl rfl rfl rfl rfl rfl rfl le_rfl) | intro _ | dsimp only

theorem smbusPop_keeps {s u : State} (h : Keeps s u) : Keeps s (smbusPop u) := by
  unfold smbusPop
  iterate 20 all_goals try with_reducible first | assumption | split | refine popNote_keeps ‹_› ?_ | refine popNote_keeps2 ?_ | apply emit_keeps | (refine .w ?_ rfl rfl rfl rfl rfl rfl rfl rfl rfl rfl rfl le_rfl) | intro _ | dsimp only

theorem smbusOther_keeps {s u : State} {a0} (h : Keeps s u) : Keeps s (smbusOther a0 u) := by
  unfold smbusOther
  iterate 20 all_goals try with_reducible first | assumption | split | apply emit_keeps | (refine .w ?_ rfl rfl rfl rfl rfl rfl rfl rfl rfl rfl rfl le_rfl) | intro _ | dsimp only

theorem smbusOffset_keeps {s u : State} {a0} (h : Keeps s u) : Keeps s (smbusOffset a0 u) := by
  unfold smbusOffset
  iterate 20 all_goals try with_reducible first | assumption | split | (refine .w ?_ rfl rfl rfl rfl rfl rfl rfl rfl rfl rfl rfl le_rfl) | intro _ | dsimp only

theorem smbusReply_keeps {s u : State} (h : Keeps s u) : Keeps s (smbusReply u) := by
  unfold smbusReply
  iterate 20 all_goals try with_reducible first | assumption | split | apply emit_keeps | (refine .w ?_ rfl rfl rfl rfl rfl rfl rfl rfl rfl rfl rfl le_rfl) | intro _ | dsimp only

theorem smbusSlotWrite_keeps {s u : State} {a0 a1} (h : Keeps s u) : Keeps s (smbusSlotWrite a0 a1 u) := by
  unfold smbusSlotWrite
  iterate 20 all_goals try with_reducible first | assumption | split | apply dbReject_keeps | apply State.modMbox_keeps | (refine .w ?_ rfl rfl rfl rfl rfl rfl rfl rfl rfl rfl rfl le_rfl) | intro _ | dsimp only

theorem smbusStatus_keeps {s u : State} (h : Keeps s u) : Keeps s (smbusStatus u) := by
  unfold smbusStatus
  iterate 20 all_goals try with_reducible first | assumption | split | apply emit_keeps | apply lostClear_keeps | (refine .w ?_ rfl rfl rfl rfl rfl rfl rfl rfl rfl rfl rfl le_rfl) | intro _ | dsimp only

end Sys2Proof.Laws
end

