-- ==== Sys2Proof/Laws/KeepsSecurity.lean ====
section
/-! SUPPORT. What the operations of Machine/Security.lean leave as it is. -/

namespace Sys2Proof.Laws

open Sys2Proof Sys2Proof.Machine Sys2Proof.Safety

theorem sweepOver_keeps {s u : State} (h : Keeps s u) : Keeps s (sweepOver u) := by
  unfold sweepOver
  iterate 20 all_goals try with_reducible first | assumption | split | apply boundRecord_keeps | (refine .w ?_ rfl rfl rfl rfl rfl rfl rfl rfl rfl rfl rfl le_rfl) | intro _ | dsimp only

theorem frontSwept_keeps {s u : State} (h : Keeps s u) : Keeps s (frontSwept u) := by
  unfold frontSwept
  iterate 20 all_goals try with_reducible first | assumption | split | apply sweepOver_keeps | (refine .w ?_ rfl rfl rfl rfl rfl rfl rfl rfl rfl rfl rfl le_rfl) | intro _ | dsimp only

theorem frontSweepStep_keeps {s u : State} {a0} (h : Keeps s u) : Keeps s (frontSweepStep a0 u) := by
  unfold frontSweepStep
  iterate 20 all_goals try with_reducible first | assumption | split | refine ftRead_keeps ‹_› ?_ | refine ftRead_keeps2 ?_ | apply frontSwept_keeps | apply count_keeps | (refine .w ?_ rfl rfl rfl rfl rfl rfl rfl rfl rfl rfl rfl le_rfl) | intro _ | dsimp only

theorem oldSaltErase_keeps {s u : State} (h : Keeps s u) : Keeps s (oldSaltErase u) := by
  unfold oldSaltErase
  iterate 20 all_goals try with_reducible first | assumption | split | apply commit_keeps | (refine .w ?_ rfl rfl rfl rfl rfl rfl rfl rfl rfl rfl rfl le_rfl) | intro _ | dsimp only

theorem mediaSweepComplete_keeps {s u : State} (h : Keeps s u) : Keeps s (mediaSweepComplete u) := by
  unfold mediaSweepComplete
  iterate 20 all_goals try with_reducible first | assumption | split | apply sweepOver_keeps | apply oldSaltErase_keeps | (refine .w ?_ rfl rfl rfl rfl rfl rfl rfl rfl rfl rfl rfl le_rfl) | intro _ | dsimp only

theorem mediaPassed_keeps {s u : State} (h : Keeps s u) : Keeps s (mediaPassed u) := by
  unfold mediaPassed
  iterate 20 all_goals try with_reducible first | assumption | split | apply remapWrite_keeps | apply bstWrite_keeps | apply checkpointAll_keeps | apply journalWrite_keeps | (refine .w ?_ rfl rfl rfl rfl rfl rfl rfl rfl rfl rfl rfl le_rfl) | intro _ | dsimp only

theorem mediaSweepStep_keeps {s u : State} (h : Keeps s u) : Keeps s (mediaSweepStep u) := by
  unfold mediaSweepStep
  iterate 20 all_goals try with_reducible first | assumption | split | apply mediaPassed_keeps | apply moveSlot_keeps | apply count_keeps | apply mediaLevels_keeps | apply boundRecord_keeps | (refine .w ?_ rfl rfl rfl rfl rfl rfl rfl rfl rfl rfl rfl le_rfl) | intro _ | dsimp only

theorem rekeyPause_keeps {s u : State} {a0 a1} (h : Keeps s u) : Keeps s (rekeyPause a0 a1 u) := by
  unfold rekeyPause
  iterate 20 all_goals try with_reducible first | assumption | split | apply atornQ_keeps | apply commit_keeps | (refine .w ?_ rfl rfl rfl rfl rfl rfl rfl rfl rfl rfl rfl le_rfl) | intro _ | dsimp only

theorem mediaSaltWrite_keeps {s u : State} {a0} (h : Keeps s u) : Keeps s (mediaSaltWrite a0 u) := by
  unfold mediaSaltWrite
  iterate 20 all_goals try with_reducible first | assumption | split | apply draw_keeps | apply commit_keeps | (refine .w ?_ rfl rfl rfl rfl rfl rfl rfl rfl rfl rfl rfl le_rfl) | intro _ | dsimp only

theorem rekeyStart_keeps {s u : State} {a0 a1} (h : Keeps s u) : Keeps s (rekeyStart a0 a1 u) := by
  unfold rekeyStart
  iterate 20 all_goals try with_reducible first | assumption | split | apply atornQ_keeps | apply commit_keeps | apply mediaSaltWrite_keeps | (refine .w ?_ rfl rfl rfl rfl rfl rfl rfl rfl rfl rfl rfl le_rfl) | intro _ | dsimp only

theorem secQuery_keeps {s u : State} {a0} (h : Keeps s u) : Keeps s (secQuery a0 u) := by
  unfold secQuery
  iterate 20 all_goals try with_reducible first | assumption | split | apply query_keeps | (refine .w ?_ rfl rfl rfl rfl rfl rfl rfl rfl rfl rfl rfl le_rfl) | intro _ | dsimp only

theorem rekeyBegin_keeps {s u : State} {a0 a1} (h : Keeps s u) : Keeps s (rekeyBegin a0 a1 u) := by
  unfold rekeyBegin
  iterate 20 all_goals try with_reducible first | assumption | split | apply ok_keeps | apply setCommitted_keeps | apply draw_keeps | (refine .w ?_ rfl rfl rfl rfl rfl rfl rfl rfl rfl rfl rfl le_rfl) | intro _ | dsimp only

end Sys2Proof.Laws
end

