-- ==== Sys2Proof/Laws/KeepsOptionStore.lean ====
section
/-! SUPPORT. What the operations of Machine/OptionStore.lean leave as it is. -/

namespace Sys2Proof.Laws

open Sys2Proof Sys2Proof.Machine Sys2Proof.Safety

theorem commitActed_keeps {s u : State} {a0} (h : Keeps s u) : Keeps s (commitActed a0 u) := by
  unfold commitActed
  iterate 20 all_goals try with_reducible first | assumption | split | apply ok_keeps | apply setCommitted_keeps | apply sealedRecord_keeps | apply openedNow_keeps | apply genListPump_keeps | apply sessionCommitted_keeps | apply unpaired_keeps | apply takeoverDone_keeps | apply lgRaised_keeps | apply rstAssert_keeps | apply downHalf_keeps | apply rekeyBegin_keeps | (refine .w ?_ rfl rfl rfl rfl rfl rfl rfl rfl rfl rfl rfl le_rfl) | intro _ | dsimp only

theorem page35_keeps {s u : State} (h : Keeps s u) : Keeps s (page35 u) := by
  unfold page35
  iterate 20 all_goals try with_reducible first | assumption | split | apply settle_keeps | apply emberBudget_keeps | (refine .w ?_ rfl rfl rfl rfl rfl rfl rfl rfl rfl rfl rfl le_rfl) | intro _ | dsimp only

theorem commitEnd_keeps {s u : State} (h : Keeps s u) : Keeps s (commitEnd u) := by
  unfold commitEnd
  iterate 20 all_goals try with_reducible first | assumption | split | apply commitActed_keeps | apply commitApply_keeps | apply commitStart_keeps | apply page35_keeps | (refine .w ?_ rfl rfl rfl rfl rfl rfl rfl rfl rfl rfl rfl le_rfl) | intro _ | dsimp only

theorem commitsUntil_keeps {s u : State} {a0 a1} (h : Keeps s u) : Keeps s (commitsUntil a0 a1 u) := by
  induction a1 generalizing u  with
  | zero => exact h
  | succ n ih =>
    unfold commitsUntil
    iterate 20 all_goals try with_reducible first | assumption | split | apply ih | apply commitEnd_keeps | (refine .w ?_ rfl rfl rfl rfl rfl rfl rfl rfl rfl rfl rfl le_rfl) | intro _ | dsimp only

theorem commitOfKind_keeps {s u : State} {a0} (h : Keeps s u) : Keeps s (commitOfKind a0 u) := by
  unfold commitOfKind
  iterate 20 all_goals try with_reducible first | assumption | split | apply commitsUntil_keeps | (refine .w ?_ rfl rfl rfl rfl rfl rfl rfl rfl rfl rfl rfl le_rfl) | intro _ | dsimp only

theorem damagedPage_keeps {s u : State} {a1} (h : Keeps s u) : Keeps s (damagedPage u a1) := by
  unfold damagedPage
  iterate 20 all_goals try with_reducible first | assumption | split | apply ledger_keeps | apply raise_keeps | (refine .w ?_ rfl rfl rfl rfl rfl rfl rfl rfl rfl rfl rfl le_rfl) | (refine .m ?_ rfl rfl ?_ ?_ ?_ ?_ ?_ ?_ ?_ ?_ le_rfl) | exact id | exact fun _ => wf_nil _ | exact wf_set _ _ _ _ | exact wf_upd _ _ _ _ | exact wf_clear _ _ _ _ | exact fun h => wf_set _ _ _ _ (wf_set _ _ _ _ h) | intro _ | dsimp only

theorem ledgerAge_keeps {s u : State} (h : Keeps s u) : Keeps s (ledgerAge u) := by
  unfold ledgerAge
  iterate 20 all_goals try with_reducible first | assumption | split | (refine .w ?_ rfl rfl rfl rfl rfl rfl rfl rfl rfl rfl rfl le_rfl) | intro _ | dsimp only

theorem lgHoles_keeps {s u : State} {a0} (h : Keeps s u) : Keeps s (lgHoles a0 u) := by
  unfold lgHoles
  iterate 20 all_goals try with_reducible first | assumption | split | (refine .w ?_ rfl rfl rfl rfl rfl rfl rfl rfl rfl rfl rfl le_rfl) | intro _ | dsimp only

theorem ledgerSetFails_keeps {s u : State} (h : Keeps s u) : Keeps s (ledgerSetFails u) := by
  unfold ledgerSetFails
  iterate 20 all_goals try with_reducible first | assumption | split | apply ashSet_keeps | apply ledger_keeps | apply commit_keeps | (refine .w ?_ rfl rfl rfl rfl rfl rfl rfl rfl rfl rfl rfl le_rfl) | intro _ | dsimp only

theorem ledgerProgram_keeps {s u : State} {a0 a1} (h : Keeps s u) : Keeps s (ledgerProgram a0 a1 u) := by
  unfold ledgerProgram
  iterate 20 all_goals try with_reducible first | assumption | split | apply lgProgrammed_keeps | apply lgHoles_keeps | apply ledgerSetFails_keeps | (refine .w ?_ rfl rfl rfl rfl rfl rfl rfl rfl rfl rfl rfl le_rfl) | intro _ | dsimp only

theorem ledgerQuery_keeps {s u : State} {a0} (h : Keeps s u) : Keeps s (ledgerQuery a0 u) := by
  unfold ledgerQuery
  iterate 20 all_goals try with_reducible first | assumption | split | apply query_keeps | (refine .w ?_ rfl rfl rfl rfl rfl rfl rfl rfl rfl rfl rfl le_rfl) | intro _ | dsimp only

theorem lgConflict_keeps {s u : State} {a1} (h : Keeps s u) : Keeps s (lgConflict u a1) := by
  unfold lgConflict
  iterate 20 all_goals try with_reducible first | assumption | split | apply ledger_keeps | apply raise_keeps | (refine .w ?_ rfl rfl rfl rfl rfl rfl rfl rfl rfl rfl rfl le_rfl) | intro _ | dsimp only

theorem ledgerRead_keeps {s u : State} {a0 a1 a2 a3} (h : Keeps s u) : Keeps s (ledgerRead a0 a1 a2 a3 u) := by
  unfold ledgerRead
  iterate 20 all_goals try with_reducible first | assumption | split | apply atornQ_keeps | apply ok_keeps | apply lgConflict_keeps | (apply Keeps.foldl; intros) | (refine .w ?_ rfl rfl rfl rfl rfl rfl rfl rfl rfl rfl rfl le_rfl) | intro _ | dsimp only

theorem optCore_keeps {s u : State} {a0 f1} (hf1 : ∀ v, Keeps s v → Keeps s (f1 v)) (h : Keeps s u) : Keeps s (optCore a0 f1 u) := by
  unfold optCore
  iterate 20 all_goals try with_reducible first | assumption | split | apply hf1 | (refine .w ?_ rfl rfl rfl rfl rfl rfl rfl rfl rfl rfl rfl le_rfl) | intro _ | dsimp only

theorem optByte_keeps {s u : State} {a0 a1} (h : Keeps s u) : Keeps s (optByte a0 a1 u) := by
  unfold optByte
  iterate 20 all_goals try with_reducible first | assumption | split | apply emit_keeps | (refine .w ?_ rfl rfl rfl rfl rfl rfl rfl rfl rfl rfl rfl le_rfl) | intro _ | dsimp only

theorem optCommit_keeps {s u : State} {a0} (h : Keeps s u) : Keeps s (optCommit a0 u) := by
  unfold optCommit
  iterate 20 all_goals try with_reducible first | assumption | split | apply commit_keeps | (refine .w ?_ rfl rfl rfl rfl rfl rfl rfl rfl rfl rfl rfl le_rfl) | intro _ | dsimp only

theorem optLoad_keeps {s u : State} {a0} (h : Keeps s u) : Keeps s (optLoad a0 u) := by
  unfold optLoad
  iterate 20 all_goals try with_reducible first | assumption | split | (refine .w ?_ rfl rfl rfl rfl rfl rfl rfl rfl rfl rfl rfl le_rfl) | intro _ | dsimp only

theorem failWrite_keeps {s u : State} {a0 a1} (h : Keeps s u) : Keeps s (failWrite a0 a1 u) := by
  unfold failWrite
  iterate 20 all_goals try with_reducible first | assumption | split | apply commit_keeps | (refine .w ?_ rfl rfl rfl rfl rfl rfl rfl rfl rfl rfl rfl le_rfl) | intro _ | dsimp only

theorem unlockFails_keeps {s u : State} {a0} (h : Keeps s u) : Keeps s (unlockFails a0 u) := by
  unfold unlockFails
  iterate 20 all_goals try with_reducible first | assumption | split | apply failWrite_keeps | (refine .w ?_ rfl rfl rfl rfl rfl rfl rfl rfl rfl rfl rfl le_rfl) | intro _ | dsimp only

theorem optPasswordSet_keeps {s u : State} {a0 a1 a2 a3 a4} (h : Keeps s u) : Keeps s (optPasswordSet a0 a1 a2 a3 a4 u) := by
  unfold optPasswordSet
  iterate 20 all_goals try with_reducible first | assumption | split | apply atornQ_keeps | apply commit_keeps | apply unlockFails_keeps | apply reply_keeps | apply failWrite_keeps | (refine .w ?_ rfl rfl rfl rfl rfl rfl rfl rfl rfl rfl rfl le_rfl) | intro _ | dsimp only

theorem optRead_keeps {s u : State} {a0 a1 a2} (h : Keeps s u) : Keeps s (optRead a0 a1 a2 u) := by
  unfold optRead
  iterate 20 all_goals try with_reducible first | assumption | split | apply atornQ_keeps | apply ok_keeps | (refine .w ?_ rfl rfl rfl rfl rfl rfl rfl rfl rfl rfl rfl le_rfl) | intro _ | dsimp only

theorem optUnlock_keeps {s u : State} {a0 a1 a2 a3} (h : Keeps s u) : Keeps s (optUnlock a0 a1 a2 a3 u) := by
  unfold optUnlock
  iterate 20 all_goals try with_reducible first | assumption | split | apply atornQ_keeps | apply failWrite_keeps | apply ok_keeps | apply State.modMbox_keeps | apply reply_keeps | apply unlockFails_keeps | (refine .w ?_ rfl rfl rfl rfl rfl rfl rfl rfl rfl rfl rfl le_rfl) | intro _ | dsimp only

theorem imageApply_keeps2 {s u : State} {a l n} (h : Keeps s u) : Keeps s (imageApply a l n u).2 := by
  induction l generalizing u n with
  | nil => exact h
  | cons e l ih =>
    unfold imageApply
    dsimp only
    split
    · repeat' split
      all_goals first | exact commit_keeps h | exact ih (commit_keeps h)
    · exact h

theorem imageApply_keeps {s u t : State} {a l n x} (e : imageApply a l n u = (x, t)) (h : Keeps s u) : Keeps s t := by
  have k : Keeps s (imageApply a l n u).2 := imageApply_keeps2 h; rw [e] at k; exact k

theorem optWrite_keeps {s u : State} {a0 a1 a2 a3 a4 a5 a6} (h : Keeps s u) : Keeps s (optWrite a0 a1 a2 a3 a4 a5 a6 u) := by
  unfold optWrite
  iterate 20 all_goals try with_reducible first | assumption | split | refine imageApply_keeps ‹_› ?_ | refine imageApply_keeps2 ?_ | apply atornQ_keeps | apply ok_keeps | apply commit_keeps | (refine .w ?_ rfl rfl rfl rfl rfl rfl rfl rfl rfl rfl rfl le_rfl) | intro _ | dsimp only

theorem weakPage_keeps {s u : State} {a1} (h : Keeps s u) : Keeps s (weakPage u a1) := by
  unfold weakPage
  iterate 20 all_goals try with_reducible first | assumption | split | apply commit_keeps | (refine .w ?_ rfl rfl rfl rfl rfl rfl rfl rfl rfl rfl rfl le_rfl) | intro _ | dsimp only

theorem optionPatrol_keeps {s u : State} {a0 a1} (h : Keeps s u) : Keeps s (optionPatrol a0 a1 u) := by
  unfold optionPatrol
  iterate 20 all_goals try with_reducible first | assumption | split | apply damagedPage_keeps | apply weakPage_keeps | (apply Keeps.foldl; intros) | (refine .w ?_ rfl rfl rfl rfl rfl rfl rfl rfl rfl rfl rfl le_rfl) | intro _ | dsimp only

theorem unlockClosureEnd_keeps {s u : State} {a0} (h : Keeps s u) : Keeps s (unlockClosureEnd a0 u) := by
  unfold unlockClosureEnd
  iterate 20 all_goals try with_reducible first | assumption | split | (refine .w ?_ rfl rfl rfl rfl rfl rfl rfl rfl rfl rfl rfl le_rfl) | intro _ | dsimp only

end Sys2Proof.Laws
end

