-- ==== Sys2Proof/Laws/KeepsPower.lean ====
section
/-! SUPPORT. What the operations of Machine/Power.lean leave as it is. -/

namespace Sys2Proof.Laws

open Sys2Proof Sys2Proof.Machine Sys2Proof.Safety

theorem enablesOff_keeps {s u : State} (h : Keeps s u) : Keeps s (enablesOff u) := by
  unfold enablesOff
  iterate 20 all_goals try with_reducible first | assumption | split | (refine .w ?_ rfl rfl rfl rfl rfl rfl rfl rfl rfl rfl rfl le_rfl) | intro _ | dsimp only

theorem railsOff_keeps {s u : State} (h : Keeps s u) : Keeps s (railsOff u) := by
  unfold railsOff
  iterate 20 all_goals try with_reducible first | assumption | split | apply durable_keeps | (refine .w ?_ rfl rfl rfl rfl rfl rfl rfl rfl rfl rfl rfl le_rfl) | intro _ | dsimp only

theorem shutdownNow_keeps {s u : State} {a0} (h : Keeps s u) : Keeps s (shutdownNow a0 u) := by
  unfold shutdownNow
  iterate 20 all_goals try with_reducible first | assumption | split | apply railsOff_keeps | (refine .w ?_ rfl rfl rfl rfl rfl rfl rfl rfl rfl rfl rfl le_rfl) | intro _ | dsimp only

theorem abortUp_keeps {s u : State} {a0 a1} (h : Keeps s u) : Keeps s (abortUp a0 a1 u) := by
  unfold abortUp
  iterate 20 all_goals try with_reducible first | assumption | split | apply snapTake_keeps | apply enablesOff_keeps | apply startFail_keeps | apply shutdownNow_keeps | (refine .w ?_ rfl rfl rfl rfl rfl rfl rfl rfl rfl rfl rfl le_rfl) | intro _ | dsimp only

theorem bindApply_keeps {s u : State} (h : Keeps s u) : Keeps s (bindApply u) := by
  unfold bindApply
  iterate 20 all_goals try with_reducible first | assumption | split | apply ledger_keeps | apply State.modMbox_keeps | (apply Keeps.foldl; intros) | (refine .w ?_ rfl rfl rfl rfl rfl rfl rfl rfl rfl rfl rfl le_rfl) | intro _ | dsimp only

theorem downEnd_keeps {s u : State} (h : Keeps s u) : Keeps s (downEnd u) := by
  unfold downEnd
  iterate 20 all_goals try with_reducible first | assumption | split | apply shutdownNow_keeps | (refine .w ?_ rfl rfl rfl rfl rfl rfl rfl rfl rfl rfl rfl le_rfl) | intro _ | dsimp only

theorem emberAbandon_keeps {s u : State} (h : Keeps s u) : Keeps s (emberAbandon u) := by
  unfold emberAbandon
  iterate 20 all_goals try with_reducible first | assumption | split | apply epochWithdraw_keeps | (refine .w ?_ rfl rfl rfl rfl rfl rfl rfl rfl rfl rfl rfl le_rfl) | intro _ | dsimp only

theorem emberOr_keeps {s u : State} {a0} (h : Keeps s u) : Keeps s (emberOr a0 u) := by
  unfold emberOr
  iterate 20 all_goals try with_reducible first | assumption | split | apply emberEnter_keeps | apply timedShutdown_keeps | (refine .w ?_ rfl rfl rfl rfl rfl rfl rfl rfl rfl rfl rfl le_rfl) | intro _ | dsimp only

theorem snapCommit_keeps {s u : State} (h : Keeps s u) : Keeps s (snapCommit u) := by
  unfold snapCommit
  iterate 20 all_goals try with_reducible first | assumption | split | apply fsCommit_keeps | (refine .w ?_ rfl rfl rfl rfl rfl rfl rfl rfl rfl rfl rfl le_rfl) | intro _ | dsimp only

theorem emergencyCut_keeps {s u : State} (h : Keeps s u) : Keeps s (emergencyCut u) := by
  unfold emergencyCut
  iterate 20 all_goals try with_reducible first | assumption | split | apply snapTake_keeps | apply snapCommit_keeps | apply emberAbandon_keeps | apply shutdownNow_keeps | (refine .w ?_ rfl rfl rfl rfl rfl rfl rfl rfl rfl rfl rfl le_rfl) | intro _ | dsimp only

theorem optLoadFields_keeps {s u : State} (h : Keeps s u) : Keeps s (optLoadFields u) := by
  unfold optLoadFields
  iterate 20 all_goals try with_reducible first | assumption | split | apply ledger_keeps | (apply Keeps.foldl; intros) | (refine .w ?_ rfl rfl rfl rfl rfl rfl rfl rfl rfl rfl rfl le_rfl) | intro _ | dsimp only

theorem optResolve_keeps {s u : State} (h : Keeps s u) : Keeps s (optResolve u) := by
  unfold optResolve
  iterate 20 all_goals try with_reducible first | assumption | split | apply commitApply_keeps | apply raise_keeps | (refine .w ?_ rfl rfl rfl rfl rfl rfl rfl rfl rfl rfl rfl le_rfl) | intro _ | dsimp only

theorem optMachine_keeps {s u : State} (h : Keeps s u) : Keeps s (optMachine u) := by
  unfold optMachine
  iterate 20 all_goals try with_reducible first | assumption | split | apply optLoadFields_keeps | apply optResolve_keeps | (refine .w ?_ rfl rfl rfl rfl rfl rfl rfl rfl rfl rfl rfl le_rfl) | intro _ | dsimp only

theorem programStart_keeps {s u : State} (h : Keeps s u) : Keeps s (programStart u) := by
  unfold programStart
  iterate 20 all_goals try with_reducible first | assumption | split | apply snapCommit_keeps | apply snapTake_keeps | (refine .w ?_ rfl rfl rfl rfl rfl rfl rfl rfl rfl rfl rfl le_rfl) | intro _ | dsimp only

theorem islandRelease_keeps {s u : State} (h : Keeps s u) : Keeps s (islandRelease u) := by
  unfold islandRelease
  iterate 20 all_goals try with_reducible first | assumption | split | apply optMachine_keeps | apply ledger_keeps | apply programStart_keeps | (refine .w ?_ rfl rfl rfl rfl rfl rfl rfl rfl rfl rfl rfl le_rfl) | intro _ | dsimp only

theorem ledgerBack_keeps {s u : State} (h : Keeps s u) : Keeps s (ledgerBack u) := by
  unfold ledgerBack
  iterate 20 all_goals try with_reducible first | assumption | split | apply lgResume_keeps | (refine .w ?_ rfl rfl rfl rfl rfl rfl rfl rfl rfl rfl rfl le_rfl) | intro _ | dsimp only

theorem saltDrawn_keeps {s u : State} (h : Keeps s u) : Keeps s (saltDrawn u) := by
  unfold saltDrawn
  iterate 20 all_goals try with_reducible first | assumption | split | apply draw_keeps | (refine .w ?_ rfl rfl rfl rfl rfl rfl rfl rfl rfl rfl rfl le_rfl) | intro _ | dsimp only

theorem strapRecords_keeps {s u : State} (h : Keeps s u) : Keeps s (strapRecords u) := by
  unfold strapRecords
  iterate 20 all_goals try with_reducible first | assumption | split | apply ledger_keeps | (refine .w ?_ rfl rfl rfl rfl rfl rfl rfl rfl rfl rfl rfl le_rfl) | intro _ | dsimp only

theorem strapsTaken_keeps {s u : State} (h : Keeps s u) : Keeps s (strapsTaken u) := by
  unfold strapsTaken
  iterate 20 all_goals try with_reducible first | assumption | split | (refine .w ?_ rfl rfl rfl rfl rfl rfl rfl rfl rfl rfl rfl le_rfl) | intro _ | dsimp only

theorem kindleBegin_keeps {s u : State} (h : Keeps s u) : Keeps s (kindleBegin u) := by
  unfold kindleBegin
  iterate 20 all_goals try with_reducible first | assumption | split | apply ledgerBack_keeps | apply optMachine_keeps | apply saltDrawn_keeps | apply strapRecords_keeps | apply strapsTaken_keeps | (refine .w ?_ rfl rfl rfl rfl rfl rfl rfl rfl rfl rfl rfl le_rfl) | intro _ | dsimp only

theorem intervalEnd_keeps {s u : State} (h : Keeps s u) : Keeps s (intervalEnd u) := by
  unfold intervalEnd
  iterate 20 all_goals try with_reducible first | assumption | split | apply islandRelease_keeps | apply kindleBegin_keeps | apply ok_keeps | apply setCommitted_keeps | (refine .w ?_ rfl rfl rfl rfl rfl rfl rfl rfl rfl rfl rfl le_rfl) | intro _ | dsimp only

theorem snapStage_keeps {s u : State} (h : Keeps s u) : Keeps s (snapStage u) := by
  unfold snapStage
  iterate 20 all_goals try with_reducible first | assumption | split | apply fsCommit_keeps | apply snapLedger_keeps | (refine .w ?_ rfl rfl rfl rfl rfl rfl rfl rfl rfl rfl rfl le_rfl) | intro _ | dsimp only

theorem portsApply_keeps {s u : State} (h : Keeps s u) : Keeps s (portsApply u) := by
  unfold portsApply
  iterate 20 all_goals try with_reducible first | assumption | split | apply State.modPort_keeps | apply ledger_keeps | (apply Keeps.foldl; intros) | (refine .w ?_ rfl rfl rfl rfl rfl rfl rfl rfl rfl rfl rfl le_rfl) | intro _ | dsimp only

theorem rekeyResume_keeps {s u : State} (h : Keeps s u) : Keeps s (rekeyResume u) := by
  unfold rekeyResume
  iterate 20 all_goals try with_reducible first | assumption | split | apply boundRecord_keeps | (refine .w ?_ rfl rfl rfl rfl rfl rfl rfl rfl rfl rfl rfl le_rfl) | intro _ | dsimp only

theorem optApply_keeps {s u : State} {a0} (h : Keeps s u) : Keeps s (optApply a0 u) := by
  unfold optApply
  iterate 20 all_goals try with_reducible first | assumption | split | apply bindApply_keeps | apply portsApply_keeps | apply lanesStart_keeps | apply rekeyResume_keeps | (refine .w ?_ rfl rfl rfl rfl rfl rfl rfl rfl rfl rfl rfl le_rfl) | intro _ | dsimp only

theorem populationRecord_keeps {s u : State} (h : Keeps s u) : Keeps s (populationRecord u) := by
  unfold populationRecord
  iterate 20 all_goals try with_reducible first | assumption | split | apply ledger_keeps | (refine .w ?_ rfl rfl rfl rfl rfl rfl rfl rfl rfl rfl rfl le_rfl) | intro _ | dsimp only

theorem startGo_keeps {s u : State} (h : Keeps s u) : Keeps s (startGo u) := by
  unfold startGo
  iterate 20 all_goals try with_reducible first | assumption | split | apply emberBudget_keeps | apply lgOnline_keeps | apply icAutostart_keeps | apply startBare_keeps | (refine .w ?_ rfl rfl rfl rfl rfl rfl rfl rfl rfl rfl rfl le_rfl) | intro _ | dsimp only

theorem kindleRun_keeps {s u : State} (h : Keeps s u) : Keeps s (kindleRun u) := by
  unfold kindleRun
  iterate 20 all_goals try with_reducible first | assumption | split | apply rolesAssign_keeps | apply fwLoad_keeps | apply startFail_keeps | apply snapStage_keeps | apply recoveryEnter_keeps | apply optApply_keeps | apply populationRecord_keeps | apply startGo_keeps | (refine .w ?_ rfl rfl rfl rfl rfl rfl rfl rfl rfl rfl rfl le_rfl) | intro _ | dsimp only

theorem pllSettle_keeps {s u : State} (h : Keeps s u) : Keeps s (pllSettle u) := by
  unfold pllSettle
  iterate 20 all_goals try with_reducible first | assumption | split | apply kindleRun_keeps | (refine .w ?_ rfl rfl rfl rfl rfl rfl rfl rfl rfl rfl rfl le_rfl) | intro _ | dsimp only

theorem quiesceNow_keeps {s u : State} (h : Keeps s u) : Keeps s (quiesceNow u) := by
  unfold quiesceNow
  iterate 20 all_goals try with_reducible first | assumption | split | apply quiesceEnd_keeps | apply draw_keeps | apply setWaits_keeps | (refine .w ?_ rfl rfl rfl rfl rfl rfl rfl rfl rfl rfl rfl le_rfl) | intro _ | dsimp only

theorem railFault_keeps {s u : State} {a0 a1} (h : Keeps s u) : Keeps s (railFault a0 a1 u) := by
  unfold railFault
  iterate 20 all_goals try with_reducible first | assumption | split | apply snapTake_keeps | apply snapLedger_keeps | apply emberOr_keeps | apply timedShutdown_keeps | apply emberAbandon_keeps | apply emberEnter_keeps | apply quiesceNow_keeps | (refine .w ?_ rfl rfl rfl rfl rfl rfl rfl rfl rfl rfl rfl le_rfl) | intro _ | dsimp only

theorem railLostDown_keeps {s u : State} {a0} (h : Keeps s u) : Keeps s (railLostDown a0 u) := by
  unfold railLostDown
  iterate 20 all_goals try with_reducible first | assumption | split | apply snapTake_keeps | apply snapCommit_keeps | apply downEnd_keeps | (refine .w ?_ rfl rfl rfl rfl rfl rfl rfl rfl rfl rfl rfl le_rfl) | intro _ | dsimp only

theorem rstRelease_keeps {s u : State} {a0} (h : Keeps s u) : Keeps s (rstRelease a0 u) := by
  unfold rstRelease
  iterate 20 all_goals try with_reducible first | assumption | split | apply intervalEnd_keeps | (refine .w ?_ rfl rfl rfl rfl rfl rfl rfl rfl rfl rfl rfl le_rfl) | intro _ | dsimp only

theorem thermalTrip_keeps {s u : State} (h : Keeps s u) : Keeps s (thermalTrip u) := by
  unfold thermalTrip
  iterate 20 all_goals try with_reducible first | assumption | split | apply snapTake_keeps | apply snapCommit_keeps | apply enablesOff_keeps | apply shutdownNow_keeps | apply emberOr_keeps | apply timedShutdown_keeps | (refine .w ?_ rfl rfl rfl rfl rfl rfl rfl rfl rfl rfl rfl le_rfl) | intro _ | dsimp only

end Sys2Proof.Laws
end

