-- ==== Sys2Proof/Laws/KeepsReset.lean ====
section
/-! SUPPORT. What the operations of Machine/Reset.lean leave as it is. -/

namespace Sys2Proof.Laws

open Sys2Proof Sys2Proof.Machine Sys2Proof.Safety

theorem budgetExceeded_keeps {s u : State} (h : Keeps s u) : Keeps s (budgetExceeded u) := by
  unfold budgetExceeded
  iterate 20 all_goals try with_reducible first | assumption | split | apply abortUp_keeps | apply snapTake_keeps | apply downEnd_keeps | apply snapCommit_keeps | (refine .w ?_ rfl rfl rfl rfl rfl rfl rfl rfl rfl rfl rfl le_rfl) | intro _ | dsimp only

theorem seqNext_keeps {s u : State} (h : Keeps s u) : Keeps s (seqNext u) := by
  unfold seqNext
  iterate 20 all_goals try with_reducible first | assumption | split | (refine .w ?_ rfl rfl rfl rfl rfl rfl rfl rfl rfl rfl rfl le_rfl) | intro _ | dsimp only

theorem checkPass_keeps {s u : State} (h : Keeps s u) : Keeps s (checkPass u) := by
  unfold checkPass
  iterate 20 all_goals try with_reducible first | assumption | split | apply seqNext_keeps | (refine .w ?_ rfl rfl rfl rfl rfl rfl rfl rfl rfl rfl rfl le_rfl) | intro _ | dsimp only

theorem checkRetry_keeps {s u : State} {a0} (h : Keeps s u) : Keeps s (checkRetry a0 u) := by
  unfold checkRetry
  iterate 20 all_goals try with_reducible first | assumption | split | apply abortUp_keeps | (refine .w ?_ rfl rfl rfl rfl rfl rfl rfl rfl rfl rfl rfl le_rfl) | intro _ | dsimp only

theorem checkTimeout_keeps {s u : State} (h : Keeps s u) : Keeps s (checkTimeout u) := by
  unfold checkTimeout
  iterate 20 all_goals try with_reducible first | assumption | split | apply abortUp_keeps | apply seqNext_keeps | (refine .w ?_ rfl rfl rfl rfl rfl rfl rfl rfl rfl rfl rfl le_rfl) | intro _ | dsimp only

theorem commandReleased_keeps {s u : State} {a0} (h : Keeps s u) : Keeps s (commandReleased a0 u) := by
  unfold commandReleased
  iterate 20 all_goals try with_reducible first | assumption | split | apply rstRelease_keeps | (refine .w ?_ rfl rfl rfl rfl rfl rfl rfl rfl rfl rfl rfl le_rfl) | intro _ | dsimp only

theorem comparators_keeps {s u : State} {a0} (h : Keeps s u) : Keeps s (comparators a0 u) := by
  unfold comparators
  iterate 20 all_goals try with_reducible first | assumption | split | apply emergencyCut_keeps | apply thermalTrip_keeps | apply programStart_keeps | (apply Keeps.foldl; intros) | (refine .w ?_ rfl rfl rfl rfl rfl rfl rfl rfl rfl rfl rfl le_rfl) | intro _ | dsimp only

theorem deviceReset_keeps {s u : State} {a0 a1 a2 a3} (h : Keeps s u) : Keeps s (deviceReset a0 a1 a2 a3 u) := by
  unfold deviceReset
  iterate 20 all_goals try with_reducible first | assumption | split | apply atornQ_keeps | apply fsCommit_keeps | apply rstAssert_keeps | apply ok_keeps | apply setCommitted_keeps | (refine .w ?_ rfl rfl rfl rfl rfl rfl rfl rfl rfl rfl rfl le_rfl) | intro _ | dsimp only

theorem entryLimit_keeps {s u : State} (h : Keeps s u) : Keeps s (entryLimit u) := by
  unfold entryLimit
  iterate 20 all_goals try with_reducible first | assumption | split | apply startFail_keeps | (refine .w ?_ rfl rfl rfl rfl rfl rfl rfl rfl rfl rfl rfl le_rfl) | intro _ | dsimp only

theorem railWarning_keeps {s u : State} {a0} (h : Keeps s u) : Keeps s (railWarning a0 u) := by
  unfold railWarning
  iterate 20 all_goals try with_reducible first | assumption | split | apply raiseTo_keeps | (refine .w ?_ rfl rfl rfl rfl rfl rfl rfl rfl rfl rfl rfl le_rfl) | intro _ | dsimp only

theorem pgBad_keeps {s u : State} {a0} (h : Keeps s u) : Keeps s (pgBad a0 u) := by
  unfold pgBad
  iterate 20 all_goals try with_reducible first | assumption | split | apply abortUp_keeps | apply railFault_keeps | apply railWarning_keeps | apply railLostDown_keeps | apply checkPass_keeps | (refine .w ?_ rfl rfl rfl rfl rfl rfl rfl rfl rfl rfl rfl le_rfl) | intro _ | dsimp only

theorem pgGlitch_keeps {s u : State} {a0} (h : Keeps s u) : Keeps s (pgGlitch a0 u) := by
  unfold pgGlitch
  iterate 20 all_goals try with_reducible first | assumption | split | apply count_keeps | apply railWarning_keeps | apply railFault_keeps | (refine .w ?_ rfl rfl rfl rfl rfl rfl rfl rfl rfl rfl rfl le_rfl) | intro _ | dsimp only

theorem pgGood_keeps {s u : State} {a0} (h : Keeps s u) : Keeps s (pgGood a0 u) := by
  unfold pgGood
  iterate 20 all_goals try with_reducible first | assumption | split | apply returnTry_keeps | apply checkPass_keeps | (refine .w ?_ rfl rfl rfl rfl rfl rfl rfl rfl rfl rfl rfl le_rfl) | intro _ | dsimp only

theorem pllLost_keeps {s u : State} {a0} (h : Keeps s u) : Keeps s (pllLost a0 u) := by
  unfold pllLost
  iterate 20 all_goals try with_reducible first | assumption | split | apply raise_keeps | apply State.modPort_keeps | apply portPulse_keeps | apply portSilent_keeps | (refine .w ?_ rfl rfl rfl rfl rfl rfl rfl rfl rfl rfl rfl le_rfl) | intro _ | dsimp only

theorem pllTimeout_keeps {s u : State} {a0} (h : Keeps s u) : Keeps s (pllTimeout a0 u) := by
  unfold pllTimeout
  iterate 20 all_goals try with_reducible first | assumption | split | apply startFail_keeps | apply pllSettle_keeps | apply raise_keeps | (refine .w ?_ rfl rfl rfl rfl rfl rfl rfl rfl rfl rfl rfl le_rfl) | intro _ | dsimp only

theorem pllLocked_keeps {s u : State} {a0} (h : Keeps s u) : Keeps s (pllLocked a0 u) := by
  unfold pllLocked
  iterate 20 all_goals try with_reducible first | assumption | split | apply pllSettle_keeps | (refine .w ?_ rfl rfl rfl rfl rfl rfl rfl rfl rfl rfl rfl le_rfl) | intro _ | dsimp only

theorem pllRelocked_keeps {s u : State} {a0 a1} (h : Keeps s u) : Keeps s (pllRelocked a0 a1 u) := by
  unfold pllRelocked
  iterate 20 all_goals try with_reducible first | assumption | split | apply count_keeps | apply State.modPort_keeps | apply afterAccess_keeps | apply settle_keeps | apply candidate_keeps | (apply Keeps.foldl; intros) | (refine .w ?_ rfl rfl rfl rfl rfl rfl rfl rfl rfl rfl rfl le_rfl) | intro _ | dsimp only

theorem porDetected_keeps {s u : State} (h : Keeps s u) : Keeps s (porDetected u) := by
  unfold porDetected
  iterate 20 all_goals try with_reducible first | assumption | split | apply rstAssert_keeps | (refine .w ?_ rfl rfl rfl rfl rfl rfl rfl rfl rfl rfl rfl le_rfl) | intro _ | dsimp only

theorem portReset_keeps {s u : State} {a0} (h : Keeps s u) : Keeps s (portReset a0 u) := by
  unfold portReset
  iterate 20 all_goals try with_reducible first | assumption | split | apply portPulse_keeps | (refine .w ?_ rfl rfl rfl rfl rfl rfl rfl rfl rfl rfl rfl le_rfl) | intro _ | dsimp only

theorem powerQuery_keeps {s u : State} {a0} (h : Keeps s u) : Keeps s (powerQuery a0 u) := by
  unfold powerQuery
  iterate 20 all_goals try with_reducible first | assumption | split | apply query_keeps | (refine .w ?_ rfl rfl rfl rfl rfl rfl rfl rfl rfl rfl rfl le_rfl) | intro _ | dsimp only

theorem powerUpRetry_keeps {s u : State} (h : Keeps s u) : Keeps s (powerUpRetry u) := by
  unfold powerUpRetry
  iterate 20 all_goals try with_reducible first | assumption | split | apply programStart_keeps | (refine .w ?_ rfl rfl rfl rfl rfl rfl rfl rfl rfl rfl rfl le_rfl) | intro _ | dsimp only

theorem railMeasured_keeps {s u : State} {a0} (h : Keeps s u) : Keeps s (railMeasured a0 u) := by
  unfold railMeasured
  iterate 20 all_goals try with_reducible first | assumption | split | (apply Keeps.foldl; intros) | (refine .w ?_ rfl rfl rfl rfl rfl rfl rfl rfl rfl rfl rfl le_rfl) | intro _ | dsimp only

theorem resetNAccepted_keeps {s u : State} (h : Keeps s u) : Keeps s (resetNAccepted u) := by
  unfold resetNAccepted
  iterate 20 all_goals try with_reducible first | assumption | split | apply rstAssert_keeps | (refine .w ?_ rfl rfl rfl rfl rfl rfl rfl rfl rfl rfl rfl le_rfl) | intro _ | dsimp only

theorem resetNReleased_keeps {s u : State} (h : Keeps s u) : Keeps s (resetNReleased u) := by
  unfold resetNReleased
  iterate 20 all_goals try with_reducible first | assumption | split | apply rstRelease_keeps | (refine .w ?_ rfl rfl rfl rfl rfl rfl rfl rfl rfl rfl rfl le_rfl) | intro _ | dsimp only

theorem restart_keeps {s u : State} (h : Keeps s u) : Keeps s (restart u) := by
  unfold restart
  iterate 20 all_goals try with_reducible first | assumption | split | apply rstAssert_keeps | apply rstRelease_keeps | (refine .w ?_ rfl rfl rfl rfl rfl rfl rfl rfl rfl rfl rfl le_rfl) | intro _ | dsimp only

theorem rngFails_keeps {s u : State} (h : Keeps s u) : Keeps s (rngFails u) := by
  unfold rngFails
  iterate 20 all_goals try with_reducible first | assumption | split | (refine .w ?_ rfl rfl rfl rfl rfl rfl rfl rfl rfl rfl rfl le_rfl) | intro _ | dsimp only

theorem seqCheck_keeps {s u : State} (h : Keeps s u) : Keeps s (seqCheck u) := by
  unfold seqCheck
  iterate 20 all_goals try with_reducible first | assumption | split | apply checkPass_keeps | (refine .w ?_ rfl rfl rfl rfl rfl rfl rfl rfl rfl rfl rfl le_rfl) | intro _ | dsimp only

theorem seqDisable_keeps {s u : State} (h : Keeps s u) : Keeps s (seqDisable u) := by
  unfold seqDisable
  iterate 20 all_goals try with_reducible first | assumption | split | apply seqNext_keeps | (refine .w ?_ rfl rfl rfl rfl rfl rfl rfl rfl rfl rfl rfl le_rfl) | intro _ | dsimp only

theorem seqEnable_keeps {s u : State} (h : Keeps s u) : Keeps s (seqEnable u) := by
  unfold seqEnable
  iterate 20 all_goals try with_reducible first | assumption | split | apply seqNext_keeps | (refine .w ?_ rfl rfl rfl rfl rfl rfl rfl rfl rfl rfl rfl le_rfl) | intro _ | dsimp only

theorem seqEnd_keeps {s u : State} (h : Keeps s u) : Keeps s (seqEnd u) := by
  unfold seqEnd
  iterate 20 all_goals try with_reducible first | assumption | split | apply kindleBegin_keeps | apply downEnd_keeps | (refine .w ?_ rfl rfl rfl rfl rfl rfl rfl rfl rfl rfl rfl le_rfl) | intro _ | dsimp only

theorem seqJump_keeps {s u : State} (h : Keeps s u) : Keeps s (seqJump u) := by
  unfold seqJump
  iterate 20 all_goals try with_reducible first | assumption | split | apply seqNext_keeps | (refine .w ?_ rfl rfl rfl rfl rfl rfl rfl rfl rfl rfl rfl le_rfl) | intro _ | dsimp only

theorem seqWait_keeps {s u : State} (h : Keeps s u) : Keeps s (seqWait u) := by
  unfold seqWait
  iterate 20 all_goals try with_reducible first | assumption | split | (refine .w ?_ rfl rfl rfl rfl rfl rfl rfl rfl rfl rfl rfl le_rfl) | intro _ | dsimp only

theorem seqWaitEnd_keeps {s u : State} (h : Keeps s u) : Keeps s (seqWaitEnd u) := by
  unfold seqWaitEnd
  iterate 20 all_goals try with_reducible first | assumption | split | apply seqNext_keeps | (refine .w ?_ rfl rfl rfl rfl rfl rfl rfl rfl rfl rfl rfl le_rfl) | intro _ | dsimp only

theorem startComplete_keeps {s u : State} (h : Keeps s u) : Keeps s (startComplete u) := by
  unfold startComplete
  iterate 20 all_goals try with_reducible first | assumption | split | apply fsCommit_keeps | (refine .w ?_ rfl rfl rfl rfl rfl rfl rfl rfl rfl rfl rfl le_rfl) | intro _ | dsimp only

theorem thMaxSeenWrite_keeps {s u : State} (h : Keeps s u) : Keeps s (thMaxSeenWrite u) := by
  unfold thMaxSeenWrite
  iterate 20 all_goals try with_reducible first | assumption | split | (refine .w ?_ rfl rfl rfl rfl rfl rfl rfl rfl rfl rfl rfl le_rfl) | intro _ | dsimp only

theorem thermalQuery_keeps {s u : State} {a0} (h : Keeps s u) : Keeps s (thermalQuery a0 u) := by
  unfold thermalQuery
  iterate 20 all_goals try with_reducible first | assumption | split | apply query_keeps | (refine .w ?_ rfl rfl rfl rfl rfl rfl rfl rfl rfl rfl rfl le_rfl) | intro _ | dsimp only

theorem sensorFails_keeps {s u : State} {a0} (h : Keeps s u) : Keeps s (sensorFails a0 u) := by
  unfold sensorFails
  iterate 20 all_goals try with_reducible first | assumption | split | apply raise_keeps | (refine .w ?_ rfl rfl rfl rfl rfl rfl rfl rfl rfl rfl rfl le_rfl) | intro _ | dsimp only

theorem pauseSet_keeps {s u : State} {a0} (h : Keeps s u) : Keeps s (pauseSet a0 u) := by
  unfold pauseSet
  iterate 20 all_goals try with_reducible first | assumption | split | apply afterAccess_keeps | apply settle_keeps | apply ledger_keeps | (refine .w ?_ rfl rfl rfl rfl rfl rfl rfl rfl rfl rfl rfl le_rfl) | intro _ | dsimp only

theorem readingsSet_keeps {s u : State} {a0} (h : Keeps s u) : Keeps s (readingsSet a0 u) := by
  unfold readingsSet
  iterate 20 all_goals try with_reducible first | assumption | split | apply intCauseAll_keeps | apply raise_keeps | apply ledger_keeps | apply cxlLog_keeps | apply pauseSet_keeps | (apply Keeps.foldl; intros) | (refine .w ?_ rfl rfl rfl rfl rfl rfl rfl rfl rfl rfl rfl le_rfl) | intro _ | dsimp only

theorem thermalSample_keeps {s u : State} {a0 a1} (h : Keeps s u) : Keeps s (thermalSample a0 a1 u) := by
  unfold thermalSample
  iterate 20 all_goals try with_reducible first | assumption | split | apply sensorFails_keeps | apply comparators_keeps | apply refreshSeen_keeps | apply readingsSet_keeps | (apply Keeps.foldl; intros) | (refine .w ?_ rfl rfl rfl rfl rfl rfl rfl rfl rfl rfl rfl le_rfl) | intro _ | dsimp only

theorem phaseEnd_keeps {s u : State} (h : Keeps s u) : Keeps s (phaseEnd u) := by
  unfold phaseEnd
  iterate 20 all_goals try with_reducible first | assumption | split | apply afterAccess_keeps | apply settle_keeps | (refine .w ?_ rfl rfl rfl rfl rfl rfl rfl rfl rfl rfl rfl le_rfl) | intro _ | dsimp only

end Sys2Proof.Laws
end

