-- ==== Sys2Proof/Laws/KeepsObserve.lean ====
section
/-! SUPPORT. What the operations of Machine/Observe.lean leave as it is. -/

namespace Sys2Proof.Laws

open Sys2Proof Sys2Proof.Machine Sys2Proof.Safety

theorem dumpComplete_keeps {s u : State} (h : Keeps s u) : Keeps s (dumpComplete u) := by
  unfold dumpComplete
  iterate 20 all_goals try with_reducible first | assumption | split | (refine .w ?_ rfl rfl rfl rfl rfl rfl rfl rfl rfl rfl rfl le_rfl) | intro _ | dsimp only

theorem pmonSnap_keeps {s u : State} (h : Keeps s u) : Keeps s (pmonSnap u) := by
  unfold pmonSnap
  iterate 20 all_goals try with_reducible first | assumption | split | (refine .w ?_ rfl rfl rfl rfl rfl rfl rfl rfl rfl rfl rfl le_rfl) | intro _ | dsimp only

theorem dumpWrite_keeps {s u : State} {a0 a1 a2} (h : Keeps s u) : Keeps s (dumpWrite a0 a1 a2 u) := by
  unfold dumpWrite
  iterate 20 all_goals try with_reducible first | assumption | split | apply submit_keeps | (apply Keeps.foldl; intros) | (refine .w ?_ rfl rfl rfl rfl rfl rfl rfl rfl rfl rfl rfl le_rfl) | intro _ | dsimp only

theorem dumpRecord_keeps {s u : State} (h : Keeps s u) : Keeps s (dumpRecord u) := by
  unfold dumpRecord
  iterate 20 all_goals try with_reducible first | assumption | split | apply pmonSnap_keeps | apply emit_keeps | apply dumpWrite_keeps | (refine .w ?_ rfl rfl rfl rfl rfl rfl rfl rfl rfl rfl rfl le_rfl) | intro _ | dsimp only

theorem dumpDue_keeps {s u : State} (h : Keeps s u) : Keeps s (dumpDue u) := by
  unfold dumpDue
  iterate 20 all_goals try with_reducible first | assumption | split | apply raise_keeps | apply State.modPort_keeps | apply dumpRecord_keeps | (refine .w ?_ rfl rfl rfl rfl rfl rfl rfl rfl rfl rfl rfl le_rfl) | intro _ | dsimp only

theorem dumpTick_keeps {s u : State} (h : Keeps s u) : Keeps s (dumpTick u) := by
  unfold dumpTick
  iterate 20 all_goals try with_reducible first | assumption | split | apply dumpDue_keeps | (refine .w ?_ rfl rfl rfl rfl rfl rfl rfl rfl rfl rfl rfl le_rfl) | intro _ | dsimp only

theorem routeSet_keeps {s u : State} {a0 a1 a2 a4} (h : Keeps s u) : Keeps s (routeSet a0 a1 a2 u a4) := by
  unfold routeSet
  iterate 20 all_goals try with_reducible first | assumption | split | apply State.modMbox_keeps | apply State.modFn_keeps | (refine .w ?_ rfl rfl rfl rfl rfl rfl rfl rfl rfl rfl rfl le_rfl) | intro _ | dsimp only

theorem eventRoute_keeps {s u : State} {a0 a1 a2 a3} (h : Keeps s u) : Keeps s (eventRoute a0 a1 a2 a3 u) := by
  unfold eventRoute
  iterate 20 all_goals try with_reducible first | assumption | split | apply atornQ_keeps | apply routeSet_keeps | apply ok_keeps | apply setCommitted_keeps | (apply Keeps.foldl; intros) | (refine .w ?_ rfl rfl rfl rfl rfl rfl rfl rfl rfl rfl rfl le_rfl) | intro _ | dsimp only

theorem windowEnd_keeps {s u : State} {a0 a1} (h : Keeps s u) : Keeps s (windowEnd a0 a1 u) := by
  unfold windowEnd
  iterate 20 all_goals try with_reducible first | assumption | split | apply dumpTick_keeps | (apply Keeps.foldl; intros) | (refine .w ?_ rfl rfl rfl rfl rfl rfl rfl rfl rfl rfl rfl le_rfl) | intro _ | dsimp only

theorem glbIntEnWrite_keeps {s u : State} {a0 a1 a2} (h : Keeps s u) : Keeps s (glbIntEnWrite a0 a1 a2 u) := by
  unfold glbIntEnWrite
  iterate 20 all_goals try with_reducible first | assumption | split | apply fnWrite_keeps | apply State.modFn_keeps | apply fire_keeps | (refine .w ?_ rfl rfl rfl rfl rfl rfl rfl rfl rfl rfl rfl le_rfl) | intro _ | dsimp only

theorem pmonBwMaxWrite_keeps {s u : State} {a0 a1} (h : Keeps s u) : Keeps s (pmonBwMaxWrite a0 a1 u) := by
  unfold pmonBwMaxWrite
  iterate 20 all_goals try with_reducible first | assumption | split | (refine .w ?_ rfl rfl rfl rfl rfl rfl rfl rfl rfl rfl rfl le_rfl) | intro _ | dsimp only

theorem pmonSelect_keeps {s u : State} {a0 a1} (h : Keeps s u) : Keeps s (pmonSelect a0 a1 u) := by
  unfold pmonSelect
  iterate 20 all_goals try with_reducible first | assumption | split | (refine .w ?_ rfl rfl rfl rfl rfl rfl rfl rfl rfl rfl rfl le_rfl) | intro _ | dsimp only

theorem samplerBegin_keeps {s u : State} (h : Keeps s u) : Keeps s (samplerBegin u) := by
  unfold samplerBegin
  iterate 20 all_goals try with_reducible first | assumption | split | apply draw_keeps | (refine .w ?_ rfl rfl rfl rfl rfl rfl rfl rfl rfl rfl rfl le_rfl) | intro _ | dsimp only

theorem pmonConfig_keeps {s u : State} {a0 a1} (h : Keeps s u) : Keeps s (pmonConfig a0 a1 u) := by
  unfold pmonConfig
  iterate 20 all_goals try with_reducible first | assumption | split | apply atornQ_keeps | apply ok_keeps | apply setCommitted_keeps | apply pmonSelect_keeps | apply samplerBegin_keeps | (refine .w ?_ rfl rfl rfl rfl rfl rfl rfl rfl rfl rfl rfl le_rfl) | intro _ | dsimp only

theorem pmonClear_keeps {s u : State} (h : Keeps s u) : Keeps s (pmonClear u) := by
  unfold pmonClear
  iterate 20 all_goals try with_reducible first | assumption | split | (refine .w ?_ rfl rfl rfl rfl rfl rfl rfl rfl rfl rfl rfl le_rfl) | intro _ | dsimp only

theorem pmonDumpSet_keeps {s u : State} {a0 a1 a2 a3 a4} (h : Keeps s u) : Keeps s (pmonDumpSet a0 a1 a2 a3 a4 u) := by
  unfold pmonDumpSet
  iterate 20 all_goals try with_reducible first | assumption | split | apply atornQ_keeps | apply ok_keeps | apply setCommitted_keeps | (refine .w ?_ rfl rfl rfl rfl rfl rfl rfl rfl rfl rfl rfl le_rfl) | intro _ | dsimp only

theorem pmonRead_keeps {s u : State} {a0 a1 a2 a3} (h : Keeps s u) : Keeps s (pmonRead a0 a1 a2 a3 u) := by
  unfold pmonRead
  iterate 20 all_goals try with_reducible first | assumption | split | apply atornQ_keeps | apply pmonSnap_keeps | apply ok_keeps | (refine .w ?_ rfl rfl rfl rfl rfl rfl rfl rfl rfl rfl rfl le_rfl) | intro _ | dsimp only

theorem pmonSelWrite_keeps {s u : State} {a0 a1 a2} (h : Keeps s u) : Keeps s (pmonSelWrite a0 a1 a2 u) := by
  unfold pmonSelWrite
  iterate 20 all_goals try with_reducible first | assumption | split | apply pmonSelect_keeps | (refine .w ?_ rfl rfl rfl rfl rfl rfl rfl rfl rfl rfl rfl le_rfl) | intro _ | dsimp only

end Sys2Proof.Laws
end

