-- ==== Sys2Proof/Laws/KeepsRegisters.lean ====
section
/-! SUPPORT. What the operations of Machine/Registers.lean leave as it is. -/

namespace Sys2Proof.Laws

open Sys2Proof Sys2Proof.Machine Sys2Proof.Safety

theorem msixWrite_keeps {s u : State} {p f r l} (h : Keeps s u) : Keeps s (msixWrite p f r l u) := by
  induction l generalizing u r with
  | nil => exact h
  | cons b l ih =>
    unfold msixWrite
    exact ih (State.modFn_keeps h)

theorem splitWrite_keeps {s u : State} {a0 a1 f2} (hf2 : ∀ x0 x1 v, Keeps s v → Keeps s (f2 x0 x1 v)) (h : Keeps s u) : Keeps s (splitWrite a0 a1 f2 u) := by
  unfold splitWrite
  iterate 20 all_goals try with_reducible first | assumption | split | apply hf2 | (refine .w ?_ rfl rfl rfl rfl rfl rfl rfl rfl rfl rfl rfl le_rfl) | intro _ | dsimp only

theorem glbWrite_keeps {s u : State} {a0 a1 a2 a3} (h : Keeps s u) : Keeps s (glbWrite a0 a1 a2 a3 u) := by
  unfold glbWrite
  iterate 20 all_goals try with_reducible first | assumption | split | apply State.modFn_keeps | apply glbIntEnWrite_keeps | (refine .w ?_ rfl rfl rfl rfl rfl rfl rfl rfl rfl rfl rfl le_rfl) | intro _ | dsimp only

theorem slotPut_keeps {s u : State} {ch r l} (h : Keeps s u) : Keeps s (slotPut ch r l u) := by
  induction l generalizing u r with
  | nil => exact h
  | cons b l ih =>
    unfold slotPut
    dsimp only
    split
    · exact ih (State.modMbox_keeps h)
    · exact ih h

theorem winSpecial_keeps {s u t : State} {a b c d} (e : winSpecial a b c d u = some t) (h : Keeps s u) : Keeps s t := by
  unfold winSpecial at e
  repeat' split at e
  all_goals cases e
  all_goals first | exact slotPut_keeps h | skip
  all_goals first | exact reqDb_keeps h | exact rplDb_keeps h | exact dbReject_keeps h

theorem winSpecialIf_keeps {s u t : State} {p : Prop} [Decidable p] {a b c d}
    (e : (if p then winSpecial a b c d u else none) = some t) (h : Keeps s u) : Keeps s t := by
  split at e
  · exact winSpecial_keeps e h
  · cases e

theorem special_keeps {s v : State} {o : Option State} (ho : ∀ t, o = some t → Keeps s t) (hv : Keeps s v) :
    Keeps s (match o with
      | some t => t
      | none => v) := by
  cases o with
  | none => exact hv
  | some t => exact ho t rfl

theorem hfWrite_keeps {s u : State} {a0 a1} (h : Keeps s u) : Keeps s (hfWrite a0 a1 u) := by
  unfold hfWrite
  iterate 20 all_goals try with_reducible first | assumption | split | apply hfPaceWrite_keeps | (refine .w ?_ rfl rfl rfl rfl rfl rfl rfl rfl rfl rfl rfl le_rfl) | intro _ | dsimp only

theorem ftRawCtlWrite_keeps {s u : State} {a0} (h : Keeps s u) : Keeps s (ftRawCtlWrite a0 u) := by
  unfold ftRawCtlWrite
  iterate 20 all_goals try with_reducible first | assumption | split | apply ledger_keeps | apply rawOp_keeps | (refine .w ?_ rfl rfl rfl rfl rfl rfl rfl rfl rfl rfl rfl le_rfl) | intro _ | dsimp only

theorem ftWrite_keeps {s u : State} {a0 a1} (h : Keeps s u) : Keeps s (ftWrite a0 a1 u) := by
  unfold ftWrite
  iterate 20 all_goals try with_reducible first | assumption | split | apply ftRawCtlWrite_keeps | (refine .w ?_ rfl rfl rfl rfl rfl rfl rfl rfl rfl rfl rfl le_rfl) | intro _ | dsimp only

theorem teAgeWrite_keeps {s u : State} {a0} (h : Keeps s u) : Keeps s (teAgeWrite a0 u) := by
  unfold teAgeWrite
  iterate 20 all_goals try with_reducible first | assumption | split | (refine .w ?_ rfl rfl rfl rfl rfl rfl rfl rfl rfl rfl rfl le_rfl) | intro _ | dsimp only

theorem teLaCtlWrite_keeps {s u : State} {a0 a1} (h : Keeps s u) : Keeps s (teLaCtlWrite a0 a1 u) := by
  unfold teLaCtlWrite
  iterate 20 all_goals try with_reducible first | assumption | split | apply State.modLook_keeps | apply laInvalidate_keeps | (refine .w ?_ rfl rfl rfl rfl rfl rfl rfl rfl rfl rfl rfl le_rfl) | intro _ | dsimp only

theorem teWrite_keeps {s u : State} {a0 a1} (h : Keeps s u) : Keeps s (teWrite a0 a1 u) := by
  unfold teWrite
  iterate 20 all_goals try with_reducible first | assumption | split | apply teAgeWrite_keeps | apply teLaCtlWrite_keeps | (refine .w ?_ rfl rfl rfl rfl rfl rfl rfl rfl rfl rfl rfl le_rfl) | intro _ | dsimp only

theorem suWrite_keeps {s u : State} {a0 a1} (h : Keeps s u) : Keeps s (suWrite a0 a1 u) := by
  unfold suWrite
  iterate 20 all_goals try with_reducible first | assumption | split | apply State.modChan_keeps | (refine .w ?_ rfl rfl rfl rfl rfl rfl rfl rfl rfl rfl rfl le_rfl) | intro _ | dsimp only

theorem ccRegWrite_keeps {s u : State} {a0 a1 a2} (h : Keeps s u) : Keeps s (ccRegWrite a0 a1 a2 u) := by
  unfold ccRegWrite
  iterate 20 all_goals try with_reducible first | assumption | split | apply ccSterrInfoClear_keeps | apply ccWrite_keeps | apply ccHeartbeatWrite_keeps | apply coreOnlyWrite_keeps | apply ccIcKickWrite_keeps | (refine .w ?_ rfl rfl rfl rfl rfl rfl rfl rfl rfl rfl rfl le_rfl) | intro _ | dsimp only

theorem mbCtlWrite_keeps {s u : State} {a0 a1} (h : Keeps s u) : Keeps s (mbCtlWrite a0 a1 u) := by
  unfold mbCtlWrite
  iterate 20 all_goals try with_reducible first | assumption | split | apply State.modMbox_keeps | apply chanReset_keeps | (refine .w ?_ rfl rfl rfl rfl rfl rfl rfl rfl rfl rfl rfl le_rfl) | intro _ | dsimp only

theorem winWrite_keeps {s u : State} {a0 a1 a2} (h : Keeps s u) : Keeps s (winWrite a0 a1 a2 u) := by
  unfold winWrite
  iterate 20 all_goals try with_reducible first | assumption | split | apply reqDb_keeps | apply rplDb_keeps | apply mbCtlWrite_keeps | apply State.modMbox_keeps | (refine .w ?_ rfl rfl rfl rfl rfl rfl rfl rfl rfl rfl rfl le_rfl) | intro _ | dsimp only

theorem bindWrite_keeps {s u : State} {a0 a1} (h : Keeps s u) : Keeps s (bindWrite a0 a1 u) := by
  unfold bindWrite
  iterate 20 all_goals try with_reducible first | assumption | split | apply State.modMbox_keeps | (refine .w ?_ rfl rfl rfl rfl rfl rfl rfl rfl rfl rfl rfl le_rfl) | intro _ | dsimp only

theorem optCtlWrite_keeps {s u : State} {a0} (h : Keeps s u) : Keeps s (optCtlWrite a0 u) := by
  unfold optCtlWrite
  iterate 20 all_goals try with_reducible first | assumption | split | apply optCommit_keeps | apply optLoad_keeps | (refine .w ?_ rfl rfl rfl rfl rfl rfl rfl rfl rfl rfl rfl le_rfl) | intro _ | dsimp only

theorem optRegWrite_keeps {s u : State} {a0 a1 a2} (h : Keeps s u) : Keeps s (optRegWrite a0 a1 a2 u) := by
  unfold optRegWrite
  iterate 20 all_goals try with_reducible first | assumption | split | apply optCtlWrite_keeps | apply optByte_keeps | (refine .w ?_ rfl rfl rfl rfl rfl rfl rfl rfl rfl rfl rfl le_rfl) | intro _ | dsimp only

theorem rpmWrite_keeps {s u : State} {a0 a1} (h : Keeps s u) : Keeps s (rpmWrite a0 a1 u) := by
  unfold rpmWrite
  iterate 20 all_goals try with_reducible first | assumption | split | (refine .w ?_ rfl rfl rfl rfl rfl rfl rfl rfl rfl rfl rfl le_rfl) | intro _ | dsimp only

theorem tbCtlWrite_keeps {s u : State} {a0} (h : Keeps s u) : Keeps s (tbCtlWrite a0 u) := by
  unfold tbCtlWrite
  iterate 20 all_goals try with_reducible first | assumption | split | apply stepEnSet_keeps | apply stepEnClear_keeps | apply ppsEnSet_keeps | apply ppsEnClear_keeps | (refine .w ?_ rfl rfl rfl rfl rfl rfl rfl rfl rfl rfl rfl le_rfl) | intro _ | dsimp only

theorem tbWrite_keeps {s u : State} {a0 a1} (h : Keeps s u) : Keeps s (tbWrite a0 a1 u) := by
  unfold tbWrite
  iterate 20 all_goals try with_reducible first | assumption | split | apply tbCtlWrite_keeps | (refine .w ?_ rfl rfl rfl rfl rfl rfl rfl rfl rfl rfl rfl le_rfl) | intro _ | dsimp only

theorem pmonCtlWrite_keeps {s u : State} {a0} (h : Keeps s u) : Keeps s (pmonCtlWrite a0 u) := by
  unfold pmonCtlWrite
  iterate 20 all_goals try with_reducible first | assumption | split | apply pmonSnap_keeps | apply pmonClear_keeps | (refine .w ?_ rfl rfl rfl rfl rfl rfl rfl rfl rfl rfl rfl le_rfl) | intro _ | dsimp only

theorem pmonWrite_keeps {s u : State} {a0 a1} (h : Keeps s u) : Keeps s (pmonWrite a0 a1 u) := by
  unfold pmonWrite
  iterate 20 all_goals try with_reducible first | assumption | split | apply pmonSelWrite_keeps | apply pmonBwMaxWrite_keeps | apply pmonCtlWrite_keeps | apply samplerBegin_keeps | (refine .w ?_ rfl rfl rfl rfl rfl rfl rfl rfl rfl rfl rfl le_rfl) | intro _ | dsimp only

theorem blockWrite_keeps {s u : State} {a0 a1 a2 a3} (h : Keeps s u) : Keeps s (blockWrite a0 a1 a2 a3 u) := by
  unfold blockWrite
  iterate 20 all_goals try with_reducible first | assumption | split | apply regWrite_keeps | apply hfWrite_keeps | apply coreOnlyWrite_keeps | apply ftWrite_keeps | apply teWrite_keeps | apply suWrite_keeps | apply ccRegWrite_keeps | apply winWrite_keeps | apply bindWrite_keeps | apply optRegWrite_keeps | apply rpmWrite_keeps | apply thMaxSeenWrite_keeps | apply tbWrite_keeps | apply pmonWrite_keeps | (refine .w ?_ rfl rfl rfl rfl rfl rfl rfl rfl rfl rfl rfl le_rfl) | intro _ | dsimp only

theorem bar0Write_keeps {s u : State} {a0 a1 a2 a3 a4} (h : Keeps s u) : Keeps s (bar0Write a0 a1 a2 a3 a4 u) := by
  unfold bar0Write
  refine .ite h (.ite (logAer_keeps h) (.ite (firePending_keeps (msixWrite_keeps h)) (.ite (.ite
    (splitWrite_keeps (fun _ _ _ k => glbWrite_keeps k) h) (countAccErr_keeps h)) (.ite ?_ h))))
  dsimp only
  split
  · rename_i e
    cases hc : chanOf u (.fn a0 a1) with
    | none => simp [hc] at e
    | some ch => simp only [hc] at e; exact winSpecialIf_keeps e h
  · exact .ite (splitWrite_keeps (fun _ _ _ k => blockWrite_keeps k) h) (countAccErr_keeps h)

theorem coreRegWrite_keeps {s u : State} {a0 a1 a2 a3} (h : Keeps s u) : Keeps s (coreRegWrite a0 a1 a2 a3 u) := by
  unfold coreRegWrite
  iterate 20 all_goals try with_reducible first | assumption | split | refine winSpecial_keeps ‹_› ?_ | refine winSpecialIf_keeps ‹_› ?_ | apply splitWrite_keeps | apply blockWrite_keeps | (refine .w ?_ rfl rfl rfl rfl rfl rfl rfl rfl rfl rfl rfl le_rfl) | intro _ | dsimp only

theorem icPageReg_keeps {s u : State} {a0 a1} (h : Keeps s u) : Keeps s (icPageReg a0 a1 u) := by
  unfold icPageReg
  iterate 20 all_goals try with_reducible first | assumption | split | apply winWrite_keeps | apply ccIcKickWrite_keeps | apply ccSterrInfoClear_keeps | (refine .w ?_ rfl rfl rfl rfl rfl rfl rfl rfl rfl rfl rfl le_rfl) | intro _ | dsimp only

theorem icPageWrite_keeps {s u : State} {a0 a1 a2} (h : Keeps s u) : Keeps s (icPageWrite a0 a1 a2 u) := by
  unfold icPageWrite
  iterate 20 all_goals try with_reducible first | assumption | split | refine winSpecial_keeps ‹_› ?_ | refine winSpecialIf_keeps ‹_› ?_ | apply splitWrite_keeps | apply icPageReg_keeps | (refine .w ?_ rfl rfl rfl rfl rfl rfl rfl rfl rfl rfl rfl le_rfl) | intro _ | dsimp only

theorem registerWrite_keeps {s u : State} {a0 a1 a2 a3} (h : Keeps s u) : Keeps s (registerWrite a0 a1 a2 a3 u) := by
  unfold registerWrite
  iterate 20 all_goals try with_reducible first | assumption | split | apply bar0Write_keeps | apply coreRegWrite_keeps | apply icPageWrite_keeps | (refine .w ?_ rfl rfl rfl rfl rfl rfl rfl rfl rfl rfl rfl le_rfl) | intro _ | dsimp only

theorem regReadEff_keeps {s u : State} {a0 a1 a2} (h : Keeps s u) : Keeps s (regReadEff a0 a1 a2 u) := by
  unfold regReadEff
  iterate 20 all_goals try with_reducible first | assumption | split | apply setLatch_keeps | apply lostClear_keeps | (refine .w ?_ rfl rfl rfl rfl rfl rfl rfl rfl rfl rfl rfl le_rfl) | intro _ | dsimp only

end Sys2Proof.Laws
end

