-- ==== Sys2Proof/Laws/KeepsCoreMem.lean ====
section
/-! SUPPORT. What the operations of Machine/CoreMem.lean leave as it is. -/

namespace Sys2Proof.Laws

open Sys2Proof Sys2Proof.Machine Sys2Proof.Safety

theorem tabPut_wf (t : Tab Byte) (o : Nat) (l : List Byte) (h : Tab.wf 0 t = true) : Tab.wf 0 (tabPut t o l) = true :=
  wf_foldl _ _ (fun t b ht => wf_set _ t _ _ ht) _ _ h

theorem trapTake_keeps {s u : State} {a0 a1} (h : Keeps s u) : Keeps s (trapTake a0 a1 u) := by
  unfold trapTake
  iterate 20 all_goals try with_reducible first | assumption | split | apply emit_keeps | apply resvLost_keeps | apply icFaultNow_keeps | apply State.modCpu_keeps | (refine .w ?_ rfl rfl rfl rfl rfl rfl rfl rfl rfl rfl rfl le_rfl) | intro _ | dsimp only

theorem mapFault_keeps {s u : State} {a0} (h : Keeps s u) : Keeps s (mapFault a0 u) := by
  unfold mapFault
  iterate 20 all_goals try with_reducible first | assumption | split | apply emit_keeps | apply resvLost_keeps | apply trapTake_keeps | (refine .w ?_ rfl rfl rfl rfl rfl rfl rfl rfl rfl rfl rfl le_rfl) | intro _ | dsimp only

theorem accFault_keeps {s u : State} {a0 a1} (h : Keeps s u) : Keeps s (accFault a0 a1 u) := by
  unfold accFault
  iterate 20 all_goals try with_reducible first | assumption | split | apply mapFault_keeps | apply trapTake_keeps | (refine .w ?_ rfl rfl rfl rfl rfl rfl rfl rfl rfl rfl rfl le_rfl) | intro _ | dsimp only

theorem boundary_keeps {s u : State} {a0} (h : Keeps s u) : Keeps s (boundary a0 u) := by
  unfold boundary
  iterate 20 all_goals try with_reducible first | assumption | split | apply trapTake_keeps | apply State.modCpu_keeps | (apply Keeps.foldl; intros) | (refine .w ?_ rfl rfl rfl rfl rfl rfl rfl rfl rfl rfl rfl le_rfl) | intro _ | dsimp only

theorem coreRow_keeps {s u : State} {a0 f1} (hf1 : ∀ v, Keeps s v → Keeps s (f1 v)) (h : Keeps s u) : Keeps s (coreRow a0 f1 u) := by
  unfold coreRow
  iterate 20 all_goals try with_reducible first | assumption | split | apply hf1 | apply boundary_keeps | (refine .w ?_ rfl rfl rfl rfl rfl rfl rfl rfl rfl rfl rfl le_rfl) | intro _ | dsimp only

theorem badUse_keeps {s u : State} {a0 a1} (h : Keeps s u) : Keeps s (badUse a0 a1 u) := by
  unfold badUse
  iterate 20 all_goals try with_reducible first | assumption | split | apply tcmBadUse_keeps | apply tcmBadFails_keeps | apply tcmBadCount_keeps | (refine .w ?_ rfl rfl rfl rfl rfl rfl rfl rfl rfl rfl rfl le_rfl) | intro _ | dsimp only

theorem amoTab_keeps {s u : State} {a0 a1 a2 a3 a4 a5 f6} (hf6 : ∀ x0 v, Keeps s v → Keeps s (f6 x0 v)) (h : Keeps s u) : Keeps s (amoTab a0 a1 a2 a3 a4 a5 f6 u) := by
  unfold amoTab
  iterate 20 all_goals try with_reducible first | assumption | split | apply hf6 | apply coreDone_keeps | (refine .w ?_ rfl rfl rfl rfl rfl rfl rfl rfl rfl rfl rfl le_rfl) | intro _ | dsimp only

theorem tcmPut_keeps {s u : State} {a0 a1 a2} (h : Keeps s u) : Keeps s (tcmPut a0 a1 a2 u) := by
  unfold tcmPut
  iterate 20 all_goals try with_reducible first | assumption | split | apply State.modCpu_keeps | (refine .w ?_ rfl rfl rfl rfl rfl rfl rfl rfl rfl rfl rfl le_rfl) | intro _ | dsimp only

theorem sramPut_keeps {s u : State} {a0 a1 a2} (h : Keeps s u) : Keeps s (sramPut a0 a1 a2 u) := by
  unfold sramPut
  iterate 20 all_goals try with_reducible first | assumption | split | apply resvLost_keeps | (apply Keeps.foldl; intros) | (refine .w ?_ rfl rfl rfl rfl rfl rfl rfl rfl rfl rfl rfl le_rfl) | (refine .m ?_ rfl rfl ?_ ?_ ?_ ?_ ?_ ?_ ?_ ?_ le_rfl) | exact id | exact fun _ => wf_nil _ | exact wf_set _ _ _ _ | exact wf_upd _ _ _ _ | exact wf_clear _ _ _ _ | exact fun h => wf_set _ _ _ _ (wf_set _ _ _ _ h) | exact tabPut_wf _ _ _ | exact wf_foldl _ _ (fun t b ht => wf_set _ t _ _ ht) _ _ | exact fun h => wf_foldl _ _ (fun t b ht => wf_set _ t _ _ ht) _ _ (wf_clear _ _ _ _ h) | intro _ | dsimp only

theorem dpaRun_keeps {s u : State} {a0 a1} (h : Keeps s u) : Keeps s (dpaRun a0 a1 u) := by
  unfold dpaRun
  iterate 20 all_goals try with_reducible first | assumption | split | apply afterAccess_keeps | apply submit_keeps | apply State.modCpu_keeps | (apply Keeps.foldl; intros) | (refine .w ?_ rfl rfl rfl rfl rfl rfl rfl rfl rfl rfl rfl le_rfl) | intro _ | dsimp only

theorem amoDo_keeps {s u : State} {a0 a1 a2 a3 a4 a5} (h : Keeps s u) : Keeps s (amoDo a0 a1 a2 a3 a4 a5 u) := by
  unfold amoDo
  iterate 20 all_goals try with_reducible first | assumption | split | apply accFault_keeps | apply badUse_keeps | apply amoTab_keeps | apply tcmPut_keeps | apply sramPut_keeps | apply dpaRun_keeps | (refine .w ?_ rfl rfl rfl rfl rfl rfl rfl rfl rfl rfl rfl le_rfl) | intro _ | dsimp only

theorem amo_keeps {s u : State} {a0 a1 a2 a3 a4 a5 a6} (h : Keeps s u) : Keeps s (amo a0 a1 a2 a3 a4 a5 a6 u) := by
  unfold amo
  iterate 20 all_goals try with_reducible first | assumption | split | apply coreRow_keeps | apply amoDo_keeps | (refine .w ?_ rfl rfl rfl rfl rfl rfl rfl rfl rfl rfl rfl le_rfl) | intro _ | dsimp only

theorem fencePut_keeps {s u : State} {a0 a1 a2} (h : Keeps s u) : Keeps s (fencePut a0 a1 a2 u) := by
  unfold fencePut
  iterate 20 all_goals try with_reducible first | assumption | split | apply count_keeps | apply State.modCpu_keeps | apply retire_keeps | (refine .w ?_ rfl rfl rfl rfl rfl rfl rfl rfl rfl rfl rfl le_rfl) | intro _ | dsimp only

theorem fence_keeps {s u : State} {a0 a1 a2} (h : Keeps s u) : Keeps s (fence a0 a1 a2 u) := by
  unfold fence
  iterate 20 all_goals try with_reducible first | assumption | split | apply coreRow_keeps | apply fencePut_keeps | (refine .w ?_ rfl rfl rfl rfl rfl rfl rfl rfl rfl rfl rfl le_rfl) | intro _ | dsimp only

theorem sbSent_keeps {s u : State} {a0 a1} (h : Keeps s u) : Keeps s (sbSent a0 a1 u) := by
  unfold sbSent
  iterate 20 all_goals try with_reducible first | assumption | split | apply State.modCpu_keeps | (refine .w ?_ rfl rfl rfl rfl rfl rfl rfl rfl rfl rfl rfl le_rfl) | intro _ | dsimp only

theorem sbSplit_keeps {s u : State} {a0 a1 a2 a3} (h : Keeps s u) : Keeps s (sbSplit a0 a1 a2 a3 u) := by
  unfold sbSplit
  iterate 20 all_goals try with_reducible first | assumption | split | apply State.modCpu_keeps | (refine .w ?_ rfl rfl rfl rfl rfl rfl rfl rfl rfl rfl rfl le_rfl) | intro _ | dsimp only

theorem storeAt_keeps {s u : State} {a0 a1 a2} (h : Keeps s u) : Keeps s (storeAt a0 a1 a2 u) := by
  unfold storeAt
  iterate 20 all_goals try with_reducible first | assumption | split | apply tcmPut_keeps | apply sbErase_keeps | apply sramPut_keeps | apply sbSent_keeps | apply storeError_keeps | apply coreRegWrite_keeps | apply icPageWrite_keeps | apply afterAccess_keeps | apply submit_keeps | apply sbSplit_keeps | (refine .w ?_ rfl rfl rfl rfl rfl rfl rfl rfl rfl rfl rfl le_rfl) | intro _ | dsimp only

theorem fenceIPut_keeps {s u : State} {a0} (h : Keeps s u) : Keeps s (fenceIPut a0 u) := by
  unfold fenceIPut
  iterate 20 all_goals try with_reducible first | assumption | split | apply retire_keeps | apply storeAt_keeps | (apply Keeps.foldl; intros) | (refine .w ?_ rfl rfl rfl rfl rfl rfl rfl rfl rfl rfl rfl le_rfl) | intro _ | dsimp only

theorem fenceI_keeps {s u : State} {a0} (h : Keeps s u) : Keeps s (fenceI a0 u) := by
  unfold fenceI
  iterate 20 all_goals try with_reducible first | assumption | split | apply coreRow_keeps | apply fenceIPut_keeps | (refine .w ?_ rfl rfl rfl rfl rfl rfl rfl rfl rfl rfl rfl le_rfl) | intro _ | dsimp only

theorem loadAccessTimeout_keeps {s u : State} {a0} (h : Keeps s u) : Keeps s (loadAccessTimeout a0 u) := by
  unfold loadAccessTimeout
  iterate 20 all_goals try with_reducible first | assumption | split | apply trapTake_keeps | apply State.modCpu_keeps | (refine .w ?_ rfl rfl rfl rfl rfl rfl rfl rfl rfl rfl rfl le_rfl) | intro _ | dsimp only

theorem regLoad_keeps2 {s u : State} {a b c} (h : Keeps s u) : Keeps s (regLoad u a b c).2 := by
  unfold regLoad
  iterate 20 all_goals try with_reducible first | assumption | dsimp only | split | apply popNote_keeps2 | apply draw_keeps | apply regReadEff_keeps | apply setLatch_keeps | refine popNote_keeps ‹_› ?_ | (refine .w ?_ rfl rfl rfl rfl rfl rfl rfl rfl rfl rfl rfl le_rfl)

theorem regLoad_keeps {s u t : State} {a b c x} (e : regLoad u a b c = (x, t)) (h : Keeps s u) : Keeps s t := by
  have k : Keeps s (regLoad u a b c).2 := regLoad_keeps2 h; rw [e] at k; exact k

theorem pageEff_keeps {s u : State} {a0} (h : Keeps s u) : Keeps s (pageEff a0 u) := by
  unfold pageEff
  iterate 20 all_goals try with_reducible first | assumption | split | apply lostClear_keeps | apply setLatch_keeps | (refine .w ?_ rfl rfl rfl rfl rfl rfl rfl rfl rfl rfl rfl le_rfl) | intro _ | dsimp only

theorem pageLoad_keeps2 {s u : State} {a b} (h : Keeps s u) : Keeps s (pageLoad u a b).2 := by
  unfold pageLoad
  iterate 20 all_goals try with_reducible first | assumption | dsimp only | split | apply popNote_keeps2 | apply pageEff_keeps | apply draw_keeps | refine popNote_keeps ‹_› ?_ | (refine .w ?_ rfl rfl rfl rfl rfl rfl rfl rfl rfl rfl rfl le_rfl)

theorem pageLoad_keeps {s u t : State} {a b x} (e : pageLoad u a b = (x, t)) (h : Keeps s u) : Keeps s t := by
  have k : Keeps s (pageLoad u a b).2 := pageLoad_keeps2 h; rw [e] at k; exact k

theorem loadAt_keeps {s u : State} {a0 a1 a2 a3 a4 a5 a6} (h : Keeps s u) : Keeps s (loadAt a0 a1 a2 a3 a4 a5 a6 u) := by
  unfold loadAt
  iterate 20 all_goals try with_reducible first | assumption | split | refine regLoad_keeps ‹_› ?_ | refine regLoad_keeps2 ?_ | refine pageLoad_keeps ‹_› ?_ | refine pageLoad_keeps2 ?_ | apply coreDone_keeps | apply badUse_keeps | apply tcmCorrected_keeps | apply State.modCpu_keeps | apply dpaRun_keeps | (refine .w ?_ rfl rfl rfl rfl rfl rfl rfl rfl rfl rfl rfl le_rfl) | intro _ | dsimp only

theorem load_keeps {s u : State} {a0 a1 a2 a3 a4} (h : Keeps s u) : Keeps s (load a0 a1 a2 a3 a4 u) := by
  unfold load
  iterate 20 all_goals try with_reducible first | assumption | split | apply accFault_keeps | apply loadAt_keeps | apply coreDone_keeps | (refine .w ?_ rfl rfl rfl rfl rfl rfl rfl rfl rfl rfl rfl le_rfl) | intro _ | dsimp only

theorem loadInstruction_keeps {s u : State} {a0 a1 a2 a3 a4 a5} (h : Keeps s u) : Keeps s (loadInstruction a0 a1 a2 a3 a4 a5 u) := by
  unfold loadInstruction
  iterate 20 all_goals try with_reducible first | assumption | split | apply coreRow_keeps | apply load_keeps | (refine .w ?_ rfl rfl rfl rfl rfl rfl rfl rfl rfl rfl rfl le_rfl) | intro _ | dsimp only

theorem lrDo_keeps {s u : State} {a0 a1 a2 a3} (h : Keeps s u) : Keeps s (lrDo a0 a1 a2 a3 u) := by
  unfold lrDo
  iterate 20 all_goals try with_reducible first | assumption | split | apply accFault_keeps | apply loadAt_keeps | apply State.modCpu_keeps | (refine .w ?_ rfl rfl rfl rfl rfl rfl rfl rfl rfl rfl rfl le_rfl) | intro _ | dsimp only

theorem lr_keeps {s u : State} {a0 a1 a2 a3 a4} (h : Keeps s u) : Keeps s (lr a0 a1 a2 a3 a4 u) := by
  unfold lr
  iterate 20 all_goals try with_reducible first | assumption | split | apply coreRow_keeps | apply lrDo_keeps | (refine .w ?_ rfl rfl rfl rfl rfl rfl rfl rfl rfl rfl rfl le_rfl) | intro _ | dsimp only

theorem otherDo_keeps {s u : State} {a0 a1} (h : Keeps s u) : Keeps s (otherDo a0 a1 u) := by
  unfold otherDo
  iterate 20 all_goals try with_reducible first | assumption | split | apply retire_keeps | apply trapTake_keeps | apply State.modCpu_keeps | apply tcmBadUse_keeps | apply tcmCorrected_keeps | apply icFaultNow_keeps | apply resvLost_keeps | (refine .w ?_ rfl rfl rfl rfl rfl rfl rfl rfl rfl rfl rfl le_rfl) | intro _ | dsimp only

theorem otherInstruction_keeps {s u : State} {a0 a1} (h : Keeps s u) : Keeps s (otherInstruction a0 a1 u) := by
  unfold otherInstruction
  iterate 20 all_goals try with_reducible first | assumption | split | apply coreRow_keeps | apply otherDo_keeps | (refine .w ?_ rfl rfl rfl rfl rfl rfl rfl rfl rfl rfl rfl le_rfl) | intro _ | dsimp only

theorem scDo_keeps {s u : State} {a0 a1 a2 a3 a4} (h : Keeps s u) : Keeps s (scDo a0 a1 a2 a3 a4 u) := by
  unfold scDo
  iterate 20 all_goals try with_reducible first | assumption | split | apply accFault_keeps | apply State.modCpu_keeps | apply coreDone_keeps | apply count_keeps | apply tcmPut_keeps | apply sramPut_keeps | apply dpaRun_keeps | (refine .w ?_ rfl rfl rfl rfl rfl rfl rfl rfl rfl rfl rfl le_rfl) | intro _ | dsimp only

theorem sc_keeps {s u : State} {a0 a1 a2 a3 a4 a5} (h : Keeps s u) : Keeps s (sc a0 a1 a2 a3 a4 a5 u) := by
  unfold sc
  iterate 20 all_goals try with_reducible first | assumption | split | apply coreRow_keeps | apply scDo_keeps | (refine .w ?_ rfl rfl rfl rfl rfl rfl rfl rfl rfl rfl rfl le_rfl) | intro _ | dsimp only

theorem storeTimeout_keeps {s u : State} {a0} (h : Keeps s u) : Keeps s (storeTimeout a0 u) := by
  unfold storeTimeout
  iterate 20 all_goals try with_reducible first | assumption | split | apply storeError_keeps | apply sbErase_keeps | (refine .w ?_ rfl rfl rfl rfl rfl rfl rfl rfl rfl rfl rfl le_rfl) | intro _ | dsimp only

theorem storeErrorTimeout_keeps {s u : State} {a0} (h : Keeps s u) : Keeps s (storeErrorTimeout a0 u) := by
  unfold storeErrorTimeout
  iterate 20 all_goals try with_reducible first | assumption | split | apply boundary_keeps | apply storeTimeout_keeps | (refine .w ?_ rfl rfl rfl rfl rfl rfl rfl rfl rfl rfl rfl le_rfl) | intro _ | dsimp only

theorem store_keeps {s u : State} {a0 a1 a2 a3 a4} (h : Keeps s u) : Keeps s (store a0 a1 a2 a3 a4 u) := by
  unfold store
  iterate 20 all_goals try with_reducible first | assumption | split | apply accFault_keeps | apply count_keeps | apply retire_keeps | apply State.modCpu_keeps | (refine .w ?_ rfl rfl rfl rfl rfl rfl rfl rfl rfl rfl rfl le_rfl) | intro _ | dsimp only

theorem storeInstruction_keeps {s u : State} {a0 a1 a2 a3 a4} (h : Keeps s u) : Keeps s (storeInstruction a0 a1 a2 a3 a4 u) := by
  unfold storeInstruction
  iterate 20 all_goals try with_reducible first | assumption | split | apply coreRow_keeps | apply store_keeps | (refine .w ?_ rfl rfl rfl rfl rfl rfl rfl rfl rfl rfl rfl le_rfl) | intro _ | dsimp only

theorem storeLeaves_keeps {s u : State} {a0 a1 a2} (h : Keeps s u) : Keeps s (storeLeaves a0 a1 a2 u) := by
  unfold storeLeaves
  iterate 20 all_goals try with_reducible first | assumption | split | apply storeAt_keeps | (refine .w ?_ rfl rfl rfl rfl rfl rfl rfl rfl rfl rfl rfl le_rfl) | intro _ | dsimp only

theorem storeVisible_keeps {s u : State} {a0 a1 a2} (h : Keeps s u) : Keeps s (storeVisible a0 a1 a2 u) := by
  unfold storeVisible
  iterate 20 all_goals try with_reducible first | assumption | split | apply boundary_keeps | apply storeLeaves_keeps | (refine .w ?_ rfl rfl rfl rfl rfl rfl rfl rfl rfl rfl rfl le_rfl) | intro _ | dsimp only

end Sys2Proof.Laws
end

