-- ==== Sys2Proof/Tests/Slice0.lean ====
section
/-! SUPPORT. Tests: ill-formed commands that `WellFormed.lean` refuses, the spec's worked examples, and for every statement of
`Obligations.lean` that has hypotheses a state and operands that meet them, clause by clause. -/

set_option Elab.async false

namespace Sys2Proof.Tests

open Sys2Proof Sys2Proof.Machine Sys2Proof.Safety

/-! ## States for the witnesses -/

/-- The management port's request with tag 7. -/
def rqM : Rq := ⟨31, 7⟩

/-- Host channel 0's, of port 0, function 0, with `ADMIN`. -/
def rqH : Rq := ⟨0, 7⟩

/-- The reference die profile as applied. -/
def profT : Prof := { cell := 2, luns := 16, pn := 1024, ps := 256, blocks := 1600, en := 1500, es := 40000, step := 5, retryN := 8 }

/-- A turf that holds the first segment, granted to function 0 of port 0 and to the integrator core. -/
def turfT : Turf := { base := 0, size := 0x200000, cap := 1000, grants := [⟨.fn 0 0, true⟩, ⟨.ic, true⟩] }

/-- A turf without grants. -/
def turfU : Turf := { base := 0x400000, size := 0x400000, cap := 1000 }

/-- A device in service: ports 0 and 2 are host ports that serve (an LD and a plain function), port 1 a stream port, ports 8 and 9
twin ports; the media is formatted to 1 GiB and two turfs are assigned. -/
def svc : State := { State.reset with
  rpm := { State.reset.rpm with st := .service, asserted := [], seen := [], boot := 2, en := 0xFF, pgGood := 0xFF, pgRaw := 0xFF, sup := 0xFF }
  px := { open_ := true,
          ports := [(0, { serving := true, width := 16, rate := 6, flit := true, pllOk := true }),
                    (1, { role := 1, serving := true, width := 16, rate := 6, flit := true, pllOk := true,
                          consumers := [⟨1, 0, 0, [(0, 0x100000)], false⟩] }),
                    (2, { plain := true, bar2Log2 := 30, serving := true, width := 16, rate := 6, flit := true, pllOk := true }),
                    (8, { role := 2, pllOk := true }), (9, { role := 2, pllOk := true })] }
  cc := { State.reset.cc with served := true, fwVer := 0x00010000 }
  mb := { chans := [(0, { bind_ := 0xC000 }), (1, { bind_ := 0x8200 })] }
  mc := { State.reset.mc with prof := profT, formatted := true, slcDiv := 3, fmt := some (1, 3) }
  te := { State.reset.te with uGib := 1, pool := 1000, turfs := [(1, some turfT), (2, some turfU)] }
  ft := { State.reset.ft with trained := true, tested := true, density := 1 }
  lg := { State.reset.lg with offline := false, known := true, next := 5, high := 4096 }
  th := { State.reset.th with max := 200, coolOk := true }
  xe := { State.reset.xe with up := true, lanes := [(8, { st := 1 })] } }

/-- A decidable form of `accepts`. -/
def accB (s : State) (rq : Rq) (op : Nat) : Bool :=
  canTake s rq.ch && (s.mbox rq.ch).flights.all (fun f => f.tag != rq.tag) &&
    match opRow op with
    | some r => (gate s rq r true true).isNone
    | none => false

theorem acc {s : State} {rq : Rq} {op : Nat} (h : accB s rq op = true) : accepts s rq op true true := by
  unfold accB at h
  cases hr : opRow op with
  | none => simp [hr] at h
  | some r =>
    simp only [hr, Bool.and_eq_true, List.all_eq_true, Option.isNone_iff_eq_none] at h
    exact ⟨h.1.1, fun f hf => by simpa using h.1.2 f hf, r, hr, h.2⟩

theorem sent {c : Instr} {s : State} {rq : Rq} {op : Nat} (h : (c.wf && accB s rq op) = true) : sentOk c s rq op :=
  ⟨(Bool.and_eq_true _ _ ▸ h).1, acc (Bool.and_eq_true _ _ ▸ h).2⟩

/-- A decidable form of `notD3`. -/
def nd3 (s : State) : Agent → Bool
  | .fn p f => !(s.fn p f).d3
  | _ => true

theorem nd {s : State} {a : Agent} (h : nd3 s a = true) : notD3 s a := by
  cases a <;> simp_all [nd3, notD3]

theorem lt {s : State} (h : s.tu.idle = false ∧ (s.tu.lo.up = true ∨ s.tu.hi.up = true) ∧ linkQuiet s = false) : linkTakes s := h

theorem nlt {s : State} (h : ¬ (s.tu.idle = false ∧ (s.tu.lo.up = true ∨ s.tu.hi.up = true) ∧ linkQuiet s = false)) :
    ¬ linkTakes s := h

theorem may {s : State} {i : Nat} (h : i < 5) : mayWrite s (.core i) := h
/-- `svc` with decoder 0 of LD 0 of port 0 committed over the first 256 MiB. -/
def hst : State := { svc with px := { svc.px with lds := [(0, { decs := [(0, { committed := true, size := 0x10000000 })] })] } }

/-- `svc` with the plain function of port 2 granted the first turf and its window mapped to it. -/
def pln : State := { svc with te := { svc.te with turfs := [(1, some { turfT with grants := [⟨.fn 2 0, true⟩] })], winMap := [(32, (0, 0x200000))] } }

/-- A request to LD 0 of port 0. -/
def mrq : MReq := { port := 0, ld := 0, tag := 1, hpa := 0x40 }

/-- `svc` as a twin in sync over its lower twin port: the next frame expected is number 3 of session 9. -/
def twn : State := { svc with tu := { svc.tu with
  ps := .inSync, lo := { up := true, width := 16 }, helloRx := some default, rxSeq := 3, session := 9,
  record := { pstate := .inSync, pairId := 5, pgen := 2, token := true } } }

/-- The header of that frame for a message. -/
def hdr (m : LinkMsg) : LinkHdr := ⟨msgCode m, 0, msgLen m, 9, 3, 0, true, true⟩

theorem inOrd {s : State} {h : LinkHdr} {m : LinkMsg} (k : (!s.tu.idle && (s.tu.lo.up || s.tu.hi.up) && !linkQuiet s && h.tagOk &&
    formOk h m && sessionOk h s && hdrNum h == s.tu.rxSeq && (!s.tp.haltSent || keptAfterHalt m)) = true) : inOrder s h m := by
  simp only [Bool.and_eq_true, Bool.not_eq_true', Bool.or_eq_true, beq_iff_eq] at k
  exact ⟨k.1.1.1.1.1.1.1, k.1.1.1.1.1.1.2, k.1.1.1.1.1.2, k.1.1.1.1.2, k.1.1.1.2, k.1.1.2, k.1.2, k.2⟩

/-- `svc` with an idle media and one current slot in an SLC set. -/
def kil : State := { svc with
  mctl := { svc.mctl with idle := true }
  te := { svc.te with map := [(7, .media 5120)] }
  mc := { svc.mc with sets := [(5, { st := 3 })], slots := [(5120, some ⟨7, 1, 0, 0, 0, 0xFFFF, 0, 0, 0⟩)] } }


/-- `kil` under a sweep whose keys are newer than the slot's, with one good LUN in each cord: no row can be opened. -/
def one : State := { kil with
  sec := { kil.sec with rekey := 1, mDone := false }
  opt := { kil.opt with pages := [(0, { data := (2#512) <<< 288 })] }
  mc := { kil.mc with luns := (List.range 512).map (fun u => (u, { ash := decide (1 ≤ u / 16 % 16) })) } }

/-- The first two lines of a Nolene file: its header; a raster of one line of 512 pixels in one empty tile. -/
def nln0 : BitVec 512 := 0x900000000000000080000000000000010100000001000000010000000100008000000000010000020000800100314E4C4E
def nln1 : BitVec 512 :=
  0xB8F09BC2000000000000000000000000000000000000000000000000EDA853440000000000000190000000000000000000000000000001900000000000000090

/-- `svc` with that file at DPA 0, in frame 5. -/
def nol : State := { svc with
  te := { svc.te with map := [(0, .res 5)], frames := [(5, { st := .clean, counted := true, billet := 0 })],
                      turfs := [(1, some { turfT with reserve := 100 })] }
  ft := { svc.ft with lines := [(5120, .data nln0), (5121, .data nln1), (5122, .data 0x1000000000000000000000000000000)] } }

/-- A job over that file into the consumer of port 1. -/
def jobT : JobParams := { base := 0, len := 4096, first := 0, count := 1, x := 0, l := 64, port := 1, consumer := 0, entryBase := 0, entries := 4, dataBase := 0x1000, slotSize := 0x1000, trig := 0, fmax := 1000, window := 1, pinLimit := 10, onStarve := 0, partner := 0xFFFFFFFF }

/-- `nol` with that job in channel 0, owned by host channel 0, in a state. -/
def str (x : Chan) : State := { nol with su := { nol.su with chans := [(0, { x with job := some jobT, header := bytesOf nln0 0 64 ++ bytesOf nln1 0 64 })] } }

/-- The NOR of `svc` with an integrator image of 4 bytes of code in slot 2, whose key is in slot 0 of the key hashes. -/
def img : State := { svc with
  norBytes := (List.range 516).map (fun k => (0x800000 + k, ([0x53, 0x49, 0x4D, 0x47, 2, 0, 0, 2, 0, 0, 0, 0, 0, 0, 0, 0, 4] : List Byte).getD k 0))
  nor := [(2, { valid := true, key := 9 })]
  opt := { svc.opt with pages := [(193, { data := 9 })] } }

/-- `svc` with every lane retired and a store to a lane's controls that waits for its acknowledge. -/
def ded : State := { svc with
  xe := { svc.xe with lanes := (List.range 9).map (fun i => (i, { st := 2 })) }
  cc := { svc.cc with cores := [(0, { sb := [{ addr := 0x10880000, size := 4, val := 0, release := false, dev := true, sent := true }] })] } }

theorem ded_dead : (target ded 0 0x10880000 4 true).dead ded = true := by
  have h : ∀ k < 9, ((ded.xe.lanes.get {} k).st == 2) = true := by decide
  exact h _ (Nat.mod_lt _ (by decide))

theorem ded_find : (storesOf (ded.cpu 0).sb).find? (fun e => e.sent && (target ded 0 e.addr e.size true).dead ded) =
    some { addr := 0x10880000, size := 4, val := 0, release := false, dev := true, sent := true } := by
  have h : storesOf (ded.cpu 0).sb = [{ addr := 0x10880000, size := 4, val := 0, release := false, dev := true, sent := true }] := rfl
  rw [h]; simp [List.find?, ded_dead]

theorem mayF {s : State} {p f : Nat}
    (h : p < 10 ∧ f < 16 ∧ fnReached s p f = true ∧ (s.fn p f).d3 = false ∧ fnAdmin s p f = true) : mayWrite s (.fn p f) := h

/-! The CRCs of the Nolene file of `nol`, in pieces. -/

theorem nln_crc0 : (bytesOf nln0 0 64).foldl crcByte 0xFFFFFFFF#32 = 0x236C2340#32 := by decide +kernel
theorem nln_crc1 : (bytesOf nln1 0 60).foldl crcByte 0x236C2340#32 = 0x470F643D#32 := by decide +kernel
theorem nln_hdr : crc32c ((rdBytes (jobRd nol jobT) 0 128).take 124) = 0xB8F09BC2#32 := by
  rw [show (rdBytes (jobRd nol jobT) 0 128).take 124 = bytesOf nln0 0 64 ++ bytesOf nln1 0 60 from by decide +kernel]
  simp only [crc32c, List.foldl_append, nln_crc0, nln_crc1]
  decide
theorem nln_crc2 : (List.replicate 15 (0 : Byte) ++ [1]).foldl crcByte 0xFFFFFFFF#32 = 0x4FE4E616#32 := by decide +kernel
theorem nln_crc3 : (List.replicate 64 (0 : Byte)).foldl crcByte 0x4FE4E616#32 = 0x3E8563FB#32 := by decide +kernel
theorem nln_crc4 : (List.replicate 64 (0 : Byte)).foldl crcByte 0x3E8563FB#32 = 0xD0FD8905#32 := by decide +kernel
theorem nln_crc5 : (List.replicate 64 (0 : Byte)).foldl crcByte 0xD0FD8905#32 = 0x9A42F260#32 := by decide +kernel
theorem nln_crc6 : (List.replicate 64 (0 : Byte)).foldl crcByte 0x9A42F260#32 = 0x1257ACBB#32 := by decide +kernel
theorem nln_fixed : crc32c (rdBytes (jobRd nol jobT) 128 272) = 0xEDA85344#32 := by
  rw [show rdBytes (jobRd nol jobT) 128 272 = (List.replicate 15 0 ++ [1]) ++ (List.replicate 64 0 ++ (List.replicate 64 0 ++
    (List.replicate 64 0 ++ List.replicate 64 0))) from by decide +kernel]
  rw [crc32c, List.foldl_append, nln_crc2, List.foldl_append, nln_crc3, List.foldl_append, nln_crc4, List.foldl_append, nln_crc5, nln_crc6]
  decide
theorem nln_head : headerCode (rdBytes (jobRd nol jobT) 0 128) 4096 = 0 := by
  unfold headerCode
  rw [nln_hdr]
  decide +kernel
theorem nln_load : loadCode (jobRd nol jobT) 4096 = 0 := by
  have hb : (hdrOf (rdBytes (jobRd nol jobT) 0 128)).bodyOff - 128 = 272 := by decide +kernel
  unfold loadCode
  simp only [nln_head, hb]
  rw [nln_fixed]
  decide +kernel

/-- `img` with a firmware image of 4 bytes of code whole in the slot to be updated, and its session. -/
def fwu : State := { img with
  norBytes := (List.range 516).map (fun k => (0x400000 + k, ([0x53, 0x49, 0x4D, 0x47, 1, 0, 0, 2, 0, 0, 0, 0, 0, 0, 0, 0, 4] : List Byte).getD k 0))
  mb := { img.mb with sess := some (31, false, 516), sessDone := 516 } }

/-- `svc` with a front sweep at the last line of frame 5. -/
def swp : State := { svc with
  sec := { svc.sec with rekey := 1, fDone := false, fFrame := 5, fLine := 1023 }
  te := { svc.te with map := [(7, .res 5)], frames := [(5, { st := .dirty, billet := 7 })] } }

theorem swp_read : (ftRead 5 1023 [.clean] swp).2 = (if lineHeld swp 5 1023 then (ftRead 5 1023 [.clean] swp).2 else swp) :=
  (if_pos (by decide +kernel)).symm

/-- `nol` with one command that waits. -/
def wtg : State := { nol with pending := [.mbBindLockSet (.core 0)] }

theorem wtg_inv : Inv wtg :=
  ⟨by constructor <;> decide +kernel, by decide⟩

/-! ## Ill-formed commands, one for each check of `WellFormed.lean`, which the check refuses -/

def mqBad : List MReq := [⟨10, 0, 0, 0⟩, ⟨0, 16, 0, 0⟩, ⟨0, 0, 65536, 0⟩, ⟨0, 0, 0, 2 ^ 52⟩, ⟨0, 0, 0, 32⟩]
theorem test_mreq_wf : mqBad.all (fun m => !m.wf) = true := by decide

def jobBadOnes : List JobParams :=
  [{ jobT with base := 2 ^ 64 }, { jobT with len := 2 ^ 64 }, { jobT with first := 2 ^ 32 }, { jobT with count := 2 ^ 32 },
   { jobT with x := 2 ^ 64 }, { jobT with l := 2 ^ 64 }, { jobT with port := 2 ^ 32 }, { jobT with consumer := 2 ^ 32 },
   { jobT with entryBase := 2 ^ 64 }, { jobT with entries := 2 ^ 32 }, { jobT with dataBase := 2 ^ 64 }, { jobT with slotSize := 2 ^ 64 },
   { jobT with trig := 2 ^ 32 }, { jobT with fmax := 2 ^ 32 }, { jobT with window := 2 ^ 32 }, { jobT with pinLimit := 2 ^ 32 },
   { jobT with onStarve := 2 ^ 32 }, { jobT with partner := 2 ^ 32 }]
theorem test_job_wf : jobBadOnes.all (fun j => !j.wf) = true := by decide

theorem test_agent_wf : ([.fn 10 0, .fn 0 16, .core 6, .stream 64] : List Agent).all (fun a => !a.wf) = true := by decide
theorem test_request_wf : ([⟨32, 0⟩, ⟨0, 65536⟩] : List Rq).all (fun r => !r.wf) = true := by decide
theorem test_header_wf : ([⟨256, 0, 0, 0, 0, 0, true, true⟩, ⟨0, 256, 0, 0, 0, 0, true, true⟩, ⟨0, 0, 65536, 0, 0, 0, true, true⟩,
    ⟨0, 0, 0, 2 ^ 32, 0, 0, true, true⟩, ⟨0, 0, 0, 0, 2 ^ 64, 0, true, true⟩, ⟨0, 0, 0, 0, 0, 2 ^ 64, true, true⟩] : List LinkHdr).all (fun h => !h.wf) = true := by decide
theorem test_pair_wf : ([.ltrigStamp 16, .suLines 64, .ccSterrAddr 6, .pmonCnt 256] : List LoReg).all (fun r => !r.wf) = true := by
  decide
theorem test_pll_wf : ([.port 10, .ft 8, .nc 8] : List Pll).all (fun p => !p.wf) = true := by decide

def pmT : PmonCfg := ⟨0, 0, 0, 0, 0, 0, 0, 0, 0, 0, 0, 0⟩
theorem test_pmon_wf : ([{ pmT with target := 2 ^ 32 }, { pmT with counter := 2 ^ 32 }, { pmT with code := 2 ^ 32 },
    { pmT with qual := 2 ^ 32 }, { pmT with inst := 2 ^ 32 }, { pmT with chain := 2 ^ 32 }, { pmT with enable := 2 ^ 32 },
    { pmT with scode := 2 ^ 32 }, { pmT with period := 2 ^ 32 }, { pmT with jitter := 2 ^ 32 }, { pmT with thresh := 2 ^ 32 },
    { pmT with wrap := 2 ^ 32 }] : List PmonCfg).all (fun c => !c.wf) = true := by decide

def refused (l : List Instr) : Bool := l.all (fun c => !c.wf)

theorem test_time_wf : refused [.paceWindowEnd [0], .paceWindowEnd (List.replicate 8 65536), .tbCtlPpsEnSet (.core 6),
    .loReadLatch .ic (.suLines 64) .lo, .loReadLatch (.core 6) .tbCount .lo, .tbPpsStatRead (.core 6), .hfPaceWrite (.core 6) 0,
    .lineTrigEdge 16 false 0 0 0 0, .lineTrigEdge 0 false 0 0 0 10, .ppsEdge 0 10 0] = true := by decide
theorem test_turf_wf : refused [.turfCreate rqM (2 ^ 32) 0 0 0, .turfCreate rqM 0 (2 ^ 64) 0 0, .turfCreate ⟨32, 0⟩ 0 0 0 0,
    .turfGrant rqM 0 (.core 6) 0, .windowMap rqM (.fn 10 0) 0 0, .billetUnmap (2 ^ 30), .hdmDecoderCommit 0 0 8 0 0 0 0 0 0 false true,
    .hdmDecoderCommit 0 0 0 0 0 8 0 0 0 false true, .hdmDecoderCommit 0 0 0 0 0 0 16 0 0 false true, .hdmDecoderCommit 0 0 0 0 0 0 0 16 0 false true] = true := by decide
theorem test_host_wf : refused [.memrd ⟨10, 0, 0, 0⟩ [], .memwr ⟨0, 0, 0, 1⟩ 0 false 0, .unsupportedM2sOpcode ⟨0, 0, 0, 0⟩ 16,
    .bar2Read 0 0 (2 ^ 14) 0 1 [], .bar2Read 0 0 0 0 0 [], .bar2Read 0 0 0 0 4097 [], .bar2Write 0 0 0 [] false false [],
    .atomicopRequest 0 16 0, .configurationRequest 0 256 0 none, .configurationRequest 0 0 4096 none, .configurationRequest 0 0 2 none,
    .globalPersistentFlush 10, .functionLevelReset 0 16, .portReset 10] = true := by decide
theorem test_front_wf : refused [.correctedLineWriteBack (2 ^ 21) 0, .correctedLineWriteBack 0 1024, .ftRetrack 32 0 0 true,
    .ftRetrack 0 256 0 true, .gddr6TemperatureReading [], .ftRawWrite 6, .gddr6DeviceRetired 32, .frontRaw rqM (2 ^ 32) 0 0 0 0,
    .mediaFillUnit 0 16 true .none, .mediaFillUnit 0 0 true (.erase 2097152), .lookasideFillComplete 10, .teLaInval .ic 10, .cheaperPathDeadline 0 1024] = true := by decide
theorem test_media_wf : refused [.destageComplete (2 ^ 21) [], .destageRetry (2 ^ 30), .rowVerification 0 [2 ^ 35],
    .blockSetEraseComplete 2097152 true, .driftSample 2097152 false false, .wearTableRebuilt 512, .lunStatusTimeout 512 [], .blockSetCheckpoint [512],
    .mediaFormat rqM (2 ^ 32) 0, .mcRecDeepRead (.core 6)] = true := by decide
theorem test_ember_wf : refused [.emberQuiesceComplete (2 ^ 32), .emberFlushComplete 0 [2 ^ 31] [], .sealedRestart (.chunk 64) {},
    .sealedRestart .none { devs := [32] }, .fullScan [2 ^ 35] [] {}, .fullScan [] [2 ^ 35] {}, .fullScan [] [] { rows := [(0, 2 ^ 20)] }, .holdupSet rqM 0 (2 ^ 32)] = true := by decide
def hdrT : LinkHdr := hdr .keepalive
theorem test_twin_wf : refused [.twinPortTrained true 32, .pairResult hdrT 256 0 0 0, .retry hdrT (2 ^ 63), .repl hdrT (2 ^ 25) 0 0 [],
    .repl hdrT 0 0 0 [⟨2 ^ 40, none, none, false, [], none⟩], .fwd hdrT 0 (2 ^ 64) false none [] none, .unitReq hdrT 0 0 16 0 [],
    .genList hdrT (2 ^ 25) [], .genList hdrT 0 [2 ^ 32], .cmd hdrT [], .cmdReply hdrT [], .emberNotice hdrT 0 [⟨64, false, 0⟩],
    .twinPortDegrade true 32, .keepalive ⟨256, 0, 0, 0, 0, 0, true, true⟩] = true := by decide
theorem test_port_wf : refused [.portLinkUp 0 8 0 false false false, .portLinkUp 0 0 32 false false false, .linkUpconfigure 0 32,
    .consumerErrCor 0 8, .getEventRecords 0 0 256, .clearEventRecords 0 0 0 true [65536], .setEventInterruptPolicy 0 0 [] [0, 0, 0, 0],
    .setEventInterruptPolicy 0 0 [0, 0, 0, 0] [], .getPoisonList 0 0 (2 ^ 64) 0, .primaryMailboxUnsupported 0 0 65536,
    .msixVectorUnmask 0 0 64, .portQuery rqM (2 ^ 32)] = true := by decide
theorem test_stream_wf : refused [.channelArmed 64, .triggerDecisionPoint 16 [], .streamCreditDoorbell 0 0 16 0 15,
    .streamCreditDoorbell 0 0 0 0 16, .streamStart rqM 0 (2 ^ 64) 0 none, .streamResume rqM 0 (2 ^ 32) 0 0 none, .stickRendered 0 (2 ^ 20) 0 true,
    .stickRendered 0 0 9 true, .testStick [], .laneResponseTimeout 9, .xeLaneRetire rqM (2 ^ 32)] = true := by decide
theorem test_core_wf : refused [.loadInstruction 6 0 1 false .clean [], .loadInstruction 0 0 3 false .clean [],
    .storeInstruction 0 (2 ^ 64) 1 0 false, .storeVisible 0 16 false, .fence 0 16 0, .fence 0 0 16, .lr 0 0 2 false false,
    .heartbeatMissed 4, .clusterResetComplete [], .ccHeartbeatWrite (.core 0) 4, .tcmPatrol 0 2 [] [], .tcmPatrol 0 0 [262144] [],
    .icStart rqM (2 ^ 32), .otherInstruction 6 .plain] = true := by decide
theorem test_mailbox_wf : refused [.mbReqDbWrite 32 0 1, .mbReqDbWrite 0 0 16, .smbusSlotWrite 256 [0] true, .smbusSlotWrite 0 [] true,
    .smbusSlotWrite 0 (List.replicate 32 0) true, .smbusRequestDoorbell 256 true, .smbusOtherCode 256, .nop ⟨32, 0⟩] = true := by decide
theorem test_option_wf : refused [.unlockClosureEnd 7, .optCtlCommit 0 1024, .optByteAccess 6 none, .optionPatrol [1024] [],
    .optionPatrol [] [1024], .optRead rqM 0 (2 ^ 32), .ledgerRead rqM (2 ^ 64) 0 []] = true := by decide
theorem test_power_wf : refused [.pllLocked (.ft 8), .pllRelocked .capture [32], .pgInGood 8, .checkRetry 8, .railMeasurement [],
    .railMeasurement (List.replicate 8 65536), .thermalSample [] [], .thermalSample (List.replicate 12 2048) [],
    .thermalSample (List.replicate 12 0) [12], .commandResetSourceReleased (.port 10)] = true := by decide
theorem test_observe_wf : refused [.bandwidthWindowEnd [] (List.replicate 10 0), .pmonSelWrite .ic 256 true 0, .pmonBwMaxWrite .ic 10 true,
    .glbIntEnWrite 0 16 0, .registerWrite .ic 0 3 0, .registerWrite .ic (2 ^ 64) 4 0, .eventRoute rqM 0 0 (2 ^ 32)] = true := by decide

/-! ## The spec's worked examples -/

/-- 04: the worked example's decoder, and the HPA it reads. -/
def decEx : HdmDec :=
  { committed := true, base := 0x8000000000, size := 2 ^ 40, ways := 1, gran := 12, pos := 1, start := 0x10000000000 }
theorem test_hdm_example : decEx.dpa 0x8012345678 = some 0x100091A2678 ∧ decEx.dpa 0x8012344678 = none := by decide

/-- 04: billet, segment and line of that DPA. -/
def accEx : Acc := { kind := .cxlRd, dpa := 0x100091A2678 }
theorem test_dpa_fields : accEx.billet = 16779546 ∧ accEx.seg = 524360 ∧ accEx.lineIn = 153 := by decide

/-- 05: frame 70,000, line 153. -/
theorem test_frame_example : frameDev 70000 = 16 ∧ pairLine 70000 153 = 2239641 ∧ pairRow 2239641 = 39993 ∧ dataSlot 2239641 = 33 ∧
    rowBank 39993 = 9 ∧ rowInBank 39993 = 2499 ∧ dataCol 2239641 = 0x420 ∧ checkCol 2239641 = 0x780 ∧ checkWord 2239641 = 1 := by
  decide

/-- 07: location 0x1234_5678 with 1,024 pages a set. -/
theorem test_location_example : locChan 0x12345678 = 4 ∧ setLun (locSet svc 0x12345678) % 16 = 8 ∧
    setBlock (locSet svc 0x12345678) = 3349 ∧ locPage svc 0x12345678 = 632 := by decide +kernel

/-- 03: the second PPS edge of a reference 40 ppm fast. -/
def ppsEx : State := { svc with tb := { svc.tb with pps := .tracking, ppsEn := true, havePrev := true, count := 5000000000 } }
theorem test_pps_example : (ppsEdge 100004000 0 100 ppsEx).tb.ppsStamp = 6000040000 ∧ (ppsEdge 100004000 0 100 ppsEx).tb.adj = -343584 ∧
    (ppsEdge 100004000 0 100 ppsEx).tb.phaseErr = 40000 := by decide +kernel

/-- 10: the two-function board and six more boards below P4, each function with one 256 MiB BAR; the ninth stays disabled. -/
def brdEx (i : Nat) : FoundFn := { bus := i + 2, dev := 0, func := 0, bars := [2 ^ 28], configurable := true }
def enumEx : EnumSt := ((List.range 9).map brdEx).foldl (enumStep 4) { at_ := barBase 4 }
theorem test_enumeration_example : enumEx.cons.map (fun c => c.bars) = (List.range 8).map (fun i => [(0x14000000000 + i * 2 ^ 28, 2 ^ 28)]) ∧
    enumEx.off.length = 1 := by decide +kernel

/-- 11: credit with N = 8, 21 outcomes and 17 consumed; a doorbell of 23 is rejected. -/
def crEx : State := str { st := .running, produced := 21, consumed := 17 }
theorem test_credit_example : credit { jobT with entries := 8 } (crEx.chan 0) = 4 ∧
    ((creditDoorbell 0 1 0 23 15 crEx).chan 0).consumed = 17 ∧ ((creditDoorbell 0 1 0 23 15 crEx).chan 0).dbRej = 1 := by
  decide +kernel

/-- 14: the frame that creates turf 3, as its slot holds it. -/
def frmEx : List Byte := [0x00, 0x01, 0x00, 0x1C, 0x42, 0, 0, 0, 0x07, 0, 0, 0, 0, 0, 0, 0, 0x03, 0, 0, 0, 0, 0, 0, 0,
  0, 0, 0, 0, 0, 1, 0, 0, 0, 0, 0, 0, 0x80, 0, 0, 0, 0, 0, 0, 0]
theorem test_frame_of_turf_create : frmOf frmEx = ⟨0x0100, 0, 28, 0x42, 7,
    pack [.n4 3, .n8 0x10000000000, .n8 0x8000000000, .n4 0]⟩ ∧ frameFault (frmOf frmEx) = none := by decide +kernel

/-- 14: its reply. -/
theorem test_reply_of_turf_create : replySlot 0x0100 0 0x42 0 7 0 [] =
    [0x00, 0x01, 0x02, 0x00, 0x42, 0, 0, 0, 0x07] ++ List.replicate 247 0 := by decide +kernel

/-- 16: a page write of 8 bytes at offset 60. -/
theorem test_page_write_example : bytesOf (putBytes 0 60 [1, 2, 3, 4, 5, 6, 7, 8]) 0 64 =
    [5, 6, 7, 8] ++ List.replicate 56 0 ++ [1, 2, 3, 4] := by decide +kernel

/-- 18: 11,800,000 bytes in a window of 100 µs read as 118,000 MB/s. -/
theorem test_bandwidth_example : ((windowEnd [0, 0, 11800000, 0, 0, 0, 0, 0, 0, 0] (List.replicate 10 0)
    { svc with pm := { svc.pm with window := 100, winCur := 100 } }).pm.bwIn.get 0 2) = 118000 := by decide +kernel

/-- 19: the three registers of the example, by BAR0 offset; the third reads for a function without `ADMIN`. -/
def regEx : State := { svc with tb := { svc.tb with count := 0x1122334455667788 }, su := { svc.su with chans := [(37, { owner := 5, job := some jobT, produced := 1, pinned := [7, 9] })] } }
def regExU : State := { regEx with mb := { regEx.mb with chans := [(0, { bind_ := 0x8000 })] } }
theorem test_register_example : bar0Val regEx 0 0 0x171948 = some 0x30002 ∧ bar0Val regExU 0 0 0x171948 = some 0 ∧
    bar0Val regExU 0 0 0x200000 = some 0x55667788 := by decide +kernel

/-- 12: the file of the worked example, where the spec gives its bytes. -/
def nlEx (o : Nat) : Option Byte := some (
  if o < 384 then ([0, 6, 11, 15] : List Byte).getD (o - 128) 0
  else if o < 464 then ([1, 0, 0, 0, 4, 0, 2, 0, 32, 0, 0, 0, 0, 0, 0, 0, 2, 0, 0, 0, 12, 0, 2, 0, 48, 0, 0, 0, 2, 0, 0, 0,
    0x1F, 0x82, 0, 0, 0, 0, 0, 0, 0, 0, 0, 0, 0, 0, 0, 0, 2, 0, 0, 0, 0, 0, 0, 0, 0, 0, 0, 0, 0, 0, 0, 0,
    2, 0, 0, 0, 8, 0, 0, 0, 0, 0, 0, 0, 0, 0, 0, 0] : List Byte).getD (o - 384) 0
  else if o < 496 then 0
  else if o < 4096 then ([0, 16, 0, 0, 0, 0, 0, 0, 48, 0, 0, 0, 2, 0, 1, 0, 0, 0, 0, 0, 0, 0, 0, 0, 0, 0, 0, 0, 0, 0, 1, 1] : List Byte).getD (o - 496) 0
  else ([1, 2, 0, 0, 2, 0, 0, 0, 40, 0, 0, 0, 6, 0, 10, 0, 3, 0, 1, 0, 4, 0, 0, 0, 44, 0, 0, 0, 32, 0, 0, 0,
    1, 0, 0, 0, 2, 0, 3, 0, 20, 0, 0, 0, 100, 0, 0, 0] : List Byte).getD (o - 4096) 0)
def hdrEx : Hdr := ⟨16384, 1024, 8192, 256, 2, 4, 2, 4, 2, 464, 384, 80, 128, 4096, 48, 4144, 0⟩
def lutEx : List Byte := [0, 6, 11, 15]
def tileEx (tx : Nat) : Dec × Nat × List Run := decodeTile nlEx hdrEx 300 0 8192 tx {}

/-- 12: the painted start of line 300, the empty tile beside it, and the span and step counts of stick 0. -/
theorem test_nolene_bytes : (List.range 19).map (outByte hdrEx lutEx [(0, (tileEx 0).2)]) =
    [0x66, 0xBB, 0xFF, 0x06, 0x66, 0x66, 0xFF, 0x06, 0x66, 0x66, 0x66, 0x66, 0xFF, 0x06, 0x66, 0x66, 0xFF, 0x06, 0x66] := by
  decide +kernel
theorem test_nolene_counts : (tileEx 0).1.spans = [(0, 5)] ∧ (tileEx 0).1.steps = [(0, 8)] ∧ (tileEx 0).1.fails = [] ∧
    (tileEx 1).2 = (1, []) := by decide +kernel

/-- 12: the bytes read: 529, with the header's and the LUT's. -/
theorem test_nolene_reads : coverLen 0 (((0, 128) :: (128, 384) :: (tileEx 1).1.reads ++ (tileEx 0).1.reads).foldl
    (fun t a => rangeInsert a t) []) = 529 := by decide +kernel

/-- R307 to R308: the spec's AMO operations on words. -/
theorem test_amo : (amoEval .min 4 0xFFFFFFFF 1).setWidth 32 = 0xFFFFFFFF#32 ∧ amoEval .minu 4 0xFFFFFFFF 1 = 1 := by decide

/-- 05: CRC-32C of "123456789". -/
theorem test_crc32c : crc32c [0x31, 0x32, 0x33, 0x34, 0x35, 0x36, 0x37, 0x38, 0x39] = 0xE3069283 := by decide +kernel

/-! ## Witnesses: what meets the hypotheses of each statement, one part for each clause -/

theorem witness_WellFormedCommandsRun :
    (∃ (c : Instr), c.wf = true) ∧
    (∃ (c : Instr), c.wf = false) :=
  ⟨⟨(.nop rqM), by decide +kernel⟩,
   ⟨(.nop ⟨99, 0⟩), by decide +kernel⟩⟩
theorem witness_StepKeepsInvariant : ∃ (s t : State), Inv s ∧ step s = .next t :=
  ⟨wtg, _, wtg_inv, rfl⟩
theorem witness_CommandsLeaveQueueAndBoard : ∃ (c : Instr) (s t : State), exec c s = .next t :=
  ⟨(.nop rqM), svc, _, rfl⟩
theorem witness_AcceptedRequestsAreAnswered : ∃ (s : State) (rq : Rq) (op : Nat), accepts s rq op true true :=
  ⟨svc, rqM, 3, acc (by decide +kernel)⟩
theorem witness_CommandsAreChecked :
    (∃ (s : State) (rq : Rq) (op : Nat) (r : OpRow) (own gr : State → Bool) (f : Flight), opRow op = some r ∧ waitingFlight s rq op =
         some f ∧ f.started = true ∧ rightOk s rq.ch (own s) (gr s) r.right = true) ∧
    (∃ (s : State) (rq : Rq) (op : Nat) (r : OpRow) (own gr : State → Bool), opRow op = some r ∧ canTake s rq.ch = true ∧ (∀ f ∈ (s.mbox
         rq.ch).flights, f.tag ≠ rq.tag) ∧ rightOk s rq.ch (own s) (gr s) r.right = false) ∧
    (∃ (s : State) (rq : Rq) (op : Nat) (r : OpRow) (own gr : State → Bool), opRow op = some r ∧ canTake s rq.ch = true ∧ (∀ f ∈ (s.mbox
         rq.ch).flights, f.tag ≠ rq.tag) ∧ rightOk s rq.ch (own s) (gr s) r.right = true ∧ modeAllows s r = false) ∧
    (∃ (s : State) (rq : Rq) (op : Nat) (r : OpRow) (own gr : State → Bool), opRow op = some r ∧ canTake s rq.ch = true ∧ (∀ f ∈ (s.mbox
         rq.ch).flights, f.tag ≠ rq.tag) ∧ rightOk s rq.ch (own s) (gr s) r.right = true ∧ modeAllows s r = true ∧ r.one = true ∧
         opRunning s op rq.ch rq.tag = true) ∧
    (∃ (s : State) (rq : Rq) (op : Nat) (r : OpRow) (own gr : State → Bool) (c : State → Cmd) (n : Nat), opRow op = some r ∧ canTake s
         rq.ch = true ∧ (∀ f ∈ (s.mbox rq.ch).flights, f.tag ≠ rq.tag) ∧ gate s rq r (own s) (gr s) = none ∧ firstTrue (c (begun s rq
         op)).bad 1 = some n) ∧
    (∃ (s : State) (rq : Rq) (op : Nat) (r : OpRow) (own gr : State → Bool) (c : State → Cmd) (a : Nat), opRow op = some r ∧ canTake s
         rq.ch = true ∧ (∀ f ∈ (s.mbox rq.ch).flights, f.tag ≠ rq.tag) ∧ gate s rq r (own s) (gr s) = none ∧ firstTrue (c (begun s rq
         op)).bad 1 = none ∧ (c (begun s rq op)).denied = some a) ∧
    (∃ (s : State) (rq : Rq) (op : Nat) (r : OpRow) (own gr : State → Bool) (c : State → Cmd) (n : Nat), opRow op = some r ∧ canTake s
         rq.ch = true ∧ (∀ f ∈ (s.mbox rq.ch).flights, f.tag ≠ rq.tag) ∧ gate s rq r (own s) (gr s) = none ∧ firstTrue (c (begun s rq
         op)).bad 1 = none ∧ (c (begun s rq op)).denied = none ∧ firstTrue (c (begun s rq op)).refuse 1 = some n) ∧
    (∃ (s : State) (rq : Rq) (op : Nat) (r : OpRow) (own gr : State → Bool) (c : State → Cmd), opRow op = some r ∧ canTake s rq.ch =
         true ∧ (∀ f ∈ (s.mbox rq.ch).flights, f.tag ≠ rq.tag) ∧ gate s rq r (own s) (gr s) = none ∧ firstTrue (c (begun s rq op)).bad 1
         = none ∧ (c (begun s rq op)).denied = none ∧ firstTrue (c (begun s rq op)).refuse 1 = none) :=
  ⟨⟨(svc.modMbox 31 (fun m => { m with flights := [{ tag := 7, cseq := 0, opcode := 2, flags := 0 }] })), rqM, 2, _, (fun _ => true),
        (fun _ => true), _, rfl, rfl, by decide +kernel⟩,
   ⟨svc, rqH, 0x0702, _, (fun _ => false), (fun _ => true), rfl, by decide +kernel⟩,
   ⟨({ svc with rpm := { svc.rpm with recovery := 1 } }), rqM, 0x0100, _, (fun _ => true), (fun _ => true), rfl, by decide +kernel⟩,
   ⟨(svc.modMbox 31 (fun m => { m with flights := [{ tag := 6, cseq := 0, opcode := 0x0301, flags := 0 }] })), rqM, 0x0301, _, (fun _
        => true), (fun _ => true), rfl, by decide +kernel⟩,
   ⟨svc, rqM, 2, _, (fun _ => true), (fun _ => true), (fun _ => { bad := [false, true] }), 2, rfl, by decide +kernel⟩,
   ⟨svc, rqM, 2, _, (fun _ => true), (fun _ => true), (fun _ => { denied := some 3 }), 3, rfl, by decide +kernel⟩,
   ⟨svc, rqM, 2, _, (fun _ => true), (fun _ => true), (fun _ => { refuse := [true] }), 1, rfl, by decide +kernel⟩,
   ⟨svc, rqM, 2, _, (fun _ => true), (fun _ => true), (fun _ => {}), rfl, by decide +kernel⟩⟩
theorem witness_ReportsChangeNoData : ∃ (s t : State) (code inst param n src : Nat) (nm : Names) (ps : List Nat), (t = raise code
    inst param nm s ∨ t = count code inst param n s ∨ t = ledger code src ps s) :=
  ⟨svc, (count 1 0 0 0 svc), 0x1C07, 8, 9, 8, 8, .nothing, [], by decide +kernel⟩
theorem witness_TimeCommandsComplete_1 :
    (∃ (rings : List Nat), rings.length = 8 ∧ (∀ r ∈ rings, r < 65536)) ∧
    (∃ (s : State) (sub w : Nat), sub < 10 ∧ 100 ≤ w ∧ s.rpm.asserted.any isCold = false ∧ s.tb.pps = .stepPending ∧ s.tb.havePrev =
         false) ∧
    (∃ (s : State) (sub w : Nat), sub < 10 ∧ 100 ≤ w ∧ s.rpm.asserted.any isCold = false ∧ (s.tb.pps = .tracking ∨ s.tb.pps = .holdover)
         ∧ s.tb.havePrev = false) ∧
    (∃ (s : State) (n sub w : Nat), sub < 10 ∧ 100 ≤ w ∧ s.rpm.asserted.any isCold = false ∧ s.tb.pps = .tracking ∧ s.tb.havePrev = true
         ∧ 99980000 ≤ s.tb.rawSince + n ∧ s.tb.rawSince + n ≤ 100020000) ∧
    (∃ (s : State) (sub w : Nat), sub < 10 ∧ (w < 10 ∨ s.tb.pps = .free ∧ 100 ≤ w)) ∧
    (∃ (s : State), s.tb.pps = .tracking) ∧
    (∃ (s : State), s.tb.pps ≠ .tracking) ∧
    (∃ (s : State) (ag : Agent), mayWrite s ag ∧ s.tb.ppsEn = false) ∧
    (∃ (s : State) (ag : Agent), mayWrite s ag ∧ s.tb.ppsEn = true) ∧
    (∃ (s : State) (ag : Agent), mayWrite s ag) :=
  ⟨⟨[1000, 900, 1000, 1000, 1000, 1000, 1000, 65535], by decide +kernel⟩,
   ⟨({ svc with tb := { svc.tb with pps := .stepPending } }), 9, 101, by decide +kernel⟩,
   ⟨({ svc with tb := { svc.tb with pps := .holdover } }), 9, 101, by decide +kernel⟩,
   ⟨({ svc with tb := { svc.tb with pps := .tracking, havePrev := true } }), 100020000, 9, 100020001, by decide +kernel⟩,
   ⟨svc, 9, 101, by decide +kernel⟩,
   ⟨({ svc with tb := { svc.tb with pps := .tracking } }), by decide +kernel⟩,
   ⟨svc, by decide +kernel⟩,
   ⟨svc, (.core 0), may (by decide), by decide +kernel⟩,
   ⟨({ svc with tb := { svc.tb with ppsEn := true } }), (.core 0), may (by decide), by decide +kernel⟩,
   ⟨svc, (.core 0), may (by decide)⟩⟩
theorem witness_TimeCommandsComplete_2 :
    (∃ (s : State) (ag : Agent), mayWrite s ag ∧ (∀ c ∈ s.su.chans, chanActive c.2.st = false)) ∧
    (∃ (s : State) (ag : Agent) (c : Nat × Chan), mayWrite s ag ∧ c ∈ s.su.chans ∧ chanActive c.2.st = true) ∧
    (∃ (s : State) (i : Nat) (r : LoReg) (v : Nat), v = pairValue s r ∧ i < 5 ∧ r.wf = true ∧ r ≠ .glbSerial) ∧
    (∃ (s : State) (j w r sub : Nat), j < 16 ∧ 50 ≤ w ∧ 50 ≤ r ∧ sub < 10 ∧ s.rpm.asserted.any isCold = false ∧ s.tb.ltSeen.getLsbD j =
         false) :=
  ⟨⟨svc, (.core 0), may (by decide), by decide +kernel⟩,
   ⟨(str { st := .running }), (.core 0), (0, (str { st := .running }).chan 0), may (by decide), by decide +kernel⟩,
   ⟨svc, 4, (.pmonCnt 255), _, rfl, by decide +kernel⟩,
   ⟨svc, 15, 18446744073709551616, 18446744073709551616, 9, by decide +kernel⟩⟩
theorem witness_RejectedEdges :
    (∃ (s : State) (n sub w : Nat), s.rpm.asserted.any isCold = false ∧ s.tb.pps ≠ .free ∧ s.tb.havePrev = true ∧ sub < 10 ∧ 100 ≤ w ∧
         (s.tb.rawSince + n < 99980000 ∨ 100020000 < s.tb.rawSince + n)) ∧
    (∃ (s : State) (j w r sub : Nat), j < 16 ∧ 50 ≤ w ∧ 50 ≤ r ∧ sub < 10 ∧ s.tb.ltSeen.getLsbD j = true ∧ s.tb.count < 2 ^ 64 ∧
         s.tb.frac < 2 ^ 32 ∧ stampAt sub s < s.tb.ltLast.get 0 j + 450) ∧
    (∃ (j w r sub : Nat), j < 16 ∧ sub < 10 ∧ (w < 10 ∨ r < 10)) :=
  ⟨⟨({ svc with tb := { svc.tb with pps := .tracking, havePrev := true } }), 100020001, 9, 100020001, by decide +kernel⟩,
   ⟨({ svc with tb := { svc.tb with count := 1000, ltSeen := 1, ltLast := [(0, 551)] } }), 0, 18446744073709551616,
        18446744073709551616, 9, by decide +kernel⟩,
   ⟨15, 9, 50, 9, by decide +kernel⟩⟩
theorem witness_TimebaseMoves :
    (∃ (s : State) (w : Nat), 100 ≤ w ∧ s.rpm.asserted.any isCold = false ∧ s.tb.pps = .stepPending ∧ s.tb.havePrev = false ∧ s.tb.count
         < 2 ^ 63 ∧ s.tb.frac < 2 ^ 32) ∧
    (∃ (s : State), s.pending = [] ∧ s.rpm.asserted.any isCold = true) ∧
    (∃ (s : State), s.pending = [] ∧ s.rpm.asserted.any isCold = false ∧ s.tb.frac < 2 ^ 32 ∧ s.tb.count + 2 ^ 32 < 2 ^ 64 ∧ -429497 ≤
         s.tb.adj ∧ s.tb.adj ≤ 429497) :=
  ⟨⟨({ svc with tb := { svc.tb with pps := .stepPending } }), 9223372036854775808, by decide +kernel⟩,
   ⟨State.reset, by decide +kernel⟩,
   ⟨svc, by decide +kernel⟩⟩
theorem witness_TimebaseReads :
    (∃ (s : State) (ag : Agent), ((∃ (i : Nat), i < 5 ∧ ag = .core i) ∨ ag = .ic ∨ ∃ (p : Nat) (f : Nat), p < 10 ∧ f < 16 ∧ fnReached s
         p f = true ∧ (s.fn p f).d3 = false ∧ ag = .fn p f) ∧ s.tb.count < 2 ^ 64) ∧
    (∃ (s : State) (i : Nat), coreReady s i ∧ i ≠ s.cc.icCore ∧ i < 5 ∧ (s.cpu i).sb = [] ∧ s.tb.count < 2 ^ 64) ∧
    (∃ (i n : Nat), i < 5 ∧ n ∈ [1, 2, 4, 8]) ∧
    (∃ (p f n : Nat), p < 10 ∧ f < 16 ∧ n ∈ [1, 2, 4, 8]) ∧
    (∃ (n : Nat), n ∈ [1, 2, 4, 8]) :=
  ⟨⟨svc, (.core 4), .inl ⟨4, by decide, rfl⟩, by decide +kernel⟩,
   ⟨svc, 3, by decide +kernel⟩,
   ⟨4, 8, by decide +kernel⟩,
   ⟨9, 15, 8, by decide +kernel⟩,
   ⟨8, by decide +kernel⟩⟩
theorem witness_TurfCommandsComplete :
    (∃ (s : State) (rq : Rq) (id base size rtype : Nat), sentOk (.turfCreate rq id base size rtype) s rq 0x0100 ∧ id < 256 ∧ rtype < 2 ∧
         s.turf id = none ∧ badRange s base size = false ∧ turfCount s < 256) ∧
    (∃ (s : State) (rq : Rq) (id : Nat) (t : Turf), sentOk (.turfDestroy rq id) s rq 0x0101 ∧ s.turf id = some t ∧ id < 256 ∧ t.grants =
         [] ∧ jobReaches s t.base (t.base + t.size) = false) ∧
    (∃ (s : State) (rq : Rq) (id size : Nat) (t : Turf), sentOk (.turfResize rq id size) s rq 0x0102 ∧ s.turf id = some t ∧ id < 256 ∧ 0
         < size ∧ size % 2 ^ 21 = 0 ∧ t.size ≤ size ∧ (t.size = size ∨ t.base + size ≤ uBytes s ∧ turfOverlaps s id (t.base + t.size)
         (t.base + size) = false)) ∧
    (∃ (s : State) (rq : Rq) (id size : Nat) (t : Turf), sentOk (.turfResize rq id size) s rq 0x0102 ∧ s.turf id = some t ∧ id < 256 ∧ 0
         < size ∧ size % 2 ^ 21 = 0 ∧ size < t.size ∧ anyReaches s (t.base + size) (t.base + t.size) = false ∧ jobReaches s (t.base +
         size) (t.base + t.size) = false) ∧
    (∃ (s : State) (rq : Rq) (id mask reserve cap deadline rtype : Nat) (t u : Turf), sentOk (.turfSet rq id mask reserve cap deadline
         rtype) s rq 0x0103 ∧ s.turf id = some t ∧ u = turfSetTo (pairPool s) mask reserve cap deadline rtype t ∧ id < 256 ∧ turfSetBad
         mask reserve cap deadline rtype = false ∧ (u.reserve ≤ t.reserve ∨ 4 * (otherReserves s id + u.reserve) ≤ 3 * pairPool s) ∧
         u.reserve ≤ u.cap ∧ (u.device = t.device ∨ t.grants = [])) ∧
    (∃ (s : State) (rq : Rq) (id : Nat) (g : Agent) (access : Nat) (t : Turf), sentOk (.turfGrant rq id g access) s rq 0x0104 ∧ s.turf
         id = some t ∧ id < 256 ∧ isGrantee g = true ∧ access < 2 ∧ ((grantOf t g).isSome = true ∨ t.grants.length < 64 ∧ grantCount s <
         1024) ∧ granteePresent s g = true) ∧
    (∃ (s : State) (rq : Rq) (id : Nat) (g : Agent) (t : Turf), sentOk (.turfRevoke rq id g) s rq 0x0105 ∧ s.turf id = some t ∧ id < 256
         ∧ isGrantee g = true ∧ (grantOf t g).isSome = true ∧ agentReaches s g t.base (t.base + t.size) = false) ∧
    (∃ (s : State) (rq : Rq) (id : Nat) (t : Turf), sentOk (.turfQuery rq id) s rq 0x0106 ∧ s.turf id = some t ∧ id < 256 ∧ turfSeen s
         rq t = true) ∧
    (∃ (s : State) (rq : Rq), sentOk (.turfQuery rq allOnes) s rq 0x0106 ∧ s.turf allOnes = none) :=
  ⟨⟨svc, rqM, 255, 0x200000, 0x200000, 1, sent (by decide +kernel), by decide +kernel⟩,
   ⟨svc, rqM, 2, _, sent (by decide +kernel), rfl, by decide +kernel⟩,
   ⟨svc, rqM, 1, 0x400000, _, sent (by decide +kernel), rfl, by decide +kernel⟩,
   ⟨svc, rqM, 2, 0x200000, _, sent (by decide +kernel), rfl, by decide +kernel⟩,
   ⟨svc, rqM, 2, 3, 8, 260, 0, 0, _, _, sent (by decide +kernel), rfl, rfl, by decide +kernel⟩,
   ⟨svc, rqM, 2, .ic, 1, _, sent (by decide +kernel), rfl, by decide +kernel⟩,
   ⟨svc, rqM, 1, .ic, _, sent (by decide +kernel), rfl, by decide +kernel⟩,
   ⟨svc, rqM, 2, _, sent (by decide +kernel), rfl, by decide +kernel⟩,
   ⟨svc, rqM, sent (by decide +kernel), by decide +kernel⟩⟩
theorem witness_WindowsAndDecodersComplete :
    (∃ (s : State) (rq : Rq) (fn : Agent) (base len p f : Nat), sentOk (.windowMap rq fn base len) s rq 0x0107 ∧ fn = .fn p f ∧
         (hasAdmin s rq.ch = true ∨ senderOf s rq.ch = fn) ∧ plainFn s fn = true ∧ base % 2 ^ 21 = 0 ∧ len % 2 ^ 21 = 0 ∧ len ≤ 2 ^
         (s.port p).bar2Log2 ∧ covered s (mayReach fn false) base (base + len) = true) ∧
    (∃ (s : State) (b : Nat), b < 2 ^ 30 ∧ b ∈ s.te.unmaps ∧ homedHere s (b / 32) = true ∧ (s.seg (b / 32)).migrating = false ∧
         unmapIdle s b = true) ∧
    (∃ (s : State) (b : Nat), b < 2 ^ 30 ∧ (b ∉ s.te.unmaps ∨ unmapIdle s b = false)) ∧
    (∃ (s : State) (p l k base size ways gran pos skip : Nat) (lock : Bool), (Instr.hdmDecoderCommit p l k base size ways gran pos skip
         lock true).wf = true ∧ fnReached s p l = true ∧ (s.port p).plain = false ∧ ((s.ld p l).decs.get {} k).committed = false) ∧
    (∃ (s : State) (p l k base size ways gran pos skip : Nat) (lock : Bool), (Instr.hdmDecoderCommit p l k base size ways gran pos skip
         lock true).wf = true ∧ ((s.ld p l).decs.get {} k).committed = true) :=
  ⟨⟨pln, rqM, _, 0, 0x200000, 2, 0, sent (by decide +kernel), rfl, by decide +kernel⟩,
   ⟨({ svc with te := { svc.te with unmaps := [3] } }), 3, by decide +kernel⟩,
   ⟨svc, 1073741823, by decide +kernel⟩,
   ⟨(svc.modPort 2 (fun x => { x with plain := false })), 2, 0, 7, 268435457, 268435457, 7, 15, 15, 268435457, false, by decide +kernel⟩,
   ⟨hst, 0, 0, 0, 17, 0x10000000, 7, 15, 15, 17, false, by decide +kernel⟩⟩
theorem witness_LineRequestsComplete :
    (∃ (s : State) (m : MReq) (d : Nat), cxlDpa s m = some d ∧ m.wf = true ∧ cxlServes s m = true ∧ notReady s = false) ∧
    (∃ (s : State) (m : MReq) (d id : Nat) (t : Turf), cxlDpa s m = some d ∧ turfAt s d = some (id, t) ∧ m.wf = true ∧ cxlServes s m =
         true ∧ notReady s = false ∧ mayReach (.fn m.port m.ld) true t = true) ∧
    (∃ (m : MReq), m.wf = true) ∧
    (∃ (s : State) (m : MReq) (op : Nat), m.wf = true ∧ op < 16 ∧ cxlServes s m = true) ∧
    (∃ (s : State) (m : MReq) (op : Nat), m.wf = true ∧ op < 16 ∧ cxlServes s m = false) :=
  ⟨⟨hst, mrq, _, rfl, by decide +kernel⟩,
   ⟨hst, mrq, _, _, _, rfl, rfl, by decide +kernel⟩,
   ⟨mrq, by decide +kernel⟩,
   ⟨svc, mrq, 15, by decide +kernel⟩,
   ⟨State.reset, mrq, 15, by decide +kernel⟩⟩
theorem witness_LineRequestsWithoutEffect :
    (∃ (s : State) (m : MReq), m.wf = true ∧ cxlServes s m = true ∧ notReady s = false ∧ cxlDpa s m = none) ∧
    (∃ (s : State) (m : MReq) (id : Nat) (t' : Turf) (d : Nat), cxlDpa s m = some d ∧ turfAt s d = some (id, t') ∧ m.wf = true ∧
         cxlServes s m = true ∧ notReady s = false ∧ mayReach (.fn m.port m.ld) true t' = false) ∧
    (∃ (s : State) (m : MReq) (d : Nat), cxlDpa s m = some d ∧ m.wf = true ∧ cxlServes s m = true ∧ notReady s = false) :=
  ⟨⟨svc, mrq, by decide +kernel⟩,
   ⟨({ hst with te := { hst.te with turfs := [(1, some { turfT with grants := [⟨.fn 0 0, false⟩] })] } }), mrq, _, _, _, rfl, rfl, by
        decide +kernel⟩,
   ⟨hst, mrq, _, rfl, by decide +kernel⟩⟩
theorem witness_FunctionRequestsComplete :
    (∃ (s : State) (p f tag off len : Nat) (rd : List RdRes) (d : Nat), barDpa s p f off len = some d ∧ (Instr.bar2Read p f tag off len
         rd).wf = true ∧ barServes s p f = true ∧ (s.fn p f).d3 = false ∧ notReady s = false) ∧
    (∃ (s : State) (p f off : Nat) (bytes : List Byte) (relaxed : Bool) (rd : List RdRes) (d : Nat), barDpa s p f off bytes.length =
         some d ∧ (Instr.bar2Write p f off bytes relaxed false rd).wf = true ∧ barServes s p f = true ∧ (s.fn p f).d3 = false ∧ notReady
         s = false ∧ covered s (mayReach (.fn p f) true) d (d + bytes.length) = true) ∧
    (∃ (s : State) (p f tag : Nat), (Instr.atomicopRequest p f tag).wf = true ∧ fnReached s p f = true) ∧
    (∃ (s : State) (p f off : Nat) (v : Word), (Instr.configurationRequest p f off (some v)).wf = true ∧ portServes s p = true ∧ f ∈
         portFns s p) ∧
    (∃ (s : State) (p f off : Nat), (Instr.configurationRequest p f off none).wf = true ∧ portServes s p = true ∧ f ∈ portFns s p) ∧
    (∃ (s : State) (p f off : Nat) (wr : Option Word), (Instr.configurationRequest p f off wr).wf = true ∧ portServes s p = true ∧ f ∉
         portFns s p) ∧
    (∃ (s : State) (p : Nat), p < 10 ∧ portServes s p = true ∧ (s.port p).plain = false) ∧
    (∃ (s : State) (p f : Nat), fnOk p f = true ∧ fnReached s p f = true) :=
  ⟨⟨pln, 2, 0, 16383, 0x1FFFFC, 4, [], _, rfl, by decide +kernel⟩,
   ⟨pln, 2, 0, 0x1FFFFF, [1], false, [], _, rfl, by decide +kernel⟩,
   ⟨svc, 2, 0, 16383, by decide +kernel⟩,
   ⟨svc, 2, 0, 256, 6, by decide +kernel⟩,
   ⟨svc, 2, 0, 256, by decide +kernel⟩,
   ⟨svc, 2, 255, 256, none, by decide +kernel⟩,
   ⟨(svc.modPort 2 (fun x => { x with plain := false })), 2, by decide +kernel⟩,
   ⟨svc, 2, 0, by decide +kernel⟩⟩
theorem witness_ConfigurationSpace : ∃ (s : State) (p f : Nat), portServes s p = true ∧ f ∈ portFns s p ∧ p < 10 ∧ f < 256 :=
  ⟨svc, 2, 0, by decide +kernel⟩
theorem witness_HostWriteStoresOneLine : ∃ (s : State) (a : Acc) (f : Nat) (d : Line), a.wr = some (d, fullMask) ∧ s.te.map.get
    .unmapped a.billet = .res f ∧ a.kind = .cxlWr ∧ a.rd = [] ∧ notReady s = false ∧ failingOver s = false ∧ s.tu.ps = .unpaired ∧
    s.tu.record.pairId = 0 ∧ (s.frame f).st = .dirty ∧ (s.frame f).counted = true ∧ devStalled s f = false :=
  ⟨({ svc with te := { svc.te with map := [(0, .res 5)], frames := [(5, { st := .dirty, counted := true })] } }),
      { kind := .cxlWr, dpa := 0xFFC0, wr := some (7, fullMask) }, _, _, rfl, rfl, by decide +kernel⟩
theorem witness_HostReadReturnsTheLine :
    (∃ (s : State) (a : Acc) (f : Nat), s.te.map.get .unmapped a.billet = .res f ∧ a.kind = .cxlRd ∧ a.wr = none ∧ a.rd = [] ∧ notReady
         s = false ∧ s.tu.ps = .unpaired ∧ (s.frame f).st ∈ [.clean, .dirty] ∧ devStalled s f = false) ∧
    (∃ (s : State) (a : Acc), a.kind = .cxlRd ∧ a.wr = none ∧ a.rd = [] ∧ notReady s = false ∧ s.tu.ps = .unpaired ∧ s.te.map.get
         .unmapped a.billet = .unmapped) ∧
    (∃ (s : State) (a : Acc), a.kind = .cxlRd ∧ a.wr = none ∧ a.rd = [] ∧ notReady s = false ∧ s.tu.ps = .unpaired ∧ s.te.map.get
         .unmapped a.billet = .poisoned) :=
  ⟨⟨nol, { kind := .cxlRd, dpa := 0x40 }, _, rfl, by decide +kernel⟩,
   ⟨svc, { kind := .cxlRd, dpa := 0x40 }, by decide +kernel⟩,
   ⟨({ svc with te := { svc.te with map := [(0, .poisoned)] } }), { kind := .cxlRd, dpa := 0x40 }, by decide +kernel⟩⟩
theorem witness_FrontTierEventsComplete_1 :
    (∃ (s : State) (f l : Nat), f < 2 ^ 21 ∧ l < 1024 ∧ (f, l) ∈ s.ft.wb) ∧
    (∃ (s : State) (f l : Nat), f < 2 ^ 21 ∧ l < 1024 ∧ (f, l) ∉ s.ft.wb) ∧
    (∃ (s : State) (d m : Nat), d < 32 ∧ m < 256 ∧ devRetired s d = false ∧ minMargin s.ft.band * 256 ≤ m * 100) ∧
    (∃ (s : State) (d m r : Nat), d < 32 ∧ m < 256 ∧ devRetired s d = false ∧ m * 100 < minMargin s.ft.band * 256 ∧ minMargin s.ft.band
         * 256 ≤ r * 100) ∧
    (∃ (s : State) (d m r : Nat), d < 32 ∧ m < 256 ∧ devRetired s d = false ∧ m * 100 < minMargin s.ft.band * 256 ∧ r * 100 < minMargin
         s.ft.band * 256) ∧
    (∃ (s : State) (d m : Nat), d < 32 ∧ m < 256 ∧ devRetired s d = false) ∧
    (∃ (s : State) (d m : Nat), d < 32 ∧ m < 256 ∧ devRetired s d = true) ∧
    (∃ (temps : List Int), temps.length = 32) ∧
    (∃ (s : State), ftWorks s = true ∧ devActive s (frameDev s.ft.patFrame) = true) ∧
    (∃ (s : State), ftWorks s = true ∧ devActive s (frameDev s.ft.patFrame) = false) :=
  ⟨⟨({ svc with ft := { svc.ft with wb := [(2097151, 1023)] } }), 2097151, 1023, by decide +kernel⟩,
   ⟨svc, 2097151, 1023, by decide +kernel⟩,
   ⟨svc, 31, 255, by decide +kernel⟩,
   ⟨svc, 31, 33, 257, by decide +kernel⟩,
   ⟨svc, 31, 33, 33, by decide +kernel⟩,
   ⟨svc, 31, 255, by decide +kernel⟩,
   ⟨({ svc with ft := { svc.ft with dev := [(31, { st := 2 })] } }), 31, 255, by decide +kernel⟩,
   ⟨(List.replicate 32 50), by decide +kernel⟩,
   ⟨svc, by decide +kernel⟩,
   ⟨({ svc with ft := { svc.ft with dev := [(0, { st := 2 })], patFrame := 0 } }), by decide +kernel⟩⟩
theorem witness_FrontTierEventsComplete_2 :
    (∃ (s : State), ftWorks s = false) ∧
    (∃ (s : State) (q : RowSpare) (l : List RowSpare), s.ft.spareQ = q :: l ∧ devRetired s q.dev = false ∧ q.next < 55) ∧
    (∃ (s : State) (q : RowSpare) (l : List RowSpare), s.ft.spareQ = q :: l ∧ devRetired s q.dev = false ∧ q.next = 55) ∧
    (∃ (s : State), s.ft.spareQ = []) :=
  ⟨⟨State.reset, by decide +kernel⟩,
   ⟨({ svc with ft := { svc.ft with spareQ := [⟨1, 2, 3, 54⟩] } }), _, _, rfl, by decide +kernel⟩,
   ⟨({ svc with ft := { svc.ft with spareQ := [⟨1, 2, 3, 55⟩] } }), _, _, rfl, by decide +kernel⟩,
   ⟨svc, by decide +kernel⟩⟩
theorem witness_FrontTierCommandsComplete :
    (∃ (s : State) (f g : Nat), memOk s ∧ freeFrame s = some g ∧ f < 2 ^ 21 ∧ (s.ftDev (frameDev f)).st = 1 ∧ (s.frame f).st = .dirty ∧
         g ≠ f) ∧
    (∃ (s : State) (f : Nat), f < 2 ^ 21 ∧ (s.ftDev (frameDev f)).st ≠ 1) ∧
    (∃ (s : State) (d : Nat) (u : State), d < 32 ∧ (s.ftDev d).st = 1 ∧ (∀ kv ∈ s.te.frames, frameDev kv.1 ≠ d ∨ frUsed kv.2.st = false)
         ∧ s.ft.retireDev = none ∧ (tablePages s d).foldl moveTable (some s) = some u ∧ u.ft.retireDev = none) ∧
    (∃ (s : State) (d : Nat), d < 32 ∧ (s.ftDev d).st ≠ 1) ∧
    (∃ (s : State) (i : Nat), i < 5 ∧ s.ft.rawEn = true ∧ devRetired s s.ft.rawDev = false ∧ rawTarget s s.ft.rawDev s.ft.rawLine =
         true) ∧
    (∃ (s : State) (i : Nat), i < 5 ∧ s.ft.rawEn = false) ∧
    (∃ (i : Nat), i < 5) ∧
    (∃ (s : State) (rq : Rq), sentOk (.frontQuery rq) s rq 0x0200) ∧
    (∃ (s : State) (rq : Rq) (d : Nat), sentOk (.frontRetire rq d) s rq 0x0201 ∧ d < 32 ∧ (s.ftDev d).st = 0 ∧ retiredCount s < 2) ∧
    (∃ (s : State) (rq : Rq) (g : Nat), sentOk (.dirtyCeilingSet rq g) s rq 0x0202 ∧ 0 < g ∧ g ≤ 16 ∧ g ≤ s.eu.ceilSupported) ∧
    (∃ (s : State) (rq : Rq) (op d q : Nat) (data : Line) (check : BitVec 64) (t : State), sentOk (.frontRaw rq op d q data check) s rq
         0x0203 ∧ t = rawOp (op + 1)
         { begun s rq 0x0203 with ft := { s.ft with rawDev := d, rawLine := q, rawData := if op = 0 then data else s.ft.rawData, rawCheck := if op = 0 then check else s.ft.rawCheck } }
         ∧ op < 3 ∧ d < 32 ∧ q < 2 ^ 26 ∧ s.ft.rawEn = true ∧ devRetired s d = false ∧ rawTarget s d q = true) :=
  ⟨⟨({ svc with te := { svc.te with frames := [(700005, { st := .dirty, billet := 3 })], map := [(3, .res 700005)] }, ft := { svc.ft with dev := [(frameDev 700005, { st := 1 })] } }),
        700005, _, by constructor <;> decide +kernel, rfl, by decide +kernel⟩,
   ⟨svc, 2097151, by decide +kernel⟩,
   ⟨({ svc with te := { svc.te with uGib := 0, kindRet := 0x80000000 }, ft := { svc.ft with dev := [(31, { st := 1 })] } }), 31,
        ({ svc with te := { svc.te with uGib := 0, kindRet := 0x80000000 }, ft := { svc.ft with dev := [(31, { st := 1 })] } }), by
        decide +kernel⟩,
   ⟨svc, 31, by decide +kernel⟩,
   ⟨({ svc with ft := { svc.ft with rawEn := true, rawDev := 31, rawLine := 20480000 } }), 4, by decide +kernel⟩,
   ⟨svc, 4, by decide +kernel⟩,
   ⟨4, by decide +kernel⟩,
   ⟨svc, rqM, sent (by decide +kernel)⟩,
   ⟨svc, rqM, 31, sent (by decide +kernel), by decide +kernel⟩,
   ⟨({ svc with eu := { svc.eu with ceilSupported := 16 } }), rqM, 16, sent (by decide +kernel), by decide +kernel⟩,
   ⟨({ svc with ft := { svc.ft with rawEn := true } }), rqM, 2, 31, 20480000, 0, 0, _, sent (by decide +kernel), rfl, by decide +kernel⟩⟩
theorem witness_TierEngineEventsComplete_1 :
    (∃ (s : State), 0 < s.te.pool) ∧
    (∃ (s : State) (f : Nat), bgEvict s = some f) ∧
    (∃ (s : State), bgEvict s = none) ∧
    (∃ (s : State) (f : Nat), f < 2 ^ 21 ∧ (s.frame f).st = .evicting) ∧
    (∃ (s : State) (f : Nat), f < 2 ^ 21 ∧ (s.frame f).st = .evicting ∧ pinned s (s.frame f).billet = false) ∧
    (∃ (s : State) (f : Nat), f < 2 ^ 21 ∧ (s.frame f).st = .evicting ∧ pinned s (s.frame f).billet = true) ∧
    (∃ (s : State) (f : Nat), f < 2 ^ 21 ∧ (s.frame f).st ≠ .evicting) ∧
    (∃ (s : State) (f u loc : Nat) (su : Susp) (v : State), (s.frame f).mediaLoc = some loc ∧ (s.frame f).todo.head? = some u ∧ v =
         suspends loc su ((mediaBusy s).modFrame f (fun x => { x with todo := x.todo.drop 1 })) ∧ f < 2 ^ 21 ∧ u < 16 ∧ su.wf = true ∧
         (s.frame f).st = .filling ∧ (s.frame f).src = .media ∧ ncStalled s loc = false ∧ saltHeld v loc = true) ∧
    (∃ (s : State) (f u loc : Nat) (su : Susp) (v : State), (s.frame f).mediaLoc = some loc ∧ (s.frame f).todo.head? = some u ∧ v =
         suspends loc su ((mediaBusy s).modFrame f (fun x => { x with todo := x.todo.drop 1 })) ∧ f < 2 ^ 21 ∧ u < 16 ∧ su.wf = true ∧
         (s.frame f).st = .filling ∧ (s.frame f).src = .media ∧ ncStalled s loc = false ∧ saltHeld v loc = false) ∧
    (∃ (s : State) (f u loc : Nat) (su : Susp) (v : State), (s.frame f).mediaLoc = some loc ∧ (s.frame f).todo.head? = some u ∧ v =
         suspends loc su ((mediaBusy s).modFrame f (fun x => { x with todo := x.todo.drop 1 })) ∧ f < 2 ^ 21 ∧ u < 16 ∧ su.wf = true ∧
         (s.frame f).st = .filling ∧ (s.frame f).src = .media ∧ ncStalled s loc = false) :=
  ⟨⟨svc, by decide +kernel⟩,
   ⟨nol, _, rfl⟩,
   ⟨svc, by decide +kernel⟩,
   ⟨({ svc with te := { svc.te with frames := [(5, { st := .evicting })] } }), 5, by decide +kernel⟩,
   ⟨({ svc with te := { svc.te with frames := [(5, { st := .evicting })] } }), 5, by decide +kernel⟩,
   ⟨({ svc with su := { svc.su with chans := [(0, { pinned := [7] })] }, te := { svc.te with map := [(7, .media 9)], frames := [(5, { st := .evicting, billet := 7 })] } }),
        5, by decide +kernel⟩,
   ⟨svc, 2097151, by decide +kernel⟩,
   ⟨({ svc with te := { svc.te with map := [(7, .res 5)], frames := [(5, { st := .filling, mediaLoc := some 9, billet := 7, todo := [0] })] }, mc := { svc.mc with slots := [(9, some ⟨7, 1, 0, 0, 0, 0xFFFF, 0, 0, 0⟩)] } }),
        5, _, _, .none, _, rfl, rfl, rfl, by decide +kernel⟩,
   ⟨({ svc with te := { svc.te with map := [(7, .res 5)], frames := [(5, { st := .filling, mediaLoc := some 9, billet := 7, todo := [15] })] }, mc := { svc.mc with slots := [(9, some ⟨7, 1, 0, 5, 0, 0xFFFF, 0, 0, 0⟩)] } }),
        5, _, _, .none, _, rfl, rfl, rfl, by decide +kernel⟩,
   ⟨({ svc with te := { svc.te with map := [(7, .res 5)], frames := [(5, { st := .filling, mediaLoc := some 9, billet := 7, todo := [0] })] }, mc := { svc.mc with slots := [(9, some ⟨7, 1, 0, 0, 0, 0xFFFF, 0, 0, 0⟩)] } }),
        5, _, _, .none, _, rfl, rfl, rfl, by decide +kernel⟩⟩
theorem witness_TierEngineEventsComplete_2 :
    (∃ (s : State) (f u : Nat) (su : Susp), f < 2 ^ 21 ∧ u < 16 ∧ su.wf = true ∧ (s.frame f).todo.head? ≠ some u) ∧
    (∃ (s : State) (f l : Nat), f < 2 ^ 21 ∧ l < 1024 ∧ (s.frame f).st = .filling ∧ (s.frame f).src = .zeros) ∧
    (∃ (s : State) (f l : Nat), f < 2 ^ 21 ∧ l < 1024 ∧ (s.frame f).st = .filling ∧ (s.frame f).src = .poison) ∧
    (∃ (s : State) (f l g : Nat), (s.frame f).copyFrom = some g ∧ f < 2 ^ 21 ∧ l < 1024 ∧ (s.frame f).st = .filling ∧ (s.frame f).src =
         .copy) ∧
    (∃ (s : State) (p g : Nat), (s.look p).miss = some (g, false) ∧ p < 10) ∧
    (∃ (s : State) (p g : Nat), (s.look p).miss = some (g, true) ∧ p < 10) ∧
    (∃ (s : State) (p : Nat), p < 10 ∧ (s.look p).miss = none) ∧
    (∃ (s : State) (ag : Agent) (p : Nat), mayWrite s ag ∧ p < 10) ∧
    (∃ (s : State) (f l : Nat), f < 2 ^ 21 ∧ l < 1024 ∧ s.te.waits.any (cheaperAsks s f l) = true) ∧
    (∃ (s : State) (f l : Nat), f < 2 ^ 21 ∧ l < 1024 ∧ s.te.waits.any (cheaperAsks s f l) = false) :=
  ⟨⟨svc, 2097151, 15, .none, by decide +kernel⟩,
   ⟨({ svc with te := { svc.te with frames := [(5, { st := .filling, src := .zeros })] } }), 5, 1023, by decide +kernel⟩,
   ⟨({ svc with te := { svc.te with frames := [(5, { st := .filling, src := .poison })] } }), 5, 1023, by decide +kernel⟩,
   ⟨({ svc with te := { svc.te with frames := [(5, { st := .filling, src := .copy, copyFrom := some 6 })] } }), 5, 1023, _, rfl, by
        decide +kernel⟩,
   ⟨({ svc with te := { svc.te with look := [(9, { miss := some (3, false) })] } }), 9, _, rfl, by decide +kernel⟩,
   ⟨({ svc with te := { svc.te with look := [(9, { miss := some (3, true) })] } }), 9, _, rfl, by decide +kernel⟩,
   ⟨svc, 9, by decide +kernel⟩,
   ⟨svc, (.core 0), 9, may (by decide), by decide +kernel⟩,
   ⟨({ twn with tb := { twn.tb with count := 1000000 }, te := { twn.te with map := [(7, .res 5)], frames := [(5, { st := .filling, mediaLoc := some 9, billet := 7, todo := [3] })], waits := [{ acc := { dpa := 7 * 65536, kind := .cxlRd }, why := .line }], turfs := [(1, some { turfT with deadline := 120 })] }, mc := { twn.mc with slots := [(9, some ⟨7, 1, 0, 0, 0, 0xFFFF, 0, 0, 0⟩)] } }),
        5, 0, by decide +kernel⟩,
   ⟨svc, 2097151, 1023, by decide +kernel⟩⟩
theorem witness_DestageCompletes :
    (∃ (s : State) (f : Nat) (d : Destage) (rds : List (Nat × List RdRes)) (u : State), findDestage s f = some d ∧ u = rds.foldl
         (destageRead f) s ∧ f < 2 ^ 21 ∧ rdsOk rds = true ∧ u.sec.halt = s.sec.halt) ∧
    (∃ (s : State) (f : Nat) (rds : List (Nat × List RdRes)), f < 2 ^ 21 ∧ rdsOk rds = true ∧ findDestage s f = none) ∧
    (∃ (s : State) (f : Nat) (d : Destage), findDestage s f = some d ∧ linkUp s = false) ∧
    (∃ (s : State) (f : Nat) (d : Destage) (u : State), findDestage s f = some d ∧ u = (toAsh (locSet s d.loc) (parityAfter d.loc
         (leaveRow d.loc (dropDestage f s)))).modFrame f (fun x => { x with fails := (s.frame f).fails + 1 }) ∧ f < 2 ^ 21 ∧ 2 ≤ (s.frame
         f).fails) ∧
    (∃ (s : State) (f : Nat) (d : Destage) (u : State) (loc : Nat) (t : State), findDestage s f = some d ∧ u = (toAsh (locSet s d.loc)
         (parityAfter d.loc (leaveRow d.loc (dropDestage f s)))).modFrame f (fun x => { x with fails := (s.frame f).fails + 1 }) ∧
         destageSlotNext d.ember u = some (loc, t) ∧ f < 2 ^ 21 ∧ (s.frame f).fails < 2) ∧
    (∃ (s : State) (f : Nat), f < 2 ^ 21 ∧ findDestage s f = none) ∧
    (∃ (s : State) (b : Nat) (t : State) (f : Nat), t = { s with mc := { s.mc with retry := s.mc.retry.erase b } } ∧ s.te.map.get
         .unmapped b = .res f ∧ b < 2 ^ 30 ∧ b ∈ s.mc.retry ∧ bgOk s = true ∧ destageable t f (s.frame f) = true) ∧
    (∃ (s : State) (b : Nat) (t : State) (f : Nat), t = { s with mc := { s.mc with retry := s.mc.retry.erase b } } ∧ s.te.map.get
         .unmapped b = .res f ∧ b < 2 ^ 30 ∧ b ∈ s.mc.retry ∧ (bgOk s = false ∨ destageable t f (s.frame f) = false)) ∧
    (∃ (s : State) (b : Nat), b < 2 ^ 30 ∧ b ∉ s.mc.retry) :=
  ⟨⟨({ svc with te := { svc.te with map := [(7, .res 5)], frames := [(5, { st := .destaging, billet := 7, counted := true, fails := 0 })] }, mc := { svc.mc with destages := [⟨5, 9, 12, 1, [], false, 0⟩] } }),
        5, _, [], _, rfl, rfl, by decide +kernel⟩,
   ⟨svc, 2097151, [], by decide +kernel⟩,
   ⟨({ svc with te := { svc.te with map := [(7, .res 5)], frames := [(5, { st := .destaging, billet := 7, counted := true, fails := 0 })] }, mc := { svc.mc with destages := [⟨5, 9, 12, 1, [], false, 0⟩] } }),
        5, _, rfl, by decide +kernel⟩,
   ⟨({ svc with te := { svc.te with map := [(7, .res 5)], frames := [(5, { st := .destaging, billet := 7, counted := true, fails := 2 })] }, mc := { svc.mc with destages := [⟨5, 9, 12, 1, [], false, 0⟩] } }),
        5, _, _, rfl, rfl, by decide +kernel⟩,
   ⟨({ svc with te := { svc.te with map := [(7, .res 5)], frames := [(5, { st := .destaging, billet := 7, counted := true, fails := 0 })] }, mc := { svc.mc with destages := [⟨5, 9, 12, 1, [], false, 0⟩] } }),
        5, _, _, _, _, rfl, rfl, rfl, by decide +kernel⟩,
   ⟨svc, 2097151, by decide +kernel⟩,
   ⟨({ svc with te := { svc.te with map := [(7, .res 5)], frames := [(5, { st := .dirty, billet := 7, counted := true })] }, mc := { svc.mc with retry := [7] } }),
        7, _, _, rfl, rfl, by decide +kernel⟩,
   ⟨({ svc with te := { svc.te with map := [(7, .res 5)], frames := [(5, { st := .clean, billet := 7, counted := true })] }, mc := { svc.mc with retry := [7] } }),
        7, _, _, rfl, rfl, by decide +kernel⟩,
   ⟨svc, 1073741823, by decide +kernel⟩⟩
theorem witness_MediaWorkCompletes_1 :
    (∃ (s : State) (rn : Nat) (r : Row) (failing : List Nat), s.row rn = some r ∧ failing.all (fun x => decide (x < 2 ^ 35)) = true ∧
         r.closed = true ∧ r.parityHeld = true ∧ r.verified = false ∧ bgOk s = true) ∧
    (∃ (s : State) (rn : Nat) (failing : List Nat), failing.all (fun x => decide (x < 2 ^ 35)) = true ∧ (bgOk s = false ∨ s.row rn =
         none ∨ ∃ (r : Row), s.row rn = some r ∧ (r.closed = false ∨ r.parityHeld = false ∨ r.verified = true))) ∧
    (∃ (s : State) (l n : Nat) (t u : State), n = (if s.mctl.stoke then foldRowSets s else 0) ∧ kilnNext s = some l ∧ t =
         { pauseWait (80 + locChan l) s with mctl := { (pauseWait (80 + locChan l) s).mctl with stokeFreed := (pauseWait (80 + locChan l) s).mctl.stokeFreed - n } }
         ∧ u = count 0x1026 0xFFFF 0 1
         { moveSlot l 2 t with mctl := { (moveSlot l 2 t).mctl with foldCnt := satAdd (2 ^ 64 - 1) (moveSlot l 2 t).mctl.foldCnt 1 } } ∧
         kilnRuns s = true ∧ n ≤ s.mctl.stokeFreed ∧ ncStalled s l = false ∧ isCurrent (moveSlot l 2 t) l = false) ∧
    (∃ (s : State) (l n : Nat) (t : State), n = (if s.mctl.stoke then foldRowSets s else 0) ∧ kilnNext s = some l ∧ t =
         { pauseWait (80 + locChan l) s with mctl := { (pauseWait (80 + locChan l) s).mctl with stokeFreed := (pauseWait (80 + locChan l) s).mctl.stokeFreed - n } }
         ∧ kilnRuns s = true ∧ n ≤ s.mctl.stokeFreed ∧ ncStalled s l = false ∧ isCurrent (moveSlot l 2 t) l = true) ∧
    (∃ (s : State), kilnRuns s = true ∧ s.mctl.stoke = true ∧ s.mctl.stokeFreed < foldRowSets s) ∧
    (∃ (s : State), (kilnRuns s = false ∨ (s.mctl.stoke = true → foldRowSets s ≤ s.mctl.stokeFreed) ∧ ∀ (l : Nat), kilnNext s = some l →
         ncStalled s l = true)) ∧
    (∃ (s : State) (k : Nat), k < 2097152 ∧ erasable s k = true ∧ isLedgerSet s k = false ∧ inEmber s = false) ∧
    (∃ (s : State) (k : Nat), k < 2097152 ∧ erasable s k = true ∧ isLedgerSet s k = false ∧ inEmber s = true) ∧
    (∃ (s : State) (k : Nat), k < 2097152 ∧ (erasable s k = false ∨ isLedgerSet s k = true)) ∧
    (∃ (s : State), bgOk s = true) :=
  ⟨⟨({ svc with mc := { svc.mc with rows := [(0, some { cord := 0, fold := false, sets := [400], parity := [16], next := 0, closed := true, parityHeld := true })], sets := [(400, { st := 2, row := 1 })] } }),
        0, _, [], rfl, by decide +kernel⟩,
   ⟨svc, 34359738369, [], by decide +kernel⟩,
   ⟨kil, _, _, _, _, rfl, rfl, rfl, rfl, by decide +kernel⟩,
   ⟨({ kil with mc := { kil.mc with luns := (List.range 511).map (fun u => (u + 1, { ash := true })) } }), _, _, _, rfl, rfl, rfl, by
        decide +kernel⟩,
   ⟨({ kil with mctl := { kil.mctl with stoke := true, stokeFreed := 0 } }), by decide +kernel⟩,
   ⟨svc, by decide +kernel⟩,
   ⟨({ svc with mc := { svc.mc with sets := [(2097151, { st := 2 })] } }), 2097151, by decide +kernel⟩,
   ⟨({ svc with mc := { svc.mc with sets := [(2097151, { st := 2 })] }, eu := { svc.eu with phase := .flush } }), 2097151, by decide +kernel⟩,
   ⟨svc, 2097151, by decide +kernel⟩,
   ⟨svc, by decide +kernel⟩⟩
theorem witness_MediaWorkCompletes_2 :
    (∃ (s : State), bgOk s = false) ∧
    (∃ (s : State) (k : Nat), k < 2097152 ∧ bgOk s = true ∧ setBusy (s.setRec k) = true ∧ (s.setRec k).sampled = true) ∧
    (∃ (s : State) (k : Nat), k < 2097152 ∧ bgOk s = true ∧ setBusy (s.setRec k) = true ∧ (s.setRec k).sampled = true ∧ (s.setRec
         k).drift < 15) ∧
    (∃ (s : State) (k : Nat), k < 2097152 ∧ bgOk s = true ∧ setBusy (s.setRec k) = true ∧ (s.setRec k).sampled = true ∧ (s.setRec
         k).drift < 14) ∧
    (∃ (s : State) (k : Nat), k < 2097152 ∧ bgOk s = true ∧ setBusy (s.setRec k) = true ∧ (s.setRec k).sampled = true ∧ 15 ≤ (s.setRec
         k).drift ∧ (s.setRec k).refreshOwed = false) ∧
    (∃ (s : State) (bad : List Nat), bad.all (fun u => decide (u < 512)) = true ∧ s.mc.formatted = true) ∧
    (∃ (s : State) (bad : List Nat), bad.all (fun u => decide (u < 512)) = true ∧ s.mc.formatted = false) ∧
    (∃ (s : State) (u : Nat), u < 512 ∧ lunGood s u = true ∧ (s.lun u).unlevelled = true) ∧
    (∃ (s : State) (u : Nat), u < 512 ∧ (lunGood s u = false ∨ (s.lun u).unlevelled = false)) ∧
    (∃ (s : State) (k : Nat), levelVictim s = some k ∧ bgOk s = true ∧ (s.mc.prof.en < 10 * (wearMax s - wearMin s) ∨ s.mctl.idle = true
         ∧ s.mc.prof.en < 20 * (wearMax s - wearMin s))) :=
  ⟨⟨({ kil with ft := { kil.ft with failed := true } }), by decide +kernel⟩,
   ⟨({ svc with mc := { svc.mc with sets := [(2097151, { st := 3, sampled := true, drift := 13 })] } }), 2097151, by decide +kernel⟩,
   ⟨({ svc with mc := { svc.mc with sets := [(2097151, { st := 3, sampled := true, drift := 13 })] } }), 2097151, by decide +kernel⟩,
   ⟨({ svc with mc := { svc.mc with sets := [(2097151, { st := 3, sampled := true, drift := 13 })] } }), 2097151, by decide +kernel⟩,
   ⟨({ svc with mc := { svc.mc with sets := [(2097151, { st := 3, sampled := true, drift := 15 })] } }), 2097151, by decide +kernel⟩,
   ⟨svc, [], by decide +kernel⟩,
   ⟨State.reset, [], by decide +kernel⟩,
   ⟨({ svc with mc := { svc.mc with luns := [(0, { unlevelled := true })] } }), 0, by decide +kernel⟩,
   ⟨svc, 511, by decide +kernel⟩,
   ⟨({ svc with mc := { svc.mc with sets := [(1000, { st := 3, native := !false, erase := 1 }), (1001, { st := 3, native := !false, erase := 200 })] } }),
        _, rfl, by decide +kernel⟩⟩
theorem witness_MediaWorkCompletes_3 :
    (∃ (s : State), (bgOk s = false ∨ levelVictim s = none ∨ 20 * (wearMax s - wearMin s) ≤ s.mc.prof.en ∨ s.mctl.idle = false ∧ 10 *
         (wearMax s - wearMin s) ≤ s.mc.prof.en)) ∧
    (∃ (u : Nat) (lost : List Nat), Instr.wf (.lunStatusTimeout u lost) = true) ∧
    (∃ (s t : State), t = chunkWrite s.mc.chunkNext s ∧ bgOk s = true ∧ s.mc.formatted = true) ∧
    (∃ (s : State), (bgOk s = false ∨ s.mc.formatted = false)) :=
  ⟨⟨svc, by decide +kernel⟩,
   ⟨511, [], by decide +kernel⟩,
   ⟨svc, _, rfl, by decide +kernel⟩,
   ⟨State.reset, by decide +kernel⟩⟩
theorem witness_MediaCommandsComplete :
    (∃ (s : State) (id cls : Nat) (su : Susp) (r : MRead) (u : State), s.mc.reads.find? (fun x => x.id == id && x.step < 6 && !ncStalled
         s x.loc && (x.why != .verify || bgOk s)) = some r ∧ u = (if r.why = .verify then s else suspends r.loc su s) ∧ Instr.wf
         (.mediaReadComplete id .good cls su) = true ∧ (5 ≤ r.step ∨ saltHeld u r.loc = true) ∧ r.second = false) ∧
    (∃ (s : State) (id cls : Nat) (su : Susp) (r : MRead) (u : State), s.mc.reads.find? (fun x => x.id == id && x.step < 6 && !ncStalled
         s x.loc && (x.why != .verify || bgOk s)) = some r ∧ u = (if r.why = .verify then s else suspends r.loc su s) ∧ Instr.wf
         (.mediaReadComplete id .good cls su) = true ∧ (5 ≤ r.step ∨ saltHeld u r.loc = true) ∧ r.second = true) ∧
    (∃ (s : State) (id cls : Nat) (su : Susp) (r : MRead) (u : State), s.mc.reads.find? (fun x => x.id == id && x.step < 6 && !ncStalled
         s x.loc && (x.why != .verify || bgOk s)) = some r ∧ u = (if r.why = .verify then s else suspends r.loc su s) ∧ Instr.wf
         (.mediaReadComplete id .good cls su) = true ∧ r.second = false) ∧
    (∃ (s : State) (id cls : Nat) (su : Susp) (r : MRead) (u : State), s.mc.reads.find? (fun x => x.id == id && x.step < 6 && !ncStalled
         s x.loc && (x.why != .verify || bgOk s)) = some r ∧ u = (if r.why = .verify then s else suspends r.loc su s) ∧ Instr.wf
         (.mediaReadComplete id .good cls su) = true ∧ r.second = true) ∧
    (∃ (s : State) (id cls : Nat) (su : Susp) (r : MRead) (u : State), s.mc.reads.find? (fun x => x.id == id && x.step < 6 && !ncStalled
         s x.loc && (x.why != .verify || bgOk s)) = some r ∧ u = (if r.why = .verify then s else suspends r.loc su s) ∧ Instr.wf
         (.mediaReadComplete id .good cls su) = true ∧ r.step < 5 ∧ saltHeld u r.loc = false) ∧
    (∃ (s : State) (id : Nat) (res : SecRes) (cls : Nat) (su : Susp), Instr.wf (.mediaReadComplete id res cls su) = true ∧
         s.mc.reads.find? (fun x => x.id == id && x.step < 6 && !ncStalled s x.loc && (x.why != .verify || bgOk s)) = none) ∧
    (∃ (s : State) (rq : Rq), sentOk (.mediaQuery rq) s rq 0x0300) ∧
    (∃ (s : State) (rq : Rq) (gib slc : Nat), sentOk (.mediaFormat rq gib slc) s rq 0x0301 ∧ 0 < gib ∧ gib ≤ 65536 ∧ slc < 3 ∧ turfCount
         s = 0 ∧ gib ≤ userLimit s ∧ noStreamActive s = true ∧ formatRefused s.tu.ps = false ∧ s.sec.rngFail = false ∧ s.tu.ps ≠ .inSync) ∧
    (∃ (s : State) (rq : Rq) (gib slc : Nat), sentOk (.mediaFormat rq gib slc) s rq 0x0301 ∧ 0 < gib ∧ gib ≤ 65536 ∧ slc < 3 ∧ turfCount
         s = 0 ∧ gib ≤ userLimit s ∧ noStreamActive s = true ∧ formatRefused s.tu.ps = false ∧ s.sec.rngFail = false ∧ s.tu.ps = .inSync
         ∧ rq.ch ≠ 30) ∧
    (∃ (s : State) (rq : Rq) (gib slc : Nat), sentOk (.mediaFormat rq gib slc) s rq 0x0301 ∧ 0 < gib ∧ gib ≤ 65536 ∧ slc < 3 ∧ turfCount
         s = 0 ∧ gib ≤ userLimit s ∧ noStreamActive s = true ∧ formatRefused s.tu.ps = false ∧ s.sec.rngFail = false ∧ rq.ch = 30) ∧
    (∃ (s : State) (rq : Rq) (c l : Nat) (lost : List Nat), sentOk (.mediaRetire rq c l lost) s rq 0x0302 ∧ c < 32 ∧ l < s.mc.prof.luns
         ∧ (s.lun (lunIndex c l)).ash = false ∧ 13 ≤ (cordActive s (lunCord (lunIndex c l))).length) ∧
    (∃ (s : State) (ag : Agent), mayWrite s ag) :=
  ⟨⟨({ svc with mc := { svc.mc with reads := [⟨4, 9, 2, 5, 1, .fill, false, 0⟩], slots := [(9, some ⟨7, 1, 0, 0, 0, 0xFFFF, 0, 0, 0⟩)] } }),
        4, 3, .none, _, _, rfl, rfl, by decide +kernel⟩,
   ⟨({ svc with mc := { svc.mc with reads := [⟨4, 9, 2, 5, 1, .fill, true, 0⟩], slots := [(9, some ⟨7, 1, 0, 0, 0, 0xFFFF, 0, 0, 0⟩)] } }),
        4, 3, .none, _, _, rfl, rfl, by decide +kernel⟩,
   ⟨({ svc with mc := { svc.mc with reads := [⟨4, 9, 2, 5, 1, .fill, false, 0⟩], slots := [(9, some ⟨7, 1, 0, 0, 0, 0xFFFF, 0, 0, 0⟩)] } }),
        4, 3, .none, _, _, rfl, rfl, by decide +kernel⟩,
   ⟨({ svc with mc := { svc.mc with reads := [⟨4, 9, 2, 5, 1, .fill, true, 0⟩], slots := [(9, some ⟨7, 1, 0, 0, 0, 0xFFFF, 0, 0, 0⟩)] } }),
        4, 3, .none, _, _, rfl, rfl, by decide +kernel⟩,
   ⟨({ svc with mc := { svc.mc with reads := [⟨4, 9, 2, 5, 1, .fill, true, 0⟩], slots := [(9, some ⟨7, 1, 0, 5, 0, 0xFFFF, 0, 0, 0⟩)] } }),
        4, 3, .none, _, _, rfl, rfl, by decide +kernel⟩,
   ⟨svc, 8, .mismatch, 3, .none, by decide +kernel⟩,
   ⟨svc, ⟨30, 7⟩, sent (by decide +kernel)⟩,
   ⟨({ svc with te := { svc.te with turfs := [] } }), ⟨30, 7⟩, 770, 2, sent (by decide +kernel), by decide +kernel⟩,
   ⟨({ twn with te := { svc.te with turfs := [] } }), rqM, 770, 2, sent (by decide +kernel), by decide +kernel⟩,
   ⟨({ svc with te := { svc.te with turfs := [] } }), ⟨30, 7⟩, 770, 2, sent (by decide +kernel), by decide +kernel⟩,
   ⟨svc, ⟨30, 7⟩, 31, 15, [], sent (by decide +kernel), by decide +kernel⟩,
   ⟨svc, (.core 0), may (by decide)⟩⟩
theorem witness_EmberStepsComplete_1 :
    (∃ (s u : State), u = { s with eu := { s.eu with pfw := true, pfwHeld := false } } ∧ s.eu.pfw = false ∧ s.eu.phase = .quiesce) ∧
    (∃ (s u : State), u = { s with eu := { s.eu with pfw := true, pfwHeld := false } } ∧ s.eu.pfw = false ∧ inEmber s = true ∧
         s.eu.phase ≠ .quiesce) ∧
    (∃ (s u : State), u = { s with eu := { s.eu with pfw := true, pfwHeld := false } } ∧ s.eu.pfw = false ∧ inEmber s = false ∧ s.rpm.st
         = .service ∧ epochOpen s = true) ∧
    (∃ (s u : State), u = { s with eu := { s.eu with pfw := true, pfwHeld := false } } ∧ s.eu.pfw = false ∧ inEmber s = false ∧ s.rpm.st
         = .service ∧ epochOpen s = false) ∧
    (∃ (s u : State), u = { s with eu := { s.eu with pfw := true, pfwHeld := false } } ∧ s.eu.pfw = false ∧ inEmber s = false ∧ s.rpm.st
         = .kindling ∧ startPhase s.eu.phase = true) ∧
    (∃ (s u : State), u = { s with eu := { s.eu with pfw := true, pfwHeld := false } } ∧ s.eu.pfw = false ∧ inEmber s = false ∧
         (s.rpm.st = .kindling ∧ startPhase s.eu.phase = false ∨ s.rpm.st ≠ .kindling ∧ s.rpm.st ≠ .service)) ∧
    (∃ (s : State), s.eu.pfw = true) ∧
    (∃ (s u : State), u = { s with eu := { s.eu with pfwHeld := true } } ∧ s.eu.pfw = false ∧ bareReady s = true) ∧
    (∃ (s u : State), u = { s with eu := { s.eu with pfwHeld := true } } ∧ s.eu.pfw = false ∧ bareReady s = false ∧ returnOk u = true) ∧
    (∃ (s u : State), u = { s with eu := { s.eu with pfwHeld := true } } ∧ s.eu.pfw = false ∧ bareReady s = false ∧ returnOk u = false) :=
  ⟨⟨({ svc with eu := { svc.eu with phase := .quiesce } }), _, rfl, by decide +kernel⟩,
   ⟨({ svc with eu := { svc.eu with phase := .sealedHold, causes := [1] } }), _, rfl, by decide +kernel⟩,
   ⟨({ svc with eu := { svc.eu with epoch := { st := 1 } } }), _, rfl, by decide +kernel⟩,
   ⟨svc, _, rfl, by decide +kernel⟩,
   ⟨({ ({ svc with eu := { svc.eu with phase := .scan1 } }) with eu := { ({ svc with eu := { svc.eu with phase := .scan1 } }).eu with pfw := false }, rpm := { ({ svc with eu := { svc.eu with phase := .scan1 } }).rpm with st := .kindling } }),
        _, rfl, by decide +kernel⟩,
   ⟨State.reset, _, rfl, by decide +kernel⟩,
   ⟨({ svc with eu := { svc.eu with pfw := true } }), by decide +kernel⟩,
   ⟨({ svc with rpm := { svc.rpm with st := .kindling }, rpmx := { svc.rpmx with entered := true }, mc := { svc.mc with formatted := false } }),
        _, rfl, by decide +kernel⟩,
   ⟨({ svc with eu := { svc.eu with phase := .sealedHold, causes := [1] } }), _, rfl, by decide +kernel⟩,
   ⟨svc, _, rfl, by decide +kernel⟩⟩
theorem witness_EmberStepsComplete_2 :
    (∃ (s : State) (us : Nat) (v w t : State), v = coresHalt (commandsEnd (commitsAbandoned (evictionsEnd ((List.range 64).foldl (fun s
         c => relFinish c s) s)))) ∧ w = ledger 0x1400 0 [v.eu.cause] v ∧ t = sendNotice (.emberNotice w.eu.cause (streamEnts w)) w ∧ us
         < 2 ^ 32 ∧ s.eu.phase = .quiesce) ∧
    (∃ (s : State) (us : Nat), us < 2 ^ 32 ∧ s.eu.phase ≠ .quiesce) ∧
    (∃ (s : State) (us : Nat) (bad : List Nat) (tw : List (Nat × Line)) (u : State), u = flushAll bad tw
         { s with eu := { s.eu with tFlush := us } } ∧ Instr.wf (.emberFlushComplete us bad tw) = true ∧ s.eu.phase = .flush ∧ dirtyCount
         u ≠ 0) ∧
    (∃ (s : State) (us : Nat) (bad : List Nat) (tw : List (Nat × Line)) (u : State), u = flushAll bad tw
         { s with eu := { s.eu with tFlush := us } } ∧ Instr.wf (.emberFlushComplete us bad tw) = true ∧ s.eu.phase = .flush ∧ dirtyCount
         u = 0) ∧
    (∃ (s : State) (us : Nat) (bad : List Nat) (tw : List (Nat × Line)), Instr.wf (.emberFlushComplete us bad tw) = true ∧ s.eu.phase ≠
         .flush) ∧
    (∃ (s : State), s.eu.phase = .sealedHold ∧ returnOk s = true) ∧
    (∃ (s : State), s.eu.phase = .sealedHold ∧ returnOk s = false ∧ opening s = false) ∧
    (∃ (s : State), (s.eu.phase ≠ .sealedHold ∨ opening s = true)) ∧
    (∃ (s : State) (c : Commit), s.opt.run = some c ∧ c.act = .epoch ∧ c.page ≠ 35) ∧
    (∃ (s : State) (c : Commit), s.opt.run = some c ∧ c.act ≠ .epoch ∧ (∃ d ∈ s.opt.queue, d.act = .epoch)) :=
  ⟨⟨({ svc with eu := { svc.eu with phase := .quiesce } }), 4294967295, _, _, _, rfl, rfl, rfl, by decide +kernel⟩,
   ⟨svc, 4294967295, by decide +kernel⟩,
   ⟨({ nol with eu := { nol.eu with phase := .flush } }), 4294967295, [], [], _, rfl, by decide +kernel⟩,
   ⟨({ svc with eu := { svc.eu with phase := .flush } }), 4294967295, [], [], _, rfl, by decide +kernel⟩,
   ⟨svc, 4294967295, [], [], by decide +kernel⟩,
   ⟨({ svc with eu := { svc.eu with phase := .sealedHold } }), by decide +kernel⟩,
   ⟨({ svc with eu := { svc.eu with phase := .sealedHold, causes := [2] } }), by decide +kernel⟩,
   ⟨svc, by decide +kernel⟩,
   ⟨({ svc with opt := { svc.opt with run := some { page := 32, off := 0, bytes := [], act := .epoch } } }), _, rfl, by decide +kernel⟩,
   ⟨({ svc with opt := { svc.opt with run := some { page := 35, off := 0, bytes := [], act := .none }, queue := [{ page := 32, off := 0, bytes := [], act := .epoch }] } }),
        _, rfl, by decide +kernel⟩⟩
theorem witness_EmberStepsComplete_3 : ∃ (s : State), (∀ c ∈ s.opt.queue, c.act ≠ .epoch) ∧ (∀ (c : Commit), s.opt.run = some c →
    c.act ≠ .epoch) :=
  ⟨svc, by decide +kernel⟩
theorem witness_StartsAndEmberCommandsComplete_1 :
    (∃ (s : State) (fail : SelfTest) (u : State), u = ftStart fail { s with ft := { s.ft with remap := s.mc.remapMedia } } ∧ fail.wf =
         true ∧ startMay .restart s = true ∧ u.ft.failed = false ∧ u.rpm.recovery = 0) ∧
    (∃ (s : State) (fail : SelfTest) (u : State), u = ftStart fail { s with ft := { s.ft with remap := s.mc.remapMedia } } ∧ fail.wf =
         true ∧ startMay .restart s = true ∧ u.rpm.recovery ≠ 0) ∧
    (∃ (s : State) (fail : SelfTest) (u : State), u = ftStart fail { s with ft := { s.ft with remap := s.mc.remapMedia } } ∧ fail.wf =
         true ∧ startMay .restart s = true ∧ u.ft.failed = true ∧ u.rpm.recovery = 0) ∧
    (∃ (s : State) (lost : SealLost) (fail : SelfTest), lost.wf = true ∧ fail.wf = true ∧ startMay .restart s = true ∧ lost ≠ .none) ∧
    (∃ (s : State) (lost : SealLost) (fail : SelfTest), lost.wf = true ∧ fail.wf = true ∧ startMay .restart s = false) ∧
    (∃ (s : State) (bad rejected : List Nat) (fail : SelfTest) (v u : State), v = rejected.foldl (fun s e => ledger 0x141F 0 [16, e /
         16, e % 16] s) s ∧ u = ftStart fail { v with ft := { v.ft with remap := v.mc.remapMedia } } ∧ Instr.wf (.fullScan bad rejected
         fail) = true ∧ startMay .scan1 s = true ∧ u.ft.failed = false ∧ u.rpm.recovery = 0) ∧
    (∃ (s : State) (bad rejected : List Nat) (fail : SelfTest) (v u : State), v = rejected.foldl (fun s e => ledger 0x141F 0 [16, e /
         16, e % 16] s) s ∧ u = ftStart fail { v with ft := { v.ft with remap := v.mc.remapMedia } } ∧ Instr.wf (.fullScan bad rejected
         fail) = true ∧ startMay .scan1 s = true ∧ u.rpm.recovery ≠ 0) ∧
    (∃ (s : State) (bad rejected : List Nat) (fail : SelfTest) (v u : State), v = rejected.foldl (fun s e => ledger 0x141F 0 [16, e /
         16, e % 16] s) s ∧ u = ftStart fail { v with ft := { v.ft with remap := v.mc.remapMedia } } ∧ Instr.wf (.fullScan bad rejected
         fail) = true ∧ startMay .scan1 s = true ∧ u.ft.failed = true ∧ u.rpm.recovery = 0) ∧
    (∃ (s : State) (bad rejected : List Nat) (fail : SelfTest), Instr.wf (.fullScan bad rejected fail) = true ∧ startMay .scan1 s =
         false) ∧
    (∃ (s : State) (rq : Rq), sentOk (.emberQuery rq) s rq 0x0400) :=
  ⟨⟨({ svc with eu := { svc.eu with phase := .restart } }), { devs := [31] }, _, rfl, by decide +kernel⟩,
   ⟨({ svc with eu := { svc.eu with phase := .restart }, rpm := { svc.rpm with recovery := 3 } }), { devs := [31] }, _, rfl, by decide +kernel⟩,
   ⟨({ svc with eu := { svc.eu with phase := .restart }, ft := { svc.ft with life := 7 } }), { devs := [31] }, _, rfl, by decide +kernel⟩,
   ⟨({ svc with eu := { svc.eu with phase := .restart } }), .copies, { devs := [31] }, by decide +kernel⟩,
   ⟨svc, .copies, { devs := [31] }, by decide +kernel⟩,
   ⟨({ svc with eu := { svc.eu with phase := .scan1 } }), [16], [17], { devs := [31] }, _, _, rfl, rfl, by decide +kernel⟩,
   ⟨({ svc with eu := { svc.eu with phase := .scan1 }, rpm := { svc.rpm with recovery := 3 } }), [16], [17], { devs := [31] }, _, _,
        rfl, rfl, by decide +kernel⟩,
   ⟨({ ({ svc with eu := { svc.eu with phase := .scan1 } }) with ft := { ({ svc with eu := { svc.eu with phase := .scan1 } }).ft with failed := true } }),
        [16], [17], { devs := [31] }, _, _, rfl, rfl, by decide +kernel⟩,
   ⟨svc, [16], [17], { devs := [31] }, by decide +kernel⟩,
   ⟨svc, rqM, sent (by decide +kernel)⟩⟩
theorem witness_StartsAndEmberCommandsComplete_2 :
    (∃ (s : State) (rq : Rq) (mj mw : Nat), sentOk (.holdupSet rq mj mw) s rq 0x0401 ∧ (mj = 0 ∨ 1000 ≤ mj ∧ mj ≤ 1000000) ∧ mw ≤ 500000
         ∧ s.ft.ceilGib ≤ declaredCeil mj mw s) ∧
    (∃ (s : State) (rq : Rq), sentOk (.emberDrill rq) s rq 0x0402 ∧ (∀ c < 64, (s.chan c).st ≠ .running) ∧ s.rpm.recovery = 0 ∧
         epochOpen s = true) ∧
    (∃ (s : State) (rq : Rq), sentOk (.emberDrill rq) s rq 0x0402 ∧ (∀ c < 64, (s.chan c).st ≠ .running) ∧ s.rpm.recovery = 0 ∧
         epochOpen s = false) :=
  ⟨⟨({ svc with ft := { svc.ft with ceilGib := 0 } }), rqM, 1000000, 500000, sent (by decide +kernel), by decide +kernel⟩,
   ⟨({ svc with eu := { svc.eu with epoch := { st := 1 } } }), rqM, sent (by decide +kernel), by decide +kernel⟩,
   ⟨svc, rqM, sent (by decide +kernel), by decide +kernel⟩⟩
theorem witness_TwinMessagesComplete_1 :
    (∃ (s u : State) (h : LinkHdr) (p : HelloP), u = received s h ∧ inOrder s h (.hello p) ∧ helloHdr h p s = h ∧ h.wf = true) ∧
    (∃ (s u : State) (h : LinkHdr) (o r pgen pairId : Nat) (p : HelloP), u = received s h ∧ inOrder s h (.pairResult o r pgen pairId) ∧
         s.tu.helloRx = some p ∧ h.wf = true ∧ o < 256 ∧ r < 256 ∧ pgen < 2 ^ 32 ∧ pairId < 2 ^ 64 ∧ s.tu.isB = true ∧ pairOpen s.tu.ps =
         true) ∧
    (∃ (s u : State) (h : LinkHdr) (o r pgen pairId : Nat), u = received s h ∧ inOrder s h (.pairResult o r pgen pairId) ∧ h.wf = true ∧
         o < 256 ∧ r < 256 ∧ pgen < 2 ^ 32 ∧ pairId < 2 ^ 64 ∧ (s.tu.helloRx = none ∨ s.tu.isB = false ∨ pairOpen s.tu.ps = false)) ∧
    (∃ (s u : State) (h : LinkHdr), u = received s h ∧ inOrder s h .keepalive ∧ h.wf = true) ∧
    (∃ (s u : State) (h : LinkHdr) (n : Nat), u = received s h ∧ inOrder s h (.retry n) ∧ h.wf = true ∧ n < 2 ^ 63) ∧
    (∃ (s u : State) (h : LinkHdr) (pool b c q : Nat), u = received s h ∧ inOrder s h (.peerStatus pool b c q) ∧ h.wf = true ∧ pool < 2
         ^ 32 ∧ b < 2 ^ 32 ∧ c < 2 ^ 32 ∧ q < 2 ^ 32) ∧
    (∃ (s u : State) (h : LinkHdr) (g gen st : Nat) (recs : List ReplRec), u = received s h ∧ inOrder s h (.repl g gen st recs) ∧ h.wf =
         true ∧ (Instr.repl h g gen st recs).wf = true ∧ isReplica s.tu.ps = true ∧ pairLive s = true) ∧
    (∃ (s u : State) (h : LinkHdr) (g gen st : Nat) (recs : List ReplRec), u = received s h ∧ inOrder s h (.repl g gen st recs) ∧ h.wf =
         true ∧ (Instr.repl h g gen st recs).wf = true ∧ (isReplica s.tu.ps = false ∨ pairLive s = false)) ∧
    (∃ (s u : State) (h : LinkHdr) (st : Nat), u = received s h ∧ inOrder s h (.replAck st) ∧ h.wf = true ∧ st < 2 ^ 64) ∧
    (∃ (s u : State) (h : LinkHdr) (tag d : Nat) (un : Bool) (mask : Option (BitVec 64)) (data : List Line) (cfg : Option CfgWrite), u =
         received s h ∧ inOrder s h (.fwd tag d un mask data cfg) ∧ h.wf = true ∧ tag < 2 ^ 64 ∧ d < 2 ^ 64 ∧ pairLive s = false) :=
  ⟨⟨twn, _, (hdr (.hello default)), default, rfl, inOrd (by decide +kernel), rfl, by decide +kernel⟩,
   ⟨({ twn with tu := { twn.tu with isB := true, ps := .pairing } }), _, (hdr (.pairResult 255 255 4294967295 18446744073709551615)),
        255, 255, 4294967295, 18446744073709551615, _, rfl, inOrd (by decide +kernel), rfl, by decide +kernel⟩,
   ⟨twn, _, (hdr (.pairResult 255 255 4294967295 18446744073709551615)), 255, 255, 4294967295, 18446744073709551615, rfl, inOrd (by
        decide +kernel), by decide +kernel⟩,
   ⟨twn, _, (hdr .keepalive), rfl, inOrd (by decide +kernel), by decide +kernel⟩,
   ⟨twn, _, (hdr (.retry 9223372036854775807)), 9223372036854775807, rfl, inOrd (by decide +kernel), by decide +kernel⟩,
   ⟨twn, _, (hdr (.peerStatus 4294967295 4294967295 4294967295 4294967295)), 4294967295, 4294967295, 4294967295, 4294967295, rfl, inOrd
        (by decide +kernel), by decide +kernel⟩,
   ⟨twn, _, (hdr (.repl 33554431 33554433 18446744073709551615
        ([{ first := 32767, mask := none, fwdTag := none, unmap := false, data := [5] }]))), 33554431, 33554433, 18446744073709551615,
        ([{ first := 32767, mask := none, fwdTag := none, unmap := false, data := [5] }]), rfl, inOrd (by decide +kernel), by decide +kernel⟩,
   ⟨({ twn with tu := { twn.tu with ps := .solo } }), _, (hdr (.repl 33554431 33554433 18446744073709551615
        ([{ first := 32767, mask := none, fwdTag := none, unmap := false, data := [5] }]))), 33554431, 33554433, 18446744073709551615,
        ([{ first := 32767, mask := none, fwdTag := none, unmap := false, data := [5] }]), rfl, inOrd (by decide +kernel), by decide +kernel⟩,
   ⟨twn, _, (hdr (.replAck 18446744073709551615)), 18446744073709551615, rfl, inOrd (by decide +kernel), by decide +kernel⟩,
   ⟨({ twn with tu := { twn.tu with ps := .solo } }), _, (hdr (.fwd 18446744073709551615 18446744073709551615 true none [] (some (.turf
        255 none)))), 18446744073709551615, 18446744073709551615, true, none, [], (some (.turf 255 none)), rfl, inOrd (by decide +kernel),
        by decide +kernel⟩⟩
theorem witness_TwinMessagesComplete_2 :
    (∃ (s u : State) (h : LinkHdr) (tag d : Nat) (un : Bool) (mask : Option (BitVec 64)) (data : List Line) (cfg : Option CfgWrite) (c :
         CfgWrite), u = received s h ∧ inOrder s h (.fwd tag d un mask data cfg) ∧ cfg = some c ∧ h.wf = true ∧ tag < 2 ^ 64 ∧ d < 2 ^ 64
         ∧ pairLive s = true ∧ cfgHome s = true) ∧
    (∃ (s u : State) (h : LinkHdr) (tag d : Nat) (un : Bool) (mask : Option (BitVec 64)) (data : List Line) (cfg : Option CfgWrite) (c :
         CfgWrite), u = received s h ∧ inOrder s h (.fwd tag d un mask data cfg) ∧ cfg = some c ∧ h.wf = true ∧ tag < 2 ^ 64 ∧ d < 2 ^ 64
         ∧ pairLive s = true ∧ cfgHome s = false) ∧
    (∃ (s u : State) (h : LinkHdr) (tag d : Nat) (un : Bool) (mask : Option (BitVec 64)) (data : List Line) (cfg : Option CfgWrite) (v :
         State), u = received s h ∧ inOrder s h (.fwd tag d un mask data cfg) ∧ cfg = none ∧ v = pauseWait 10 u ∧ h.wf = true ∧ tag < 2 ^
         64 ∧ d < 2 ^ 64 ∧ pairLive s = true ∧ un = true) ∧
    (∃ (s u : State) (h : LinkHdr) (tag d : Nat) (un : Bool) (mask : Option (BitVec 64)) (data : List Line) (cfg : Option CfgWrite), u =
         received s h ∧ inOrder s h (.fwd tag d un mask data cfg) ∧ cfg = none ∧ h.wf = true ∧ tag < 2 ^ 64 ∧ d < 2 ^ 64 ∧ pairLive s =
         true ∧ un = false ∧ fwdDenied s d = true) ∧
    (∃ (s u : State) (h : LinkHdr) (tag d : Nat) (un : Bool) (mask : Option (BitVec 64)) (data : List Line) (cfg : Option CfgWrite), u =
         received s h ∧ inOrder s h (.fwd tag d un mask data cfg) ∧ cfg = none ∧ h.wf = true ∧ tag < 2 ^ 64 ∧ d < 2 ^ 64 ∧ pairLive s =
         true ∧ un = false ∧ fwdDenied s d = false) ∧
    (∃ (s u : State) (h : LinkHdr) (tag r : Nat), u = received s h ∧ inOrder s h (.fwdResult tag r) ∧ h.wf = true ∧ tag < 2 ^ 64 ∧ r <
         256) ∧
    (∃ (s u : State) (h : LinkHdr) (tag b i mode : Nat), u = received s h ∧ inOrder s h (.unitReq tag b i mode) ∧ h.wf = true ∧ tag < 2
         ^ 32 ∧ b < 2 ^ 30 ∧ i < 16 ∧ mode < 256) ∧
    (∃ (s u : State) (h : LinkHdr) (tag st stamp : Nat) (mask : BitVec 64) (data : List Line), u = received s h ∧ inOrder s h
         (.unitReply tag st stamp mask data) ∧ h.wf = true ∧ tag < 2 ^ 32 ∧ st < 256 ∧ stamp < 2 ^ 64) ∧
    (∃ (s u : State) (h : LinkHdr) (n : Nat), u = received s h ∧ inOrder s h (.credit n) ∧ h.wf = true ∧ n < 2 ^ 32) ∧
    (∃ (s u : State) (h : LinkHdr) (g : Nat), u = received s h ∧ inOrder s h (.migBegin g) ∧ h.wf = true ∧ g < 2 ^ 25 ∧ s.tu.ps =
         .inSync) :=
  ⟨⟨twn, _, (hdr (.fwd 18446744073709551615 18446744073709551615 true none [] (some default))), 18446744073709551615,
        18446744073709551615, true, none, [], _, default, rfl, inOrd (by decide +kernel), rfl, by decide +kernel⟩,
   ⟨({ twn with tu := { twn.tu with isB := true } }), _, (hdr (.fwd 18446744073709551615 18446744073709551615 true none [] (some
        default))), 18446744073709551615, 18446744073709551615, true, none, [], _, default, rfl, inOrd (by decide +kernel), rfl, by
        decide +kernel⟩,
   ⟨twn, _, (hdr (.fwd 18446744073709551615 18446744073709551615 true none [] none)), 18446744073709551615, 18446744073709551615, true,
        none, [], _, _, rfl, inOrd (by decide +kernel), rfl, rfl, by decide +kernel⟩,
   ⟨({ twn with te := { twn.te with turfs := [(1, some { turfT with grants := [] })] } }), _, (hdr (.fwd 18446744073709551615 8 false
        none [5] none)), 18446744073709551615, 8, false, none, [5], _, rfl, inOrd (by decide +kernel), rfl, by decide +kernel⟩,
   ⟨twn, _, (hdr (.fwd 18446744073709551615 18446744073709551615 false none [5] none)), 18446744073709551615, 18446744073709551615,
        false, none, [5], _, rfl, inOrd (by decide +kernel), rfl, by decide +kernel⟩,
   ⟨twn, _, (hdr (.fwdResult 18446744073709551615 255)), 18446744073709551615, 255, rfl, inOrd (by decide +kernel), by decide +kernel⟩,
   ⟨twn, _, (hdr (.unitReq 4294967295 1073741823 15 255)), 4294967295, 1073741823, 15, 255, rfl, inOrd (by decide +kernel), by decide +kernel⟩,
   ⟨twn, _, (hdr (.unitReply 4294967295 255 18446744073709551615 0 [])), 4294967295, 255, 18446744073709551615, 0, [], rfl, inOrd (by
        decide +kernel), by decide +kernel⟩,
   ⟨twn, _, (hdr (.credit 4294967295)), 4294967295, rfl, inOrd (by decide +kernel), by decide +kernel⟩,
   ⟨twn, _, (hdr (.migBegin 33554431)), 33554431, rfl, inOrd (by decide +kernel), by decide +kernel⟩⟩
theorem witness_TwinMessagesComplete_3 :
    (∃ (s u : State) (h : LinkHdr) (g : Nat), u = received s h ∧ inOrder s h (.migBegin g) ∧ h.wf = true ∧ g < 2 ^ 25 ∧ s.tu.ps ≠
         .inSync) ∧
    (∃ (s u : State) (h : LinkHdr) (g : Nat), u = received s h ∧ inOrder s h (.migReady g) ∧ h.wf = true ∧ g < 2 ^ 25) ∧
    (∃ (s u : State) (h : LinkHdr) (g st : Nat), u = received s h ∧ inOrder s h (.migDone g st) ∧ (∃ (n : Nat), (g, false, n) ∈
         s.tp.mig) ∧ h.wf = true ∧ g < 2 ^ 25 ∧ st < 2 ^ 64) ∧
    (∃ (s u : State) (h : LinkHdr) (g st : Nat), u = received s h ∧ inOrder s h (.migDone g st) ∧ (∀ (n : Nat), (g, false, n) ∉
         s.tp.mig) ∧ h.wf = true ∧ g < 2 ^ 25 ∧ st < 2 ^ 64) :=
  ⟨⟨({ twn with tu := { twn.tu with ps := .solo } }), _, (hdr (.migBegin 33554431)), 33554431, rfl, inOrd (by decide +kernel), by
        decide +kernel⟩,
   ⟨twn, _, (hdr (.migReady 33554431)), 33554431, rfl, inOrd (by decide +kernel), by decide +kernel⟩,
   ⟨({ twn with tp := { twn.tp with mig := [(33554431, false, 2)] } }), _, (hdr (.migDone 33554431 18446744073709551615)), 33554431,
        18446744073709551615, rfl, inOrd (by decide +kernel), ⟨2, by decide +kernel⟩, by decide +kernel⟩,
   ⟨twn, _, (hdr (.migDone 33554431 18446744073709551615)), 33554431, 18446744073709551615, rfl, inOrd (by decide +kernel), fun _ =>
        List.not_mem_nil, by decide +kernel⟩⟩
theorem witness_TwinResyncMessagesComplete_1 :
    (∃ (s u : State) (h : LinkHdr) (first : Nat) (gens : List Nat), u = received s h ∧ inOrder s h (.genList first gens) ∧ h.wf = true ∧
         (Instr.genList h first gens).wf = true) ∧
    (∃ (s u : State) (h : LinkHdr) (b i st : Nat) (mask : BitVec 64) (data : List Line), u = received s h ∧ inOrder s h (.unitCopy b i
         st mask data) ∧ h.wf = true ∧ b < 2 ^ 30 ∧ i < 16 ∧ st < 256 ∧ s.tu.ps = .resyncTarget) ∧
    (∃ (s u : State) (h : LinkHdr) (b i st : Nat) (mask : BitVec 64) (data : List Line), u = received s h ∧ inOrder s h (.unitCopy b i
         st mask data) ∧ h.wf = true ∧ b < 2 ^ 30 ∧ i < 16 ∧ st < 256 ∧ s.tu.ps ≠ .resyncTarget) ∧
    (∃ (s u : State) (h : LinkHdr) (g gen : Nat), u = received s h ∧ inOrder s h (.segDone g gen) ∧ h.wf = true ∧ g < 2 ^ 25 ∧ gen < 2 ^
         32 ∧ s.tu.ps = .resyncTarget) ∧
    (∃ (s u : State) (h : LinkHdr) (g gen : Nat), u = received s h ∧ inOrder s h (.segDone g gen) ∧ h.wf = true ∧ g < 2 ^ 25 ∧ gen < 2 ^
         32 ∧ s.tu.ps ≠ .resyncTarget) ∧
    (∃ (s u : State) (h : LinkHdr) (g : Nat), u = received s h ∧ inOrder s h (.segAck g) ∧ h.wf = true ∧ g < 2 ^ 25 ∧ s.tp.copying =
         some g) ∧
    (∃ (s u : State) (h : LinkHdr) (g : Nat), u = received s h ∧ inOrder s h (.segAck g) ∧ h.wf = true ∧ g < 2 ^ 25 ∧ s.tp.copying ≠
         some g) ∧
    (∃ (s u : State) (h : LinkHdr) (pgen : Nat), u = received s h ∧ inOrder s h (.resyncDone pgen) ∧ h.wf = true ∧ pgen < 2 ^ 32) ∧
    (∃ (s u : State) (h : LinkHdr) (slot : List Byte), u = received s h ∧ inOrder s h (.cmd slot) ∧ h.wf = true ∧ slot.length = 256 ∧
         m30InFlight s < 4) ∧
    (∃ (s u : State) (h : LinkHdr) (slot : List Byte), u = received s h ∧ inOrder s h (.cmd slot) ∧ h.wf = true ∧ slot.length = 256 ∧ 4
         ≤ m30InFlight s) :=
  ⟨⟨twn, _, (hdr (.genList 33554431 [3])), 33554431, [3], rfl, inOrd (by decide +kernel), by decide +kernel⟩,
   ⟨({ twn with tu := { twn.tu with ps := .resyncTarget } }), _, (hdr (.unitCopy 1073741823 15 255 0 [])), 1073741823, 15, 255, 0, [],
        rfl, inOrd (by decide +kernel), by decide +kernel⟩,
   ⟨twn, _, (hdr (.unitCopy 1073741823 15 255 0 [])), 1073741823, 15, 255, 0, [], rfl, inOrd (by decide +kernel), by decide +kernel⟩,
   ⟨({ twn with tu := { twn.tu with ps := .resyncTarget } }), _, (hdr (.segDone 33554431 4294967295)), 33554431, 4294967295, rfl, inOrd
        (by decide +kernel), by decide +kernel⟩,
   ⟨twn, _, (hdr (.segDone 33554431 4294967295)), 33554431, 4294967295, rfl, inOrd (by decide +kernel), by decide +kernel⟩,
   ⟨({ twn with tu := { twn.tu with ps := .resyncSource }, tp := { twn.tp with copying := some 33554431 } }), _, (hdr (.segAck
        33554431)), 33554431, rfl, inOrd (by decide +kernel), by decide +kernel⟩,
   ⟨twn, _, (hdr (.segAck 33554431)), 33554431, rfl, inOrd (by decide +kernel), by decide +kernel⟩,
   ⟨twn, _, (hdr (.resyncDone 4294967295)), 4294967295, rfl, inOrd (by decide +kernel), by decide +kernel⟩,
   ⟨twn, _, (hdr (.cmd (List.replicate 256 0))), (List.replicate 256 0), rfl, inOrd (by decide +kernel), by decide +kernel⟩,
   ⟨({ twn with mb := { chans := [(30, { reqProd := 4 })] } }), _, (hdr (.cmd (List.replicate 256 0))), (List.replicate 256 0), rfl,
        inOrd (by decide +kernel), by decide +kernel⟩⟩
theorem witness_TwinResyncMessagesComplete_2 :
    (∃ (s u : State) (h : LinkHdr) (slot : List Byte), u = received s h ∧ inOrder s h (.cmdReply slot) ∧ h.wf = true ∧ slot.length =
         256) ∧
    (∃ (s u : State) (h : LinkHdr) (c : Nat) (ents : List StreamEnt), u = received s h ∧ inOrder s h (.emberNotice c ents) ∧ h.wf = true
         ∧ c < 256 ∧ (∀ e ∈ ents, e.ch < 64)) ∧
    (∃ (s u : State) (h : LinkHdr) (r : Nat) (ents : List StreamEnt), u = received s h ∧ inOrder s h (.haltNotice r ents) ∧ h.wf = true
         ∧ r < 256 ∧ (∀ e ∈ ents, e.ch < 64)) ∧
    (∃ (s u : State) (h : LinkHdr) (ents : List StreamEnt), u = received s h ∧ inOrder s h (.streamState ents) ∧ h.wf = true ∧ (∀ e ∈
         ents, e.ch < 64)) ∧
    (∃ (s u : State) (h : LinkHdr), u = received s h ∧ inOrder s h .peerReset ∧ h.wf = true ∧ (s.sec.halt = true ∨ s.ft.failed = true)) ∧
    (∃ (s u : State) (h : LinkHdr), u = received s h ∧ inOrder s h .peerReset ∧ h.wf = true ∧ s.sec.halt = false ∧ s.ft.failed = false) :=
  ⟨⟨twn, _, (hdr (.cmdReply (List.replicate 256 0))), (List.replicate 256 0), rfl, inOrd (by decide +kernel), by decide +kernel⟩,
   ⟨twn, _, (hdr (.emberNotice 255 [⟨63, true, 4⟩])), 255, [⟨63, true, 4⟩], rfl, inOrd (by decide +kernel), by decide +kernel⟩,
   ⟨twn, _, (hdr (.haltNotice 255 [⟨63, true, 4⟩])), 255, [⟨63, true, 4⟩], rfl, inOrd (by decide +kernel), by decide +kernel⟩,
   ⟨twn, _, (hdr (.streamState [⟨63, true, 4⟩])), [⟨63, true, 4⟩], rfl, inOrd (by decide +kernel), by decide +kernel⟩,
   ⟨({ twn with ft := { twn.ft with failed := true } }), _, (hdr .peerReset), rfl, inOrd (by decide +kernel), by decide +kernel⟩,
   ⟨twn, _, (hdr .peerReset), rfl, inOrd (by decide +kernel), by decide +kernel⟩⟩
theorem witness_FramesOutOfOrder :
    (∃ (s : State) (c : Instr) (h : LinkHdr) (m : LinkMsg) (u : State), frameOf c = some (h, m) ∧ linkTakes s ∧ ownSession s h m ∧ u =
         { s with tu := { s.tu with session := h.session, sent := s.tu.sent.filter (fun f => decide (h.ack ≤ f.lseq)) } } ∧ c.wf = true ∧
         h.tagOk = true ∧ formOk h m = true ∧ sessionOk h s = true ∧ hdrNum h < s.tu.rxSeq) ∧
    (∃ (s : State) (c : Instr) (h : LinkHdr) (m : LinkMsg) (u : State), frameOf c = some (h, m) ∧ linkTakes s ∧ ownSession s h m ∧ u =
         { s with tu := { s.tu with session := h.session, sent := s.tu.sent.filter (fun f => decide (h.ack ≤ f.lseq)) } } ∧ c.wf = true ∧
         h.tagOk = true ∧ formOk h m = true ∧ sessionOk h s = true ∧ s.tu.rxSeq < hdrNum h ∧ s.tb.count < s.tu.retryAt) ∧
    (∃ (s : State) (c : Instr) (h : LinkHdr) (m : LinkMsg) (u : State), frameOf c = some (h, m) ∧ linkTakes s ∧ ownSession s h m ∧ u =
         { s with tu := { s.tu with session := h.session, sent := s.tu.sent.filter (fun f => decide (h.ack ≤ f.lseq)) } } ∧ c.wf = true ∧
         h.tagOk = true ∧ formOk h m = true ∧ sessionOk h s = true ∧ s.tu.rxSeq < hdrNum h ∧ s.tu.retryAt ≤ s.tb.count) ∧
    (∃ (s : State) (c : Instr) (h : LinkHdr) (m : LinkMsg) (u : State), frameOf c = some (h, m) ∧ linkTakes s ∧ ownSession s h m ∧ u =
         { s with tu := { s.tu with session := h.session, sent := s.tu.sent.filter (fun f => decide (h.ack ≤ f.lseq)) } } ∧ c.wf = true ∧
         h.tagOk = true ∧ formOk h m = true ∧ sessionOk h s = true ∧ hdrNum h = s.tu.rxSeq ∧ s.tp.haltSent = true ∧ keptAfterHalt m =
         false) ∧
    (∃ (s : State) (c : Instr) (h : LinkHdr) (m : LinkMsg), frameOf c = some (h, m) ∧ ¬ linkTakes s ∧ c.wf = true) :=
  ⟨⟨twn, (Instr.retry { hdr (.retry 0) with lseq := 2 } 0), _, _, _, rfl, lt (by decide +kernel), trivial, rfl, by decide +kernel⟩,
   ⟨({ ({ twn with tu := { twn.tu with retryAt := 5 } }) with tu := { ({ twn with tu := { twn.tu with retryAt := 5 } }).tu with rxSeq := 0 }, tb := { ({ twn with tu := { twn.tu with retryAt := 5 } }).tb with count := 0 } }),
        (Instr.retry { hdr (.retry 0) with lseq := 2 } 0), _, _, _, rfl, lt (by decide +kernel), trivial, rfl, by decide +kernel⟩,
   ⟨({ twn with tu := { twn.tu with rxSeq := 0, retryAt := 0 } }), (Instr.retry { hdr (.retry 0) with lseq := 2 } 0), _, _, _, rfl, lt
        (by decide +kernel), trivial, rfl, by decide +kernel⟩,
   ⟨({ twn with tp := { twn.tp with haltSent := true } }), (Instr.fwdResult (hdr (.fwdResult 0 0)) 0 0), _, _, _, rfl, lt (by decide +kernel),
        trivial, rfl, by decide +kernel⟩,
   ⟨svc, (Instr.retry { hdr (.retry 0) with lseq := 2 } 0), _, _, rfl, nlt (by decide +kernel), by decide +kernel⟩⟩
theorem witness_FramesThatFail :
    (∃ (s : State) (c : Instr) (h : LinkHdr) (m : LinkMsg), linkTakes s ∧ frameOf c = some (h, m) ∧ c.wf = true ∧ h.tagOk = false ∧
         s.tu.helloRx.isSome = true ∧ (h.typ = 0x10 ∨ h.typ = 0x12 ∨ h.typ = 0x15 ∨ h.typ = 0x29)) ∧
    (∃ (s : State) (c : Instr) (h : LinkHdr) (m : LinkMsg), linkTakes s ∧ frameOf c = some (h, m) ∧ c.wf = true ∧ h.tagOk = false ∧
         s.tu.helloRx.isSome = true ∧ h.typ ≠ 0x10 ∧ h.typ ≠ 0x12 ∧ h.typ ≠ 0x15 ∧ h.typ ≠ 0x29) ∧
    (∃ (s : State) (c : Instr) (h : LinkHdr) (m : LinkMsg), linkTakes s ∧ frameOf c = some (h, m) ∧ c.wf = true ∧ h.tagOk = false ∧
         s.tu.helloRx = none) ∧
    (∃ (s : State) (c : Instr) (h : LinkHdr) (m : LinkMsg), linkTakes s ∧ frameOf c = some (h, m) ∧ ownSession s h m ∧ c.wf = true ∧
         h.tagOk = true ∧ (formOk h m = false ∨ sessionOk h s = false)) :=
  ⟨⟨twn, (Instr.repl { hdr (.repl 0 0 0 []) with tagOk := false } 0 0 0 []), _, _, lt (by decide +kernel), rfl, by decide +kernel⟩,
   ⟨twn, (Instr.retry { hdr (.retry 0) with tagOk := false } 0), _, _, lt (by decide +kernel), rfl, by decide +kernel⟩,
   ⟨({ twn with tu := { twn.tu with helloRx := none } }), (Instr.retry { hdr (.retry 0) with tagOk := false } 0), _, _, lt (by decide +kernel),
        rfl, by decide +kernel⟩,
   ⟨twn, (Instr.retry { hdr (.retry 0) with session := 8 } 0), _, _, lt (by decide +kernel), rfl, trivial, by decide +kernel⟩⟩
theorem witness_TwinTimersComplete_1 :
    (∃ (s : State) (hi : Bool) (w : Nat) (u : State), u = retrainPump (setTwinPort hi { up := true, width := w } s) ∧ w < 32 ∧ twinWidth
         w = true ∧ s.tu.idle = false ∧ twinPorts s ≠ [] ∧ s.rpm.recovery = 0 ∧ (s.port (twinPortNo hi s)).pllOk = true ∧ (s.tu.lo.up =
         true ∨ s.tu.hi.up = true ∨ s.px.open_ = false ∨ s.sec.halt = true ∨ s.ft.failed = true)) ∧
    (∃ (s : State) (hi : Bool) (w : Nat) (u : State), u = retrainPump (setTwinPort hi { up := true, width := w } s) ∧ w < 32 ∧ twinWidth
         w = true ∧ s.tu.idle = false ∧ twinPorts s ≠ [] ∧ s.rpm.recovery = 0 ∧ (s.port (twinPortNo hi s)).pllOk = true ∧ s.tu.lo.up =
         false ∧ s.tu.hi.up = false ∧ s.px.open_ = true ∧ s.sec.halt = false ∧ s.ft.failed = false) ∧
    (∃ (s : State) (hi : Bool) (w : Nat), w < 32 ∧ (twinWidth w = false ∨ s.tu.idle = true ∨ twinPorts s = [] ∨ s.rpm.recovery ≠ 0 ∨
         (s.port (twinPortNo hi s)).pllOk = false)) ∧
    (∃ (s : State), s.tu.gap = true) ∧
    (∃ (s : State), s.tu.gap = false) ∧
    (∃ (s : State) (hi : Bool) (p : TwinPort), p = (if hi then s.tu.hi else s.tu.lo) ∧ p.up = true ∧ otherUp hi s = true) ∧
    (∃ (s : State) (hi : Bool) (p : TwinPort), p = (if hi then s.tu.hi else s.tu.lo) ∧ p.up = true ∧ otherUp hi s = false) ∧
    (∃ (s : State) (hi : Bool) (p : TwinPort), p = (if hi then s.tu.hi else s.tu.lo) ∧ p.up = false) ∧
    (∃ (s : State), s.tu.ps = .inSync ∧ s.tp.unackSegs ≠ []) ∧
    (∃ (s : State), (s.tu.ps ≠ .inSync ∨ s.tp.unackSegs = [])) :=
  ⟨⟨twn, true, 8, _, rfl, by decide +kernel⟩,
   ⟨svc, true, 8, _, rfl, by decide +kernel⟩,
   ⟨svc, true, 31, by decide +kernel⟩,
   ⟨({ svc with tu := { svc.tu with gap := true } }), by decide +kernel⟩,
   ⟨svc, by decide +kernel⟩,
   ⟨({ twn with tu := { twn.tu with hi := { up := true, width := 16 } } }), true, _, rfl, by decide +kernel⟩,
   ⟨twn, false, _, rfl, by decide +kernel⟩,
   ⟨svc, true, _, rfl, by decide +kernel⟩,
   ⟨({ twn with tp := { twn.tp with unackSegs := [(1, 2)] } }), by decide +kernel⟩,
   ⟨svc, by decide +kernel⟩⟩
theorem witness_TwinTimersComplete_2 :
    (∃ (s : State), linkUp s = true ∧ linkQuiet s = false) ∧
    (∃ (s : State), (linkUp s = false ∨ linkQuiet s = true)) ∧
    (∃ (s : State), linkFull s = true ∧ pairLive s = true) ∧
    (∃ (s : State), (linkFull s = false ∨ pairLive s = false)) ∧
    (∃ (s : State), linkFull s = true ∧ s.tu.ps = .inSync ∧ runningPartners s ≠ []) ∧
    (∃ (s : State), (linkFull s = false ∨ s.tu.ps ≠ .inSync ∨ runningPartners s = [])) ∧
    (∃ (s u : State), u = { s with tu := { s.tu with live := false }, tp := { s.tp with notLive1ms := true } } ∧ s.tp.deciding = true ∧
         s.tu.record.token = false) ∧
    (∃ (s u : State), u = { s with tu := { s.tu with live := false }, tp := { s.tp with notLive1ms := true } } ∧ (s.tp.deciding = false
         ∨ s.tu.record.token = true) ∧ linkUp s = true ∧ s.tu.ps = .inSync ∧ s.tu.qwired = true ∧ s.tu.qfault = false) ∧
    (∃ (s u : State), u = { s with tu := { s.tu with live := false }, tp := { s.tp with notLive1ms := true } } ∧ (s.tp.deciding = false
         ∨ s.tu.record.token = true) ∧ (linkUp s = false ∨ s.tu.ps ≠ .inSync ∨ s.tu.qwired = false ∨ s.tu.qfault = true)) ∧
    (∃ (s u : State), u = { s with tu := { s.tu with live := false, claimIn := true } } ∧ s.tp.deciding = true ∧ s.tu.record.token =
         true) :=
  ⟨⟨twn, by decide +kernel⟩,
   ⟨svc, by decide +kernel⟩,
   ⟨twn, by decide +kernel⟩,
   ⟨svc, by decide +kernel⟩,
   ⟨({ twn with su := { twn.su with chans := [(63, { st := .running, job := some { (default : JobParams) with partner := 0 } })] } }),
        by decide +kernel⟩,
   ⟨svc, by decide +kernel⟩,
   ⟨({ svc with tp := { svc.tp with deciding := true }, tu := { svc.tu with record := { svc.tu.record with token := false } } }), _,
        rfl, by decide +kernel⟩,
   ⟨({ twn with tp := { twn.tp with deciding := false }, tu := { twn.tu with record := { twn.tu.record with token := true }, ps := .inSync, qwired := true, qfault := false } }),
        _, rfl, by decide +kernel⟩,
   ⟨svc, _, rfl, by decide +kernel⟩,
   ⟨({ twn with tp := { twn.tp with deciding := true } }), _, rfl, by decide +kernel⟩⟩
theorem witness_TwinTimersComplete_3 :
    (∃ (s u : State), u = { s with tu := { s.tu with live := false, claimIn := true } } ∧ (s.tp.deciding = false ∨ s.tu.record.token =
         false)) ∧
    (∃ (s : State), s.tp.deciding = true ∧ s.tu.record.token = true) ∧
    (∃ (s : State), s.tp.deciding = true ∧ s.tu.record.token = false) ∧
    (∃ (s : State), s.tp.deciding = false) ∧
    (∃ (s : State) (c : Commit), s.opt.run = some c ∧ c.act = .takeover ∧ c.page ≠ 35) ∧
    (∃ (s : State) (c : Commit), s.opt.run = some c ∧ c.act ≠ .takeover ∧ (∃ d ∈ s.opt.queue, d.act = .takeover)) ∧
    (∃ (s : State), (∀ c ∈ s.opt.queue, c.act ≠ .takeover) ∧ (∀ (c : Commit), s.opt.run = some c → c.act ≠ .takeover)) ∧
    (∃ (s : State), s.tu.idle = true ∧ s.tp.deciding = false ∧ s.tp.taking = false ∧ s.tp.lossOwed = false ∧ pairBusy s = false ∧
         s.tu.ps ≠ .refused) ∧
    (∃ (s : State), (s.tu.idle = false ∨ s.tp.deciding = true ∨ s.tp.taking = true ∨ s.tp.lossOwed = true ∨ pairBusy s = true ∨ s.tu.ps
         = .refused)) ∧
    (∃ (s : State) (hi : Bool) (w : Nat) (p : TwinPort) (u : State), p = (if hi then s.tu.hi else s.tu.lo) ∧ u = ledger 0x1804 (srcPort
         (twinPortNo hi s)) [twinPortNo hi s, w] (raise 0x1804 (twinPortNo hi s) 0 .nothing s) ∧ w < 32 ∧ p.up = true ∧ w < p.width ∧
         twinWidth w = true) :=
  ⟨⟨svc, _, rfl, by decide +kernel⟩,
   ⟨({ twn with tp := { twn.tp with deciding := true } }), by decide +kernel⟩,
   ⟨({ svc with tp := { svc.tp with deciding := true }, tu := { svc.tu with record := { svc.tu.record with token := false } } }), by
        decide +kernel⟩,
   ⟨svc, by decide +kernel⟩,
   ⟨({ twn with opt := { twn.opt with run := some { page := 33, off := 0, bytes := [], act := .takeover } } }), _, rfl, by decide +kernel⟩,
   ⟨({ svc with opt := { svc.opt with run := some { page := 35, off := 0, bytes := [], act := .highWater }, queue := [{ page := 32, off := 0, bytes := [], act := .takeover }] } }),
        _, rfl, by decide +kernel⟩,
   ⟨svc, by decide +kernel⟩,
   ⟨({ twn with tu := { twn.tu with idle := true } }), by decide +kernel⟩,
   ⟨svc, by decide +kernel⟩,
   ⟨({ twn with tu := { twn.tu with hi := { up := true, width := 16 } } }), true, 8, _, _, rfl, rfl, by decide +kernel⟩⟩
theorem witness_TwinTimersComplete_4 :
    (∃ (s : State) (hi : Bool) (w : Nat) (p : TwinPort) (u : State), p = (if hi then s.tu.hi else s.tu.lo) ∧ u = ledger 0x1804 (srcPort
         (twinPortNo hi s)) [twinPortNo hi s, w] (raise 0x1804 (twinPortNo hi s) 0 .nothing s) ∧ w = 0 ∧ w < 32 ∧ p.up = true ∧ 0 <
         p.width ∧ otherUp hi s = true) ∧
    (∃ (s : State) (hi : Bool) (w : Nat) (p : TwinPort) (u : State), p = (if hi then s.tu.hi else s.tu.lo) ∧ u = ledger 0x1804 (srcPort
         (twinPortNo hi s)) [twinPortNo hi s, w] (raise 0x1804 (twinPortNo hi s) 0 .nothing s) ∧ w = 0 ∧ w < 32 ∧ p.up = true ∧ 0 <
         p.width ∧ otherUp hi s = false) ∧
    (∃ (s : State) (hi : Bool) (w : Nat) (p : TwinPort) (u : State), p = (if hi then s.tu.hi else s.tu.lo) ∧ u = ledger 0x1804 (srcPort
         (twinPortNo hi s)) [twinPortNo hi s, w] (raise 0x1804 (twinPortNo hi s) 0 .nothing s) ∧ w < 32 ∧ (p.up = false ∨ p.width ≤ w ∨ w
         ≠ 0 ∧ twinWidth w = false)) :=
  ⟨⟨({ twn with tu := { twn.tu with hi := { up := true, width := 16 } } }), true, _, _, _, rfl, rfl, rfl, by decide +kernel⟩,
   ⟨twn, false, _, _, _, rfl, rfl, rfl, by decide +kernel⟩,
   ⟨svc, true, 31, _, _, rfl, rfl, by decide +kernel⟩⟩
theorem witness_TwinCommandsComplete :
    (∃ (s : State) (rq : Rq), sentOk (.twinQuery rq) s rq 0x0500) ∧
    (∃ (s : State) (rq : Rq) (base size policy : Nat), sentOk (.twinHomeSet rq base size policy) s rq 0x0501 ∧ policy < 4 ∧ base % 2 ^
         21 = 0 ∧ size % 2 ^ 21 = 0 ∧ 0 < size ∧ (s.tp.homes.any (sameRange base size) = true ∨ policy ≠ 3 ∧ s.tp.homes.any (rangesMeet
         base size) = false ∧ s.tp.homes.length < 64)) ∧
    (∃ (s : State) (rq : Rq), sentOk (.twinTakeover rq) s rq 0x0502 ∧ linkUp s = false ∧ mayTakeOver s = true ∧ s.tu.record.pgen ≠
         lastPgen) ∧
    (∃ (s : State) (rq : Rq), sentOk (.twinUnpair rq) s rq 0x0503 ∧ noticeState s.tu.ps = false ∧ s.sec.rngFail = false) ∧
    (∃ (s : State) (rq : Rq), sentOk (.twinPeerReset rq) s rq 0x0504 ∧ linkUp s = true ∧ s.tp.haltRx = true) ∧
    (∃ (s : State) (rq : Rq), sentOk (.twinRetrain rq) s rq 0x0505 ∧ twinPorts s ≠ [] ∧ s.tu.ps = .refused) ∧
    (∃ (s : State) (rq : Rq), sentOk (.twinRetrain rq) s rq 0x0505 ∧ twinPorts s ≠ [] ∧ s.tu.ps ≠ .refused) :=
  ⟨⟨svc, rqM, sent (by decide +kernel)⟩,
   ⟨svc, rqM, 0x200000, 0x200000, 2, sent (by decide +kernel), by decide +kernel⟩,
   ⟨({ twn with tu := { twn.tu with idle := true, ps := .fenced } }), rqM, sent (by decide +kernel), by decide +kernel⟩,
   ⟨svc, rqM, sent (by decide +kernel), by decide +kernel⟩,
   ⟨({ twn with tp := { twn.tp with haltRx := true } }), rqM, sent (by decide +kernel), by decide +kernel⟩,
   ⟨({ svc with tu := { svc.tu with ps := .refused } }), rqM, sent (by decide +kernel), by decide +kernel⟩,
   ⟨svc, rqM, sent (by decide +kernel), by decide +kernel⟩⟩
theorem witness_PortEventsComplete_1 :
    (∃ (s : State) (p : Nat), p < 10 ∧ (euBusy s = true ∨ s.eu.phase = .shutdown ∨ s.rpm.st = .timedShutdown ∨ s.rpm.st = .shutdown)) ∧
    (∃ (s : State) (p : Nat) (t : State), t = rstTake (.port p) s ∧ p < 10 ∧ euBusy s = false ∧ s.eu.phase ≠ .shutdown ∧ s.rpm.st ≠
         .timedShutdown ∧ s.rpm.st ≠ .shutdown ∧ s.rpm.asserted.contains (.port p) = true) ∧
    (∃ (s : State) (p : Nat) (t : State), t = rstTake (.port p) s ∧ p < 10 ∧ euBusy s = false ∧ s.eu.phase ≠ .shutdown ∧ s.rpm.st ≠
         .timedShutdown ∧ s.rpm.st ≠ .shutdown ∧ s.rpm.asserted.contains (.port p) = false) ∧
    (∃ (s : State) (p w : Nat), p < 10 ∧ portTrains s p = true ∧ w ∈ [16, 8, 4] ∧ w ≤ maxLanes (s.port p)) ∧
    (∃ (s : State) (p rate w : Nat), p < 10 ∧ rate < 8 ∧ w < 32 ∧ portTrains s p = false) ∧
    (∃ (s : State) (p rate w : Nat) (flit : Bool), p < 10 ∧ rate < 8 ∧ w < 32 ∧ portTrains s p = true ∧ (rate ≠ 6 ∨ flit = false ∨ w ∉
         [16, 8, 4] ∨ maxLanes (s.port p) < w)) ∧
    (∃ (s : State) (p : Nat), p < 10 ∧ (s.port p).disabled = true ∧ (s.port p).attempts < 3) ∧
    (∃ (s : State) (p : Nat), p < 10 ∧ ((s.port p).disabled = false ∨ 3 ≤ (s.port p).attempts)) ∧
    (∃ (s : State) (p : Nat) (u : State), u = s.modPort p (fun q => { q with degradeCnt := inc32 q.degradeCnt }) ∧ p < 10 ∧ ((s.port
         p).role = 2 ∨ (s.port p).serving = false)) ∧
    (∃ (s : State) (p : Nat) (u : State), u = s.modPort p (fun q => { q with degradeCnt := inc32 q.degradeCnt }) ∧ p < 10 ∧ (s.port
         p).role ≠ 2 ∧ (s.port p).serving = true ∧ (s.port p).width ≠ 4) :=
  ⟨⟨({ svc with eu := { svc.eu with phase := .shutdown }, rpm := { svc.rpm with st := .shutdown } }), 9, by decide +kernel⟩,
   ⟨({ svc with rpm := { svc.rpm with asserted := [.port 9] } }), 9, _, rfl, by decide +kernel⟩,
   ⟨svc, 9, _, rfl, by decide +kernel⟩,
   ⟨({ svc with px := { svc.px with ports := [(0, { pllOk := true })] } }), 0, 16, by decide +kernel⟩,
   ⟨svc, 9, 7, 31, by decide +kernel⟩,
   ⟨({ svc with px := { svc.px with ports := [(0, { pllOk := true })] } }), 0, 7, 31, false, by decide +kernel⟩,
   ⟨(svc.modPort 2 (fun x => { x with disabled := true })), 2, by decide +kernel⟩,
   ⟨svc, 9, by decide +kernel⟩,
   ⟨State.reset, 9, _, rfl, by decide +kernel⟩,
   ⟨svc, 2, _, rfl, by decide +kernel⟩⟩
theorem witness_PortEventsComplete_2 :
    (∃ (s : State) (p : Nat) (u : State), u = s.modPort p (fun q => { q with degradeCnt := inc32 q.degradeCnt }) ∧ p < 10 ∧ (s.port
         p).role ≠ 2 ∧ (s.port p).serving = true ∧ (s.port p).width = 4) ∧
    (∃ (s : State) (p w : Nat), p < 10 ∧ w < 32 ∧ (s.port p).role ≠ 2 ∧ (s.port p).serving = true ∧ w ∈ [16, 8, 4] ∧ w ≤ maxLanes
         (s.port p) ∧ (s.port p).width < w) ∧
    (∃ (s : State) (p w : Nat), p < 10 ∧ w < 32 ∧ (s.port p).role ≠ 2 ∧ ((s.port p).serving = false ∨ w ∉ [16, 8, 4] ∨ maxLanes (s.port
         p) < w ∨ w ≤ (s.port p).width)) ∧
    (∃ (s : State) (p : Nat), p < 10 ∧ ((s.port p).role ≠ 1 ∨ (s.port p).serving = false)) ∧
    (∃ (s : State) (p : Nat) (found : List FoundFn) (e : EnumSt) (t : State), e = found.foldl (enumStep p) { at_ := barBase p } ∧ t =
         e.off.foldl (fun s f => ledger 0x0006 (srcPort p) [p, f.bus, f.dev, f.func] (raise 0x0006 p 0 .nothing s)) (s.modPort p (fun q
         => { q with consumers := e.cons })) ∧ p < 10 ∧ (s.port p).role = 1 ∧ (s.port p).serving = true) ∧
    (∃ (s : State) (p : Nat) (found : List FoundFn) (e : EnumSt) (t : State), e = found.foldl (enumStep p) { at_ := barBase p } ∧ t =
         e.off.foldl (fun s f => ledger 0x0006 (srcPort p) [p, f.bus, f.dev, f.func] (raise 0x0006 p 0 .nothing s)) (s.modPort p (fun q
         => { q with consumers := e.cons })) ∧ p < 10 ∧ (s.port p).role = 1 ∧ (s.port p).serving = true ∧ e.off = []) ∧
    (∃ (s : State) (p c : Nat), p < 10 ∧ c < 8 ∧ hasConsumer s p c = true) ∧
    (∃ (s : State) (p c : Nat), p < 10 ∧ c < 8 ∧ hasConsumer s p c = false) ∧
    (∃ (s : State) (p c : Nat) (t : State), t = raise 0x0008 p c .nothing ((List.range 64).foldl (fun s k =>
         match (s.chan k).job with | some j => if j.port = p ∧ j.consumer = c then holdChan 0x10 k s else s | none => s) (s.modPort p
         (fun x => { x with consumers := x.consumers.modify c (fun k => { k with lost := true }) }))) ∧ p < 10 ∧ c < 8 ∧ consumerHere s p
         c = true) ∧
    (∃ (s : State) (p c : Nat), p < 10 ∧ c < 8 ∧ consumerHere s p c = false) :=
  ⟨⟨(svc.modPort 2 (fun x => { x with role := (2 + 1), serving := true, width := 4 })), 2, _, rfl, by decide +kernel⟩,
   ⟨(svc.modPort 8 (fun x => { x with role := (2 + 1), serving := true })), 8, 16, by decide +kernel⟩,
   ⟨svc, 7, 31, by decide +kernel⟩,
   ⟨svc, 9, by decide +kernel⟩,
   ⟨(svc.modPort 2 (fun x => { x with role := 1, serving := true })), 2, ([⟨1, 0, 0, [4096], false⟩]), _, _, rfl, rfl, by decide +kernel⟩,
   ⟨(svc.modPort 2 (fun x => { x with role := 1, serving := true })), 2, ([⟨1, 0, 0, [4096], true⟩]), _, _, rfl, rfl, by decide +kernel⟩,
   ⟨svc, 1, 0, by decide +kernel⟩,
   ⟨svc, 9, 7, by decide +kernel⟩,
   ⟨svc, 1, 0, _, rfl, by decide +kernel⟩,
   ⟨svc, 9, 7, by decide +kernel⟩⟩
theorem witness_PortEventsComplete_3 : ∃ (s : State) (p : Nat), p < 10 ∧ (s.port p).role = 1 ∧ (s.port p).serving = true :=
  ⟨(svc.modPort 2 (fun x => { x with role := 1, serving := true })), 2, by decide +kernel⟩
theorem witness_CxlCommandsComplete_1 :
    (∃ (s : State) (p l log : Nat), p < 10 ∧ l < 16 ∧ ldServes s p l = true ∧ (s.fn p l).d3 = false ∧ log < 4) ∧
    (∃ (s : State) (p l log : Nat) (hs : List Nat), p < 10 ∧ l < 16 ∧ ldServes s p l = true ∧ (s.fn p l).d3 = false ∧ 4 ≤ log ∧ log <
         256 ∧ (∀ h ∈ hs, h < 65536)) ∧
    (∃ (s : State) (p l log : Nat) (hs : List Nat) (all : Bool), p < 10 ∧ l < 16 ∧ ldServes s p l = true ∧ (s.fn p l).d3 = false ∧ log <
         4 ∧ (∀ h ∈ hs, h < 65536) ∧ (all = true ∨ (∀ h ∈ hs, ∃ r ∈ (s.ld p l).logs.get [] log, r.handle = h))) ∧
    (∃ (s : State) (p l log : Nat) (hs : List Nat) (all : Bool), p < 10 ∧ l < 16 ∧ ldServes s p l = true ∧ (s.fn p l).d3 = false ∧ log <
         4 ∧ (∀ h ∈ hs, h < 65536) ∧ all = false ∧ (∃ h ∈ hs, ∀ r ∈ (s.ld p l).logs.get [] log, r.handle ≠ h)) ∧
    (∃ (s : State) (p l : Nat), p < 10 ∧ l < 16 ∧ ldServes s p l = true ∧ (s.fn p l).d3 = false) ∧
    (∃ (s : State) (p l : Nat) (modes nums : List Nat), p < 10 ∧ l < 16 ∧ ldServes s p l = true ∧ (s.fn p l).d3 = false ∧ modes.length =
         4 ∧ nums.length = 4 ∧ (∀ m ∈ modes, m < 3)) ∧
    (∃ (s : State) (p l : Nat) (modes nums : List Nat), p < 10 ∧ l < 16 ∧ ldServes s p l = true ∧ (s.fn p l).d3 = false ∧ modes.length =
         4 ∧ nums.length = 4 ∧ (∃ m ∈ modes, 3 ≤ m)) ∧
    (∃ (s : State) (p l base len : Nat), p < 10 ∧ l < 16 ∧ ldServes s p l = true ∧ (s.fn p l).d3 = false ∧ base < 2 ^ 64 ∧ len < 2 ^ 64) ∧
    (∃ (s : State) (p l op : Nat), p < 10 ∧ l < 16 ∧ ldServes s p l = true ∧ (s.fn p l).d3 = false ∧ op < 65536 ∧ cxlOpcodes.contains op
         = false) ∧
    (∃ (s : State) (p l log : Nat) (all : Bool) (hs modes nums : List Nat) (base len op : Nat) (c : Instr), p < 10 ∧ l < 16 ∧ log < 256
         ∧ (∀ h ∈ hs, h < 65536) ∧ modes.length = 4 ∧ nums.length = 4 ∧ base < 2 ^ 64 ∧ len < 2 ^ 64 ∧ op < 65536 ∧ c ∈
         [Instr.getEventRecords p l log, .clearEventRecords p l log all hs, .getEventInterruptPolicy p l, .setEventInterruptPolicy p l
         modes nums, .getSupportedLogs p l, .getLog p l, .identifyMemoryDevice p l, .getHealthInfo p l, .getPoisonList p l base len,
         .primaryMailboxUnsupported p l op] ∧ ldServes s p l = false) :=
  ⟨⟨svc, 0, 0, 3, by decide +kernel⟩,
   ⟨svc, 0, 0, 255, [65535], by decide +kernel⟩,
   ⟨svc, 0, 0, 3, [], false, by decide +kernel⟩,
   ⟨svc, 0, 0, 3, [65535], false, by decide +kernel⟩,
   ⟨svc, 0, 0, by decide +kernel⟩,
   ⟨svc, 0, 0, [1, 1, 1, 1], [0, 1, 2, 3], by decide +kernel⟩,
   ⟨svc, 0, 0, [0, 1, 2, 3], [0, 1, 2, 3], by decide +kernel⟩,
   ⟨svc, 0, 0, 18446744073709551615, 18446744073709551615, by decide +kernel⟩,
   ⟨svc, 0, 0, 0xFFFF, by decide +kernel⟩,
   ⟨State.reset, 0, 0, 255, false, [65535], [0, 1, 2, 3], [0, 1, 2, 3], 18446744073709551615, 18446744073709551615, 0xFFFF,
        (.getSupportedLogs 0 0), by decide +kernel⟩⟩
theorem witness_CxlCommandsComplete_2 :
    (∃ (s : State) (p l log : Nat) (all : Bool) (hs modes nums : List Nat) (base len op : Nat) (c : Instr), p < 10 ∧ l < 16 ∧ log < 256
         ∧ (∀ h ∈ hs, h < 65536) ∧ modes.length = 4 ∧ nums.length = 4 ∧ base < 2 ^ 64 ∧ len < 2 ^ 64 ∧ op < 65536 ∧ c ∈
         [Instr.getEventRecords p l log, .clearEventRecords p l log all hs, .getEventInterruptPolicy p l, .setEventInterruptPolicy p l
         modes nums, .getSupportedLogs p l, .getLog p l, .identifyMemoryDevice p l, .getHealthInfo p l, .getPoisonList p l base len,
         .primaryMailboxUnsupported p l op] ∧ ldServes s p l = true ∧ (s.fn p l).d3 = true ∧ cxlOpcodes.contains op = false) ∧
    (∃ (s : State) (p : Nat), p < 10 ∧ portServes s p = true ∧ (s.port p).mld = true) ∧
    (∃ (s : State) (p : Nat) (sizes : List Nat), p < 10 ∧ portServes s p = true ∧ (s.port p).mld = true ∧ sizes ≠ List.replicate
         ((s.port p).nfunc + 1) (uBytes s)) ∧
    (∃ (s : State) (p : Nat) (vals : List Nat) (c : Instr), p < 10 ∧ (portServes s p = false ∨ (s.port p).mld = false) ∧ c ∈
         [Instr.getLdInfo p, .getLdAllocations p, .setLdAllocations p vals, .getQosControl p, .setQosControl p vals, .getQosStatus p]) ∧
    (∃ (s : State) (p f v : Nat), p < 10 ∧ f < 16 ∧ v < 64 ∧ fnReached s p f = true ∧ (s.fn p f).d3 = false) ∧
    (∃ (s : State) (p f v : Nat), p < 10 ∧ f < 16 ∧ v < 64 ∧ fnReached s p f = true ∧ (s.fn p f).d3 = true) ∧
    (∃ (s : State) (p f v : Nat), p < 10 ∧ f < 16 ∧ v < 64 ∧ fnReached s p f = false) :=
  ⟨⟨(svc.modFn 0 0 (fun x => { x with d3 := true })), 0, 0, 255, false, [65535], [0, 1, 2, 3], [0, 1, 2, 3], 18446744073709551615,
        18446744073709551615, 0xFFFF, (.getSupportedLogs 0 0), by decide +kernel⟩,
   ⟨(svc.modPort 0 (fun x => { x with mld := true })), 0, by decide +kernel⟩,
   ⟨(svc.modPort 0 (fun x => { x with mld := true })), 0, [1], by decide +kernel⟩,
   ⟨svc, 0, [], (.getLdInfo 0), by decide +kernel⟩,
   ⟨svc, 2, 0, 63, by decide +kernel⟩,
   ⟨(svc.modFn 0 0 (fun x => { x with d3 := true })), 0, 0, 63, by decide +kernel⟩,
   ⟨State.reset, 9, 15, 63, by decide +kernel⟩⟩
theorem witness_PortCommandsComplete :
    (∃ (s : State) (p f v : Nat), p < 10 ∧ f < 16 ∧ v < 64 ∧ fnReached s p f = true ∧ (s.fn p f).d3 = false ∧ (s.fn p f).msixEn = true ∧
         (s.fn p f).msixMask = false ∧ (s.fn p f).pend = (1#64) <<< v) ∧
    (∃ (s : State) (rq : Rq) (p : Nat), sentOk (.portQuery rq p) s rq 0x0600 ∧ p < 10) ∧
    (∃ (s : State) (rq : Rq), sentOk (.portQuery rq allOnes) s rq 0x0600) ∧
    (∃ (s : State) (rq : Rq) (p : Nat), sentOk (.portRetrain rq p) s rq 0x0601 ∧ p < 10 ∧ (s.port p).role ≠ 2 ∧ senderPort s rq.ch ≠
         some p) ∧
    (∃ (s : State) (rq : Rq) (p : Nat), sentOk (.portRescan rq p) s rq 0x0602 ∧ p < 10 ∧ (s.port p).role = 1 ∧ streamOn s p = false ∧
         (s.port p).serving = true) ∧
    (∃ (s : State) (rq : Rq) (p : Nat), sentOk (.portRescan rq p) s rq 0x0602 ∧ p < 10 ∧ (s.port p).role = 1 ∧ streamOn s p = false ∧
         (s.port p).serving = false) :=
  ⟨⟨({ svc with px := { svc.px with fns := [(0, { msixEn := true, pend := 0x8000000000000000 })] } }), 0, 0, 63, by decide +kernel⟩,
   ⟨svc, rqH, 9, sent (by decide +kernel), by decide +kernel⟩,
   ⟨svc, rqH, sent (by decide +kernel)⟩,
   ⟨({ svc with px := { svc.px with ports := [(3, { role := 1 })] } }), rqH, 9, sent (by decide +kernel), by decide +kernel⟩,
   ⟨svc, rqH, 1, sent (by decide +kernel), by decide +kernel⟩,
   ⟨({ svc with px := { svc.px with ports := [(3, { role := 1 })] } }), rqH, 3, sent (by decide +kernel), by decide +kernel⟩⟩
theorem witness_StreamCommandsComplete_1 :
    (∃ (s : State) (rq : Rq) (c : Nat) (j : JobParams), sentOk (.streamJobLoad rq c j) s rq 0x0700 ∧ (∀ b ∈ jobBad s c j, b = false) ∧
         hasJob s c = false ∧ rangeGranted s (senderOf s rq.ch) j.base j.len = true) ∧
    (∃ (s : State) (j : JobParams), loadCode (jobRd s j) j.len ≠ 0) ∧
    (∃ (s : State) (j : JobParams), loadCode (jobRd s j) j.len = 0 ∧ fileRange (hdrOf (rdBytes (jobRd s j) 0 128)) j = false) ∧
    (∃ (s : State) (j : JobParams), loadCode (jobRd s j) j.len = 0 ∧ fileRange (hdrOf (rdBytes (jobRd s j) 0 128)) j = true ∧ ringPlaced
         s j = false) ∧
    (∃ (s : State) (j : JobParams), loadCode (jobRd s j) j.len = 0 ∧ fileRange (hdrOf (rdBytes (jobRd s j) 0 128)) j = true ∧ ringPlaced
         s j = true ∧ ringAlone s j = false) ∧
    (∃ (s : State) (j : JobParams), loadCode (jobRd s j) j.len = 0 ∧ fileRange (hdrOf (rdBytes (jobRd s j) 0 128)) j = true ∧ ringPlaced
         s j = true ∧ ringAlone s j = true) ∧
    (∃ (s : State) (rq : Rq) (c : Nat) (j : JobParams), sentOk (.streamJobUnload rq c) s rq 0x0701 ∧ (s.chan c).job = some j ∧ c < 64 ∧
         (s.chan c).owner = rq.ch ∧ (s.chan c).st ∈ [.loaded, .held, .done]) ∧
    (∃ (s : State) (rq : Rq) (c : Nat) (j : JobParams) (stamp mode : Nat) (peer : Option JobParams), sentOk (.streamStart rq c stamp
         mode peer) s rq 0x0702 ∧ (s.chan c).job = some j ∧ c < 64 ∧ mode < 2 ∧ (s.chan c).owner = rq.ch ∧ (s.chan c).st = .loaded ∧ (∀ b
         ∈ startBad s c mode peer, b = false)) ∧
    (∃ (s : State) (rq : Rq) (c : Nat) (j : JobParams), sentOk (.streamStop rq c) s rq 0x0703 ∧ (s.chan c).job = some j ∧ c < 64 ∧
         (s.chan c).owner = rq.ch ∧ (s.chan c).st ∈ [.priming, .armed, .running, .standby] ∧ (s.chan c).rel = []) ∧
    (∃ (s : State) (rq : Rq) (c : Nat) (j : JobParams), sentOk (.streamStop rq c) s rq 0x0703 ∧ (s.chan c).job = some j ∧ c < 64 ∧
         (s.chan c).owner = rq.ch ∧ (s.chan c).st ∈ [.priming, .armed, .running, .standby] ∧ (s.chan c).rel ≠ []) :=
  ⟨⟨svc, rqH, 8, { jobT with dataBase := 0 }, sent (by decide +kernel), by decide +kernel⟩,
   ⟨svc, { jobT with dataBase := 0 }, by decide +kernel⟩,
   ⟨nol, { jobT with first := 1000 }, nln_load, by decide +kernel⟩,
   ⟨nol, { jobT with dataBase := 0 }, nln_load, by decide +kernel⟩,
   ⟨(str {}), jobT, nln_load, by decide +kernel⟩,
   ⟨nol, jobT, nln_load, by decide +kernel⟩,
   ⟨(str { st := .held }), rqH, 0, _, sent (by decide +kernel), rfl, by decide +kernel⟩,
   ⟨(str { st := .loaded }), rqH, 0, _, 1795, 0, none, sent (by decide +kernel), rfl, by decide +kernel⟩,
   ⟨(str { st := .armed }), rqH, 0, _, sent (by decide +kernel), rfl, by decide +kernel⟩,
   ⟨(str { st := .running, produced := 1, rel := [⟨1, 0, 5, false, [], List.replicate 64 0, none⟩] }), rqH, 0, _, sent (by decide +kernel),
        rfl, by decide +kernel⟩⟩
theorem witness_StreamCommandsComplete_2 :
    (∃ (s : State) (rq : Rq) (c : Nat) (j : JobParams) (line stamp mode : Nat) (peer : Option JobParams), sentOk (.streamResume rq c
         line stamp mode peer) s rq 0x0704 ∧ (s.chan c).job = some j ∧ c < 64 ∧ mode < 2 ∧ (s.chan c).owner = rq.ch ∧ (s.chan c).st ∈
         [.held, .done, .standby] ∧ (∀ b ∈ startBad s c mode peer, b = false) ∧ j.first ≤ line ∧ line ≤ lastOf j ∧ line ≠ allOnes) ∧
    (∃ (s : State) (rq : Rq) (c : Nat) (j : JobParams) (line stamp mode : Nat) (peer : Option JobParams), sentOk (.streamResume rq c
         line stamp mode peer) s rq 0x0704 ∧ (s.chan c).job = some j ∧ c < 64 ∧ mode < 2 ∧ (s.chan c).owner = rq.ch ∧ (s.chan c).st ∈
         [.held, .done, .standby] ∧ (∀ b ∈ startBad s c mode peer, b = false) ∧ line = allOnes ∧ (s.chan c).heldValid = true) ∧
    (∃ (s : State) (rq : Rq) (c : Nat), sentOk (.streamQuery rq c) s rq 0x0705 ∧ (c < 64 ∨ c = allOnes)) :=
  ⟨⟨(str { st := .held }), rqH, 0, _, 0, 1797, 0, none, sent (by decide +kernel), rfl, by decide +kernel⟩,
   ⟨(str { st := .held, heldValid := true }), rqH, 0, _, allOnes, 1797, 0, none, sent (by decide +kernel), rfl, by decide +kernel⟩,
   ⟨svc, rqH, allOnes, sent (by decide +kernel), by decide +kernel⟩⟩
theorem witness_StreamEventsComplete_1 :
    (∃ (s : State) (c : Nat) (t : State), t = raise 0x1C00 c 0 (.stream c) (s.modChan c (fun x =>
         { x with st := if x.standbyMode then .standby else .armed })) ∧ c < 64 ∧ (s.chan c).st = .priming ∧ windowResident s c = true ∧
         ((s.chan c).standbyMode = true ∨ s.tb.count < (s.chan c).stamp)) ∧
    (∃ (s : State) (c : Nat) (t : State), t = raise 0x1C00 c 0 (.stream c) (s.modChan c (fun x =>
         { x with st := if x.standbyMode then .standby else .armed })) ∧ c < 64 ∧ (s.chan c).st = .priming ∧ windowResident s c = true ∧
         (s.chan c).standbyMode = false ∧ (s.chan c).stamp ≤ s.tb.count) ∧
    (∃ (s : State) (c : Nat), c < 64 ∧ ((s.chan c).st ≠ .priming ∨ windowResident s c = false)) ∧
    (∃ (s : State) (c : Nat), c < 64 ∧ (s.chan c).st = .priming) ∧
    (∃ (s : State) (c : Nat), c < 64 ∧ (s.chan c).st ≠ .priming) ∧
    (∃ (s : State) (c : Nat), c < 64 ∧ (s.chan c).st = .armed ∧ (s.chan c).stamp ≤ s.tb.count) ∧
    (∃ (s : State) (c : Nat), c < 64 ∧ ((s.chan c).st ≠ .armed ∨ s.tb.count < (s.chan c).stamp)) ∧
    (∃ (s : State) (input : Nat) (rds : List (Nat × List RdRes)) (e : Nat × Nat), s.su.edges.find? (fun x => x.1 == input) = some e ∧
         input < 16 ∧ (∀ x ∈ rds, x.1 < 2 ^ 40)) ∧
    (∃ (s : State) (input : Nat) (rds : List (Nat × List RdRes)), input < 16 ∧ (∀ x ∈ rds, x.1 < 2 ^ 40) ∧ s.su.edges.find? (fun x =>
         x.1 == input) = none) ∧
    (∃ (s : State) (c : Nat) (r : Release) (t : List Release), (s.chan c).rel = r :: t ∧ c < 64 ∧ (s.chan c).st ∈ [.priming, .armed,
         .running, .standby] ∧ r.todo = []) :=
  ⟨⟨(str { st := .priming, stamp := 99, pinned := [0] }), 0, _, rfl, by decide +kernel⟩,
   ⟨(str { st := .priming }), 0, _, rfl, by decide +kernel⟩,
   ⟨svc, 63, by decide +kernel⟩,
   ⟨(str { st := .priming }), 0, by decide +kernel⟩,
   ⟨svc, 63, by decide +kernel⟩,
   ⟨(str { st := .armed }), 0, by decide +kernel⟩,
   ⟨svc, 63, by decide +kernel⟩,
   ⟨({ str { st := .running } with su := { (str { st := .running }).su with edges := [(0, 77)] } }), 0, [], _, rfl, by decide +kernel⟩,
   ⟨svc, 15, [], by decide +kernel⟩,
   ⟨(str { st := .running, produced := 1, rel := [⟨1, 0, 5, false, [], List.replicate 64 0, none⟩] }), 0, _, _, rfl, by decide +kernel⟩⟩
theorem witness_StreamEventsComplete_2 :
    (∃ (s : State) (c : Nat), ((s.chan c).st ∉ [.priming, .armed, .running, .standby] ∨ (s.chan c).rel = [] ∨ ∃ (r : Release) (t : List
         Release), (s.chan c).rel = r :: t ∧ r.todo ≠ []) ∧ c < 64) ∧
    (∃ (s : State) (c : Nat) (j : JobParams) (v : Word), (s.chan c).job = some j ∧ c < 64 ∧ j.port < 10 ∧ j.consumer < 16 ∧ (v.toNat + 2
         ^ 32 - (s.chan c).consumed) % 2 ^ 32 ≤ ((s.chan c).produced + 2 ^ 32 - (s.chan c).consumed) % 2 ^ 32) ∧
    (∃ (s : State) (c : Nat) (j : JobParams) (v : Word), (s.chan c).job = some j ∧ c < 64 ∧ j.port < 10 ∧ j.consumer < 16 ∧ ((s.chan
         c).produced + 2 ^ 32 - (s.chan c).consumed) % 2 ^ 32 < (v.toNat + 2 ^ 32 - (s.chan c).consumed) % 2 ^ 32) ∧
    (∃ (s : State) (c p k be : Nat), c < 64 ∧ p < 10 ∧ k < 16 ∧ be < 16 ∧ (∀ (j : JobParams), (s.chan c).job = some j → p ≠ j.port ∨ k ≠
         j.consumer ∨ be ≠ 15)) ∧
    (∃ (s : State) (ag : Agent) (c : Nat), mayWrite s ag ∧ c < 64) :=
  ⟨⟨svc, 63, .inl (by decide +kernel), by decide +kernel⟩,
   ⟨(str { st := .running, produced := 4 }), 0, _, (2#32), rfl, by decide +kernel⟩,
   ⟨(str {}), 0, _, (2#32), rfl, by decide +kernel⟩,
   ⟨svc, 63, 9, 15, 15, by decide +kernel⟩,
   ⟨svc, (.core 0), 63, may (by decide), by decide +kernel⟩⟩
theorem witness_EdgeOutcomes :
    (∃ (s : State) (c : Nat) (j : JobParams) (stamp : Nat) (rds : List (Nat × List RdRes)) (x : Chan) (t : State), x = s.chan c ∧ x.job
         = some j ∧ t = chanDecide rds stamp c s ∧ c < 64 ∧ x.st = .running ∧ x.stopping = none ∧ credit j x = 0) ∧
    (∃ (s : State) (c : Nat) (j : JobParams) (stamp : Nat) (rds : List (Nat × List RdRes)) (x : Chan) (t : State), x = s.chan c ∧ x.job
         = some j ∧ t = chanDecide rds stamp c s ∧ c < 64 ∧ x.st = .running ∧ x.stopping = none ∧ 0 < credit j x ∧ j.onStarve = 0 ∧
         j.partner = allOnes ∧ x.rel = [] ∧ lineReady s x j x.next = false) ∧
    (∃ (s : State) (c : Nat) (j : JobParams) (stamp : Nat) (rds : List (Nat × List RdRes)) (x : Chan) (t : State), x = s.chan c ∧ x.job
         = some j ∧ t = chanDecide rds stamp c s ∧ c < 64 ∧ x.st = .running ∧ x.stopping = none ∧ 0 < credit j x ∧ 2 ≤ inRelease x ∧
         headNow x = false) ∧
    (∃ (s : State) (c : Nat) (j : JobParams) (stamp : Nat) (rds : List (Nat × List RdRes)) (x : Chan) (t v : State), x = s.chan c ∧
         x.job = some j ∧ t = chanDecide rds stamp c s ∧ v = streamFetch rds (lineReads (jobRd s j) x.header j.base x.next j.x j.l)
         (pauseWait (16 + c) s) ∧ c < 64 ∧ x.st = .running ∧ x.stopping = none ∧ 0 < credit j x ∧ inRelease x < 2 ∧ lineReady s x j
         x.next = true ∧ v.sec.halt = false ∧ v.ft.failed = false) ∧
    (∃ (s : State) (c : Nat) (j : JobParams) (stamp : Nat) (rds : List (Nat × List RdRes)) (x : Chan) (t v : State), x = s.chan c ∧
         x.job = some j ∧ t = chanDecide rds stamp c s ∧ v = streamFetch rds (lineReads (jobRd s j) x.header j.base x.next j.x j.l)
         (pauseWait (16 + c) s) ∧ c < 64 ∧ x.st = .running ∧ x.stopping = none ∧ 0 < credit j x ∧ inRelease x < 2 ∧ lineReady s x j
         x.next = true ∧ (v.sec.halt = true ∨ v.ft.failed = true)) :=
  ⟨⟨(str { st := .running, produced := 4 }), 0, _, 7203, ([(0, [.macBad, .macBad])]), _, _, rfl, rfl, rfl, by decide +kernel⟩,
   ⟨(str { st := .running }), 0, _, 4294967297, ([(0, [.macBad, .macBad])]), _, _, rfl, rfl, rfl, by decide +kernel⟩,
   ⟨(str
        { st := .running, produced := 4, consumed := 2, next := 2, rel := [⟨3, 0, 5, false, [0], [], none⟩, ⟨4, 1, 6, false, [0], [], none⟩] }),
        0, _, 4294967297, ([(0, [.macBad, .macBad])]), _, _, rfl, rfl, rfl, by decide +kernel⟩,
   ⟨(str { st := .running, pinned := [0] }), 0, _, 4294967297, ([(5120, [.macBad, .macBad])]), _, _, _, rfl, rfl, rfl, rfl, by decide +kernel⟩,
   ⟨(str { st := .running, pinned := [0] }), 0, _, 4294967297, ([(0, [.macBad, .macBad])]), _, _, _, rfl, rfl, rfl, rfl, by decide +kernel⟩⟩
theorem witness_CreditRule :
    (∃ (s : State) (c : Nat) (j : JobParams) (x : Chan), x = s.chan c ∧ x.job = some j ∧ c < 64 ∧ x.produced < 2 ^ 32 ∧ x.consumed < 2 ^
         32 ∧ j.entries < 2 ^ 32 ∧ (x.produced + 2 ^ 32 - x.consumed) % 2 ^ 32 ≤ j.entries) ∧
    (∃ (s : State) (c : Nat) (j : JobParams) (x : Chan), x = s.chan c ∧ x.job = some j ∧ c < 64 ∧ x.produced < 2 ^ 32 ∧ x.consumed < 2 ^
         32 ∧ j.entries < 2 ^ 32 ∧ credit j x = 0) ∧
    (∃ (s : State) (c : Nat) (j : JobParams) (x : Chan), x = s.chan c ∧ x.job = some j ∧ c < 64 ∧ x.produced < 2 ^ 32 ∧ x.consumed < 2 ^
         32 ∧ j.entries < 2 ^ 32 ∧ 0 < credit j x ∧ (2 ≤ inRelease x ∨ lineReady s x j x.next = false)) ∧
    (∃ (s : State) (c : Nat) (j : JobParams) (x : Chan) (rds : List (Nat × List RdRes)) (v : State), x = s.chan c ∧ x.job = some j ∧ v =
         streamFetch rds (lineReads (jobRd s j) x.header j.base x.next j.x j.l) (pauseWait (16 + c) s) ∧ c < 64 ∧ x.produced < 2 ^ 32 ∧
         x.consumed < 2 ^ 32 ∧ j.entries < 2 ^ 32 ∧ 0 < credit j x ∧ inRelease x < 2 ∧ lineReady s x j x.next = true) ∧
    (∃ (s : State) (c : Nat) (j : JobParams) (x : Chan) (v : Word), x = s.chan c ∧ x.job = some j ∧ c < 64 ∧ x.produced < 2 ^ 32 ∧
         x.consumed < 2 ^ 32 ∧ j.entries < 2 ^ 32 ∧ j.port < 10 ∧ j.consumer < 16 ∧ (v.toNat + 2 ^ 32 - x.consumed) % 2 ^ 32 ≤
         (x.produced + 2 ^ 32 - x.consumed) % 2 ^ 32) :=
  ⟨⟨(str {}), 0, _, _, rfl, rfl, by decide +kernel⟩,
   ⟨(str { st := .running, produced := 4 }), 0, _, _, rfl, rfl, by decide +kernel⟩,
   ⟨(str {}), 0, _, _, rfl, rfl, by decide +kernel⟩,
   ⟨(str { st := .running, pinned := [0] }), 0, _, _, [], _, rfl, rfl, rfl, by decide +kernel⟩,
   ⟨(str {}), 0, _, _, (0#32), rfl, rfl, by decide +kernel⟩⟩
theorem witness_ExpansionCompletes_1 :
    (∃ (s : State) (c k lane : Nat) (r : Release), stickOwner s c k = some r ∧ c < 64 ∧ k < 1048576 ∧ lane < 9 ∧ laneWorks s lane =
         true) ∧
    (∃ (s : State) (c k lane : Nat), c < 64 ∧ k < 1048576 ∧ lane < 9 ∧ (stickOwner s c k = none ∨ laneWorks s lane = false)) ∧
    (∃ (s : State) (res : List Bool), res.length = 9 ∧ s.xe.up = false) ∧
    (∃ (s : State) (res : List Bool), res.length = 9 ∧ s.xe.up = true) ∧
    (∃ (s : State) (res : List Bool), res.length = 9 ∧ s.xe.up = true ∧ (∀ ok ∈ res, ok = true)) ∧
    (∃ (s : State) (lane : Nat), lane < 9 ∧ s.xe.up = true ∧ (s.xe.lanes.get {} lane).st ≠ 2) ∧
    (∃ (s : State) (lane : Nat), lane < 9 ∧ (s.xe.up = false ∨ (s.xe.lanes.get {} lane).st = 2)) ∧
    (∃ (s : State) (i : Nat), i < 9 ∧ 0 < s.xe.spareOwed ∧ (s.xe.lanes.get {} i).st = 1 ∧ (∀ k < i, (s.xe.lanes.get {} k).st ≠ 1)) ∧
    (∃ (s : State), (s.xe.spareOwed = 0 ∨ (∀ i < 9, (s.xe.lanes.get {} i).st ≠ 1))) ∧
    (∃ (s : State) (rq : Rq) (base len : Nat), sentOk (.noleneCheck rq base len) s rq 0x0800 ∧ 4096 ≤ len ∧ len ≤ 2 ^ 46 ∧ base % 4096 =
         0 ∧ rangeGranted s (senderOf s rq.ch) base len = true ∧ rdPoison (fileByte s base) 0 128 = true) :=
  ⟨⟨(str { st := .running, produced := 1, rel := [⟨1, 0, 5, false, [0, 3], [], none⟩] }), 0, 3, 7, _, rfl, by decide +kernel⟩,
   ⟨svc, 63, 1048575, 8, by decide +kernel⟩,
   ⟨State.reset, (List.replicate 9 false), by decide +kernel⟩,
   ⟨svc, (List.replicate 9 false), by decide +kernel⟩,
   ⟨svc, (List.replicate 9 true), by decide +kernel⟩,
   ⟨svc, 8, by decide +kernel⟩,
   ⟨ded, 8, by decide +kernel⟩,
   ⟨({ svc with xe := { svc.xe with spareOwed := (0 + 1) } }), 8, by decide +kernel⟩,
   ⟨svc, by decide +kernel⟩,
   ⟨({ nol with ft := { nol.ft with lines := [(5121, .poison)] } }), rqH, 0, 4097, sent (by decide +kernel), by decide +kernel⟩⟩
theorem witness_ExpansionCompletes_2 :
    (∃ (s : State) (rq : Rq) (base len : Nat), sentOk (.noleneCheck rq base len) s rq 0x0800 ∧ 4096 ≤ len ∧ len ≤ 2 ^ 46 ∧ base % 4096 =
         0 ∧ rangeGranted s (senderOf s rq.ch) base len = true ∧ rdPoison (fileByte s base) 0 128 = false) ∧
    (∃ (s : State) (rq : Rq), sentOk (.xeQuery rq) s rq 0x0801) ∧
    (∃ (s : State) (rq : Rq) (lane : Nat), sentOk (.xeLaneRetire rq lane) s rq 0x0802 ∧ lane < 9 ∧ (s.xe.lanes.get {} lane).st ≠ 2 ∧
         ((s.xe.lanes.get {} lane).st = 1 ∨ 2 ≤ (activeLanes s).length)) :=
  ⟨⟨svc, rqH, 4096, 4097, sent (by decide +kernel), by decide +kernel⟩,
   ⟨svc, rqH, sent (by decide +kernel)⟩,
   ⟨svc, rqH, 8, sent (by decide +kernel), by decide +kernel⟩⟩
theorem witness_LaneRetirement :
    (∃ (s : State) (lane : Nat), lane < 9 ∧ (s.xe.lanes.get {} lane).st ≠ 2) ∧
    (∃ (s : State) (lane : Nat), lane < 9 ∧ (s.xe.lanes.get {} lane).st = 2) :=
  ⟨⟨svc, 8, by decide +kernel⟩,
   ⟨ded, 8, by decide +kernel⟩⟩
theorem witness_CoreMemoryCompletes :
    (∃ (s : State) (i o n : Nat), coreReady s i ∧ o + n ≤ 0x40000 ∧ n ∈ [1, 2, 4, 8] ∧ (s.cpu i).sb = [] ∧ tcmMarked s i (2 ^ 18 + o) n
         = false) ∧
    (∃ (s : State) (i o n : Nat), coreReady s i ∧ o + n ≤ 0x40000 ∧ n ∈ [1, 2, 4, 8] ∧ (s.cpu i).sb = []) ∧
    (∃ (s : State) (i o n : Nat) (e : SbEnt), (s.cpu i).sb = [e] ∧ e.size = n ∧ coreReady s i ∧ o + n ≤ 0x40000 ∧ e.mark = none ∧ e.sent
         = false ∧ e.addr = 0x200000 + o ∧ 0 < n) ∧
    (∃ (s : State) (i o n pred succ : Nat), coreReady s i ∧ o + n ≤ 0x40000 ∧ pred < 16 ∧ succ < 16) ∧
    (∃ (s : State) (i o n : Nat), coreReady s i ∧ o + n ≤ 0x40000 ∧ (s.cpu i).sb = []) ∧
    (∃ (s : State) (i o n : Nat), coreReady s i ∧ o + n ≤ 0x40000 ∧ n ∈ [4, 8] ∧ o % n = 0 ∧ (s.cpu i).sb = [] ∧ tcmMarked s i (2 ^ 18 +
         o) n = false) ∧
    (∃ (s : State) (i o n : Nat), coreReady s i ∧ o + n ≤ 0x40000 ∧ n ∈ [4, 8] ∧ o % n = 0 ∧ (s.cpu i).sb = [] ∧ (s.cpu i).resv = some
         ((0x200000 + o) / 64 * 64)) ∧
    (∃ (s : State) (i o n : Nat), coreReady s i ∧ o + n ≤ 0x40000 ∧ n ∈ [4, 8] ∧ o % n = 0 ∧ (s.cpu i).sb = [] ∧ (s.cpu i).resv = none) :=
  ⟨⟨svc, 3, 65, 8, by decide +kernel⟩,
   ⟨svc, 3, 65, 8, by decide +kernel⟩,
   ⟨(svc.modCpu 0 (fun c => { c with sb := [{ addr := 0x200008, size := 8, val := 0x1122334455667788, release := false }] })), 0, 8, _,
        _, rfl, rfl, by decide +kernel⟩,
   ⟨svc, 3, 17, 17, 15, 15, by decide +kernel⟩,
   ⟨svc, 3, 8, 8, by decide +kernel⟩,
   ⟨svc, 3, 64, 8, by decide +kernel⟩,
   ⟨(svc.modCpu 0 (fun c => { c with resv := some 0x200000 })), 0, 8, 8, by decide +kernel⟩,
   ⟨svc, 3, 8, 8, by decide +kernel⟩⟩
theorem witness_CoreAccessesComplete_1 :
    (∃ (s u : State) (i a n : Nat), u = boundary i s ∧ i < 6 ∧ ((u.cpu i).loadWait = true ∨ coreRuns u i = false) ∧ accessOk a n = true) ∧
    (∃ (s u : State) (i p q : Nat), u = boundary i s ∧ i < 6 ∧ ((u.cpu i).loadWait = true ∨ coreRuns u i = false) ∧ p < 16 ∧ q < 16) ∧
    (∃ (s u : State) (i : Nat), u = boundary i s ∧ i < 6 ∧ ((u.cpu i).loadWait = true ∨ coreRuns u i = false)) ∧
    (∃ (s u : State) (i a n : Nat), u = boundary i s ∧ i < 6 ∧ ((u.cpu i).loadWait = true ∨ coreRuns u i = false) ∧ atomicOk a n = true) ∧
    (∃ (s u : State) (i : Nat) (k : OtherKind), u = boundary i s ∧ i < 6 ∧ ((u.cpu i).loadWait = true ∨ coreRuns u i = false) ∧ k.wf =
         true) ∧
    (∃ (s u : State) (i a n : Nat) (t : Tgt), u = boundary i s ∧ t = target u i a n false ∧ i < 6 ∧ (u.cpu i).loadWait = false ∧
         coreRuns u i = true ∧ accessOk a n = true ∧ t.bad a n = true) ∧
    (∃ (s u : State) (i a n : Nat) (t : Tgt), u = boundary i s ∧ t = target u i a n false ∧ i < 6 ∧ (u.cpu i).loadWait = false ∧
         coreRuns u i = true ∧ accessOk a n = true ∧ t.bad a n = false ∧ mayLoad u i t.device = false) ∧
    (∃ (s u : State) (i a n : Nat) (t : Tgt), u = boundary i s ∧ t = target u i a n false ∧ i < 6 ∧ (u.cpu i).loadWait = false ∧
         coreRuns u i = true ∧ accessOk a n = true ∧ t.bad a n = false ∧ mayLoad u i t.device = true ∧ (t.device = true ∨ newest u i a n
         = none)) ∧
    (∃ (s u : State) (i a n : Nat) (t : Tgt) (e : SbEnt), u = boundary i s ∧ t = target u i a n false ∧ newest u i a n = some e ∧ i < 6
         ∧ (u.cpu i).loadWait = false ∧ coreRuns u i = true ∧ accessOk a n = true ∧ t.bad a n = false ∧ mayLoad u i t.device = true ∧
         t.device = false ∧ e.addr ≤ a ∧ a + n ≤ e.addr + e.size) ∧
    (∃ (s u : State) (i a n : Nat) (t : Tgt) (e : SbEnt), u = boundary i s ∧ t = target u i a n false ∧ newest u i a n = some e ∧ i < 6
         ∧ (u.cpu i).loadWait = false ∧ coreRuns u i = true ∧ accessOk a n = true ∧ t.bad a n = false ∧ mayLoad u i t.device = true ∧
         t.device = false ∧ ¬ (e.addr ≤ a ∧ a + n ≤ e.addr + e.size)) :=
  ⟨⟨svc, _, 5, (2 ^ 40), 8, rfl, by decide +kernel⟩,
   ⟨svc, _, 5, 15, 15, rfl, by decide +kernel⟩,
   ⟨svc, _, 5, rfl, by decide +kernel⟩,
   ⟨svc, _, 5, (2 ^ 40), 8, rfl, by decide +kernel⟩,
   ⟨svc, _, 5, default, rfl, by decide +kernel⟩,
   ⟨({ svc with cc := { svc.cc with icSt := 2 } }), _, 5, (2 ^ 40), 8, _, rfl, rfl, by decide +kernel⟩,
   ⟨(svc.modCpu 0 (fun c =>
        { c with sb := [{ addr := 0x10880000, size := 4, val := 0, release := false, dev := true, sent := true }, { addr := 0, size := 0, val := 0, release := false, mark := some (15, 15) }] })),
        _, 0, (2 ^ 40), 8, _, rfl, rfl, by decide +kernel⟩,
   ⟨({ svc with cc := { svc.cc with icSt := 2 } }), _, 5, 0x200000, 8, _, rfl, rfl, by decide +kernel⟩,
   ⟨(svc.modCpu 0 (fun c => { c with sb := [{ addr := 0x100000, size := 8, val := 0x1122334455667788, release := false }] })), _, 0,
        0x100000, 8, _, _, rfl, rfl, rfl, by decide +kernel⟩,
   ⟨(svc.modCpu 0 (fun c => { c with sb := [{ addr := 0x100004, size := 4, val := 0x11223344, release := false }] })), _, 0, 0x100003,
        8, _, _, rfl, rfl, rfl, by decide +kernel⟩⟩
theorem witness_CoreAccessesComplete_2 :
    (∃ (s u : State) (i a n : Nat) (t : Tgt), u = boundary i s ∧ t = target u i a n true ∧ i < 6 ∧ (u.cpu i).loadWait = false ∧ coreRuns
         u i = true ∧ accessOk a n = true ∧ t.bad a n = true) ∧
    (∃ (s u : State) (i a n : Nat) (t : Tgt), u = boundary i s ∧ t = target u i a n true ∧ i < 6 ∧ (u.cpu i).loadWait = false ∧ coreRuns
         u i = true ∧ accessOk a n = true ∧ t.bad a n = false ∧ 16 ≤ (storesOf (u.cpu i).sb).length) ∧
    (∃ (s u : State) (i a n : Nat) (t : Tgt), u = boundary i s ∧ t = target u i a n true ∧ i < 6 ∧ (u.cpu i).loadWait = false ∧ coreRuns
         u i = true ∧ accessOk a n = true ∧ t.bad a n = false ∧ (storesOf (u.cpu i).sb).length < 16) ∧
    (∃ (s u : State) (i a n : Nat) (t : Tgt), u = boundary i s ∧ t = target u i a n false ∧ i < 6 ∧ (u.cpu i).loadWait = false ∧
         coreRuns u i = true ∧ atomicOk a n = true ∧ atomicBad t a n = true) ∧
    (∃ (s u : State) (i a n : Nat) (rl : Bool) (t : Tgt), u = boundary i s ∧ t = target u i a n false ∧ i < 6 ∧ (u.cpu i).loadWait =
         false ∧ coreRuns u i = true ∧ atomicOk a n = true ∧ atomicBad t a n = false ∧ mayAtomic u i a n t.device rl = false) ∧
    (∃ (s u : State) (i a n : Nat) (rl : Bool) (t : Tgt), u = boundary i s ∧ t = target u i a n false ∧ i < 6 ∧ (u.cpu i).loadWait =
         false ∧ coreRuns u i = true ∧ atomicOk a n = true ∧ atomicBad t a n = false ∧ mayAtomic u i a n t.device rl = true) ∧
    (∃ (s u : State) (i a n : Nat) (t : Tgt) (w : State), u = boundary i s ∧ t = target u i a n true ∧ w = u.modCpu i (fun c =>
         { c with resv := none, resvAge := 0 }) ∧ i < 6 ∧ (u.cpu i).loadWait = false ∧ coreRuns u i = true ∧ atomicOk a n = true ∧
         atomicBad t a n = true) ∧
    (∃ (s u : State) (i a n : Nat) (rl : Bool) (t : Tgt) (w : State), u = boundary i s ∧ t = target u i a n true ∧ w = u.modCpu i (fun c
         => { c with resv := none, resvAge := 0 }) ∧ i < 6 ∧ (u.cpu i).loadWait = false ∧ coreRuns u i = true ∧ atomicOk a n = true ∧
         atomicBad t a n = false ∧ mayAtomic u i a n t.device rl = false) ∧
    (∃ (s u : State) (i a n : Nat) (rl : Bool) (t : Tgt) (w : State), u = boundary i s ∧ t = target u i a n true ∧ w = u.modCpu i (fun c
         => { c with resv := none, resvAge := 0 }) ∧ i < 6 ∧ (u.cpu i).loadWait = false ∧ coreRuns u i = true ∧ atomicOk a n = true ∧
         atomicBad t a n = false ∧ mayAtomic u i a n t.device rl = true ∧ scHolds u i a t = false) ∧
    (∃ (s u : State) (i a n : Nat) (rl : Bool) (t : Tgt) (w : State) (o : Nat), u = boundary i s ∧ t = target u i a n true ∧ w =
         u.modCpu i (fun c => { c with resv := none, resvAge := 0 }) ∧ t = .tcm o ∧ i < 6 ∧ (u.cpu i).loadWait = false ∧ coreRuns u i =
         true ∧ atomicOk a n = true ∧ atomicBad t a n = false ∧ mayAtomic u i a n t.device rl = true ∧ scHolds u i a t = true) :=
  ⟨⟨({ svc with cc := { svc.cc with icSt := 2 } }), _, 5, (2 ^ 40), 8, _, rfl, rfl, by decide +kernel⟩,
   ⟨(svc.modCpu 0 (fun c =>
        { c with sb := List.replicate 16 { addr := 0x200008, size := 8, val := 0x1122334455667788, release := false } })), _, 0, (2 ^
        40), 8, _, rfl, rfl, by decide +kernel⟩,
   ⟨({ svc with cc := { svc.cc with icSt := 2 } }), _, 5, 0x200000, 8, _, rfl, rfl, by decide +kernel⟩,
   ⟨({ svc with cc := { svc.cc with icSt := 2 } }), _, 5, (2 ^ 40), 8, _, rfl, rfl, by decide +kernel⟩,
   ⟨(svc.modCpu 0 (fun c => { c with sb := [{ addr := 0x100004, size := 4, val := 0x11223344, release := false }] })), _, 0, 0x100000,
        8, false, _, rfl, rfl, by decide +kernel⟩,
   ⟨({ svc with cc := { svc.cc with icSt := 2 } }), _, 5, 0x200000, 8, false, _, rfl, rfl, by decide +kernel⟩,
   ⟨({ svc with cc := { svc.cc with icSt := 2 } }), _, 5, (2 ^ 40), 8, _, _, rfl, rfl, rfl, by decide +kernel⟩,
   ⟨(svc.modCpu 0 (fun c => { c with sb := [{ addr := 0x100004, size := 4, val := 0x11223344, release := false }] })), _, 0, 0x100000,
        8, false, _, _, rfl, rfl, rfl, by decide +kernel⟩,
   ⟨({ svc with cc := { svc.cc with icSt := 2 } }), _, 5, 0x200000, 8, false, _, _, rfl, rfl, rfl, by decide +kernel⟩,
   ⟨(svc.modCpu 0 (fun c => { c with resv := some 0x100000 })), _, 0, 0x100008, 8, false, _, _, _, rfl, rfl, rfl, rfl, by decide +kernel⟩⟩
theorem witness_CoreAccessesComplete_3 :
    (∃ (s u : State) (i a n : Nat) (rl : Bool) (t : Tgt) (w : State) (o : Nat), u = boundary i s ∧ t = target u i a n true ∧ w =
         u.modCpu i (fun c => { c with resv := none, resvAge := 0 }) ∧ t = .sram o ∧ i < 6 ∧ (u.cpu i).loadWait = false ∧ coreRuns u i =
         true ∧ atomicOk a n = true ∧ atomicBad t a n = false ∧ mayAtomic u i a n t.device rl = true ∧ scHolds u i a t = true) ∧
    (∃ (s u : State) (i a n : Nat) (rl : Bool) (t : Tgt) (w : State) (d : Nat) (b : Bool), u = boundary i s ∧ w = u.modCpu i (fun c =>
         { c with resv := none, resvAge := 0 }) ∧ i < 6 ∧ (u.cpu i).loadWait = false ∧ coreRuns u i = true ∧ atomicOk a n = true ∧ t =
         target u i a n true ∧ atomicBad t a n = false ∧ mayAtomic u i a n t.device rl = true ∧ scHolds u i a t = true ∧ t = .dpa d b) ∧
    (∃ (s u : State) (i a n : Nat) (t : Tgt), u = boundary i s ∧ t = target u i a n true ∧ i < 6 ∧ (u.cpu i).loadWait = false ∧ coreRuns
         u i = true ∧ atomicOk a n = true ∧ atomicBad t a n = true) ∧
    (∃ (s u : State) (i a n : Nat) (rl : Bool) (t : Tgt), u = boundary i s ∧ t = target u i a n true ∧ i < 6 ∧ (u.cpu i).loadWait =
         false ∧ coreRuns u i = true ∧ atomicOk a n = true ∧ atomicBad t a n = false ∧ mayAtomic u i a n t.device rl = false) ∧
    (∃ (s u : State) (i a n : Nat) (rl : Bool) (t : Tgt) (o : Nat), u = boundary i s ∧ t = target u i a n true ∧ t = .tcm o ∧ i < 6 ∧
         (u.cpu i).loadWait = false ∧ coreRuns u i = true ∧ atomicOk a n = true ∧ atomicBad t a n = false ∧ mayAtomic u i a n t.device rl
         = true ∧ tcmMarked u i o n = true) ∧
    (∃ (s u : State) (i a n : Nat) (rl : Bool) (t : Tgt) (o : Nat), u = boundary i s ∧ t = target u i a n true ∧ t = .tcm o ∧ i < 6 ∧
         (u.cpu i).loadWait = false ∧ coreRuns u i = true ∧ atomicOk a n = true ∧ atomicBad t a n = false ∧ mayAtomic u i a n t.device rl
         = true ∧ tcmMarked u i o n = false) ∧
    (∃ (s u : State) (i a n : Nat) (rl : Bool) (t : Tgt) (o : Nat), u = boundary i s ∧ t = target u i a n true ∧ t = .sram o ∧ i < 6 ∧
         (u.cpu i).loadWait = false ∧ coreRuns u i = true ∧ atomicOk a n = true ∧ atomicBad t a n = false ∧ mayAtomic u i a n t.device rl
         = true) ∧
    (∃ (s u : State) (i a n : Nat) (rl : Bool) (t : Tgt) (d : Nat) (b : Bool), u = boundary i s ∧ i < 6 ∧ (u.cpu i).loadWait = false ∧
         coreRuns u i = true ∧ atomicOk a n = true ∧ t = target u i a n true ∧ atomicBad t a n = false ∧ mayAtomic u i a n t.device rl =
         true ∧ t = .dpa d b) ∧
    (∃ (s u : State) (i : Nat), u = boundary i s ∧ i < 6 ∧ (u.cpu i).loadWait = false ∧ coreRuns u i = true) ∧
    (∃ (s u : State) (i o : Nat), u = boundary i s ∧ i < 6 ∧ (u.cpu i).loadWait = false ∧ coreRuns u i = true ∧ o < 2 ^ 18) :=
  ⟨⟨(svc.modCpu 0 (fun c => { c with resv := some 0x1000000 })), _, 0, 0x1000000, 8, false, _, _, _, rfl, rfl, rfl, rfl, by decide +kernel⟩,
   ⟨(svc.modCpu 0 (fun c => { c with resv := some 0x10000000000 })), _, 0, (2 ^ 40), 8, false, (.dpa 0 false), _, 0, false, rfl, rfl,
        by decide +kernel⟩,
   ⟨({ svc with cc := { svc.cc with icSt := 2 } }), _, 5, (2 ^ 40), 8, _, rfl, rfl, by decide +kernel⟩,
   ⟨(svc.modCpu 0 (fun c => { c with sb := [{ addr := 0x100004, size := 4, val := 0x11223344, release := false }] })), _, 0, 0x100000,
        8, false, _, rfl, rfl, by decide +kernel⟩,
   ⟨(svc.modCpu 0 (fun c => { c with badBytes := [3] })), _, 0, 0x100000, 8, false, _, _, rfl, rfl, rfl, by decide +kernel⟩,
   ⟨({ svc with cc := { svc.cc with icSt := 2 } }), _, 5, 0x200000, 8, false, _, _, rfl, rfl, rfl, by decide +kernel⟩,
   ⟨({ svc with cc := { svc.cc with fCore := [5, 1, 2, 3], icCore := 7 }, rpm := { svc.rpm with boot := 1 } }), _, 5, 0x1000000, 8,
        false, _, _, rfl, rfl, rfl, by decide +kernel⟩,
   ⟨({ svc with cc := { svc.cc with fCore := [5, 1, 2, 3], icCore := 7 }, rpm := { svc.rpm with boot := 1 } }), _, 5, (2 ^ 40), 8,
        false, (.dpa 0 false), 0, false, rfl, by decide +kernel⟩,
   ⟨({ svc with cc := { svc.cc with icSt := 2 } }), _, 5, rfl, by decide +kernel⟩,
   ⟨({ svc with cc := { svc.cc with icSt := 2 } }), _, 5, 262143, rfl, by decide +kernel⟩⟩
theorem witness_CoreAccessesComplete_4 :
    (∃ (s u : State) (i : Nat), u = boundary i s ∧ i < 6 ∧ (u.cpu i).loadWait = false ∧ coreRuns u i = true ∧ i = u.cc.icCore) ∧
    (∃ (s u : State) (i : Nat), u = boundary i s ∧ i < 6 ∧ (u.cpu i).loadWait = false ∧ coreRuns u i = true ∧ i ≠ u.cc.icCore) ∧
    (∃ (s u : State) (i k : Nat) (e : SbEnt), u = boundary i s ∧ (s.cpu i).sb[k]? = some e ∧ i < 6 ∧ coreRuns s i = true ∧ k < 16 ∧
         mayLeave ((s.cpu i).sb.take k) e = true) ∧
    (∃ (s u : State) (i k : Nat), u = boundary i s ∧ i < 6 ∧ coreRuns s i = true ∧ k < 16 ∧ ((s.cpu i).sb[k]? = none ∨ ∃ (e : SbEnt),
         (s.cpu i).sb[k]? = some e ∧ mayLeave ((s.cpu i).sb.take k) e = false)) ∧
    (∃ (s u : State) (i : Nat) (e : SbEnt), u = boundary i s ∧ (storesOf (s.cpu i).sb).find? (fun e => e.sent && (target s i e.addr
         e.size true).dead s) = some e ∧ i < 6 ∧ coreRuns s i = true) ∧
    (∃ (s u : State) (i : Nat), u = boundary i s ∧ i < 6 ∧ coreRuns s i = true ∧ (storesOf (s.cpu i).sb).find? (fun e => e.sent &&
         (target s i e.addr e.size true).dead s) = none) ∧
    (∃ (s u : State) (i : Nat), u = boundary i s ∧ i < 6 ∧ coreRuns s i = true ∧ (s.cpu i).loadWait = true ∧ s.te.waits.any (fun w =>
         w.acc.who == coreAgent s i && w.acc.kind != .coreWr) = false) ∧
    (∃ (s u : State) (i : Nat), u = boundary i s ∧ i < 6 ∧ coreRuns s i = true ∧ ((s.cpu i).loadWait = false ∨ s.te.waits.any (fun w =>
         w.acc.who == coreAgent s i && w.acc.kind != .coreWr) = true)) ∧
    (∃ (s u : State) (i : Nat), u = boundary i s ∧ i < 6 ∧ coreRuns s i = false) ∧
    (∃ (s u : State) (i k : Nat), u = boundary i s ∧ i < 6 ∧ coreRuns s i = false ∧ k < 16) :=
  ⟨⟨({ svc with cc := { svc.cc with icSt := 2 } }), _, 5, rfl, by decide +kernel⟩,
   ⟨({ svc with cc := { svc.cc with fCore := [5, 1, 2, 3], icCore := 7 }, rpm := { svc.rpm with boot := 1 } }), _, 5, rfl, by decide +kernel⟩,
   ⟨(svc.modCpu 0 (fun c => { c with sb := [{ addr := 0x100004, size := 4, val := 0x11223344, release := false }] })), _, 0, 0, _, rfl,
        rfl, by decide +kernel⟩,
   ⟨({ svc with cc := { svc.cc with icSt := 2 } }), _, 5, 15, rfl, by decide +kernel⟩,
   ⟨ded, _, 0, { addr := 0x10880000, size := 4, val := 0, release := false, dev := true, sent := true }, rfl, ded_find, by decide +kernel⟩,
   ⟨({ svc with cc := { svc.cc with icSt := 2 } }), _, 5, rfl, by decide +kernel⟩,
   ⟨(svc.modCpu 0 (fun c => { c with loadWait := true })), _, 0, rfl, by decide +kernel⟩,
   ⟨({ svc with cc := { svc.cc with icSt := 2 } }), _, 5, rfl, by decide +kernel⟩,
   ⟨svc, _, 5, rfl, by decide +kernel⟩,
   ⟨svc, _, 5, 15, rfl, by decide +kernel⟩⟩
theorem witness_ClusterEventsComplete_1 :
    (∃ (s : State) (ag : Agent) (core : Nat), mayWrite s ag ∧ ccHeld s = false ∧ core < 6) ∧
    (∃ (s : State) (core : Nat), core = s.cc.icCore ∧ core < 6) ∧
    (∃ (s : State) (core : Nat), core < 6 ∧ core ≠ s.cc.icCore) ∧
    (∃ (i role : Nat), i < 5 ∧ role < 4) ∧
    (∃ (s : State) (p f role : Nat), mayWrite s (.fn p f) ∧ role < 4) ∧
    (∃ (s : State), s.cc.icSt = 2) ∧
    (∃ (s : State), s.cc.icSt ≠ 2) ∧
    (∃ (s : State) (role c : Nat), c = s.cc.fCore.getD role 7 ∧ role < 4 ∧ c ≠ 7 ∧ s.cc.served = true ∧ role ∈ s.cc.beats) ∧
    (∃ (s : State) (role c : Nat), c = s.cc.fCore.getD role 7 ∧ role < 4 ∧ c ≠ 7 ∧ s.cc.served = true ∧ role ∉ s.cc.beats) ∧
    (∃ (s : State) (role c : Nat), c = s.cc.fCore.getD role 7 ∧ role < 4 ∧ (c = 7 ∨ s.cc.served = false)) :=
  ⟨⟨svc, (.core 0), 5, may (by decide), by decide +kernel⟩,
   ⟨svc, _, rfl, by decide +kernel⟩,
   ⟨({ svc with cc := { svc.cc with fCore := [5, 1, 2, 3], icCore := 7 }, rpm := { svc.rpm with boot := 1 } }), 5, by decide +kernel⟩,
   ⟨4, 3, by decide +kernel⟩,
   ⟨svc, 0, 0, 3, mayF (by decide +kernel), by decide +kernel⟩,
   ⟨({ svc with cc := { svc.cc with icSt := 2 } }), by decide +kernel⟩,
   ⟨svc, by decide +kernel⟩,
   ⟨({ svc with cc := { svc.cc with beats := [3] } }), 3, _, rfl, by decide +kernel⟩,
   ⟨svc, 3, _, rfl, by decide +kernel⟩,
   ⟨State.reset, 3, _, rfl, by decide +kernel⟩⟩
theorem witness_ClusterEventsComplete_2 :
    (∃ (s : State) (core : Nat) (t : State), t = s.modCpu core (fun c => { c with st := 2, cause := 4 }) ∧ core < 6 ∧ core ∈ s.cc.fCore
         ∧ (s.cpu core).st ≠ 2) ∧
    (∃ (s : State) (core : Nat), core < 6 ∧ (core ∉ s.cc.fCore ∨ (s.cpu core).st = 2)) ∧
    (∃ (core tcm : Nat) (cor bad : List Nat), core < 6 ∧ tcm < 2 ∧ (∀ o ∈ cor ++ bad, o < 262144)) ∧
    (∃ (s : State), s.cc.icSt = 2 ∧ s.cc.icWdt ≠ 0 ∧ s.cc.icKick = true) ∧
    (∃ (s : State), s.cc.icSt = 2 ∧ s.cc.icWdt ≠ 0 ∧ s.cc.icKick = false) ∧
    (∃ (s : State), (s.cc.icSt ≠ 2 ∨ s.cc.icWdt = 0)) ∧
    (∃ (s : State) (st : List Bool) (t : State), t = rolesAssign false st { s with cc := { s.cc with rstOwed := false } } ∧ st.length =
         6 ∧ s.cc.rstOwed = true ∧ ccHeld s = false ∧ t.cc.exhausted = true) ∧
    (∃ (s : State) (st : List Bool) (t : State), t = rolesAssign false st { s with cc := { s.cc with rstOwed := false } } ∧ st.length =
         6 ∧ s.cc.rstOwed = true ∧ ccHeld s = false ∧ t.cc.exhausted = false ∧ (fwLoad t).cc.served = false) ∧
    (∃ (s : State) (st : List Bool) (t : State), t = rolesAssign false st { s with cc := { s.cc with rstOwed := false } } ∧ st.length =
         6 ∧ s.cc.rstOwed = true ∧ ccHeld s = false ∧ t.cc.exhausted = false ∧ (fwLoad t).cc.served = true) ∧
    (∃ (s : State) (st : List Bool), st.length = 6 ∧ (s.cc.rstOwed = false ∨ ccHeld s = true)) :=
  ⟨⟨({ svc with cc := { svc.cc with fCore := [5, 1, 2, 3], icCore := 7 }, rpm := { svc.rpm with boot := 1 } }), 5, _, rfl, by decide +kernel⟩,
   ⟨svc, 5, by decide +kernel⟩,
   ⟨5, 1, [], [], by decide +kernel⟩,
   ⟨({ svc with cc := { svc.cc with icSt := 2, icWdt := 10, icKick := true } }), by decide +kernel⟩,
   ⟨({ svc with cc := { svc.cc with icSt := 2, icWdt := 10, icKick := false } }), by decide +kernel⟩,
   ⟨svc, by decide +kernel⟩,
   ⟨({ svc with cc := { svc.cc with rstOwed := true } }), (List.replicate 6 false), _, rfl, by decide +kernel⟩,
   ⟨({ img with cc := { img.cc with rstOwed := true } }), (List.replicate 6 true), _, rfl, by decide +kernel⟩,
   ⟨({ svc with cc := { svc.cc with rstOwed := true } }), (List.replicate 6 true), _, rfl, by decide +kernel⟩,
   ⟨svc, (List.replicate 6 false), by decide +kernel⟩⟩
theorem witness_ClusterCommandsComplete :
    (∃ (s : State) (rq : Rq), sentOk (.coreQuery rq) s rq 0x0900) ∧
    (∃ (s : State) (rq : Rq) (src base len : Nat) (chk : ImgChk), sentOk (.icLoad rq src base len chk) s rq 0x0901 ∧ src < 2 ∧ (src = 1
         → base = 0 ∧ len = 0) ∧ s.cc.icSt ≠ 2 ∧ s.cc.icCore ≠ 7 ∧ icGranted s rq src base len = true ∧ icSizesOk (imgHdr (icSrcHdr s src
         base len)) = true) ∧
    (∃ (s : State) (rq : Rq) (wdt : Nat), sentOk (.icStart rq wdt) s rq 0x0902 ∧ wdt ≤ 10000 ∧ s.cc.icSt ∈ [1, 3]) ∧
    (∃ (s : State) (rq : Rq), sentOk (.icStop rq) s rq 0x0903 ∧ s.cc.icSt = 2) ∧
    (∃ (s : State) (rq : Rq) (w b n a : Nat), sentOk (.icWindowMap rq w b n a) s rq 0x0904 ∧ w < 16 ∧ a < 2 ∧ b % 2097152 = 0 ∧ n %
         2097152 = 0 ∧ n ≤ 2 ^ 36 ∧ (n = 0 ∨ covered s (mayReach .ic (a == 1)) b (b + n) = true)) :=
  ⟨⟨svc, rqM, sent (by decide +kernel)⟩,
   ⟨svc, rqM, 0, 2306, 0, { keyHash := 9, sigOk := true }, sent (by decide +kernel), by decide +kernel⟩,
   ⟨({ svc with cc := { svc.cc with icSt := 1 } }), rqM, 10000, sent (by decide +kernel), by decide +kernel⟩,
   ⟨({ svc with cc := { svc.cc with icSt := 2 } }), rqM, sent (by decide +kernel), by decide +kernel⟩,
   ⟨svc, rqM, 15, 68719476736, 0, 1, sent (by decide +kernel), by decide +kernel⟩⟩
theorem witness_MailboxEventsComplete_1 :
    (∃ (s : State) (ch : Nat) (v : Word) (be : Nat), notD3 s (senderOf s ch) ∧ ch < 32 ∧ be < 16 ∧ windowOf s ch (senderOf s ch) = true
         ∧ be % 2 = 1 ∧ (v.toNat % 256 + 256 - (s.mbox ch).reqCons) % 256 ≤ 4 ∧ (v.toNat % 256 + 256 - (s.mbox ch).reqProd) % 256 ≤ 4) ∧
    (∃ (s : State) (ch : Nat) (v : Word) (be : Nat), notD3 s (senderOf s ch) ∧ ch < 32 ∧ be < 16 ∧ windowOf s ch (senderOf s ch) = true
         ∧ (be % 2 = 0 ∨ 4 < (v.toNat % 256 + 256 - (s.mbox ch).reqCons) % 256 ∨ 4 < (v.toNat % 256 + 256 - (s.mbox ch).reqProd) % 256)) ∧
    (∃ (s : State) (ch : Nat) (v : Word) (be : Nat), notD3 s (senderOf s ch) ∧ ch < 32 ∧ be < 16 ∧ windowOf s ch (senderOf s ch) = true
         ∧ be % 2 = 1 ∧ (v.toNat % 256 + 256 - (s.mbox ch).rplCons) % 256 ≤ ((s.mbox ch).rplProd + 256 - (s.mbox ch).rplCons) % 256) ∧
    (∃ (s : State) (ch : Nat) (v : Word) (be : Nat), notD3 s (senderOf s ch) ∧ ch < 32 ∧ be < 16 ∧ windowOf s ch (senderOf s ch) = true
         ∧ (be % 2 = 0 ∨ ((s.mbox ch).rplProd + 256 - (s.mbox ch).rplCons) % 256 < (v.toNat % 256 + 256 - (s.mbox ch).rplCons) % 256)) ∧
    (∃ (s : State) (ch be : Nat), ch < 32 ∧ be < 16 ∧ windowOf s ch (senderOf s ch) = false) ∧
    (∃ (s : State) (ch : Nat) (ag : Agent) (e : Note) (l : List Note), notD3 s ag ∧ (s.mbox ch).fifo = e :: l ∧ ch < 32 ∧ ag.wf = true ∧
         windowOf s ch ag = true) ∧
    (∃ (s : State) (ch : Nat) (ag : Agent), notD3 s ag ∧ ch < 32 ∧ ag.wf = true ∧ windowOf s ch ag = true ∧ (s.mbox ch).fifo = []) ∧
    (∃ (s : State) (ch : Nat) (ag : Agent), ch < 32 ∧ ag.wf = true ∧ windowOf s ch ag = false) ∧
    (∃ (s : State) (ch : Nat), notD3 s (senderOf s ch) ∧ ch < 32 ∧ windowOf s ch (senderOf s ch) = true) ∧
    (∃ (s : State) (ch : Nat), ch < 32 ∧ windowOf s ch (senderOf s ch) = false) :=
  ⟨⟨svc, 1, (0x302#32), 15, nd (by decide +kernel), by decide +kernel⟩,
   ⟨svc, 1, 0x12345678, 15, nd (by decide +kernel), by decide +kernel⟩,
   ⟨svc, 1, (0#32), 15, nd (by decide +kernel), by decide +kernel⟩,
   ⟨svc, 1, (0x302#32), 15, nd (by decide +kernel), by decide +kernel⟩,
   ⟨State.reset, 31, 15, by decide +kernel⟩,
   ⟨({ svc with mb := { svc.mb with chans := [(0, { bind_ := 0xC000, fifo := [{ code := 5 }, { code := 6 }] })] } }), 0, (.core 0), _,
        _, nd (by decide +kernel), rfl, by decide +kernel⟩,
   ⟨svc, 31, (.core 0), nd (by decide +kernel), by decide +kernel⟩,
   ⟨svc, 31, .ic, by decide +kernel⟩,
   ⟨svc, 1, nd (by decide +kernel), by decide +kernel⟩,
   ⟨State.reset, 31, by decide +kernel⟩⟩
theorem witness_MailboxEventsComplete_2 :
    (∃ (s : State) (ch : Nat) (v : Word) (be p f : Nat) (c : Instr), ch < 32 ∧ be < 16 ∧ p < 10 ∧ f < 16 ∧ windowOf s ch (.fn p f) =
         true ∧ (s.fn p f).d3 = true ∧ (c = .mbNotePop ch (.fn p f) ∨ senderOf s ch = .fn p f ∧ c ∈ [Instr.mbReqDbWrite ch v be,
         .mbRplDbWrite ch v be, .mbNoteStatRead ch, .mbCtlReset ch])) ∧
    (∃ (i : Nat), i < 5) ∧
    (∃ (ag : Agent), ag.wf = true ∧ (∀ (i : Nat), i < 5 → ag ≠ .core i)) ∧
    (∃ (s : State) (ch : Nat) (x : Machine.Frm), nextChan s = some ch ∧ x = frmOf (reqSlot s ch)) ∧
    (∃ (s : State), nextChan s = none) ∧
    (∃ (s : State) (rq : Rq) (f : Flight) (bs : List Byte), findFlight s rq.ch rq.tag = some f ∧ rq.wf = true ∧ f.area = true ∧ ((descOf
         f.payload).dflags % 2 = 0 ∨ (crc32c bs).toNat = (descOf f.payload).inCrc)) ∧
    (∃ (s : State) (rq : Rq) (f : Flight) (bs : List Byte), findFlight s rq.ch rq.tag = some f ∧ rq.wf = true ∧ f.area = true ∧ (descOf
         f.payload).dflags % 2 = 1 ∧ (crc32c bs).toNat ≠ (descOf f.payload).inCrc) ∧
    (∃ (s : State) (rq : Rq) (f : Flight), findFlight s rq.ch rq.tag = some f ∧ rq.wf = true ∧ f.area = true) ∧
    (∃ (s : State) (rq : Rq) (f : Flight) (st det : Nat) (data : List Byte) (others : List Flight), findFlight s rq.ch rq.tag = some f ∧
         f.reply = some (st, det, data) ∧ others = (s.mbox rq.ch).flights.erase f ∧ rq.wf = true ∧ f.area = false) ∧
    (∃ (s : State) (rq : Rq), rq.wf = true ∧ (∀ (f : Flight), findFlight s rq.ch rq.tag = some f → f.area = false ∧ f.reply = none)) :=
  ⟨⟨(svc.modFn 0 0 (fun x => { x with d3 := true })), 0, (0x302#32), 15, 0, 0, (.mbNotePop 0 (.fn 0 0)), by decide +kernel⟩,
   ⟨4, by decide +kernel⟩,
   ⟨.ic, by decide +kernel⟩,
   ⟨({ svc with mb := { svc.mb with chans := [(0, { bind_ := 0xC000, reqProd := 255, reqCons := 254 })] } }), _, _, rfl, rfl⟩,
   ⟨svc, by decide +kernel⟩,
   ⟨({ svc with mb := { svc.mb with chans := [(0, { bind_ := 0xC000, flights := [{ tag := 7, cseq := 0, opcode := 0x0011, flags := 0, ran := true, payload := [], area := true }] })] } }),
        rqH, _, [], rfl, by decide +kernel⟩,
   ⟨(svc.modMbox 31 (fun m =>
        { m with flights := [{ tag := 7, cseq := 0, opcode := 0x0100, flags := 0, ran := true, area := true, payload := List.replicate 2 0 ++ [1] ++ List.replicate 60 0xFF }] })),
        rqM, _, [1], rfl, by decide +kernel⟩,
   ⟨({ svc with mb := { svc.mb with chans := [(0, { bind_ := 0xC000, flights := [{ tag := 7, cseq := 0, opcode := 0x0011, flags := 0, ran := true, payload := [], area := true }] })] } }),
        rqH, _, rfl, by decide +kernel⟩,
   ⟨(svc.modMbox 31 (fun m =>
        { m with flights := [{ tag := 7, cseq := 0, opcode := 0x0100, flags := 0, ran := true, reply := some (0, 0, []) }] })), rqM, _,
        _, _, _, _, rfl, rfl, rfl, by decide +kernel⟩,
   ⟨svc, rqH, by decide +kernel⟩⟩
theorem witness_ManagementPortCompletes :
    (∃ (s : State) (off : Nat) (bs : List Byte), smbusUp s = true ∧ off < 256 ∧ 0 < bs.length ∧ bs.length < 32 ∧ off + bs.length ≤ 256) ∧
    (∃ (s : State) (off : Nat) (bs : List Byte), smbusUp s = true ∧ off < 256 ∧ 0 < bs.length ∧ bs.length < 32 ∧ 256 < off + bs.length) ∧
    (∃ (s : State) (v : Nat), smbusUp s = true ∧ v < 256) ∧
    (∃ (s : State), smbusUp s = true) ∧
    (∃ (s : State) (e : Note) (l : List Note), (s.mbox 31).fifo = e :: l ∧ smbusUp s = true) ∧
    (∃ (s : State), smbusUp s = true ∧ (s.mbox 31).fifo = []) ∧
    (∃ (s : State) (c : Nat), smbusUp s = true ∧ (c < 16 ∨ 23 < c ∧ c < 256)) ∧
    (∃ (s : State) (pec : Bool) (v off : Nat) (bs : List Byte) (c : Instr), v < 256 ∧ off < 256 ∧ 0 < bs.length ∧ bs.length < 32 ∧
         (smbusUp s = false ∨ pec = false) ∧ c ∈ [Instr.smbusSlotWrite off bs pec, .smbusRequestDoorbell v pec, .smbusStatusRead pec,
         .smbusReplyOffset v pec, .smbusReplyRead pec, .smbusReplyDoorbell v pec, .smbusNotificationPop pec, .smbusChannelReset v pec]) ∧
    (∃ (s : State) (c : Nat), c < 256 ∧ smbusUp s = false) :=
  ⟨⟨({ svc with opt := { svc.opt with locked := true } }), 33, (List.replicate 31 1), by decide +kernel⟩,
   ⟨({ svc with opt := { svc.opt with locked := true } }), 255, (List.replicate 31 1), by decide +kernel⟩,
   ⟨({ svc with opt := { svc.opt with locked := true } }), 255, by decide +kernel⟩,
   ⟨({ svc with opt := { svc.opt with locked := true } }), by decide +kernel⟩,
   ⟨({ svc with opt := { svc.opt with locked := true }, mb := { svc.mb with chans := [(31, { reqProd := 1, fifo := [{ code := 5 }] })] } }),
        _, _, rfl, by decide +kernel⟩,
   ⟨({ svc with opt := { svc.opt with locked := true } }), by decide +kernel⟩,
   ⟨({ svc with opt := { svc.opt with locked := true } }), 255, by decide +kernel⟩,
   ⟨svc, false, 255, 255, (List.replicate 31 1), (.smbusStatusRead false), by decide +kernel⟩,
   ⟨svc, 255, by decide +kernel⟩⟩
theorem witness_MailboxCommandsComplete_1 :
    (∃ (s : State) (rq : Rq), sentOk (.identify rq) s rq 0x0001) ∧
    (∃ (s : State) (rq : Rq), sentOk (.nop rq) s rq 0x0002) ∧
    (∃ (s : State) (rq : Rq) (k : Nat), sentOk (.mbQuery rq k) s rq 0x0003 ∧ k < 32 ∧ (k = rq.ch ∨ hasAdmin s rq.ch = true)) ∧
    (∃ (s : State) (rq : Rq) (k : Nat), sentOk (.mbQuery rq k) s rq 0x0003 ∧ k = allOnes ∧ hasAdmin s rq.ch = true) ∧
    (∃ (s : State) (rq : Rq), sentOk (.fwQuery rq) s rq 0x0010) ∧
    (∃ (s : State) (rq : Rq) (tg len : Nat), sentOk (.fwUpdateBegin rq tg len) s rq 0x0011 ∧ (s.mb.sess = none ∨ ∃ (ic : Bool) (n :
         Nat), s.mb.sess = some (rq.ch, ic, n)) ∧ tg < 2 ∧ 0 < len ∧ len ≤ slotMax (tg == 1)) ∧
    (∃ (s : State) (rq : Rq) (ic : Bool) (n off : Nat) (bs : List Byte), sentOk (.fwUpdateData rq off bs) s rq 0x0012 ∧ s.mb.sess = some
         (rq.ch, ic, n) ∧ off = s.mb.sessDone ∧ (bs.length ≤ 224 ∨ bs.length ≤ 65536 ∧ bs.length % 4 = 0) ∧ off + bs.length ≤ n) ∧
    (∃ (s : State) (rq : Rq) (ic : Bool) (n off : Nat) (bs : List Byte), sentOk (.fwUpdateData rq off bs) s rq 0x0012 ∧ s.mb.sess = some
         (rq.ch, ic, n) ∧ s.mb.sessLast = some (off, bs) ∧ (bs.length ≤ 224 ∨ bs.length ≤ 65536 ∧ bs.length % 4 = 0) ∧ off ≠
         s.mb.sessDone) ∧
    (∃ (s : State) (rq : Rq) (chk : ImgChk) (ic : Bool) (n : Nat), sentOk (.fwUpdateEnd rq chk) s rq 0x0013 ∧ s.mb.sess = some (rq.ch,
         ic, n) ∧ n ≤ s.mb.sessDone ∧ slotCheck s ic n chk = false) ∧
    (∃ (s : State) (rq : Rq) (chk : ImgChk) (ic : Bool) (n : Nat), sentOk (.fwUpdateEnd rq chk) s rq 0x0013 ∧ s.mb.sess = some (rq.ch,
         ic, n) ∧ ic = true ∧ n ≤ s.mb.sessDone ∧ slotCheck s ic n chk = true) :=
  ⟨⟨svc, rqH, sent (by decide +kernel)⟩,
   ⟨svc, rqH, sent (by decide +kernel)⟩,
   ⟨svc, rqH, 31, sent (by decide +kernel), by decide +kernel⟩,
   ⟨svc, rqH, allOnes, sent (by decide +kernel), by decide +kernel⟩,
   ⟨svc, rqH, sent (by decide +kernel)⟩,
   ⟨svc, rqH, 1, 1048576, sent (by decide +kernel), .inl rfl, by decide +kernel⟩,
   ⟨({ fwu with mb := { fwu.mb with sessDone := 4, sessLast := some (0, [1, 2, 3, 4]) } }), rqM, _, _, _, [1, 2, 3, 4], sent (by decide +kernel),
        rfl, rfl, by decide +kernel⟩,
   ⟨({ fwu with mb := { fwu.mb with sessDone := 4, sessLast := some (0, [1, 2, 3, 4]) } }), rqM, _, _, _, _, sent (by decide +kernel),
        rfl, rfl, by decide +kernel⟩,
   ⟨fwu, rqM, { keyHash := 9, sigOk := false }, _, _, sent (by decide +kernel), rfl, by decide +kernel⟩,
   ⟨({ img with mb := { img.mb with sess := some (31, true, 516), sessDone := 516 } }), rqM, { keyHash := 9, sigOk := true }, _, _,
        sent (by decide +kernel), rfl, rfl, by decide +kernel⟩⟩
theorem witness_MailboxCommandsComplete_2 :
    (∃ (s : State) (rq : Rq) (chk : ImgChk) (ic : Bool) (n : Nat), sentOk (.fwUpdateEnd rq chk) s rq 0x0013 ∧ s.mb.sess = some (rq.ch,
         ic, n) ∧ ic = false ∧ n ≤ s.mb.sessDone ∧ slotCheck s ic n chk = true) ∧
    (∃ (s : State) (rq : Rq), sentOk (.fwActivate rq) s rq 0x0014 ∧ (s.cc.served = false ∨ preferred s ≠ s.cc.fwSlot) ∧ s.mb.sess = none
         ∧ s.rpm.recovery = 0) ∧
    (∃ (s : State) (rq : Rq) (f : Flight), findFlight s rq.ch rq.tag = some f ∧ rq.wf = true ∧ f.ran = true ∧ f.opcode = 0x0011) ∧
    (∃ (s : State) (rq : Rq) (f : Flight), findFlight s rq.ch rq.tag = some f ∧ rq.wf = true ∧ f.ran = true ∧ f.opcode = 0x0302) ∧
    (∃ (s : State) (rq : Rq) (f : Flight) (t : State), findFlight s rq.ch rq.tag = some f ∧ t = s.xe.retiring.foldl (fun s l =>
         laneRetire l 4 s) s ∧ rq.wf = true ∧ f.ran = true ∧ f.opcode = 0x0802) ∧
    (∃ (s : State) (rq : Rq) (f : Flight) (g k n : Nat), findFlight s rq.ch rq.tag = some f ∧ s.mctl.formatRq = some (g, k, n) ∧ rq.wf =
         true ∧ f.ran = true ∧ f.opcode = 0x0301 ∧ n < 2 ∧ formatOpening s = false) ∧
    (∃ (s : State) (rq : Rq) (f : Flight) (g k n : Nat), findFlight s rq.ch rq.tag = some f ∧ s.mctl.formatRq = some (g, k, n) ∧ rq.wf =
         true ∧ f.ran = true ∧ f.opcode = 0x0301 ∧ (2 ≤ n ∨ formatOpening s = true)) ∧
    (∃ (s : State) (rq : Rq) (f : Flight), findFlight s rq.ch rq.tag = some f ∧ rq.wf = true ∧ f.ran = true ∧ f.opcode = 0x0301 ∧
         s.mctl.formatRq = none) ∧
    (∃ (s : State) (rq : Rq) (f : Flight), findFlight s rq.ch rq.tag = some f ∧ rq.wf = true ∧ f.ran = true ∧ f.opcode ∉ [0x0011,
         0x0301, 0x0302, 0x0802]) ∧
    (∃ (s : State) (rq : Rq), rq.wf = true ∧ (∀ (f : Flight), findFlight s rq.ch rq.tag = some f → f.ran = false)) :=
  ⟨⟨fwu, rqM, { keyHash := 0xA0, sigOk := true }, _, _, sent (by decide +kernel), rfl, rfl, by decide +kernel⟩,
   ⟨({ svc with cc := { svc.cc with fwSlot := 1 } }), rqH, sent (by decide +kernel), by decide +kernel⟩,
   ⟨({ svc with mb := { svc.mb with chans := [(0, { bind_ := 0xC000, flights := [{ tag := 7, cseq := 0, opcode := 0x0011, flags := 0, ran := true, payload := [], area := true }] })] } }),
        rqH, _, rfl, by decide +kernel⟩,
   ⟨({ svc with mb := { svc.mb with chans := [(0, { bind_ := 0xC000, flights := [{ tag := 7, cseq := 0, opcode := 0x0302, flags := 0, ran := true, payload := [], area := false }] })] } }),
        rqH, _, rfl, by decide +kernel⟩,
   ⟨({ svc with mb := { svc.mb with chans := [(0, { bind_ := 0xC000, flights := [{ tag := 7, cseq := 0, opcode := 0x0802, flags := 0, ran := true, payload := [], area := false }] })] } }),
        rqH, _, _, rfl, rfl, by decide +kernel⟩,
   ⟨({ svc with mb := { svc.mb with chans := [(0, { bind_ := 0xC000, flights := [{ tag := 7, cseq := 0, opcode := 0x0301, flags := 0, ran := true, payload := [], area := false }] })] }, mctl := { svc.mctl with formatRq := some (5, 3, 0) } }),
        rqH, _, _, _, _, rfl, rfl, by decide +kernel⟩,
   ⟨({ (svc.modMbox 31 (fun m => { m with flights := [{ tag := 7, cseq := 0, opcode := 0x0301, flags := 0, ran := true }] })) with mctl := { svc.mctl with formatRq := some (1, 3, 2) } }),
        rqM, _, _, _, _, rfl, rfl, by decide +kernel⟩,
   ⟨({ ({ svc with mb := { svc.mb with chans := [(0, { bind_ := 0xC000, flights := [{ tag := 7, cseq := 0, opcode := 0x0301, flags := 0, ran := true, payload := [], area := false }] })] }, mctl := { svc.mctl with formatRq := some (5, 3, 0) } }) with mctl := { ({ svc with mb := { svc.mb with chans := [(0, { bind_ := 0xC000, flights := [{ tag := 7, cseq := 0, opcode := 0x0301, flags := 0, ran := true, payload := [], area := false }] })] }, mctl := { svc.mctl with formatRq := some (5, 3, 0) } }).mctl with formatRq := none } }),
        rqH, _, rfl, by decide +kernel⟩,
   ⟨(svc.modMbox 31 (fun m => { m with flights := [{ tag := 7, cseq := 0, opcode := 0x0100, flags := 0, ran := true }] })), rqM, _,
        rfl, by decide +kernel⟩,
   ⟨svc, rqH, by decide +kernel⟩⟩
theorem witness_SecurityCompletes_1 :
    (∃ (s : State) (rd : List RdRes) (f l : Nat) (u : State), frontNext s = some (f, l) ∧ u = (if lineHeld s f l then (ftRead f l rd
         s).2 else s) ∧ sweepRuns s = true ∧ s.sec.fDone = false ∧ s.ft.trained = true ∧ u.sec.halt = true) ∧
    (∃ (s : State) (rd : List RdRes) (f l : Nat) (u t : State), frontNext s = some (f, l) ∧ u = (if lineHeld s f l then (ftRead f l rd
         s).2 else s) ∧ t =
         { count 0x2420 0xFFFF 0 1 u with sec := { (count 0x2420 0xFFFF 0 1 u).sec with fFrame := if l = 1023 then f + 1 else f, fLine := if l = 1023 then 0 else l + 1 } }
         ∧ sweepRuns s = true ∧ s.sec.fDone = false ∧ s.ft.trained = true ∧ u.sec.halt = false) ∧
    (∃ (s : State), sweepRuns s = true ∧ s.sec.fDone = false ∧ s.ft.trained = true ∧ frontNext s = none) ∧
    (∃ (s : State), (sweepRuns s = false ∨ s.sec.fDone = true ∨ s.ft.trained = false)) ∧
    (∃ (s : State) (b l : Nat) (u : State), u = moveSlot l 4 s ∧ sweepRuns s = true ∧ mediaSweeps s = true ∧ s.sec.mPassed = false ∧
         mediaSweepNext s = some (b, l) ∧ reserveFree s = false) ∧
    (∃ (s : State) (b l : Nat) (u : State), u = moveSlot l 4 s ∧ sweepRuns s = true ∧ mediaSweeps s = true ∧ s.sec.mPassed = false ∧
         mediaSweepNext s = some (b, l) ∧ reserveFree s = true ∧ mediaSweepNext u = some (b, l)) ∧
    (∃ (s : State) (b l : Nat) (u v : State), u = moveSlot l 4 s ∧ v = count 0x2421 0xFFFF 0 1 u ∧ sweepRuns s = true ∧ mediaSweeps s =
         true ∧ s.sec.mPassed = false ∧ mediaSweepNext s = some (b, l) ∧ reserveFree s = true ∧ mediaSweepNext u ≠ some (b, l)) ∧
    (∃ (s : State), sweepRuns s = true ∧ mediaSweeps s = true ∧ s.sec.mPassed = false ∧ mediaSweepNext s = none) ∧
    (∃ (s : State), (sweepRuns s = false ∨ mediaSweeps s = false ∨ s.sec.mPassed = true)) ∧
    (∃ (s t : State), t = { oldSaltErase s with sec := { (oldSaltErase s).sec with mDone := true } } ∧ mediaSweeps s = true ∧
         s.sec.mPassed = true ∧ (t.sec.fDone = false ∨ t.sec.rekey = 0)) :=
  ⟨⟨swp, [.macBad, .macBad], _, _, _, rfl, rfl, by decide +kernel⟩,
   ⟨swp, [.clean], _, _, _, _, rfl, rfl, rfl, by decide +kernel⟩,
   ⟨({ svc with sec := { svc.sec with rekey := 1, fDone := false } }), by decide +kernel⟩,
   ⟨svc, by decide +kernel⟩,
   ⟨({ kil with sec := { kil.sec with rekey := 1, mDone := false }, mc := { kil.mc with slots := [(5120, some ⟨7, 1, 0, 5, 0, 0xFFFF, 0, 0, 0⟩)], prof := { profT with luns := 0 } } }),
        7, 5120, _, rfl, by decide +kernel⟩,
   ⟨one, 7, 5120, _, rfl, by decide +kernel⟩,
   ⟨({ kil with sec := { kil.sec with rekey := 1, mDone := false } , opt := { kil.opt with pages := [(0, { data := (2#512) <<< 288 })] } }),
        7, 5120, _, _, rfl, rfl, by decide +kernel⟩,
   ⟨({ svc with sec := { svc.sec with rekey := 1, mDone := false } }), by decide +kernel⟩,
   ⟨svc, by decide +kernel⟩,
   ⟨({ svc with sec := { svc.sec with rekey := 1, mDone := false, mPassed := true, fDone := false } }), _, rfl, by decide +kernel⟩⟩
theorem witness_SecurityCompletes_2 :
    (∃ (s t : State), t = { oldSaltErase s with sec := { (oldSaltErase s).sec with mDone := true } } ∧ mediaSweeps s = true ∧
         s.sec.mPassed = true ∧ t.sec.fDone = true ∧ t.sec.rekey ≠ 0) ∧
    (∃ (s : State), (mediaSweeps s = false ∨ s.sec.mPassed = false)) ∧
    (∃ (a : Nat), a < 7) ∧
    (∃ (s : State), (s.rpm.st = .kindling ∨ s.rpm.st = .service)) ∧
    (∃ (s : State), s.rpm.st ≠ .kindling ∧ s.rpm.st ≠ .service) ∧
    (∃ (s : State) (rq : Rq), sentOk (.secQuery rq) s rq 0x0A00) ∧
    (∃ (s : State) (rq : Rq) (scope : Nat), sentOk (.rekeyStart rq scope) s rq 0x0A01 ∧ scope = 0 ∧ s.sec.rekey = 0 ∧ s.sec.rngFail =
         false) ∧
    (∃ (s : State) (rq : Rq) (scope : Nat), sentOk (.rekeyStart rq scope) s rq 0x0A01 ∧ scope = 1 ∧ s.sec.rekey = 0 ∧ s.sec.rngFail =
         false ∧ s.mc.formatted = true) ∧
    (∃ (s : State) (rq : Rq) (scope : Nat), sentOk (.rekeyStart rq scope) s rq 0x0A01 ∧ scope = 2 ∧ s.sec.rekey = 0 ∧ s.sec.rngFail =
         false ∧ s.mc.formatted = true) ∧
    (∃ (s : State) (rq : Rq) (op : Nat), sentOk (.rekeyPause rq op) s rq 0x0A02 ∧ (op = 0 ∧ s.sec.rekey = 1 ∨ op = 1 ∧ s.sec.rekey = 2)) :=
  ⟨⟨({ ({ svc with sec := { svc.sec with rekey := 1, mDone := false } }) with sec := { ({ svc with sec := { svc.sec with rekey := 1, mDone := false } }).sec with mPassed := true } }),
        _, rfl, by decide +kernel⟩,
   ⟨svc, by decide +kernel⟩,
   ⟨6, by decide +kernel⟩,
   ⟨svc, by decide +kernel⟩,
   ⟨State.reset, by decide +kernel⟩,
   ⟨svc, rqM, sent (by decide +kernel)⟩,
   ⟨svc, rqM, _, sent (by decide +kernel), rfl, by decide +kernel⟩,
   ⟨svc, rqM, _, sent (by decide +kernel), rfl, by decide +kernel⟩,
   ⟨svc, rqM, _, sent (by decide +kernel), rfl, by decide +kernel⟩,
   ⟨({ svc with sec := { svc.sec with rekey := 2 } }), rqM, 1, sent (by decide +kernel), by decide +kernel⟩⟩
theorem witness_OptionStoreCompletes_1 :
    (∃ (s : State) (core p : Nat) (t : State), t = { s with opt := { s.opt with tpage := p } } ∧ core < 5 ∧ p < 1024 ∧ (areaOf p).isSome
         = true) ∧
    (∃ (core p : Nat), core < 5 ∧ p < 1024 ∧ (areaOf p).isNone = true) ∧
    (∃ (s : State) (core p : Nat), core < 5 ∧ p < 1024 ∧ (∀ (c : Commit), s.opt.run = some c → c.page ≠ p)) ∧
    (∃ (s : State) (core p : Nat) (c : Commit), s.opt.run = some c ∧ c.page = p ∧ core < 5 ∧ p < 1024) ∧
    (∃ (p : Nat), p < 1024) ∧
    (∃ (s : State) (core : Nat), core < 5 ∧ s.opt.byte < 64) ∧
    (∃ (s : State) (c : Commit) (v : State), s.opt.run = some c ∧ v = commitActed c (commitApply c s)) ∧
    (∃ (s : State) (c : Commit) (v : State), s.opt.run = some c ∧ v = commitActed c (commitApply c s) ∧ c.act = .none) ∧
    (∃ (s : State) (c : Commit) (v : State) (ch tag : Nat), s.opt.run = some c ∧ v = commitActed c (commitApply c s) ∧ c.act = .reply ch
         tag) ∧
    (∃ (s : State) (c : Commit) (v : State), s.opt.run = some c ∧ v = commitActed c (commitApply c s) ∧ (s.opt.pages.get {}
         c.page).wcount + 1 < 1000000) :=
  ⟨⟨svc, 4, 1023, _, rfl, by decide +kernel⟩,
   ⟨4, 511, by decide +kernel⟩,
   ⟨svc, 4, 1023, by decide +kernel⟩,
   ⟨({ svc with opt := { svc.opt with run := some { page := 1023, off := 0, bytes := [] } } }), 4, _, _, rfl, rfl, by decide +kernel⟩,
   ⟨1023, by decide +kernel⟩,
   ⟨svc, 4, by decide +kernel⟩,
   ⟨({ svc with opt := { svc.opt with run := some { page := 1023, off := 0, bytes := [] } } }), _, _, rfl, rfl⟩,
   ⟨({ svc with opt := { svc.opt with run := some { page := 1023, off := 0, bytes := [] } } }), _, _, rfl, rfl, by decide +kernel⟩,
   ⟨({ svc with opt := { svc.opt with run := some { page := 5, off := 2, bytes := [7], act := (.reply 0 7) } } }), _, _, _, _, rfl,
        rfl, rfl⟩,
   ⟨({ svc with opt := { svc.opt with run := some { page := 1023, off := 0, bytes := [] } } }), _, _, rfl, rfl, by decide +kernel⟩⟩
theorem witness_OptionStoreCompletes_2 :
    (∃ (s : State), s.opt.run = none) ∧
    (∃ (weak bad : List Nat), (∀ p ∈ weak ++ bad, p < 1024)) ∧
    (∃ (s : State) (p : Nat), (s.opt.pages.get {} p).damaged = true) ∧
    (∃ (s : State) (p : Nat), (s.opt.pages.get {} p).damaged = false) ∧
    (∃ (s : State) (rq : Rq) (first n : Nat), sentOk (.optRead rq first n) s rq 0x0B00 ∧ 32 ≤ first ∧ 0 < n ∧ first + n ≤ 1024 ∧
         areaDenied s rq.ch 0 first n = none) ∧
    (∃ (s : State) (rq : Rq) (p off : Nat) (data : List Byte) (img : List OptEntry) (b : Bool), sentOk (.optWrite rq 0 p off data img b)
         s rq 0x0B01 ∧ p < 1024 ∧ off < 64 ∧ 0 < data.length ∧ data.length ≤ 64 ∧ areaDenied s rq.ch 1 p 1 = none ∧ writeRefused s p off
         data = none) ∧
    (∃ (s : State) (rq : Rq) (p off : Nat) (data : List Byte) (img : List OptEntry), sentOk (.optWrite rq 1 p off data img true) s rq
         0x0B01 ∧ (∀ (e : OptEntry), img.head? = some e → areaDenied s rq.ch 1 e.page 1 = none ∧ writeRefused s e.page e.off e.data =
         none)) ∧
    (∃ (s : State) (rq : Rq) (a d : Nat) (pw : BitVec 128), sentOk (.optUnlock rq a d pw) s rq 0x0B02 ∧ 0 < a ∧ a ≤ 6 ∧ d < 2 ∧ ¬ (a = 1
         ∧ d = 1) ∧ s.sec.closed.contains a = false ∧ pwMatches s a d pw = true) ∧
    (∃ (s : State) (rq : Rq) (a d : Nat) (pw : BitVec 128), sentOk (.optUnlock rq a d pw) s rq 0x0B02 ∧ 0 < a ∧ a ≤ 6 ∧ d < 2 ∧ ¬ (a = 1
         ∧ d = 1) ∧ s.sec.closed.contains a = false ∧ pwMatches s a d pw = false) ∧
    (∃ (s : State) (rq : Rq) (a d : Nat) (old new : BitVec 128), sentOk (.optPasswordSet rq a d old new) s rq 0x0B03 ∧ 0 < a ∧ a ≤ 6 ∧ d
         < 2 ∧ ¬ (a = 1 ∧ d = 1) ∧ s.sec.closed.contains a = false ∧ pwMatches s a d old = true) :=
  ⟨⟨svc, by decide +kernel⟩,
   ⟨[], [], by decide +kernel⟩,
   ⟨({ svc with opt := { svc.opt with pages := [(0, { damaged := true })] } }), 0, by decide +kernel⟩,
   ⟨svc, 65536, by decide +kernel⟩,
   ⟨svc, rqM, 33, 33, sent (by decide +kernel), by decide +kernel⟩,
   ⟨svc, rqM, 1023, 63, [1], ([⟨3, 0, [1]⟩]), 5, sent (by decide +kernel), by decide +kernel⟩,
   ⟨svc, rqM, 1048577, 1048577, [1], ([⟨64, 0, [1]⟩]), sent (by decide +kernel), by decide +kernel⟩,
   ⟨svc, rqM, 6, 1, 0, sent (by decide +kernel), by decide +kernel⟩,
   ⟨svc, rqM, 6, 1, 5, sent (by decide +kernel), by decide +kernel⟩,
   ⟨svc, rqM, 6, 1, 0, 5, sent (by decide +kernel), by decide +kernel⟩⟩
theorem witness_OptionStoreCompletes_3 : ∃ (s : State) (rq : Rq) (a d : Nat) (old new : BitVec 128), sentOk (.optPasswordSet rq a d
    old new) s rq 0x0B03 ∧ 0 < a ∧ a ≤ 6 ∧ d < 2 ∧ ¬ (a = 1 ∧ d = 1) ∧ s.sec.closed.contains a = false ∧ pwMatches s a d old = false
    :=
  ⟨svc, rqM, 6, 1, 1, 5, sent (by decide +kernel), by decide +kernel⟩
theorem witness_LedgerCompletes :
    (∃ (s : State) (rq : Rq), sentOk (.ledgerQuery rq) s rq 0x0B10) ∧
    (∃ (s : State) (rq : Rq) (first n : Nat) (out : List LgOut), sentOk (.ledgerRead rq first n out) s rq 0x0B11 ∧ 0 < first ∧ 0 < n ∧ n
         ≤ 69632) ∧
    (∃ (s : State), s.lg.offline = false ∧ s.lg.staged ≠ []) ∧
    (∃ (s : State), (s.lg.offline = true ∨ s.lg.staged = [])) ∧
    (∃ (s : State), s.lg.programming = true ∧ s.lg.offline = false) ∧
    (∃ (s : State), (s.lg.programming = false ∨ s.lg.offline = true)) ∧
    (∃ (s : State) (c : Commit), s.opt.run = some c ∧ c.act = .highWater ∧ c.page ≠ 35) ∧
    (∃ (s : State) (c : Commit), s.opt.run = some c ∧ c.act ≠ .highWater ∧ (∃ d ∈ s.opt.queue, d.act = .highWater)) ∧
    (∃ (s : State), (s.opt.run = none ∨ (∀ c ∈ s.opt.queue, c.act ≠ .highWater) ∧ (∀ (c : Commit), s.opt.run = some c → c.act ≠
         .highWater))) :=
  ⟨⟨svc, rqM, sent (by decide +kernel)⟩,
   ⟨svc, rqM, 69633, 69632, [], sent (by decide +kernel), by decide +kernel⟩,
   ⟨({ svc with lg := { svc.lg with staged := [default] } }), by decide +kernel⟩,
   ⟨svc, by decide +kernel⟩,
   ⟨({ svc with lg := { svc.lg with programming := true, offline := false } }), by decide +kernel⟩,
   ⟨svc, by decide +kernel⟩,
   ⟨({ svc with opt := { svc.opt with run := some { page := 5, off := 2, bytes := [7], act := .highWater } } }), _, rfl, by decide +kernel⟩,
   ⟨({ svc with opt := { svc.opt with run := some { page := 35, off := 0, bytes := [], act := .none }, queue := [{ page := 32, off := 0, bytes := [], act := .highWater }] } }),
        _, rfl, by decide +kernel⟩,
   ⟨svc, by decide +kernel⟩⟩
theorem witness_ResetSourcesComplete_1 :
    (∃ (s : State), RstSrc.por ∉ s.rpm.asserted) ∧
    (∃ (s : State), RstSrc.por ∈ s.rpm.asserted) ∧
    (∃ (s t : State), t = { s with rpm := { s.rpm with asserted := s.rpm.asserted.erase .por } } ∧ RstSrc.por ∈ s.rpm.asserted ∧
         t.rpm.asserted = []) ∧
    (∃ (s t : State), t = { s with rpm := { s.rpm with asserted := s.rpm.asserted.erase .por } } ∧ RstSrc.por ∈ s.rpm.asserted ∧
         t.rpm.asserted ≠ []) ∧
    (∃ (s t : State), t = { s with rpm := { s.rpm with asserted := s.rpm.asserted.erase .por } } ∧ RstSrc.por ∉ s.rpm.asserted) ∧
    (∃ (s t : State), t = { s with rpmx := { s.rpmx with rstPin := 1 } } ∧ (s.rpm.st = .timedShutdown ∨ s.rpm.st = .shutdown ∨
         RstSrc.resetN ∈ s.rpm.asserted ∨ s.eu.phase = .shutdown)) ∧
    (∃ (s t : State), t = { s with rpmx := { s.rpmx with rstPin := 1 } } ∧ s.rpm.st ≠ .timedShutdown ∧ s.rpm.st ≠ .shutdown ∧
         RstSrc.resetN ∉ s.rpm.asserted ∧ s.eu.phase ≠ .shutdown ∧ euBusy s = true ∧ s.eu.phase ≠ .sealedHold) ∧
    (∃ (s t u : State), t = { s with rpmx := { s.rpmx with rstPin := 1 } } ∧ u = emberEnter 4 t ∧ s.rpm.st ≠ .timedShutdown ∧ s.rpm.st ≠
         .shutdown ∧ RstSrc.resetN ∉ s.rpm.asserted ∧ s.eu.phase ≠ .shutdown ∧ (euBusy s = false ∨ s.eu.phase = .sealedHold) ∧ epochOpen
         s = true) ∧
    (∃ (s t : State), t = { s with rpmx := { s.rpmx with rstPin := 1 } } ∧ s.rpm.st ≠ .timedShutdown ∧ s.rpm.st ≠ .shutdown ∧
         RstSrc.resetN ∉ s.rpm.asserted ∧ s.eu.phase ≠ .shutdown ∧ (euBusy s = false ∨ s.eu.phase = .sealedHold) ∧ epochOpen s = false) ∧
    (∃ (s : State), ((s.rpm.st = .timedShutdown ∨ s.rpm.st = .shutdown) ∧ s.rpmx.rstPin ≠ 0)) :=
  ⟨⟨svc, by decide +kernel⟩,
   ⟨State.reset, by decide +kernel⟩,
   ⟨State.reset, _, rfl, by decide +kernel⟩,
   ⟨({ svc with rpm := { svc.rpm with asserted := [.por, .restart] } }), _, rfl, by decide +kernel⟩,
   ⟨svc, _, rfl, by decide +kernel⟩,
   ⟨({ svc with rpm := { svc.rpm with asserted := [.resetN] } }), _, rfl, by decide +kernel⟩,
   ⟨({ svc with eu := { svc.eu with phase := .flush } }), _, rfl, by decide +kernel⟩,
   ⟨({ svc with eu := { svc.eu with epoch := { st := 1 } } }), _, _, rfl, rfl, by decide +kernel⟩,
   ⟨svc, _, rfl, by decide +kernel⟩,
   ⟨({ svc with rpm := { svc.rpm with st := .shutdown }, rpmx := { svc.rpmx with rstPin := (0 + 1) } }), by decide +kernel⟩⟩
theorem witness_ResetSourcesComplete_2 :
    (∃ (s : State), (s.rpm.st ≠ .timedShutdown ∧ s.rpm.st ≠ .shutdown ∨ s.rpmx.rstPin = 0)) ∧
    (∃ (s : State) (src : RstSrc), src.wf = true ∧ (src = .por ∨ src = .restart ∨ src = .resetN ∧ s.rpmx.rstPin = 1)) ∧
    (∃ (s : State) (src : RstSrc), src.wf = true ∧ src ≠ .por ∧ src ≠ .restart ∧ ¬ (src = .resetN ∧ s.rpmx.rstPin = 1)) ∧
    (∃ (s : State) (p : Pll), p.wf = true ∧ s.rpm.st = .kindling ∧ p ∉ s.rpmx.plls ∧ p ∉ s.rpmx.pllFail) ∧
    (∃ (s : State) (p : Pll) (t : State), t = { s with rpmx := { s.rpmx with pllFail := s.rpmx.pllFail ++ [p] } } ∧ p.wf = true ∧
         s.rpm.st = .kindling ∧ p ∉ s.rpmx.plls ∧ p ∉ s.rpmx.pllFail ∧ p = .capture) ∧
    (∃ (s : State) (p : Pll) (t : State) (k : Nat), t = { s with rpmx := { s.rpmx with pllFail := s.rpmx.pllFail ++ [p] } } ∧ p = .port
         k ∧ p.wf = true ∧ s.rpm.st = .kindling ∧ p ∉ s.rpmx.plls ∧ p ∉ s.rpmx.pllFail) ∧
    (∃ (s : State) (p : Pll) (t : State) (k : Nat), t = { s with rpmx := { s.rpmx with pllFail := s.rpmx.pllFail ++ [p] } } ∧ p.wf =
         true ∧ s.rpm.st = .kindling ∧ p ∉ s.rpmx.plls ∧ p ∉ s.rpmx.pllFail ∧ (p = .ft k ∨ p = .nc k)) ∧
    (∃ (s : State) (p : Pll), p.wf = true ∧ (s.rpm.st ≠ .kindling ∨ p ∈ s.rpmx.plls ∨ p ∈ s.rpmx.pllFail)) ∧
    (∃ (s : State) (p : Pll) (t : State), t = { s with rpmx := { s.rpmx with plls := s.rpmx.plls.erase p } } ∧ p.wf = true ∧ p ∉
         s.rpmx.plls) ∧
    (∃ (s : State) (p : Pll) (t : State), t = { s with rpmx := { s.rpmx with plls := s.rpmx.plls.erase p } } ∧ p.wf = true ∧ p ∈
         s.rpmx.plls ∧ p = .capture) :=
  ⟨⟨svc, by decide +kernel⟩,
   ⟨svc, default, by decide +kernel⟩,
   ⟨svc, (.port 9), by decide +kernel⟩,
   ⟨({ svc with rpm := { svc.rpm with st := .kindling } }), (.port 0), by decide +kernel⟩,
   ⟨({ svc with rpm := { svc.rpm with st := .kindling } }), .capture, _, rfl, by decide +kernel⟩,
   ⟨({ svc with rpm := { svc.rpm with st := .kindling } }), _, _, 9, rfl, rfl, by decide +kernel⟩,
   ⟨({ svc with rpm := { svc.rpm with st := .kindling } }), (.nc 7), _, 7, rfl, by decide +kernel⟩,
   ⟨svc, (.port 0), by decide +kernel⟩,
   ⟨svc, (.port 0), _, rfl, by decide +kernel⟩,
   ⟨({ svc with rpm := { svc.rpm with st := .kindling, boot := 1 }, rpmx := { svc.rpmx with plls := allPlls } }), .capture, _, rfl, by
        decide +kernel⟩⟩
theorem witness_ResetSourcesComplete_3 :
    (∃ (s : State) (p : Pll) (t : State) (k : Nat) (u : State), t = { s with rpmx := { s.rpmx with plls := s.rpmx.plls.erase p } } ∧ p =
         .port k ∧ u = t.modPort k (fun q => { q with pllOk := false }) ∧ p.wf = true ∧ p ∈ s.rpmx.plls ∧ (s.port k).role ≠ 2) ∧
    (∃ (s : State) (p : Pll) (t : State) (k : Nat) (u : State), t = { s with rpmx := { s.rpmx with plls := s.rpmx.plls.erase p } } ∧ p =
         .port k ∧ u = t.modPort k (fun q => { q with pllOk := false }) ∧ p.wf = true ∧ p ∈ s.rpmx.plls ∧ (s.port k).role = 2) ∧
    (∃ (s : State) (p : Pll) (t : State) (k : Nat), t = { s with rpmx := { s.rpmx with plls := s.rpmx.plls.erase p } } ∧ p = .ft k ∧
         p.wf = true ∧ p ∈ s.rpmx.plls) ∧
    (∃ (s : State) (p : Pll) (t : State) (k : Nat), t = { s with rpmx := { s.rpmx with plls := s.rpmx.plls.erase p } } ∧ p = .nc k ∧
         p.wf = true ∧ p ∈ s.rpmx.plls) ∧
    (∃ (s : State) (p : Pll) (l : List Nat) (t : State), t = { s with rpmx := { s.rpmx with plls := s.rpmx.plls ++ [p] } } ∧ p.wf = true
         ∧ (∀ d ∈ l, d < 32) ∧ (p ∈ s.rpmx.plls ∨ p ∈ s.rpmx.pllFail ∨ s.rpmx.entered = false)) ∧
    (∃ (s : State) (p : Pll) (l : List Nat) (t : State), t = { s with rpmx := { s.rpmx with plls := s.rpmx.plls ++ [p] } } ∧ p.wf = true
         ∧ (∀ d ∈ l, d < 32) ∧ p ∉ s.rpmx.plls ∧ p ∉ s.rpmx.pllFail ∧ s.rpmx.entered = true ∧ p = .capture) ∧
    (∃ (s : State) (p : Pll) (l : List Nat) (t : State) (k : Nat), t = { s with rpmx := { s.rpmx with plls := s.rpmx.plls ++ [p] } } ∧ p
         = .port k ∧ p.wf = true ∧ (∀ d ∈ l, d < 32) ∧ p ∉ s.rpmx.plls ∧ p ∉ s.rpmx.pllFail ∧ s.rpmx.entered = true) ∧
    (∃ (s : State) (p : Pll) (l : List Nat) (t : State) (k : Nat) (u : State), t =
         { s with rpmx := { s.rpmx with plls := s.rpmx.plls ++ [p] } } ∧ p = .ft k ∧ u = count 0x3821 0xFFFF 0 1 t ∧ p.wf = true ∧ (∀ d ∈
         l, d < 32) ∧ p ∉ s.rpmx.plls ∧ p ∉ s.rpmx.pllFail ∧ s.rpmx.entered = true) ∧
    (∃ (s : State) (p : Pll) (l : List Nat) (t : State) (k : Nat) (u : State), t =
         { s with rpmx := { s.rpmx with plls := s.rpmx.plls ++ [p] } } ∧ p = .nc k ∧ u = count 0x3821 0xFFFF 0 1 t ∧ p.wf = true ∧ (∀ d ∈
         l, d < 32) ∧ p ∉ s.rpmx.plls ∧ p ∉ s.rpmx.pllFail ∧ s.rpmx.entered = true) ∧
    (∃ (s : State), s.rpm.st = .kindling ∧ s.rpmx.entered = false ∧ s.rpm.boot ≠ 2 ∧ pllsSettled s = true) :=
  ⟨⟨({ svc with rpm := { svc.rpm with st := .kindling, boot := 1 }, rpmx := { svc.rpmx with plls := allPlls } }), _, _, 7, _, rfl, rfl,
        rfl, by decide +kernel⟩,
   ⟨({ svc with rpm := { svc.rpm with st := .kindling, boot := 1 }, rpmx := { svc.rpmx with plls := allPlls } }), _, _, 9, _, rfl, rfl,
        rfl, by decide +kernel⟩,
   ⟨({ svc with rpmx := { svc.rpmx with plls := [.ft 7] } }), _, _, 7, rfl, rfl, by decide +kernel⟩,
   ⟨({ svc with rpm := { svc.rpm with st := .kindling, boot := 1 }, rpmx := { svc.rpmx with plls := allPlls } }), _, _, 7, rfl, rfl, by
        decide +kernel⟩,
   ⟨svc, (.port 0), [], _, rfl, by decide +kernel⟩,
   ⟨({ svc with rpmx := { svc.rpmx with entered := true } }), .capture, [], _, rfl, by decide +kernel⟩,
   ⟨({ svc with rpmx := { svc.rpmx with entered := true } }), _, [], _, 9, rfl, rfl, by decide +kernel⟩,
   ⟨({ svc with rpmx := { svc.rpmx with entered := true } }), _, [], _, 7, _, rfl, rfl, rfl, by decide +kernel⟩,
   ⟨({ svc with rpmx := { svc.rpmx with entered := true } }), _, [], _, 7, _, rfl, rfl, rfl, by decide +kernel⟩,
   ⟨({ svc with rpm := { svc.rpm with st := .kindling, boot := 1 }, rpmx := { svc.rpmx with plls := allPlls } }), by decide +kernel⟩⟩
theorem witness_ResetSourcesComplete_4 :
    (∃ (s : State), (s.rpm.st ≠ .kindling ∨ s.rpmx.entered = true ∨ s.rpm.boot = 2 ∨ pllsSettled s = false)) ∧
    (∃ (s : State), s.rpmx.opened = true ∧ s.rpmx.startDone = false ∧ failing s = false) ∧
    (∃ (s : State), (s.rpmx.opened = false ∨ s.rpmx.startDone = true ∨ failing s = true)) ∧
    (∃ (s : State) (met : Prop), (met ↔ s.rpm.st = .shutdown ∧ (s.rpmx.downCause = 1 ∧ (s.eu.pfw = false ∧ s.eu.pfwHeld = true ∨
         s.rpmx.rstPin = 2) ∨ s.rpmx.downCause = 2 ∧ s.th.coolOk = true ∧ s.eu.pfw = false ∨ s.rpmx.downCause = 3 ∧ s.rpmx.rstPin = 2)) ∧
         met) ∧
    (∃ (s : State) (met : Prop), (met ↔ s.rpm.st = .shutdown ∧ (s.rpmx.downCause = 1 ∧ (s.eu.pfw = false ∧ s.eu.pfwHeld = true ∨
         s.rpmx.rstPin = 2) ∨ s.rpmx.downCause = 2 ∧ s.th.coolOk = true ∧ s.eu.pfw = false ∨ s.rpmx.downCause = 3 ∧ s.rpmx.rstPin = 2)) ∧
         ¬ met) ∧
    (∃ (s : State), s.rpm.st = .afterAbort) ∧
    (∃ (s : State), s.rpm.st ≠ .afterAbort) :=
  ⟨⟨svc, by decide +kernel⟩,
   ⟨({ svc with rpmx := { svc.rpmx with opened := true } }), by decide +kernel⟩,
   ⟨svc, by decide +kernel⟩,
   ⟨({ svc with rpm := { svc.rpm with st := .shutdown }, rpmx := { svc.rpmx with downCause := 2 } }), _, Iff.rfl, by decide +kernel⟩,
   ⟨svc, _, Iff.rfl, by decide +kernel⟩,
   ⟨({ svc with rpm := { svc.rpm with st := .afterAbort } }), by decide +kernel⟩,
   ⟨svc, by decide +kernel⟩⟩
theorem witness_SequencerCompletes_1 :
    (∃ (s : State), s.rpm.running = true ∧ s.rpm.waiting = false ∧ seqWord s / 2 ^ 28 = 1) ∧
    (∃ (s : State), s.rpm.running = true ∧ s.rpm.waiting = false ∧ seqWord s / 2 ^ 28 = 2) ∧
    (∃ (s : State), s.rpm.running = true ∧ s.rpm.waiting = false ∧ seqWord s / 2 ^ 28 = 3) ∧
    (∃ (s : State), s.rpm.running = true ∧ s.rpm.waiting = false ∧ seqWord s / 2 ^ 28 = 4 ∧ s.rpm.st = .powerUp ∧ s.rpm.pgGood &&&
         seqMask s = seqMask s) ∧
    (∃ (s : State), s.rpm.running = true ∧ s.rpm.waiting = false ∧ seqWord s / 2 ^ 28 = 4 ∧ s.rpm.st ≠ .powerUp ∧ s.rpm.pgGood &&&
         seqMask s = 0) ∧
    (∃ (s : State), s.rpm.running = true ∧ s.rpm.waiting = false ∧ seqWord s / 2 ^ 28 = 4 ∧ ((s.rpm.st = .powerUp ∧ s.rpm.pgGood &&&
         seqMask s ≠ seqMask s) ∨ (s.rpm.st ≠ .powerUp ∧ s.rpm.pgGood &&& seqMask s ≠ 0))) ∧
    (∃ (s : State) (go : Prop), (go ↔ bits (seqWord s) 9 8 = 0 ∨ bits (seqWord s) 9 8 = 1 ∧ s.board.pseqInHigh = true ∨ 2 ≤ bits
         (seqWord s) 9 8 ∧ s.pageNat 64 48 1 / 8 % 2 = 1) ∧ s.rpm.running = true ∧ s.rpm.waiting = false ∧ seqWord s / 2 ^ 28 = 5 ∧ go) ∧
    (∃ (s : State) (go : Prop), (go ↔ bits (seqWord s) 9 8 = 0 ∨ bits (seqWord s) 9 8 = 1 ∧ s.board.pseqInHigh = true ∨ 2 ≤ bits
         (seqWord s) 9 8 ∧ s.pageNat 64 48 1 / 8 % 2 = 1) ∧ s.rpm.running = true ∧ s.rpm.waiting = false ∧ seqWord s / 2 ^ 28 = 5 ∧ ¬ go) ∧
    (∃ (s : State) (q : Bool) (t : State), q = decide (s.pageNat 64 48 1 / 8 % 2 = 1) ∧ t =
         { s with rpm := { s.rpm with running := false, aborted := false, pseqOut := !q, pseqTu := q, st := .osm } } ∧ s.rpm.running =
         true ∧ s.rpm.waiting = false ∧ seqWord s / 2 ^ 28 = 15 ∧ s.rpm.st = .powerUp ∧ s.rpm.asserted = []) ∧
    (∃ (s : State) (q : Bool) (t : State), q = decide (s.pageNat 64 48 1 / 8 % 2 = 1) ∧ t =
         { s with rpm := { s.rpm with running := false, aborted := false, pseqOut := !q, pseqTu := q, st := .osm } } ∧ s.rpm.running =
         true ∧ s.rpm.waiting = false ∧ seqWord s / 2 ^ 28 = 15 ∧ s.rpm.st = .powerUp ∧ s.rpm.asserted ≠ []) :=
  ⟨⟨({ svc with rpm := { svc.rpm with running := true, step := 0, st := .powerUp, asserted := [] }, rpmx := { svc.rpmx with prog := [0x10000003] } }),
        by decide +kernel⟩,
   ⟨({ svc with rpm := { svc.rpm with running := true, step := 0, st := .powerUp, asserted := [] }, rpmx := { svc.rpmx with prog := [0x20000003] } }),
        by decide +kernel⟩,
   ⟨({ svc with rpm := { svc.rpm with running := true, step := 0, st := .powerUp, asserted := [] }, rpmx := { svc.rpmx with prog := [0x30000003] } }),
        by decide +kernel⟩,
   ⟨({ svc with rpm := { svc.rpm with running := true, step := 0, st := .powerUp, asserted := [] }, rpmx := { svc.rpmx with prog := [0x40000003] } }),
        by decide +kernel⟩,
   ⟨({ svc with rpm := { svc.rpm with running := true, step := 0, st := .service, pgGood := 0, asserted := [] }, rpmx := { svc.rpmx with prog := [0x400000FF] } }),
        by decide +kernel⟩,
   ⟨({ svc with rpm := { svc.rpm with running := true, step := 0, st := .powerUp, pgGood := 1 }, rpmx := { svc.rpmx with prog := [0x40000003] } }),
        by decide +kernel⟩,
   ⟨({ svc with rpm := { svc.rpm with running := true, step := 0, st := .powerUp, asserted := [] }, rpmx := { svc.rpmx with prog := [0x5000003F] } }),
        _, Iff.rfl, by decide +kernel⟩,
   ⟨({ svc with rpm := { svc.rpm with running := true, step := 0, st := .powerUp, asserted := [] }, rpmx := { svc.rpmx with prog := [0x5000013F] }, board := { svc.board with pseqInHigh := false } }),
        _, Iff.rfl, by decide +kernel⟩,
   ⟨({ svc with rpm := { svc.rpm with running := true, st := .powerUp } }), _, _, rfl, rfl, by decide +kernel⟩,
   ⟨({ ({ svc with rpm := { svc.rpm with asserted := [.por] } }) with rpm := { ({ svc with rpm := { svc.rpm with asserted := [.por] } }).rpm with running := true, waiting := false, st := .powerUp } }),
        _, _, rfl, rfl, by decide +kernel⟩⟩
theorem witness_SequencerCompletes_2 :
    (∃ (s : State), s.rpm.running = true ∧ s.rpm.waiting = false ∧ seqWord s / 2 ^ 28 = 15 ∧ s.rpm.st ≠ .powerUp) ∧
    (∃ (s : State) (n : Nat) (c : Instr), (n, c) ∈ [(1, Instr.sequencerEnable), (2, .sequencerDisable), (3, .sequencerWait), (4,
         .sequencerCheck), (5, .sequencerJump), (15, .sequencerEnd)] ∧ (s.rpm.running = false ∨ s.rpm.waiting = true ∨ seqWord s / 2 ^ 28
         ≠ n)) ∧
    (∃ (s : State), s.rpm.running = true ∧ s.rpm.waiting = true ∧ seqWord s / 2 ^ 28 = 3) ∧
    (∃ (s : State), s.rpm.running = true ∧ s.rpm.waiting = true ∧ seqWord s / 2 ^ 28 = 4 ∧ s.rpm.st = .powerUp) ∧
    (∃ (s : State) (i : Nat), s.rpm.running = true ∧ s.rpm.waiting = true ∧ seqWord s / 2 ^ 28 = 4 ∧ s.rpm.st = .powerUp ∧ i < 8 ∧
         (seqMask s).getLsbD i = true ∧ s.rpm.pgGood.getLsbD i = false ∧ s.rpm.retry < 3) ∧
    (∃ (s : State) (i : Nat), s.rpm.running = true ∧ s.rpm.waiting = true ∧ seqWord s / 2 ^ 28 = 4 ∧ s.rpm.st = .powerUp ∧ i < 8 ∧
         (seqMask s).getLsbD i = true ∧ s.rpm.pgGood.getLsbD i = false ∧ 3 ≤ s.rpm.retry) ∧
    (∃ (s : State), s.rpm.running = true ∧ s.rpm.waiting = true ∧ seqWord s / 2 ^ 28 = 4 ∧ s.rpm.st ≠ .powerUp) ∧
    (∃ (s : State), (s.rpm.running = false ∨ s.rpm.waiting = false ∨ seqWord s / 2 ^ 28 ≠ 3)) ∧
    (∃ (s : State), (s.rpm.running = false ∨ s.rpm.waiting = false ∨ seqWord s / 2 ^ 28 ≠ 4)) ∧
    (∃ (s : State) (i : Nat), i < 8 ∧ (s.rpm.running = false ∨ s.rpm.waiting = false ∨ seqWord s / 2 ^ 28 ≠ 4 ∨ s.rpm.st ≠ .powerUp ∨
         (seqMask s).getLsbD i = false ∨ s.rpm.pgGood.getLsbD i = true)) :=
  ⟨⟨({ svc with rpm := { svc.rpm with running := true, waiting := false } }), by decide +kernel⟩,
   ⟨svc, 15, .sequencerEnd, by decide +kernel⟩,
   ⟨({ svc with rpm := { svc.rpm with running := true, step := 0, st := .powerUp, waiting := true }, rpmx := { svc.rpmx with prog := [0x30000003] } }),
        by decide +kernel⟩,
   ⟨({ svc with rpm := { svc.rpm with running := true, step := 0, st := .powerUp, waiting := true, pgGood := 1 }, rpmx := { svc.rpmx with prog := [0x40000003] } }),
        by decide +kernel⟩,
   ⟨({ svc with rpm := { svc.rpm with running := true, step := 0, st := .powerUp, waiting := true, pgGood := 1 }, rpmx := { svc.rpmx with prog := [0x40000083] } }),
        7, by decide +kernel⟩,
   ⟨({ svc with rpm := { svc.rpm with running := true, step := 0, st := .powerUp, waiting := true, pgGood := 1, retry := 3 }, rpmx := { svc.rpmx with prog := [0x40000083] } }),
        7, by decide +kernel⟩,
   ⟨({ svc with rpm := { svc.rpm with running := true, step := 0, st := .timedShutdown, waiting := true }, rpmx := { svc.rpmx with prog := [0x40000003] } }),
        by decide +kernel⟩,
   ⟨svc, by decide +kernel⟩,
   ⟨svc, by decide +kernel⟩,
   ⟨svc, 7, by decide +kernel⟩⟩
theorem witness_SequencerCompletes_3 :
    (∃ (s : State), s.rpm.running = false) ∧
    (∃ (s : State), s.rpm.running = true ∧ s.rpm.st = .powerUp) ∧
    (∃ (s u : State), u = snapTake 6 s.rpm.step 3 0xFF 0 s ∧ s.rpm.running = true ∧ s.rpm.st ≠ .powerUp) ∧
    (∃ (s : State) (i : Nat) (t : State), t =
         { s with rpm := { s.rpm with pgGood := s.rpm.pgGood ||| ((1#8) <<< i), pgRaw := s.rpm.pgRaw ||| ((1#8) <<< i) } } ∧ i < 8 ∧ (∃ x
         ∈ s.rpm.asserted, isPowerOn x = true)) ∧
    (∃ (s : State) (i : Nat) (t : State), t =
         { s with rpm := { s.rpm with pgGood := s.rpm.pgGood ||| ((1#8) <<< i), pgRaw := s.rpm.pgRaw ||| ((1#8) <<< i) } } ∧ i < 8 ∧ (∀ x
         ∈ s.rpm.asserted, isPowerOn x = false)) ∧
    (∃ (s : State) (i : Nat) (t : State), t =
         { s with rpm := { s.rpm with pgGood := s.rpm.pgGood ||| ((1#8) <<< i), pgRaw := s.rpm.pgRaw ||| ((1#8) <<< i) } } ∧ i < 8 ∧ (∀ x
         ∈ s.rpm.asserted, isPowerOn x = false) ∧ s.rpm.running = false ∧ inEmber s = false) ∧
    (∃ (s : State) (i : Nat) (t : State), t =
         { s with rpm := { s.rpm with pgGood := s.rpm.pgGood &&& ~~~((1#8) <<< i), pgRaw := s.rpm.pgRaw &&& ~~~((1#8) <<< i) } } ∧ i < 8
         ∧ s.rpm.pgGood.getLsbD i = false) ∧
    (∃ (s : State) (i : Nat) (t : State), t =
         { s with rpm := { s.rpm with pgGood := s.rpm.pgGood &&& ~~~((1#8) <<< i), pgRaw := s.rpm.pgRaw &&& ~~~((1#8) <<< i) } } ∧ i < 8
         ∧ s.rpm.pgGood.getLsbD i = true ∧ s.rpm.st = .service ∧ s.rpm.sup.getLsbD i = true) ∧
    (∃ (s : State) (i : Nat) (t : State), t =
         { s with rpm := { s.rpm with pgGood := s.rpm.pgGood &&& ~~~((1#8) <<< i), pgRaw := s.rpm.pgRaw &&& ~~~((1#8) <<< i) } } ∧ i < 8
         ∧ s.rpm.pgGood.getLsbD i = true ∧ s.rpm.st = .powerUp ∧ s.rpm.sup.getLsbD i = true ∧ s.rpm.running = true) ∧
    (∃ (s : State) (i : Nat) (t : State), t =
         { s with rpm := { s.rpm with pgGood := s.rpm.pgGood &&& ~~~((1#8) <<< i), pgRaw := s.rpm.pgRaw &&& ~~~((1#8) <<< i) } } ∧ i < 8
         ∧ s.rpm.pgGood.getLsbD i = true ∧ s.rpm.st = .timedShutdown ∧ s.rpm.running = true ∧ s.rpm.sup.getLsbD i = true ∧
         s.rpm.en.getLsbD i = true) :=
  ⟨⟨svc, by decide +kernel⟩,
   ⟨({ svc with rpm := { svc.rpm with running := true, st := .powerUp } }), by decide +kernel⟩,
   ⟨({ svc with rpm := { svc.rpm with running := true } }), _, rfl, by decide +kernel⟩,
   ⟨State.reset, 7, _, rfl, by decide +kernel⟩,
   ⟨svc, 7, _, rfl, by decide +kernel⟩,
   ⟨svc, 7, _, rfl, by decide +kernel⟩,
   ⟨State.reset, 7, _, rfl, by decide +kernel⟩,
   ⟨svc, 7, _, rfl, by decide +kernel⟩,
   ⟨({ svc with rpm := { svc.rpm with st := .powerUp, running := true } }), 7, _, rfl, by decide +kernel⟩,
   ⟨({ svc with rpm := { svc.rpm with st := .timedShutdown, running := true } }), 7, _, rfl, by decide +kernel⟩⟩
theorem witness_SequencerCompletes_4 :
    (∃ (s : State) (i : Nat) (t : State), t =
         { s with rpm := { s.rpm with pgGood := s.rpm.pgGood &&& ~~~((1#8) <<< i), pgRaw := s.rpm.pgRaw &&& ~~~((1#8) <<< i) } } ∧ i < 8
         ∧ s.rpm.pgGood.getLsbD i = true ∧ s.rpm.st = .timedShutdown ∧ ¬ (s.rpm.running = true ∧ s.rpm.sup.getLsbD i = true ∧
         s.rpm.en.getLsbD i = true)) ∧
    (∃ (s : State) (i : Nat) (t : State), t =
         { s with rpm := { s.rpm with pgGood := s.rpm.pgGood &&& ~~~((1#8) <<< i), pgRaw := s.rpm.pgRaw &&& ~~~((1#8) <<< i) } } ∧ i < 8
         ∧ s.rpm.pgGood.getLsbD i = true ∧ (s.rpm.st = .service ∧ s.rpm.sup.getLsbD i = false ∨ s.rpm.st = .powerUp ∧ (s.rpm.sup.getLsbD
         i = false ∨ s.rpm.running = false) ∨ s.rpm.st ∉ [.service, .powerUp, .timedShutdown])) ∧
    (∃ (s : State) (i : Nat), i < 8 ∧ (s.rpm.pgGood.getLsbD i = false ∨ s.rpm.sup.getLsbD i = false)) ∧
    (∃ (s : State) (i : Nat) (near : List Nat) (t : State), near = (s.rpmx.glitchT.get [] i).filter (fun k => decide (s.tb.count ≤ k +
         1000000000)) ++ [s.tb.count] ∧ t = count 0x3820 i 0 1
         { s with rpmx := { s.rpmx with glitch := inc32 s.rpmx.glitch, glitchT := s.rpmx.glitchT.set [] i near } } ∧ i < 8 ∧
         s.rpm.pgGood.getLsbD i = true ∧ s.rpm.sup.getLsbD i = true ∧ s.rpm.st ≠ .service) ∧
    (∃ (s : State) (i : Nat) (near : List Nat) (t : State), near = (s.rpmx.glitchT.get [] i).filter (fun k => decide (s.tb.count ≤ k +
         1000000000)) ++ [s.tb.count] ∧ t = count 0x3820 i 0 1
         { s with rpmx := { s.rpmx with glitch := inc32 s.rpmx.glitch, glitchT := s.rpmx.glitchT.set [] i near } } ∧ i < 8 ∧
         s.rpm.pgGood.getLsbD i = true ∧ s.rpm.sup.getLsbD i = true ∧ s.rpm.st = .service ∧ (near.length < 3 ∨ inEmber s = true ∧ 3 ∈
         s.eu.causes)) ∧
    (∃ (s : State) (i : Nat) (near : List Nat) (t : State), near = (s.rpmx.glitchT.get [] i).filter (fun k => decide (s.tb.count ≤ k +
         1000000000)) ++ [s.tb.count] ∧ t = count 0x3820 i 0 1
         { s with rpmx := { s.rpmx with glitch := inc32 s.rpmx.glitch, glitchT := s.rpmx.glitchT.set [] i near } } ∧ i < 8 ∧
         s.rpm.pgGood.getLsbD i = true ∧ s.rpm.sup.getLsbD i = true ∧ s.rpm.st = .service ∧ 3 ≤ near.length ∧ (inEmber s = false ∨ 3 ∉
         s.eu.causes)) ∧
    (∃ (s : State) (mv : List Nat), mv.length = 8 ∧ (∀ v ∈ mv, v < 65536) ∧ (∃ x ∈ s.rpm.asserted, isPowerOn x = true)) ∧
    (∃ (s : State) (mv : List Nat), mv.length = 8 ∧ (∀ v ∈ mv, v < 65536) ∧ (∀ x ∈ s.rpm.asserted, isPowerOn x = false)) :=
  ⟨⟨({ svc with rpm := { svc.rpm with st := .timedShutdown } }), 7, _, rfl, by decide +kernel⟩,
   ⟨({ svc with rpm := { svc.rpm with st := .powerUp } }), 7, _, rfl, by decide +kernel⟩,
   ⟨State.reset, 7, by decide +kernel⟩,
   ⟨({ svc with rpm := { svc.rpm with st := .kindling } }), 7, _, _, rfl, rfl, by decide +kernel⟩,
   ⟨svc, 7, _, _, rfl, rfl, by decide +kernel⟩,
   ⟨({ svc with rpmx := { svc.rpmx with glitchT := [(7, [0, 0])] } }), 7, _, _, rfl, rfl, by decide +kernel⟩,
   ⟨State.reset, (List.replicate 8 800), by decide +kernel⟩,
   ⟨svc, (List.replicate 8 800), by decide +kernel⟩⟩
theorem witness_ThermalAndPowerComplete_1 :
    (∃ (s : State) (l : List Int) (f : List Nat), l.length = 12 ∧ (∀ v ∈ l, -2048 ≤ v ∧ v < 2048) ∧ (∀ i ∈ f, i < 12) ∧ (∃ x ∈
         s.rpm.asserted, isPowerOn x = true)) ∧
    (∃ (s : State) (l : List Int) (f : List Nat) (t : State) (i : Nat), t = ((List.range 12).filter (fun i => decide (l.getD i 0 < -220)
         || decide (600 < l.getD i 0) || f.contains i)).foldl (fun s i => sensorFails i s) s ∧ l.length = 12 ∧ (∀ v ∈ l, -2048 ≤ v ∧ v <
         2048) ∧ (∀ i ∈ f, i < 12) ∧ (∀ x ∈ s.rpm.asserted, isPowerOn x = false) ∧ i < 12) ∧
    (∃ (s : State) (l : List Int) (f : List Nat) (t : State), t = ((List.range 12).filter (fun i => decide (l.getD i 0 < -220) || decide
         (600 < l.getD i 0) || f.contains i)).foldl (fun s i => sensorFails i s) s ∧ l.length = 12 ∧ (∀ v ∈ l, -2048 ≤ v ∧ v < 2048) ∧ (∀
         i ∈ f, i < 12) ∧ (∀ x ∈ s.rpm.asserted, isPowerOn x = false)) ∧
    (∃ (s : State) (samples : List Int), samples.length = 12 ∧ (∀ v ∈ samples, -220 ≤ v ∧ v < 424) ∧ (∀ x ∈ s.rpm.asserted, isPowerOn x
         = false) ∧ s.th.failed = 0 ∧ s.rpmx.coolWait = false ∧ s.th.pause = 0 ∧ s.th.samples = []) ∧
    (∃ (s : State), s.th.pause ≠ 0 ∧ s.th.closedPhase = false) ∧
    (∃ (s : State), s.th.pause ≠ 0 ∧ s.th.closedPhase = true) ∧
    (∃ (s : State), s.th.pause = 0) ∧
    (∃ (s : State) (rq : Rq) (port : Nat), sentOk (.deviceReset rq 0 port 0) s rq 0x0C00 ∧ port < 10) ∧
    (∃ (s : State) (rq : Rq) (port : Nat), sentOk (.deviceReset rq 0 port 1) s rq 0x0C00 ∧ port < 10) ∧
    (∃ (s : State) (rq : Rq) (port : Nat), sentOk (.deviceReset rq 1 port 0) s rq 0x0C00 ∧ s.rpm.recovery = 0 ∧ port < 10) :=
  ⟨⟨State.reset, (List.replicate 12 601), [11], by decide +kernel⟩,
   ⟨svc, (List.replicate 12 601), [11], _, 11, rfl, by decide +kernel⟩,
   ⟨svc, (List.replicate 12 601), [11], _, rfl, by decide +kernel⟩,
   ⟨svc, (List.replicate 12 400), by decide +kernel⟩,
   ⟨({ svc with th := { svc.th with pause := 5 } }), by decide +kernel⟩,
   ⟨({ svc with th := { svc.th with pause := 5, closedPhase := true } }), by decide +kernel⟩,
   ⟨svc, by decide +kernel⟩,
   ⟨svc, rqH, 9, sent (by decide +kernel), by decide +kernel⟩,
   ⟨svc, rqH, 9, sent (by decide +kernel), by decide +kernel⟩,
   ⟨svc, rqH, 9, sent (by decide +kernel), by decide +kernel⟩⟩
theorem witness_ThermalAndPowerComplete_2 :
    (∃ (s : State) (rq : Rq) (port : Nat), sentOk (.deviceReset rq 2 port 0) s rq 0x0C00 ∧ s.rpm.recovery = 0 ∧ port < 10) ∧
    (∃ (s : State) (rq : Rq) (port : Nat), sentOk (.deviceReset rq 3 port 0) s rq 0x0C00 ∧ s.rpm.recovery = 0 ∧ port < 10 ∧ (s.port
         port).role ≠ 2 ∧ senderPort s rq.ch ≠ some port) ∧
    (∃ (s : State) (rq : Rq), sentOk (.powerQuery rq) s rq 0x0C01) ∧
    (∃ (s : State) (rq : Rq), sentOk (.thermalQuery rq) s rq 0x0C02) ∧
    (∃ (s : State) (ag : Agent), mayWrite s ag) :=
  ⟨⟨svc, rqH, 9, sent (by decide +kernel), by decide +kernel⟩,
   ⟨svc, rqH, 5, sent (by decide +kernel), by decide +kernel⟩,
   ⟨svc, rqH, sent (by decide +kernel)⟩,
   ⟨svc, rqH, sent (by decide +kernel)⟩,
   ⟨svc, (.core 0), may (by decide)⟩⟩
theorem witness_ObservabilityCompletes_1 :
    (∃ (i : Nat), i < 5) ∧
    (∃ (i k : Nat), i < 5 ∧ k < 256) ∧
    (∃ (i p : Nat), i < 5 ∧ p < 10) ∧
    (∃ (bi bo : List Nat), bi.length = 10 ∧ bo.length = 10) ∧
    (∃ (s : State) (rq : Rq) (c : PmonCfg), sentOk (.pmonConfig rq c) s rq 0x0D00 ∧ c.target = 0 ∧ c.counter < 256 ∧ c.code < 65536 ∧
         c.qual < 256 ∧ c.inst < 65536 ∧ c.chain < 2 ∧ c.enable < 2 ∧ (c.chain = 1 → c.counter % 2 = 0) ∧ sourceListed c.code = true) ∧
    (∃ (s : State) (rq : Rq) (c : PmonCfg), sentOk (.pmonConfig rq c) s rq 0x0D00 ∧ c.target = 1 ∧ c.scode < 65536 ∧ 0 < c.period ∧
         c.period < 2 ^ 24 ∧ c.jitter < 2 ∧ c.wrap < 2 ∧ c.enable < 2 ∧ sampleSource c.scode = true) ∧
    (∃ (s : State) (rq : Rq) (what first n : Nat), sentOk (.pmonRead rq what first n) s rq 0x0D01 ∧ what = 0 ∧ first + n ≤ 256) ∧
    (∃ (s : State) (rq : Rq) (what first n : Nat), sentOk (.pmonRead rq what first n) s rq 0x0D01 ∧ what = 1 ∧ first + n ≤ 256) ∧
    (∃ (s : State) (rq : Rq) (what first n : Nat), sentOk (.pmonRead rq what first n) s rq 0x0D01 ∧ what = 2 ∧ first + n ≤ 256) ∧
    (∃ (s : State) (rq : Rq) (base n every : Nat), sentOk (.pmonDumpSet rq 1 base n every) s rq 0x0D02 ∧ 0 < every ∧ every ≤ 65535 ∧
         rq.ch < 29 ∧ base % 4096 = 0 ∧ 4 ≤ n ∧ n ≤ 65536 ∧ powerOfTwo n = true) :=
  ⟨⟨4, by decide +kernel⟩,
   ⟨4, 255, by decide +kernel⟩,
   ⟨4, 9, by decide +kernel⟩,
   ⟨(List.replicate 10 5), (List.replicate 10 7), by decide +kernel⟩,
   ⟨svc, rqH,
        { target := 0, counter := 254, code := 0x0022, qual := 255, inst := 65535, chain := 1, enable := 1, scode := 0x0022, period := 0xFFFFFF, jitter := 1, thresh := 5, wrap := 1 },
        sent (by decide +kernel), by decide +kernel⟩,
   ⟨svc, rqH,
        { target := 1, counter := 254, code := 0x0022, qual := 255, inst := 65535, chain := 1, enable := 1, scode := 0x0022, period := 0xFFFFFF, jitter := 1, thresh := 5, wrap := 1 },
        sent (by decide +kernel), by decide +kernel⟩,
   ⟨svc, rqH, _, 0, 256, sent (by decide +kernel), rfl, by decide +kernel⟩,
   ⟨svc, rqH, _, 0, 256, sent (by decide +kernel), rfl, by decide +kernel⟩,
   ⟨svc, rqH, _, 0, 256, sent (by decide +kernel), rfl, by decide +kernel⟩,
   ⟨svc, rqH, 65536, 65536, 65535, sent (by decide +kernel), by decide +kernel⟩⟩
theorem witness_ObservabilityCompletes_2 :
    (∃ (s : State) (rq : Rq) (base n every : Nat), sentOk (.pmonDumpSet rq 2 base n every) s rq 0x0D02 ∧ 0 < every ∧ every ≤ 65535 ∧
         rq.ch < 30 ∧ covered s (mayReach (senderOf s rq.ch) true) base (base + 4096 * n) = true ∧ base % 4096 = 0 ∧ 4 ≤ n ∧ n ≤ 65536 ∧
         powerOfTwo n = true) ∧
    (∃ (s : State) (rq : Rq) (base n every : Nat), sentOk (.pmonDumpSet rq 0 base n every) s rq 0x0D02) ∧
    (∃ (s : State) (rq : Rq) (cls mask vec : Nat), sentOk (.eventRoute rq cls mask vec) s rq 0x0D03 ∧ (cls < 18 ∨ cls = allOnes) ∧ (8 ≤
         vec ∧ vec ≤ 63 ∧ rq.ch < 29 ∨ vec = allOnes ∧ rq.ch ≠ 30)) ∧
    (∃ (s : State) (p f : Nat) (v : Word) (t : State), t = s.modFn p f (fun x => { x with intEn := v.setWidth 5 }) ∧ p < 10 ∧ f < 16 ∧
         fnReached s p f = true ∧ (s.fn p f).d3 = false ∧ (v.setWidth 5 : BitVec 5) &&& ~~~(s.fn p f).intEn &&& (s.fn p f).intStat = 0) ∧
    (∃ (s : State) (p f : Nat) (v : Word) (t : State), t = s.modFn p f (fun x => { x with intEn := v.setWidth 5 }) ∧ p < 10 ∧ f < 16 ∧
         fnReached s p f = true ∧ (s.fn p f).d3 = false ∧ (v.setWidth 5 : BitVec 5) &&& ~~~(s.fn p f).intEn &&& (s.fn p f).intStat ≠ 0) ∧
    (∃ (s : State) (p f : Nat), p < 10 ∧ f < 16 ∧ fnReached s p f = true ∧ (s.fn p f).d3 = true) ∧
    (∃ (s : State) (p f : Nat), p < 10 ∧ f < 16 ∧ fnReached s p f = false) :=
  ⟨⟨svc, rqH, 65536, 256, 65535, sent (by decide +kernel), by decide +kernel⟩,
   ⟨svc, rqH, 4096, 65536, 65535, sent (by decide +kernel)⟩,
   ⟨svc, rqH, 17, 3332, 63, sent (by decide +kernel), by decide +kernel⟩,
   ⟨svc, 2, 0, 4, _, rfl, by decide +kernel⟩,
   ⟨({ svc with px := { svc.px with fns := [(0, { intStat := 3, intEn := 0 })] } }), 0, 0, 2, _, rfl, by decide +kernel⟩,
   ⟨(svc.modFn 0 0 (fun x => { x with d3 := true })), 0, 0, by decide +kernel⟩,
   ⟨svc, 9, 15, by decide +kernel⟩⟩
theorem witness_RegisterWritesComplete :
    (∃ (i : Nat), i < 5) ∧
    (∃ (s : State) (i k : Nat), i < 5 ∧ k < 30 ∧ s.mb.lock = false) ∧
    (∃ (s : State) (i k : Nat), i < 5 ∧ k < 30 ∧ s.mb.lock = true) ∧
    (∃ (i o : Nat), i < 5 ∧ o < 0x80000 ∧ o % 4 = 0) ∧
    (∃ (s : State) (p f : Nat), p < 10 ∧ f < 16 ∧ fnReached s p f = true ∧ (s.fn p f).d3 = false) ∧
    (∃ (s : State) (p f ch o : Nat), chanOf s (.fn p f) = some ch ∧ p < 10 ∧ f < 16 ∧ fnReached s p f = true ∧ (s.fn p f).d3 = false ∧ o
         < 0x400 ∧ o % 4 = 0) :=
  ⟨⟨4, by decide +kernel⟩,
   ⟨svc, 4, 29, by decide +kernel⟩,
   ⟨({ svc with mb := { svc.mb with lock := true } }), 4, 29, by decide +kernel⟩,
   ⟨4, 0x7FFFC, by decide +kernel⟩,
   ⟨svc, 2, 0, by decide +kernel⟩,
   ⟨svc, 2, 0, _, 0x3FC, rfl, by decide +kernel⟩⟩
theorem witness_WritesWithoutAdmin :
    (∃ (s : State) (p f b o : Nat), p < 10 ∧ f < 16 ∧ fnReached s p f = true ∧ (s.fn p f).d3 = false ∧ fnAdmin s p f = false ∧ b ∈
         [0x00, 0x01, 0x02, 0x03, 0x04, 0x05, 0x06, 0x07, 0x08, 0x09, 0x0C, 0x0D, 0x0E, 0x0F, 0x10, 0x11] ∧ o < 0x10000 ∧ o % 4 = 0) ∧
    (∃ (s : State) (ag : Agent) (k m r n i q : Nat) (out inst : Bool) (v : Word) (c : Instr) (p f : Nat), ag.wf = true ∧ k < 256 ∧ m <
         64 ∧ r < 4 ∧ n < 10 ∧ i < 6 ∧ q < 10 ∧ c ∈ [Instr.tbCtlPpsEnSet ag, .tbCtlPpsEnClear ag, .tbCtlStepEnSet ag, .tbCtlStepEnClear
         ag, .hfPaceWrite ag v, .teLaInval ag q, .suChLateMaxWrite ag m v, .thMaxSeenWrite ag v, .pmonCtlSnap ag, .pmonCtlClear ag,
         .pmonSelWrite ag k inst v, .pmonBwMaxWrite ag n out, .ccHeartbeatWrite ag r] ∧ ag = .fn p f ∧ fnReached s p f = true ∧ (s.fn p
         f).d3 = false ∧ fnAdmin s p f = false) ∧
    (∃ (s : State) (ag : Agent) (k m r n i q : Nat) (out inst : Bool) (v : Word) (c : Instr) (p f : Nat), ag.wf = true ∧ k < 256 ∧ m <
         64 ∧ r < 4 ∧ n < 10 ∧ i < 6 ∧ q < 10 ∧ c ∈ [Instr.tbCtlPpsEnSet ag, .tbCtlPpsEnClear ag, .tbCtlStepEnSet ag, .tbCtlStepEnClear
         ag, .hfPaceWrite ag v, .teLaInval ag q, .suChLateMaxWrite ag m v, .thMaxSeenWrite ag v, .pmonCtlSnap ag, .pmonCtlClear ag,
         .pmonSelWrite ag k inst v, .pmonBwMaxWrite ag n out, .ccHeartbeatWrite ag r] ∧ ag = .fn p f ∧ fnReached s p f = true ∧ (s.fn p
         f).d3 = true) ∧
    (∃ (s : State) (ag : Agent) (k m r n i q : Nat) (out inst : Bool) (v : Word) (c : Instr) (p f : Nat), ag.wf = true ∧ k < 256 ∧ m <
         64 ∧ r < 4 ∧ n < 10 ∧ i < 6 ∧ q < 10 ∧ c ∈ [Instr.tbCtlPpsEnSet ag, .tbCtlPpsEnClear ag, .tbCtlStepEnSet ag, .tbCtlStepEnClear
         ag, .hfPaceWrite ag v, .teLaInval ag q, .suChLateMaxWrite ag m v, .thMaxSeenWrite ag v, .pmonCtlSnap ag, .pmonCtlClear ag,
         .pmonSelWrite ag k inst v, .pmonBwMaxWrite ag n out, .ccHeartbeatWrite ag r] ∧ ag = .fn p f ∧ fnReached s p f = false) ∧
    (∃ (ag : Agent) (k m r n i q : Nat) (out inst : Bool) (v : Word) (c : Instr), (∀ (p : Nat) (f : Nat), ag ≠ .fn p f) ∧ (∀ (j : Nat),
         j < 5 → ag ≠ .core j) ∧ ag.wf = true ∧ k < 256 ∧ m < 64 ∧ r < 4 ∧ n < 10 ∧ i < 6 ∧ q < 10 ∧ c ∈ [Instr.tbCtlPpsEnSet ag,
         .tbCtlPpsEnClear ag, .tbCtlStepEnSet ag, .tbCtlStepEnClear ag, .hfPaceWrite ag v, .teLaInval ag q, .suChLateMaxWrite ag m v,
         .thMaxSeenWrite ag v, .pmonCtlSnap ag, .pmonCtlClear ag, .pmonSelWrite ag k inst v, .pmonBwMaxWrite ag n out, .ccHeartbeatWrite
         ag r]) ∧
    (∃ (s : State) (ag : Agent) (k m r n i q : Nat) (out inst : Bool) (v : Word) (c : Instr) (p f : Nat), ag.wf = true ∧ k < 256 ∧ m <
         64 ∧ r < 4 ∧ n < 10 ∧ i < 6 ∧ q < 10 ∧ c ∈ [Instr.tbCtlPpsEnSet ag, .tbCtlPpsEnClear ag, .tbCtlStepEnSet ag, .tbCtlStepEnClear
         ag, .hfPaceWrite ag v, .teLaInval ag q, .suChLateMaxWrite ag m v, .thMaxSeenWrite ag v, .pmonCtlSnap ag, .pmonCtlClear ag,
         .pmonSelWrite ag k inst v, .pmonBwMaxWrite ag n out, .ccHeartbeatWrite ag r] ∧ ag = .fn p f ∧ fnReached s p f = true ∧ (s.fn p
         f).d3 = false ∧ fnAdmin s p f = true ∧ c ∈ [.pmonCtlSnap ag, .pmonCtlClear ag, .pmonSelWrite ag k inst v, .pmonBwMaxWrite ag n
         out, .ccHeartbeatWrite ag r]) :=
  ⟨⟨({ svc with mb := { svc.mb with chans := [(0, { bind_ := 0x8000 })] } }), 2, 0, 0x11, 0xFFFC, by decide +kernel⟩,
   ⟨svc, (.fn 2 0), 255, 63, 3, 9, 5, 9, true, false, 0xFFFFFFFF, (.tbCtlPpsEnSet (.fn 2 0)), 2, 0, by decide +kernel⟩,
   ⟨(svc.modFn 2 0 (fun x => { x with d3 := true })), (.fn 2 0), 255, 63, 3, 9, 5, 9, true, false, 0xFFFFFFFF, (.hfPaceWrite (.fn 2 0)
        0xFFFFFFFF), 2, 0, by decide +kernel⟩,
   ⟨svc, (.fn 9 15), 255, 63, 3, 9, 5, 9, true, false, 0xFFFFFFFF, (.teLaInval (.fn 9 15) 9), 9, 15, by decide +kernel⟩,
   ⟨.smbus, 255, 63, 3, 9, 5, 9, true, false, 0xFFFFFFFF, (.ccHeartbeatWrite .smbus 3), fun _ _ => Agent.noConfusion, fun _ _ =>
        Agent.noConfusion, by decide +kernel⟩,
   ⟨svc, (.fn 0 0), 255, 63, 3, 9, 5, 9, true, false, 0xFFFFFFFF, (.pmonCtlSnap (.fn 0 0)), 0, 0, by decide +kernel⟩⟩

end Sys2Proof.Tests
end

/-! ## Timebase reads and writes (R53)

The rules about the pair `TB_COUNT_LO`/`TB_COUNT_HI`: what each served agent reads of it, what a core's load of it gives, and
that a write of either half reaches no register. -/

namespace Sys2Proof.Proofs

open Sys2Proof Sys2Proof.Machine Sys2Proof.Safety Sys2Proof.Laws

/-! ### Reads of a register pair -/

/-- The agents that `TB_COUNT` serves: the firmware's cores, the integrator core, and a host function in D0 behind a port that
serves it (R241, R428, R438). -/
def readsTimebase (s : State) : Agent → Prop
  | .core i => i < 5
  | .ic => True
  | .fn p f => p < 10 ∧ f < 16 ∧ fnReached s p f = true ∧ (s.fn p f).d3 = false
  | _ => False

theorem wf_of_readsTimebase {s : State} {ag : Agent} (h : readsTimebase s ag) : ag.wf = true := by
  cases ag with
  | core i => exact decide_eq_true (Nat.lt_succ_of_lt h)
  | ic => rfl
  | fn p f => simp [Agent.wf, fnOk, h.1, h.2.1]
  | smbus => exact h.elim
  | twin => exact h.elim
  | stream c => exact h.elim

/-- A host function in D0 that is reached receives the access (R241). -/
theorem fnWrite_of_reached {s : State} {p f : Nat} (hr : fnReached s p f = true) (hd : (s.fn p f).d3 = false)
    (body : State → State) : fnWrite p f body s = body s := by
  simp [fnWrite, hr, hd]

theorem exec_loReadLatch_tbCount {s : State} {ag : Agent} (h : readsTimebase s ag) (part : PairPart) :
    exec (.loReadLatch ag .tbCount part) s = .next (pairRead ag .tbCount part s) := by
  have hread : loReadLatch ag .tbCount part s = pairRead ag .tbCount part s := by
    cases ag with
    | core i => simp [loReadLatch, show i < 5 from h]
    | ic => rfl
    | fn p f =>
      obtain ⟨-, -, hr, hd⟩ := h
      simp [loReadLatch, fnWrite_of_reached hr hd, coreOnlyPair, hiddenPair]
    | smbus => exact h.elim
    | twin => exact h.elim
    | stream c => exact h.elim
  have hwf : (ag.wf && LoReg.wf .tbCount) = true := by rw [wf_of_readsTimebase h]; rfl
  exact run_ok hwf hread

theorem latched_setLatch_same (s : State) (ag : Agent) (r : LoReg) (v : Nat) :
    latched (setLatch ag r v s) ag r = v / 2 ^ 32 % 2 ^ 32 := by
  simp [latched, setLatch]

/-- The upper half that an agent reads depends on the latches alone. -/
theorem latched_congr {s u : State} (h : u.latch = s.latch) (ag : Agent) (r : LoReg) : latched u ag r = latched s ag r := by
  simp only [latched, h]

/-- LO latches HI (R53): whatever happens in between, the agent reads the upper half of the value that LO gave. -/
theorem pairRead_hi_after_lo {s u : State} {ag : Agent} {r : LoReg} (hv : pairValue s r < 2 ^ 64)
    (hl : u.latch = (pairRead ag r .lo s).latch) :
    pairRead ag r .hi u = { u with out := .regRead ag (pairValue s r / 2 ^ 32) :: u.out } := by
  have hlatch : latched u ag r = pairValue s r / 2 ^ 32 := by
    calc latched u ag r = latched (setLatch ag r (pairValue s r) s) ag r := latched_congr hl ag r
      _ = pairValue s r / 2 ^ 32 % 2 ^ 32 := latched_setLatch_same ..
      _ = pairValue s r / 2 ^ 32 := Nat.mod_eq_of_lt (by omega)
  simp only [pairRead, hlatch, emit]

/-! ### A core's load -/

section CoreLoad

variable {s : State} {i : Nat}

/-- An instruction boundary of a core that no exception is owed puts nothing out (R305). -/
theorem boundary_out (h : (s.cpu i).exc = []) : (boundary i s).out = s.out := by
  unfold boundary
  split
  · rfl
  · simp [h]

theorem cpu_congr {t : State} (h : t.cc = s.cc) (j : Nat) : t.cpu j = s.cpu j := by
  simp only [State.cpu, h]

/-- Counting and sampling change no core. -/
theorem cpu_of_reports {t : State} (h : Reports s t) (j : Nat) : t.cpu j = s.cpu j :=
  cpu_congr h.rest.cc j

theorem resvLost_exc : ((resvLost i s).cpu i).exc = (s.cpu i).exc := by
  unfold resvLost
  split
  · rw [cpu_of_reports (count_reports (.refl _))]
    simp
  · rfl

/-- Retiring an instruction owes no exception. -/
theorem retire_exc (a : Nat) : ((retire i a s).cpu i).exc = (s.cpu i).exc := by
  have hcpu : (sample 0x2820 i (Config.freeRead s.free) a (count 0x2820 i 0 1 s)).cpu i = s.cpu i :=
    cpu_of_reports (sample_reports (count_reports (.refl s))) i
  unfold retire
  dsimp only
  split
  · rw [hcpu]
  · split
    · rw [resvLost_exc, hcpu]
    · simp [hcpu]

theorem coreDone_exc (a : Nat) (v : BitVec 64) : ((coreDone i a v s).cpu i).exc = (s.cpu i).exc := by
  have hemit : ∀ (o : Out) (t : State), (emit o t).cpu i = t.cpu i := fun _ _ => rfl
  rw [coreDone, hemit, retire_exc]
  simp

theorem coreVal_mem_coreDone (a : Nat) (v : BitVec 64) : .coreVal i v ∈ (coreDone i a v s).out := by
  simp [coreDone]

/-- The state in which a core that is ready executes: its boundary has no exception to take. -/
def atBoundary (s : State) (i : Nat) : State := s.modCpu i (fun c => { c with exc := [] })

theorem atBoundary_cpu (h : (s.cpu i).exc = []) : (atBoundary s i).cpu i = s.cpu i := by
  simp [atBoundary, ← h]

theorem atBoundary_coreRuns : coreRuns (atBoundary s i) i = coreRuns s i := by
  simp [coreRuns, ccHeld, atBoundary]

/-- A row of a core that is ready runs its instruction, and then meets the next boundary (R305, R306). -/
theorem coreRow_of_ready (h : coreReady s i) (body : State → State) :
    coreRow i body s = boundary i (body (atBoundary s i)) := by
  obtain ⟨-, hruns, hwait, hexc⟩ := h
  have hb : boundary i s = atBoundary s i := by simp [boundary, hwait, hruns, hexc, atBoundary]
  simp [coreRow, hb, atBoundary_cpu hexc, atBoundary_coreRuns, hwait, hruns]

/-- The core's map gives `TB_COUNT_LO` at 0x1100_0000 (R298). -/
theorem target_tbCount (hic : i ≠ s.cc.icCore) : target s i 0x11000000 8 false = .reg 0x1000000 := by
  simp [target, inside, hic]

/-- An aligned 8-byte load of a pair reads it whole (R53, R431). -/
theorem regLoad_tbCount : regLoad s i 0x1000000 8 = (s.tb.count % 2 ^ 64, setLatch (.core i) .tbCount s.tb.count s) := by
  simp [regLoad, pairAt, pairValue]

theorem load_tbCount (hic : i ≠ s.cc.icCore) (hsb : (s.cpu i).sb = []) (tcm : TcmRes) (rd : List RdRes) :
    load i 0x11000000 8 tcm rd s
      = coreDone i 0x11000000 (BitVec.ofNat 64 (s.tb.count % 2 ^ 64)) (setLatch (.core i) .tbCount s.tb.count s) := by
  simp [load, target_tbCount hic, Tgt.bad, Tgt.device, mayLoad, hsb, fencesPass, storesOf, loadAt, deadReg, regLoad_tbCount]

theorem coreVal_mem_loadInstruction_tbCount (h : coreReady s i) (hic : i ≠ s.cc.icCore) (hsb : (s.cpu i).sb = [])
    (hc : s.tb.count < 2 ^ 64) (acq : Bool) (tcm : TcmRes) (rd : List RdRes) :
    .coreVal i (BitVec.ofNat 64 s.tb.count) ∈ (loadInstruction i 0x11000000 8 acq tcm rd s).out := by
  have hexc : (s.cpu i).exc = [] := h.2.2.2
  have hload : load i 0x11000000 8 tcm rd (atBoundary s i) = coreDone i 0x11000000 (BitVec.ofNat 64 s.tb.count)
      (setLatch (.core i) .tbCount s.tb.count (atBoundary s i)) := by
    rw [load_tbCount (s := atBoundary s i) hic (by rw [atBoundary_cpu hexc, hsb]), show (atBoundary s i).tb = s.tb from rfl,
      Nat.mod_eq_of_lt hc]
  have hdone : ((coreDone i 0x11000000 (BitVec.ofNat 64 s.tb.count)
      (setLatch (.core i) .tbCount s.tb.count (atBoundary s i))).cpu i).exc = [] := by
    rw [coreDone_exc, cpu_congr (s := atBoundary s i) (t := setLatch ..) rfl, atBoundary_cpu hexc, hexc]
  rw [loadInstruction, coreRow_of_ready h, hload, boundary_out hdone]
  exact coreVal_mem_coreDone _ _

end CoreLoad

/-! ### Writes -/

/-- One of the two registers of the pair whose lower one stands at `base`. -/
abbrev pairHalf (base off : Nat) : Prop := off = base ∨ off = base + 4

/-- A wide write at a half of a pair touches halves of the pair alone (R431): what each 4-byte write of a half keeps, it keeps. -/
theorem splitWrite_pair {P : State → Prop} {one : Nat → Word → State → State} {base off size : Nat} (hbase : base % 8 = 0)
    (hoff : pairHalf base off) (hwide : wideOk off size = true)
    (hone : ∀ o w t, pairHalf base o → P t → P (one o w t)) (v : BitVec 64) {s : State} (hs : P s) :
    P (splitWrite size v (fun d w t => one (off + d) w t) s) := by
  have hlow := hone off (v.setWidth 32) s hoff hs
  unfold splitWrite
  dsimp only
  split
  next h8 =>
    have haligned : off % 8 = 0 := by
      subst h8
      simpa [wideOk] using hwide
    exact hone _ _ _ (by omega) hlow
  next => exact hlow

/-- No write reaches the counter (R53). -/
theorem tbWrite_count {off : Nat} (h : pairHalf 0 off) (v : Word) (s : State) : tbWrite off v s = s := by
  rcases h with rfl | rfl <;> rfl

theorem blockWrite_tb (ag : Agent) (off : Nat) (v : Word) (s : State) :
    blockWrite ag 0x10 off v s = regWrite ag (tbWrite off v) s := rfl

theorem blockWrite_tbCount_core {i off : Nat} (hi : i < 5) (h : pairHalf 0 off) (v : Word) (s : State) :
    blockWrite (.core i) 0x10 off v s = s := by
  rw [blockWrite_tb, regWrite_may (show mayWrite s (.core i) from hi), tbWrite_count h]

theorem logAer_reports (p f : Nat) (e : AerErr) (s : State) : Reports s (logAer p f e s) :=
  emit_reports (State.modFn_reports (.refl s))

/-- A write of a half of the counter by a function is at most counted or logged on that function (R241, R429). -/
theorem blockWrite_tbCount_fn {off : Nat} (h : pairHalf 0 off) (p f : Nat) (v : Word) (s : State) :
    Reports s (blockWrite (.fn p f) 0x10 off v s) := by
  rw [blockWrite_tb, regWrite, fnWrite]
  split
  · exact .refl s
  · split
    · exact logAer_reports ..
    · split
      · rw [tbWrite_count h]; exact .refl s
      · exact countAccErr_reports (.refl s)

theorem coreRegWrite_tbCount {i addr : Nat} (hi : i < 5) (h : pairHalf 0x11000000 addr) (size : Nat) (v : BitVec 64) (s : State) :
    coreRegWrite i addr size v s = s := by
  have hb : addr % 0x10000000 / 0x100000 = 0x10 := by omega
  have hoff : pairHalf 0 (addr % 0x10000000 % 0x100000) := by omega
  unfold coreRegWrite
  simp only [hb, show ¬ (0x10 = 0x0B) by decide, false_and, if_false]
  split
  next hw =>
    rw [Bool.and_eq_true] at hw
    exact splitWrite_pair (P := (· = s)) rfl hoff hw.1
      (fun o w t ho ht => by rw [blockWrite_tbCount_core hi ho, ht]) v rfl
  next => rfl

theorem bar0Write_tbCount {addr : Nat} (h : pairHalf 0x200000 addr) (p f size : Nat) (v : BitVec 64) (s : State) :
    Reports s (bar0Write p f addr size v s) := by
  have hb : addr / 0x10000 - 0x10 = 0x10 := by omega
  have hoff : pairHalf 0 (addr % 0x10000) := by omega
  have hnoMsix : ¬ addr + size ≤ 0x1400 := by omega
  have hnoGlb : ¬ addr < 0x1000 := by omega
  have hblocks : 0x100000 ≤ addr ∧ addr < 0x220000 := by omega
  unfold bar0Write
  simp only [hb, hnoMsix, hnoGlb, hblocks, show ¬ (0x10 = 0x0B) by decide, decide_false, Bool.and_false, Bool.false_eq_true,
    and_self, if_false, if_true]
  split
  · exact .refl s
  · split
    · exact logAer_reports ..
    · split
      next hw =>
        exact splitWrite_pair (P := Reports s) rfl hoff hw
          (fun o w t ho ht => ht.trans (blockWrite_tbCount_fn ho p f w t)) v (.refl s)
      next => exact countAccErr_reports (.refl s)

theorem icPageReg_tbCount {off : Nat} (h : pairHalf 0x920 off) (v : Word) (s : State) : icPageReg off v s = s := by
  rcases h with rfl | rfl <;> rfl

theorem icPageWrite_tbCount {off : Nat} (h : pairHalf 0x920 off) (size : Nat) (v : BitVec 64) (s : State) :
    icPageWrite off size v s = s := by
  have hnoWin : ¬ off < 0x880 := by omega
  unfold icPageWrite
  simp only [hnoWin, if_false]
  split
  next hw =>
    exact splitWrite_pair (P := (· = s)) rfl h hw (fun o w t ho ht => by rw [icPageReg_tbCount ho, ht]) v rfl
  next => rfl

theorem sizeOk_iff_mem {n : Nat} : sizeOk n = true ↔ n ∈ [1, 2, 4, 8] := by
  simp [sizeOk, or_assoc]

theorem exec_registerWrite {ag : Agent} {addr n : Nat} (hag : ag.wf = true) (haddr : addr < 2 ^ 64) (hn : n ∈ [1, 2, 4, 8])
    (v : BitVec 64) (s : State) : exec (.registerWrite ag addr n v) s = .next (registerWrite ag addr n v s) :=
  run_ok (by rw [hag, u64, decide_eq_true haddr, sizeOk_iff_mem.2 hn]; rfl) rfl

theorem exec_registerWrite_tbCount_core {i addr n : Nat} (hi : i < 5) (h : pairHalf 0x11000000 addr) (hn : n ∈ [1, 2, 4, 8])
    (v : BitVec 64) (s : State) : exec (.registerWrite (.core i) addr n v) s = .next s := by
  rw [exec_registerWrite (wf_may (s := s) (ag := .core i) hi) (by omega) hn, registerWrite,
    if_pos ⟨hi, by omega, by omega⟩, coreRegWrite_tbCount hi h]

theorem exec_registerWrite_tbCount_fn {p f addr n : Nat} (hp : p < 10) (hf : f < 16) (h : pairHalf 0x200000 addr)
    (hn : n ∈ [1, 2, 4, 8]) (v : BitVec 64) (s : State) :
    ∃ t, exec (.registerWrite (.fn p f) addr n v) s = .next t ∧ t.tb = s.tb :=
  ⟨_, exec_registerWrite (by simp [Agent.wf, fnOk, hp, hf]) (by omega) hn v s, (bar0Write_tbCount h p f n v s).rest.tb⟩

theorem exec_registerWrite_tbCount_ic {addr n : Nat} (h : pairHalf 0x20000920 addr) (hn : n ∈ [1, 2, 4, 8])
    (v : BitVec 64) (s : State) : exec (.registerWrite .ic addr n v) s = .next s := by
  rw [exec_registerWrite rfl (by omega) hn, registerWrite, if_pos ⟨by omega, by omega⟩,
    icPageWrite_tbCount (by omega)]

/-! ### The statement -/

/-- A 32-bit read of LO followed by one of HI, and the read of both halves, by an agent that `TB_COUNT` serves. -/
theorem tbCount_reads {s : State} {ag : Agent} (h : readsTimebase s ag) (hc : s.tb.count < 2 ^ 64) :
    (∃ t, exec (.loReadLatch ag .tbCount .lo) s = .next t ∧ t.out = .regRead ag (s.tb.count % 2 ^ 32) :: s.out ∧ t.tb = s.tb ∧
      ∀ u : State, u.latch = t.latch → readsTimebase u ag →
        exec (.loReadLatch ag .tbCount .hi) u = .next { u with out := .regRead ag (s.tb.count / 2 ^ 32) :: u.out }) ∧
    ∃ t, exec (.loReadLatch ag .tbCount .both) s = .next t ∧ t.out = .regRead ag s.tb.count :: s.out ∧ t.tb = s.tb := by
  refine ⟨⟨_, exec_loReadLatch_tbCount h .lo, rfl, rfl, fun u hl hu => ?_⟩, _, exec_loReadLatch_tbCount h .both, ?_, rfl⟩
  · rw [exec_loReadLatch_tbCount hu, pairRead_hi_after_lo (r := .tbCount) hc hl]; rfl
  · show Out.regRead ag (s.tb.count % 2 ^ 64) :: s.out = _
    rw [Nat.mod_eq_of_lt hc]

/-- Settles O13: a read of LO latches the upper half for its agent, so HI is the upper half of the same value; a load of the pair
gives it whole; and a write of either half meets a register that takes nothing. -/
theorem timebaseReads : Obligations.TimebaseReads := by
  refine ⟨fun s ag hag hc => ?_, fun s i hready hic hi hsb hc => ?_, fun s i n v hi hn => ?_, fun s p f n v hp hf hn => ?_,
    fun s n v hn => ?_⟩
  · have hserved : readsTimebase s ag := by
      obtain ⟨i, hi, rfl⟩ | rfl | ⟨p, f, hp, hf, hr, hd, rfl⟩ := hag
      · exact hi
      · trivial
      · exact ⟨hp, hf, hr, hd⟩
    have hlater : ∀ u : State, (∀ p f, ag = .fn p f → fnReached u p f = true ∧ (u.fn p f).d3 = false) → readsTimebase u ag := by
      intro u hu
      obtain ⟨i, hi, rfl⟩ | rfl | ⟨p, f, hp, hf, -, -, rfl⟩ := hag
      · exact hi
      · trivial
      · exact ⟨hp, hf, hu p f rfl⟩
    obtain ⟨⟨t, hlo, hout, htb, hhi⟩, hboth⟩ := tbCount_reads hserved hc
    exact ⟨⟨t, hlo, hout, htb, fun u hl hu => hhi u hl (hlater u hu)⟩, hboth⟩
  · have hok : (coreOk i && accessOk 0x11000000 8) = true := by
      rw [show coreOk i = true from decide_eq_true hready.1]; rfl
    exact ⟨_, run_ok hok rfl, coreVal_mem_loadInstruction_tbCount hready hic hsb hc false .clean []⟩
  · exact ⟨exec_registerWrite_tbCount_core hi (.inl rfl) hn v s, exec_registerWrite_tbCount_core hi (.inr rfl) hn v s⟩
  · exact ⟨exec_registerWrite_tbCount_fn hp hf (.inl rfl) hn v s, exec_registerWrite_tbCount_fn hp hf (.inr rfl) hn v s⟩
  · exact ⟨exec_registerWrite_tbCount_ic (.inl rfl) hn v s, exec_registerWrite_tbCount_ic (.inr rfl) hn v s⟩

end Sys2Proof.Proofs

/-! ## Frames of the twin link that fail (R195, R351)

How every message of the twin is received: its row of `exec` hands the frame to `linkRx`. Then what `linkRx` does with a frame whose
tag or form it does not accept. -/

namespace Sys2Proof.Proofs

open Sys2Proof Sys2Proof.Machine Sys2Proof.Safety Sys2Proof.Laws

section ReceivedFrames

variable {s : State} {h : LinkHdr} {m : LinkMsg}

/-! ### The header that a frame is judged by -/

/-- The header by which the receive side judges a frame: a `HELLO` by which a second twin A shows itself counts as one of the session
in force (R198), every other frame has its own header. -/
def judgedHdr (s : State) (h : LinkHdr) : LinkMsg → LinkHdr
  | .hello p => helloHdr h p s
  | _ => h

theorem helloHdr_tagOk (p : HelloP) : (helloHdr h p s).tagOk = h.tagOk := by
  unfold helloHdr
  split <;> rfl

theorem helloHdr_typ (p : HelloP) : (helloHdr h p s).typ = h.typ := by
  unfold helloHdr
  split <;> rfl

@[simp] theorem judgedHdr_tagOk : (judgedHdr s h m).tagOk = h.tagOk := by
  cases m with
  | hello p => exact helloHdr_tagOk p
  | _ => rfl

@[simp] theorem judgedHdr_typ : (judgedHdr s h m).typ = h.typ := by
  cases m with
  | hello p => exact helloHdr_typ p
  | _ => rfl

theorem judgedHdr_of_ownSession (hown : ownSession s h m) : judgedHdr s h m = h := by
  cases m with
  | hello p => exact hown
  | _ => rfl

/-- Every message of the twin comes in through `linkRx`, which makes the checks of R195 before the message's own effect. -/
theorem exec_frame {c : Instr} (hwf : c.wf = true) (hf : Safety.frameOf c = some (h, m)) (s : State) :
    ∃ body, exec c s = .next (linkRx (judgedHdr s h m) m body s) := by
  unfold Safety.frameOf at hf
  split at hf <;> cases hf
  all_goals exact ⟨_, run_ok hwf rfl⟩

/-! ### What `linkRx` does with a frame that it does not accept -/

/-- The guard of `linkRx` lets every frame through on a link that takes frames. -/
theorem linkRx_guard_of_linkTakes (ht : linkTakes s) : ¬ (s.tu.idle || !(s.tu.lo.up || s.tu.hi.up) || linkQuiet s) = true := by
  obtain ⟨hidle, hup, hquiet⟩ := ht
  simp [hidle, hquiet, Bool.or_eq_true_iff.2 hup]

theorem linkRx_of_tagFails (ht : linkTakes s) (htag : h.tagOk = false) (body : State → State) :
    linkRx h m body s = linkTagFail (carriesData h.typ) s := by
  rw [linkRx, if_neg (linkRx_guard_of_linkTakes ht), if_pos (by simp [htag])]

theorem linkRx_of_badForm (ht : linkTakes s) (htag : h.tagOk = true) (hbad : formOk h m = false ∨ sessionOk h s = false)
    (body : State → State) : linkRx h m body s = lossOfLink s := by
  rw [linkRx, if_neg (linkRx_guard_of_linkTakes ht), if_neg (by simp [htag]), if_pos (by simpa using hbad)]

theorem carriesData_eq_true_iff {t : Nat} : carriesData t = true ↔ t = 0x10 ∨ t = 0x12 ∨ t = 0x15 ∨ t = 0x29 := by
  simp [carriesData]

theorem linkTagFail_beforeHello (hello : s.tu.helloRx = none) (data : Bool) : linkTagFail data s =
    lossOfLink (raise 0x2401 0xFFFF 0 .nothing { s with sec := { s.sec with tagFail := inc32 s.sec.tagFail } }) := by
  simp [linkTagFail, hello]

theorem linkTagFail_afterHello (hello : s.tu.helloRx.isSome = true) (data : Bool) :
    linkTagFail data s = if data then integrityHalt 3 0 s else lossOfLink s := by
  simp [linkTagFail, Option.isSome_iff_ne_none.1 hello]

end ReceivedFrames

/-! ### The statement -/

/-- Settles O33: every message's row is `linkRx`, which answers a frame that fails by its tag, then by its form and session, and
never comes to the message's own effect. -/
theorem framesThatFail : Obligations.FramesThatFail := by
  intro s c h m ht hwf hf
  obtain ⟨body, hexec⟩ := exec_frame hwf hf s
  have htagFails (htag : h.tagOk = false) : exec c s = .next (linkTagFail (carriesData h.typ) s) := by
    rw [hexec, linkRx_of_tagFails ht (judgedHdr_tagOk.trans htag), judgedHdr_typ]
  refine ⟨fun htag hello => ⟨fun hdata => ?_, fun h10 h12 h15 h29 => ?_⟩, fun htag hello => ?_, fun htag hbad hown => ?_⟩
  · rw [htagFails htag, linkTagFail_afterHello hello, if_pos (carriesData_eq_true_iff.2 hdata)]
  · have hother : ¬ carriesData h.typ = true := by simp [carriesData_eq_true_iff, h10, h12, h15, h29]
    rw [htagFails htag, linkTagFail_afterHello hello, if_neg hother]
  · rw [htagFails htag, linkTagFail_beforeHello hello]
  · rw [hexec, judgedHdr_of_ownSession hown, linkRx_of_badForm ht htag hbad]

end Sys2Proof.Proofs

/-! ## Credit of a stream channel (R255-R257)

The three ways `chanDecide` answers an edge, by the channel's credit and by whether its next line may start, each with what it does
to the channel's counts; what an accepted doorbell does, once and again; and the arithmetic of one credit taken. -/

namespace Sys2Proof.Proofs

open Sys2Proof Sys2Proof.Machine Sys2Proof.Laws

/-! ### The same write again -/

section RepeatedWrite

variable {α : Type}

theorem erase_erase_same (t : Tab α) (n : Nat) : (t.erase n).erase n = t.erase n := by
  induction t with
  | nil => rfl
  | cons p t ih =>
    by_cases h : n = p.1
    · subst h
      simp [Tab.erase, ih]
    · simp [Tab.erase, h, ih]

theorem insert_insert_same (t : Tab α) (n : Nat) (v : α) : (t.insert n v).insert n v = t.insert n v := by
  induction t with
  | nil => simp [Tab.insert]
  | cons p t ih =>
    rcases Nat.lt_trichotomy n p.1 with h | h | h
    · simp [Tab.insert, h]
    · simp [Tab.insert, h]
    · simp [Tab.insert, h.not_gt, h.ne', ih]

theorem set_set_same [DecidableEq α] (d : α) (t : Tab α) (n : Nat) (v : α) : (t.set d n v).set d n v = t.set d n v := by
  by_cases h : v = d
  · simp [Tab.set, h, erase_erase_same]
  · simp [Tab.set, h, insert_insert_same]

end RepeatedWrite

/-- A second write to a channel that leaves what the first one wrote there is no change of the state. -/
theorem modChan_modChan_of_fixed {f g : Chan → Chan} (s : State) (c : Nat) (h : g (f (s.chan c)) = f (s.chan c)) :
    (s.modChan c f).modChan c g = s.modChan c f := by
  have htab : (s.su.chans.upd {} c f).upd {} c g = s.su.chans.upd {} c f := by
    rw [Tab.upd, get_upd_same, show g (f (s.su.chans.get {} c)) = f (s.su.chans.get {} c) from h]
    exact set_set_same _ _ _ _
  simp only [State.modChan, htab]

/-! ### Credit -/

section Credit

variable {j : JobParams} {x y : Chan}

theorem credit_congr (hp : y.produced = x.produced) (hc : y.consumed = x.consumed) : credit j y = credit j x := by
  simp only [credit, hp, hc]

theorem credit_add_outstanding (h : (x.produced + 2 ^ 32 - x.consumed) % 2 ^ 32 ≤ j.entries) :
    credit j x + (x.produced + 2 ^ 32 - x.consumed) % 2 ^ 32 = j.entries :=
  Nat.sub_add_cancel h

/-- While there is credit the difference of R256 does not wrap, so that one more outcome takes one credit. -/
theorem credit_add_one_of_produced (hp : y.produced = (x.produced + 1) % 2 ^ 32) (hc : y.consumed = x.consumed)
    (hconsumed : x.consumed < 2 ^ 32) (hentries : j.entries < 2 ^ 32) (hcredit : 0 < credit j x) :
    credit j y + 1 = credit j x := by
  simp only [credit, hp, hc] at hcredit ⊢
  omega

end Credit

/-! ### The decision point -/

section Decision

variable {s : State} {c : Nat} {j : JobParams} (rds : List (Nat × List RdRes)) (stamp : Nat)

theorem count_chan (code inst qual n k : Nat) (s : State) : (count code inst qual n s).chan k = s.chan k := by
  rw [State.chan, (count_counts (.refl s)).reports.rest.su, State.chan]

/-- Without credit the edge is counted as a trigger loss, and nothing else of the channel changes. -/
theorem chanDecide_chan_of_noCredit (hjob : (s.chan c).job = some j) (hcredit : credit j (s.chan c) = 0) :
    (chanDecide rds stamp c s).chan c = { s.chan c with tloss := inc32 (s.chan c).tloss } := by
  simp only [chanDecide, hjob, if_pos hcredit, count_chan, modChan_same]

/-- A starve mark of this reason has taken its outcome at the decision point, and may stop the channel. -/
def starveTaken (j : JobParams) (stamp reason c : Nat) (s : State) : State :=
  let q := (s.chan c).produced + 1
  let r : Release := ⟨q, (s.chan c).next, stamp, true, [], [], some (reason, 0)⟩
  (s.modChan c (fun x => { x with produced := q % 2 ^ 32, rel := x.rel ++ [r] })).modChan c (fun x => { x with
    stopping := if markStops j reason && x.stopping.isNone then some reason else x.stopping })

theorem starveTaken_produced (reason : Nat) :
    ((starveTaken j stamp reason c s).chan c).produced = ((s.chan c).produced + 1) % 2 ^ 32 := by
  simp only [starveTaken, modChan_same]

theorem starveTaken_consumed (reason : Nat) :
    ((starveTaken j stamp reason c s).chan c).consumed = (s.chan c).consumed := by
  simp only [starveTaken, modChan_same]

theorem starveTaken_rel (reason : Nat) : ((starveTaken j stamp reason c s).chan c).rel =
    (s.chan c).rel ++ [⟨(s.chan c).produced + 1, (s.chan c).next, stamp, true, [], [], some (reason, 0)⟩] := by
  simp only [starveTaken, modChan_same]

/-- A starve mark of R257: *over rate* with two lines in release, else *not ready*. -/
theorem chanDecide_of_starve (hjob : (s.chan c).job = some j) (hcredit : 0 < credit j (s.chan c))
    (hmark : 2 ≤ inRelease (s.chan c) ∨ lineReady s (s.chan c) j (s.chan c).next = false) :
    chanDecide rds stamp c s = relFlush c (starveTaken j stamp (if 2 ≤ inRelease (s.chan c) then 4 else 1) c s) := by
  simp only [chanDecide, hjob, if_neg hcredit.ne']
  by_cases hfull : 2 ≤ inRelease (s.chan c)
  · rw [if_pos hfull, if_pos hfull, starveTaken]
  · rw [if_neg hfull, if_neg hfull, hmark.resolve_left hfull, Bool.not_false, if_pos rfl, starveTaken]

/-- A line of R257: after its fetch its outcome is taken, with the line in release or, when the fetch stopped the device, without. -/
theorem chanDecide_of_line {v : State} (hjob : (s.chan c).job = some j) (hcredit : 0 < credit j (s.chan c))
    (hroom : inRelease (s.chan c) < 2) (hready : lineReady s (s.chan c) j (s.chan c).next = true)
    (hv : v = streamFetch rds (lineReads (jobRd s j) (s.chan c).header j.base (s.chan c).next j.x j.l) (pauseWait (16 + c) s)) :
    ∃ u, (chanDecide rds stamp c s = pinWindow c u ∨ chanDecide rds stamp c s = u) ∧
      (u.chan c).produced = ((s.chan c).produced + 1) % 2 ^ 32 ∧ (u.chan c).consumed = (v.chan c).consumed := by
  simp only [chanDecide, hjob, if_neg hcredit.ne', if_neg hroom.not_ge, hready, Bool.not_true, Bool.false_eq_true, if_false, ← hv]
  by_cases hstop : (v.sec.halt || v.ft.failed) = true
  · rw [if_pos hstop]
    exact ⟨_, .inr rfl, by rw [modChan_same], by rw [modChan_same]⟩
  · rw [if_neg hstop]
    exact ⟨_, .inl rfl, by rw [modChan_same, modChan_same], by rw [modChan_same, modChan_same]⟩

end Decision

/-! ### Doorbells -/

section Doorbell

variable {s : State} {c : Nat} {j : JobParams} {v : Word}

/-- A doorbell of the job's own consumer with a count that R255 accepts becomes the consumed count. -/
theorem exec_streamCreditDoorbell_of_accepted (hchan : c < 64) (hjob : (s.chan c).job = some j) (hport : j.port < 10)
    (hconsumer : j.consumer < 16) (hcount : (v.toNat + 2 ^ 32 - (s.chan c).consumed) % 2 ^ 32 ≤
      ((s.chan c).produced + 2 ^ 32 - (s.chan c).consumed) % 2 ^ 32) :
    exec (.streamCreditDoorbell c j.port j.consumer v 15) s =
      .next (s.modChan c (fun x => { x with consumed := v.toNat })) := by
  refine run_ok (by simp [chanNoOk, portOk, hchan, hport, hconsumer]) ?_
  simp only [creditDoorbell, hjob, BEq.rfl, decide_true, Bool.and_self, decide_eq_true hcount, if_true]

/-- The count that a channel has accepted is accepted again, and changes nothing. -/
theorem exec_streamCreditDoorbell_repeated (hchan : c < 64) (hjob : (s.chan c).job = some j) (hport : j.port < 10)
    (hconsumer : j.consumer < 16) :
    exec (.streamCreditDoorbell c j.port j.consumer v 15) (s.modChan c (fun x => { x with consumed := v.toNat })) =
      .next (s.modChan c (fun x => { x with consumed := v.toNat })) := by
  have hnone : (v.toNat + 2 ^ 32 - v.toNat) % 2 ^ 32 = 0 := by rw [Nat.add_sub_cancel_left, Nat.mod_self]
  rw [exec_streamCreditDoorbell_of_accepted hchan (by rw [modChan_same, hjob]) hport hconsumer
    (by simp only [modChan_same, hnone, Nat.zero_le]), modChan_modChan_of_fixed s c rfl]

end Doorbell

/-! ### The statement -/

/-- Settles O42: by what each branch of the decision point makes of the channel's two counts, and by the accepted doorbell, which
repeats as the same write. -/
theorem creditRule : Obligations.CreditRule := by
  rintro s c j _ hchan rfl hjob - hconsumed hentries
  refine ⟨credit_add_outstanding, fun rds stamp hcredit => ?_, fun rds stamp hcredit hmark => ?_,
    fun rds stamp v hcredit hroom hready hv => chanDecide_of_line rds stamp hjob hcredit hroom hready hv,
    fun v hport hconsumer hcount => ?_⟩
  · rw [chanDecide_chan_of_noCredit rds stamp hjob hcredit]
    exact ⟨(credit_congr rfl rfl).trans hcredit, rfl, rfl⟩
  · refine ⟨_, chanDecide_of_starve rds stamp hjob hcredit hmark, ?_, _, starveTaken_rel stamp _, rfl, rfl⟩
    exact credit_add_one_of_produced (starveTaken_produced stamp _) (starveTaken_consumed stamp _) hconsumed hentries hcredit
  · refine ⟨_, exec_streamCreditDoorbell_of_accepted hchan hjob hport hconsumer hcount, by rw [modChan_same], ?_,
      exec_streamCreditDoorbell_repeated hchan hjob hport hconsumer⟩
    rw [modChan_same, credit]

end Sys2Proof.Proofs

/-! ## Steps, the state after reset and the course of a request (chapters 14 and 19)

Every row's meaning is `run` of the row's form and of one next state, which keeps the queue, the board, the free values and the
invariant. The statements about steps follow from that one case split over the commands. -/

namespace Sys2Proof.Proofs

open Sys2Proof Sys2Proof.Machine Sys2Proof.Safety Sys2Proof.Laws

/-! ### Every command -/

/-- What every row is: its form decides whether it answers, and the state it answers with keeps what every operation keeps. -/
theorem exec_eq_run (c : Instr) (s : State) : ∃ t, exec c s = run c.wf t ∧ Keeps s t := by
  cases c with
  | paceWindowEnd _ => exact ⟨_, rfl, paceWindowEnd_keeps (.refl s)⟩
  | ppsEdge _ _ _ => exact ⟨_, rfl, ppsEdge_keeps (.refl s)⟩
  | ppsLost => exact ⟨_, rfl, ppsLost_keeps (.refl s)⟩
  | tbCtlPpsEnSet _ => exact ⟨_, rfl, regWrite_keeps (fun _ => ppsEnSet_keeps) (.refl s)⟩
  | tbCtlPpsEnClear _ => exact ⟨_, rfl, regWrite_keeps (fun _ => ppsEnClear_keeps) (.refl s)⟩
  | tbCtlStepEnSet _ => exact ⟨_, rfl, regWrite_keeps (fun _ => stepEnSet_keeps) (.refl s)⟩
  | tbCtlStepEnClear _ => exact ⟨_, rfl, regWrite_keeps (fun _ => stepEnClear_keeps) (.refl s)⟩
  | loReadLatch _ _ _ => exact ⟨_, rfl, loReadLatch_keeps (.refl s)⟩
  | tbPpsStatRead _ => exact ⟨_, rfl, tbPpsStatRead_keeps (.refl s)⟩
  | hfPaceWrite _ _ => exact ⟨_, rfl, regWrite_keeps (fun _ => hfPaceWrite_keeps) (.refl s)⟩
  | lineTrigEdge _ _ _ _ _ _ => exact ⟨_, rfl, lineTrigEdge_keeps (.refl s)⟩
  | turfCreate _ _ _ _ _ => exact ⟨_, rfl, turfCreate_keeps (.refl s)⟩
  | turfDestroy _ _ => exact ⟨_, rfl, turfDestroy_keeps (.refl s)⟩
  | turfResize _ _ _ => exact ⟨_, rfl, turfResize_keeps (.refl s)⟩
  | turfSet _ _ _ _ _ _ _ => exact ⟨_, rfl, turfSet_keeps (.refl s)⟩
  | turfGrant _ _ _ _ => exact ⟨_, rfl, turfGrant_keeps (.refl s)⟩
  | turfRevoke _ _ _ => exact ⟨_, rfl, turfRevoke_keeps (.refl s)⟩
  | turfQuery _ _ => exact ⟨_, rfl, turfQuery_keeps (.refl s)⟩
  | windowMap _ _ _ _ => exact ⟨_, rfl, windowMap_keeps (.refl s)⟩
  | billetUnmap _ => exact ⟨_, rfl, billetUnmap_keeps (.refl s)⟩
  | hdmDecoderCommit _ _ _ _ _ _ _ _ _ _ _ => exact ⟨_, rfl, hdmDecoderCommit_keeps (.refl s)⟩
  | memrd _ _ => exact ⟨_, rfl, memRead_keeps (.refl s)⟩
  | memrddata _ _ => exact ⟨_, rfl, memReadData_keeps (.refl s)⟩
  | memwr _ _ _ _ => exact ⟨_, rfl, memwr_keeps (.refl s)⟩
  | memwrptl _ _ _ _ _ => exact ⟨_, rfl, memwrptl_keeps (.refl s)⟩
  | memspecrd _ => exact ⟨_, rfl, memspecrd_keeps (.refl s)⟩
  | unsupportedM2sOpcode _ _ => exact ⟨_, rfl, otherM2s_keeps (.refl s)⟩
  | bar2Read _ _ _ _ _ _ => exact ⟨_, rfl, bar2Read_keeps (.refl s)⟩
  | bar2Write _ _ _ _ _ _ _ => exact ⟨_, rfl, bar2Write_keeps (.refl s)⟩
  | atomicopRequest _ _ _ => exact ⟨_, rfl, atomicOp_keeps (.refl s)⟩
  | configurationRequest _ _ _ _ => exact ⟨_, rfl, configRequest_keeps (.refl s)⟩
  | globalPersistentFlush _ => exact ⟨_, rfl, gpfFlush_keeps (.refl s)⟩
  | functionLevelReset _ _ => exact ⟨_, rfl, flr_keeps (.refl s)⟩
  | portReset _ => exact ⟨_, rfl, portReset_keeps (.refl s)⟩
  | correctedLineWriteBack _ _ => exact ⟨_, rfl, correctedWriteBack_keeps (.refl s)⟩
  | ftRetrack _ _ _ _ => exact ⟨_, rfl, ftRetrack_keeps (.refl s)⟩
  | gddr6TemperatureReading _ => exact ⟨_, rfl, gddrTemps_keeps (.refl s)⟩
  | refreshBandCooler => exact ⟨_, rfl, refreshCooler_keeps (.refl s)⟩
  | perBankRefresh => exact ⟨_, rfl, perBankRefresh_keeps (.refl s)⟩
  | patrolStep _ => exact ⟨_, rfl, patrolStep_keeps (.refl s)⟩
  | rowSparingCopy _ => exact ⟨_, rfl, rowSparingCopy_keeps (.refl s)⟩
  | dirtyFrameCopy _ _ _ => exact ⟨_, rfl, dirtyFrameCopy_keeps (.refl s)⟩
  | gddr6DeviceRetired _ => exact ⟨_, rfl, deviceRetired_keeps (.refl s)⟩
  | ftRawWrite _ => exact ⟨_, rfl, ftRawWrite_keeps (.refl s)⟩
  | ftRawRead _ => exact ⟨_, rfl, ftRawRead_keeps (.refl s)⟩
  | ftRawDecode _ => exact ⟨_, rfl, ftRawDecode_keeps (.refl s)⟩
  | ftRawLock _ => exact ⟨_, rfl, ftRawLock_keeps (.refl s)⟩
  | frontQuery _ => exact ⟨_, rfl, frontQuery_keeps (.refl s)⟩
  | frontRetire _ _ => exact ⟨_, rfl, frontRetire_keeps (.refl s)⟩
  | dirtyCeilingSet _ _ => exact ⟨_, rfl, dirtyCeilingSet_keeps (.refl s)⟩
  | frontRaw _ _ _ _ _ _ => exact ⟨_, rfl, frontRaw_keeps (.refl s)⟩
  | ageSweep => exact ⟨_, rfl, ageSweep_keeps (.refl s)⟩
  | backgroundEviction => exact ⟨_, rfl, backgroundEviction_keeps (.refl s)⟩
  | evictionCommitPoint _ => exact ⟨_, rfl, evictionCommit_keeps (.refl s)⟩
  | mediaFillUnit _ _ _ _ => exact ⟨_, rfl, mediaFillUnit_keeps (.refl s)⟩
  | lookasideFillComplete _ => exact ⟨_, rfl, lookasideFill_keeps (.refl s)⟩
  | teLaInval _ _ => exact ⟨_, rfl, teLaInval_keeps (.refl s)⟩
  | cheaperPathDeadline _ _ => exact ⟨_, rfl, cheaperPath_keeps (.refl s)⟩
  | destageComplete _ _ => exact ⟨_, rfl, destageComplete_keeps (.refl s)⟩
  | destageProgramFail _ => exact ⟨_, rfl, programFail_keeps (.refl s)⟩
  | destageRetry _ => exact ⟨_, rfl, destageRetry_keeps (.refl s)⟩
  | rowVerification _ _ => exact ⟨_, rfl, rowVerify_keeps (.refl s)⟩
  | kilnFold => exact ⟨_, rfl, kilnFold_keeps (.refl s)⟩
  | blockSetEraseComplete _ _ => exact ⟨_, rfl, eraseComplete_keeps (.refl s)⟩
  | mediaIdle => exact ⟨_, rfl, mediaIdle_keeps (.refl s)⟩
  | smoulder => exact ⟨_, rfl, smoulderStep_keeps (.refl s)⟩
  | driftSample _ _ _ => exact ⟨_, rfl, driftSample_keeps (.refl s)⟩
  | mediaReadComplete _ _ _ _ => exact ⟨_, rfl, readComplete_keeps (.refl s)⟩
  | blockSetCheckpoint _ => exact ⟨_, rfl, bstCheckpoint_keeps (.refl s)⟩
  | wearTableRebuilt _ => exact ⟨_, rfl, wearRebuilt_keeps (.refl s)⟩
  | levellingMove => exact ⟨_, rfl, levelMove_keeps (.refl s)⟩
  | lunStatusTimeout _ _ => exact ⟨_, rfl, lunTimeout_keeps (.refl s)⟩
  | journalSectorTimer => exact ⟨_, rfl, journalWrite_keeps (.refl s)⟩
  | checkpointChunk => exact ⟨_, rfl, checkpointChunk_keeps (.refl s)⟩
  | mediaQuery _ => exact ⟨_, rfl, mediaQuery_keeps (.refl s)⟩
  | mediaFormat _ _ _ => exact ⟨_, rfl, mediaFormat_keeps (.refl s)⟩
  | mediaRetire _ _ _ _ => exact ⟨_, rfl, mediaRetire_keeps (.refl s)⟩
  | mcRecDeepRead _ => exact ⟨_, rfl, recDeepRead_keeps (.refl s)⟩
  | pfWarnAccepted => exact ⟨_, rfl, warnAccepted_keeps (.refl s)⟩
  | pfWarnReleased => exact ⟨_, rfl, warnReleased_keeps (.refl s)⟩
  | pfWarnReleaseHeld => exact ⟨_, rfl, warnReleaseHeld_keeps (.refl s)⟩
  | emberQuiesceComplete _ => exact ⟨_, rfl, quiesceEnd_keeps (.refl s)⟩
  | emberFlushComplete _ _ _ => exact ⟨_, rfl, flushEnd_keeps (.refl s)⟩
  | sealComplete => exact ⟨_, rfl, commitOfKind_keeps (.refl s)⟩
  | sealedHoldTimeout => exact ⟨_, rfl, holdTimeout_keeps (.refl s)⟩
  | sealedRestart _ _ => exact ⟨_, rfl, sealedRestart_keeps (.refl s)⟩
  | fullScan _ _ _ => exact ⟨_, rfl, fullScan_keeps (.refl s)⟩
  | emberQuery _ => exact ⟨_, rfl, emberQuery_keeps (.refl s)⟩
  | holdupSet _ _ _ => exact ⟨_, rfl, holdupSet_keeps (.refl s)⟩
  | emberDrill _ => exact ⟨_, rfl, emberDrill_keeps (.refl s)⟩
  | twinPortTrained _ _ => exact ⟨_, rfl, portTrained_keeps (.refl s)⟩
  | hello _ _ => exact ⟨_, rfl, helloRx_keeps (.refl s)⟩
  | pairResult _ _ _ _ _ => exact ⟨_, rfl, pairResultRx_keeps (.refl s)⟩
  | keepalive _ => exact ⟨_, rfl, keepaliveRx_keeps (.refl s)⟩
  | retry _ _ => exact ⟨_, rfl, retryRx_keeps (.refl s)⟩
  | peerStatus _ _ _ _ _ => exact ⟨_, rfl, peerStatusRx_keeps (.refl s)⟩
  | repl _ _ _ _ _ => exact ⟨_, rfl, replRx_keeps (.refl s)⟩
  | replAck _ _ => exact ⟨_, rfl, replAckRx_keeps (.refl s)⟩
  | fwd _ _ _ _ _ _ _ => exact ⟨_, rfl, fwdRx_keeps (.refl s)⟩
  | fwdResult _ _ _ => exact ⟨_, rfl, fwdResultRx_keeps (.refl s)⟩
  | unitReq _ _ _ _ _ _ => exact ⟨_, rfl, unitReqRx_keeps (.refl s)⟩
  | unitReply _ _ _ _ _ _ => exact ⟨_, rfl, unitReplyRx_keeps (.refl s)⟩
  | credit _ _ => exact ⟨_, rfl, creditRx_keeps (.refl s)⟩
  | migBegin _ _ => exact ⟨_, rfl, migBeginRx_keeps (.refl s)⟩
  | migReady _ _ => exact ⟨_, rfl, migReadyRx_keeps (.refl s)⟩
  | migDone _ _ _ => exact ⟨_, rfl, migDoneRx_keeps (.refl s)⟩
  | genList _ _ _ => exact ⟨_, rfl, genListRx_keeps (.refl s)⟩
  | unitCopy _ _ _ _ _ _ => exact ⟨_, rfl, unitCopyRx_keeps (.refl s)⟩
  | segDone _ _ _ => exact ⟨_, rfl, segDoneRx_keeps (.refl s)⟩
  | segAck _ _ => exact ⟨_, rfl, segAckRx_keeps (.refl s)⟩
  | resyncDone _ _ => exact ⟨_, rfl, resyncDoneRx_keeps (.refl s)⟩
  | cmd _ _ => exact ⟨_, rfl, cmdRx_keeps (.refl s)⟩
  | cmdReply _ _ => exact ⟨_, rfl, cmdReplyRx_keeps (.refl s)⟩
  | emberNotice _ _ _ => exact ⟨_, rfl, emberNoticeRx_keeps (.refl s)⟩
  | haltNotice _ _ _ => exact ⟨_, rfl, haltNoticeRx_keeps (.refl s)⟩
  | streamState _ _ => exact ⟨_, rfl, streamStateRx_keeps (.refl s)⟩
  | peerReset _ => exact ⟨_, rfl, peerResetRx_keeps (.refl s)⟩
  | linkGapTimeout => exact ⟨_, rfl, linkGapTimeout_keeps (.refl s)⟩
  | twinPortSilent _ => exact ⟨_, rfl, portSilent_keeps (.refl s)⟩
  | replAckTimeout => exact ⟨_, rfl, replAckTimeout_keeps (.refl s)⟩
  | keepaliveTimer => exact ⟨_, rfl, keepaliveTimer_keeps (.refl s)⟩
  | peerStatusTimer => exact ⟨_, rfl, peerStatusTimer_keeps (.refl s)⟩
  | streamStateTimer => exact ⟨_, rfl, streamStateTimer_keeps (.refl s)⟩
  | pseqInNotLive _ => exact ⟨_, rfl, pseqNotLive_keeps (.refl s)⟩
  | pseqInClaim => exact ⟨_, rfl, pseqClaim_keeps (.refl s)⟩
  | quorumWindowEnd => exact ⟨_, rfl, quorumEnd_keeps (.refl s)⟩
  | takeoverRecordCommitted => exact ⟨_, rfl, commitOfKind_keeps (.refl s)⟩
  | twinRetrainAttempt => exact ⟨_, rfl, retrainAttempt_keeps (.refl s)⟩
  | twinPortDegrade _ _ => exact ⟨_, rfl, portDegrade_keeps (.refl s)⟩
  | twinQuery _ => exact ⟨_, rfl, twinQuery_keeps (.refl s)⟩
  | twinHomeSet _ _ _ _ => exact ⟨_, rfl, twinHomeSet_keeps (.refl s)⟩
  | twinTakeover _ => exact ⟨_, rfl, twinTakeover_keeps (.refl s)⟩
  | twinUnpair _ => exact ⟨_, rfl, twinUnpair_keeps (.refl s)⟩
  | twinPeerReset _ => exact ⟨_, rfl, twinPeerReset_keeps (.refl s)⟩
  | twinRetrain _ => exact ⟨_, rfl, twinRetrain_keeps (.refl s)⟩
  | portLinkUp _ _ _ _ _ _ => exact ⟨_, rfl, portLinkUp_keeps (.refl s)⟩
  | portDisabledRetry _ => exact ⟨_, rfl, disabledRetry_keeps (.refl s)⟩
  | portLaneFailed _ => exact ⟨_, rfl, laneFailed_keeps (.refl s)⟩
  | streamPortEnumeration _ _ => exact ⟨_, rfl, enumerated_keeps (.refl s)⟩
  | consumerErrCor _ _ => exact ⟨_, rfl, consumerCor_keeps (.refl s)⟩
  | consumerErrFatal _ _ => exact ⟨_, rfl, consumerFatal_keeps (.refl s)⟩
  | streamPathLinkDown _ _ => exact ⟨_, rfl, pathDown_keeps (.refl s)⟩
  | inboundRequest _ => exact ⟨_, rfl, inboundUr_keeps (.refl s)⟩
  | consumerInterrupt _ _ => exact ⟨_, rfl, consumerInt_keeps (.refl s)⟩
  | getEventRecords _ _ _ => exact ⟨_, rfl, getRecords_keeps (.refl s)⟩
  | clearEventRecords _ _ _ _ _ => exact ⟨_, rfl, clearRecords_keeps (.refl s)⟩
  | getEventInterruptPolicy _ _ => exact ⟨_, rfl, getPolicy_keeps (.refl s)⟩
  | setEventInterruptPolicy _ _ _ _ => exact ⟨_, rfl, setPolicy_keeps (.refl s)⟩
  | getSupportedLogs _ _ => exact ⟨_, rfl, supportedLogs_keeps (.refl s)⟩
  | getLog _ _ => exact ⟨_, rfl, effectsLog_keeps (.refl s)⟩
  | identifyMemoryDevice _ _ => exact ⟨_, rfl, identifyMem_keeps (.refl s)⟩
  | getHealthInfo _ _ => exact ⟨_, rfl, healthInfo_keeps (.refl s)⟩
  | getPoisonList _ _ _ _ => exact ⟨_, rfl, poisonList_keeps (.refl s)⟩
  | primaryMailboxUnsupported _ _ _ => exact ⟨_, rfl, cxlOther_keeps (.refl s)⟩
  | getLdInfo _ => exact ⟨_, rfl, ldInfo_keeps (.refl s)⟩
  | getLdAllocations _ => exact ⟨_, rfl, getAllocs_keeps (.refl s)⟩
  | setLdAllocations _ _ => exact ⟨_, rfl, setAllocs_keeps (.refl s)⟩
  | getQosControl _ => exact ⟨_, rfl, getQos_keeps (.refl s)⟩
  | setQosControl _ _ => exact ⟨_, rfl, setQos_keeps (.refl s)⟩
  | getQosStatus _ => exact ⟨_, rfl, qosStatus_keeps (.refl s)⟩
  | msixVectorUnmask _ _ _ => exact ⟨_, rfl, vectorUnmask_keeps (.refl s)⟩
  | portQuery _ _ => exact ⟨_, rfl, portQuery_keeps (.refl s)⟩
  | portRetrain _ _ => exact ⟨_, rfl, portRetrain_keeps (.refl s)⟩
  | portRescan _ _ => exact ⟨_, rfl, portRescan_keeps (.refl s)⟩
  | streamJobLoad _ _ _ => exact ⟨_, rfl, streamJobLoad_keeps (.refl s)⟩
  | streamJobUnload _ _ => exact ⟨_, rfl, streamJobUnload_keeps (.refl s)⟩
  | streamStart _ _ _ _ _ => exact ⟨_, rfl, streamStart_keeps (.refl s)⟩
  | streamStop _ _ => exact ⟨_, rfl, streamStop_keeps (.refl s)⟩
  | streamResume _ _ _ _ _ _ => exact ⟨_, rfl, streamResume_keeps (.refl s)⟩
  | streamQuery _ _ => exact ⟨_, rfl, streamQuery_keeps (.refl s)⟩
  | channelArmed _ => exact ⟨_, rfl, channelArmed_keeps (.refl s)⟩
  | primeTimeout _ => exact ⟨_, rfl, primeTimeout_keeps (.refl s)⟩
  | startStampReached _ => exact ⟨_, rfl, armedRun_keeps (.refl s)⟩
  | triggerDecisionPoint _ _ => exact ⟨_, rfl, triggerDecision_keeps (.refl s)⟩
  | lineReleaseComplete _ => exact ⟨_, rfl, lineReleaseComplete_keeps (.refl s)⟩
  | streamCreditDoorbell _ _ _ _ _ => exact ⟨_, rfl, creditDoorbell_keeps (.refl s)⟩
  | suChLateMaxWrite _ _ _ => exact ⟨_, rfl, lateMaxWrite_keeps (.refl s)⟩
  | stickRendered _ _ _ _ => exact ⟨_, rfl, stickRendered_keeps (.refl s)⟩
  | testStick _ => exact ⟨_, rfl, testStick_keeps (.refl s)⟩
  | laneResponseTimeout _ => exact ⟨_, rfl, laneTimeout_keeps (.refl s)⟩
  | spareLaneActivation => exact ⟨_, rfl, spareActivate_keeps (.refl s)⟩
  | noleneCheck _ _ _ => exact ⟨_, rfl, noleneCheck_keeps (.refl s)⟩
  | xeQuery _ => exact ⟨_, rfl, xeQuery_keeps (.refl s)⟩
  | xeLaneRetire _ _ => exact ⟨_, rfl, xeLaneRetire_keeps (.refl s)⟩
  | loadInstruction _ _ _ _ _ _ => exact ⟨_, rfl, loadInstruction_keeps (.refl s)⟩
  | storeInstruction _ _ _ _ _ => exact ⟨_, rfl, storeInstruction_keeps (.refl s)⟩
  | storeVisible _ _ _ => exact ⟨_, rfl, storeVisible_keeps (.refl s)⟩
  | fence _ _ _ => exact ⟨_, rfl, fence_keeps (.refl s)⟩
  | fenceI _ => exact ⟨_, rfl, fenceI_keeps (.refl s)⟩
  | lr _ _ _ _ _ => exact ⟨_, rfl, lr_keeps (.refl s)⟩
  | sc _ _ _ _ _ _ => exact ⟨_, rfl, sc_keeps (.refl s)⟩
  | amo _ _ _ _ _ _ _ => exact ⟨_, rfl, amo_keeps (.refl s)⟩
  | storeErrorTimeout _ => exact ⟨_, rfl, storeErrorTimeout_keeps (.refl s)⟩
  | loadAccessTimeout _ => exact ⟨_, rfl, loadAccessTimeout_keeps (.refl s)⟩
  | ccSterrInfoClear _ _ => exact ⟨_, rfl, ccSterrInfoClear_keeps (.refl s)⟩
  | heartbeatMissed _ => exact ⟨_, rfl, heartbeatMissed_keeps (.refl s)⟩
  | clusterResetComplete _ => exact ⟨_, rfl, clusterResetComplete_keeps (.refl s)⟩
  | ccHeartbeatWrite _ _ => exact ⟨_, rfl, ccHeartbeatWrite_keeps (.refl s)⟩
  | coreLogicFault _ => exact ⟨_, rfl, coreLogicFault_keeps (.refl s)⟩
  | tcmPatrol _ _ _ _ => exact ⟨_, rfl, tcmPatrol_keeps (.refl s)⟩
  | icWatchdogExpiry => exact ⟨_, rfl, icWatchdogExpiry_keeps (.refl s)⟩
  | ccIcKickWrite _ => exact ⟨_, rfl, ccIcKickWrite_keeps (.refl s)⟩
  | coreQuery _ => exact ⟨_, rfl, coreQuery_keeps (.refl s)⟩
  | icLoad _ _ _ _ _ => exact ⟨_, rfl, icLoad_keeps (.refl s)⟩
  | icStart _ _ => exact ⟨_, rfl, icStart_keeps (.refl s)⟩
  | icStop _ => exact ⟨_, rfl, icStop_keeps (.refl s)⟩
  | icWindowMap _ _ _ _ _ => exact ⟨_, rfl, icWindowMap_keeps (.refl s)⟩
  | mbReqDbWrite _ _ _ => exact ⟨_, rfl, doorbell_keeps (fun _ => reqDb_keeps) (.refl s)⟩
  | mbRplDbWrite _ _ _ => exact ⟨_, rfl, doorbell_keeps (fun _ => rplDb_keeps) (.refl s)⟩
  | requestTaken => exact ⟨_, rfl, requestTaken_keeps (.refl s)⟩
  | descriptorAreaComplete _ _ _ => exact ⟨_, rfl, descArea_keeps (.refl s)⟩
  | mbNotePop _ _ => exact ⟨_, rfl, mbNotePop_keeps (.refl s)⟩
  | mbNoteStatRead _ => exact ⟨_, rfl, mbNoteStatRead_keeps (.refl s)⟩
  | mbCtlReset _ => exact ⟨_, rfl, mbCtlReset_keeps (.refl s)⟩
  | mbBindLockSet _ => exact ⟨_, rfl, mbBindLockSet_keeps (.refl s)⟩
  | smbusSlotWrite _ _ _ => exact ⟨_, rfl, smbusDo_keeps (fun _ => smbusSlotWrite_keeps) (.refl s)⟩
  | smbusRequestDoorbell _ _ => exact ⟨_, rfl, smbusDo_keeps (fun _ => reqDb_keeps) (.refl s)⟩
  | smbusStatusRead _ => exact ⟨_, rfl, smbusDo_keeps (fun _ => smbusStatus_keeps) (.refl s)⟩
  | smbusReplyOffset _ _ => exact ⟨_, rfl, smbusDo_keeps (fun _ => smbusOffset_keeps) (.refl s)⟩
  | smbusReplyRead _ => exact ⟨_, rfl, smbusDo_keeps (fun _ => smbusReply_keeps) (.refl s)⟩
  | smbusReplyDoorbell _ _ => exact ⟨_, rfl, smbusDo_keeps (fun _ => rplDb_keeps) (.refl s)⟩
  | smbusNotificationPop _ => exact ⟨_, rfl, smbusDo_keeps (fun _ => smbusPop_keeps) (.refl s)⟩
  | smbusChannelReset _ _ => exact ⟨_, rfl, smbusDo_keeps (fun _ => smbusReset_keeps) (.refl s)⟩
  | smbusOtherCode _ => exact ⟨_, rfl, smbusOther_keeps (.refl s)⟩
  | identify _ => exact ⟨_, rfl, identify_keeps (.refl s)⟩
  | nop _ => exact ⟨_, rfl, nop_keeps (.refl s)⟩
  | mbQuery _ _ => exact ⟨_, rfl, mbQuery_keeps (.refl s)⟩
  | fwQuery _ => exact ⟨_, rfl, fwQuery_keeps (.refl s)⟩
  | fwUpdateBegin _ _ _ => exact ⟨_, rfl, fwUpdateBegin_keeps (.refl s)⟩
  | fwUpdateData _ _ _ => exact ⟨_, rfl, fwUpdateData_keeps (.refl s)⟩
  | fwUpdateEnd _ _ => exact ⟨_, rfl, fwUpdateEnd_keeps (.refl s)⟩
  | fwActivate _ => exact ⟨_, rfl, fwActivate_keeps (.refl s)⟩
  | updateSessionTimeout => exact ⟨_, rfl, sessionClose_keeps (.refl s)⟩
  | blockRunCommandEnd _ => exact ⟨_, rfl, blockEnd_keeps (.refl s)⟩
  | rngHealthFail => exact ⟨_, rfl, rngFails_keeps (.refl s)⟩
  | frontSweepStep _ => exact ⟨_, rfl, frontSweepStep_keeps (.refl s)⟩
  | mediaSweepStep => exact ⟨_, rfl, mediaSweepStep_keeps (.refl s)⟩
  | mediaSweepComplete => exact ⟨_, rfl, mediaSweepComplete_keeps (.refl s)⟩
  | unlockClosureEnd _ => exact ⟨_, rfl, unlockClosureEnd_keeps (.refl s)⟩
  | secQuery _ => exact ⟨_, rfl, secQuery_keeps (.refl s)⟩
  | rekeyStart _ _ => exact ⟨_, rfl, rekeyStart_keeps (.refl s)⟩
  | rekeyPause _ _ => exact ⟨_, rfl, rekeyPause_keeps (.refl s)⟩
  | optCtlCommit _ _ => exact ⟨_, rfl, optCore_keeps (fun _ => optCommit_keeps) (.refl s)⟩
  | optCtlLoad _ _ => exact ⟨_, rfl, optCore_keeps (fun _ => optLoad_keeps) (.refl s)⟩
  | optByteAccess _ _ => exact ⟨_, rfl, optCore_keeps (fun _ => optByte_keeps) (.refl s)⟩
  | pageWriteComplete => exact ⟨_, rfl, commitEnd_keeps (.refl s)⟩
  | optionPatrol _ _ => exact ⟨_, rfl, optionPatrol_keeps (.refl s)⟩
  | optRead _ _ _ => exact ⟨_, rfl, optRead_keeps (.refl s)⟩
  | optWrite _ _ _ _ _ _ _ => exact ⟨_, rfl, optWrite_keeps (.refl s)⟩
  | optUnlock _ _ _ _ => exact ⟨_, rfl, optUnlock_keeps (.refl s)⟩
  | optPasswordSet _ _ _ _ _ => exact ⟨_, rfl, optPasswordSet_keeps (.refl s)⟩
  | ledgerQuery _ => exact ⟨_, rfl, ledgerQuery_keeps (.refl s)⟩
  | ledgerRead _ _ _ _ => exact ⟨_, rfl, ledgerRead_keeps (.refl s)⟩
  | ledgerAgeTimer => exact ⟨_, rfl, ledgerAge_keeps (.refl s)⟩
  | ledgerProgramComplete _ _ => exact ⟨_, rfl, ledgerProgram_keeps (.refl s)⟩
  | highWaterCommitComplete => exact ⟨_, rfl, commitOfKind_keeps (.refl s)⟩
  | porDetected => exact ⟨_, rfl, porDetected_keeps (.refl s)⟩
  | resetNAccepted => exact ⟨_, rfl, resetNAccepted_keeps (.refl s)⟩
  | resetNReleased => exact ⟨_, rfl, resetNReleased_keeps (.refl s)⟩
  | pllLocked _ => exact ⟨_, rfl, pllLocked_keeps (.refl s)⟩
  | pllLockTimeout _ => exact ⟨_, rfl, pllTimeout_keeps (.refl s)⟩
  | pllLockLost _ => exact ⟨_, rfl, pllLost_keeps (.refl s)⟩
  | pllRelocked _ _ => exact ⟨_, rfl, pllRelocked_keeps (.refl s)⟩
  | firmwareEntryLimit => exact ⟨_, rfl, entryLimit_keeps (.refl s)⟩
  | startComplete => exact ⟨_, rfl, startComplete_keeps (.refl s)⟩
  | sequencerEnable => exact ⟨_, rfl, seqEnable_keeps (.refl s)⟩
  | sequencerDisable => exact ⟨_, rfl, seqDisable_keeps (.refl s)⟩
  | sequencerWait => exact ⟨_, rfl, seqWait_keeps (.refl s)⟩
  | sequencerWaitExpiry => exact ⟨_, rfl, seqWaitEnd_keeps (.refl s)⟩
  | sequencerCheck => exact ⟨_, rfl, seqCheck_keeps (.refl s)⟩
  | sequencerCheckTimeout => exact ⟨_, rfl, checkTimeout_keeps (.refl s)⟩
  | sequencerJump => exact ⟨_, rfl, seqJump_keeps (.refl s)⟩
  | sequencerEnd => exact ⟨_, rfl, seqEnd_keeps (.refl s)⟩
  | sequencerBudgetExceeded => exact ⟨_, rfl, budgetExceeded_keeps (.refl s)⟩
  | powerUpRetry => exact ⟨_, rfl, powerUpRetry_keeps (.refl s)⟩
  | pgInGood _ => exact ⟨_, rfl, pgGood_keeps (.refl s)⟩
  | pgInBad _ => exact ⟨_, rfl, pgBad_keeps (.refl s)⟩
  | pgInGlitch _ => exact ⟨_, rfl, pgGlitch_keeps (.refl s)⟩
  | railMeasurement _ => exact ⟨_, rfl, railMeasured_keeps (.refl s)⟩
  | restartFromShutdown => exact ⟨_, rfl, restart_keeps (.refl s)⟩
  | thermalSample _ _ => exact ⟨_, rfl, thermalSample_keeps (.refl s)⟩
  | throttlePhaseEnd => exact ⟨_, rfl, phaseEnd_keeps (.refl s)⟩
  | deviceReset _ _ _ _ => exact ⟨_, rfl, deviceReset_keeps (.refl s)⟩
  | powerQuery _ => exact ⟨_, rfl, powerQuery_keeps (.refl s)⟩
  | thermalQuery _ => exact ⟨_, rfl, thermalQuery_keeps (.refl s)⟩
  | thMaxSeenWrite _ _ => exact ⟨_, rfl, regWrite_keeps (fun _ => thMaxSeenWrite_keeps) (.refl s)⟩
  | bandwidthWindowEnd _ _ => exact ⟨_, rfl, windowEnd_keeps (.refl s)⟩
  | pmonCtlSnap _ => exact ⟨_, rfl, coreOnlyWrite_keeps (fun _ => pmonSnap_keeps) (.refl s)⟩
  | pmonCtlClear _ => exact ⟨_, rfl, coreOnlyWrite_keeps (fun _ => pmonClear_keeps) (.refl s)⟩
  | pmonSelWrite _ _ _ _ => exact ⟨_, rfl, coreOnlyWrite_keeps (fun _ => pmonSelWrite_keeps) (.refl s)⟩
  | pmonBwMaxWrite _ _ _ => exact ⟨_, rfl, coreOnlyWrite_keeps (fun _ => pmonBwMaxWrite_keeps) (.refl s)⟩
  | pmonConfig _ _ => exact ⟨_, rfl, pmonConfig_keeps (.refl s)⟩
  | pmonRead _ _ _ _ => exact ⟨_, rfl, pmonRead_keeps (.refl s)⟩
  | pmonDumpSet _ _ _ _ _ => exact ⟨_, rfl, pmonDumpSet_keeps (.refl s)⟩
  | eventRoute _ _ _ _ => exact ⟨_, rfl, eventRoute_keeps (.refl s)⟩
  | glbIntEnWrite _ _ _ => exact ⟨_, rfl, glbIntEnWrite_keeps (.refl s)⟩
  | registerWrite _ _ _ _ => exact ⟨_, rfl, registerWrite_keeps (.refl s)⟩
  | porReleased => exact ⟨_, rfl, rstRelease_keeps (.refl s)⟩
  | commandResetSourceReleased _ => exact ⟨_, rfl, commandReleased_keeps (.refl s)⟩
  | pseqInLive _ => exact ⟨_, rfl, pseqLive_keeps (.refl s)⟩
  | linkUpconfigure _ _ => exact ⟨_, rfl, upconfigure_keeps (.refl s)⟩
  | fillLineArrival _ _ => exact ⟨_, rfl, fillLineArrival_keeps (.refl s)⟩
  | checkRetry _ => exact ⟨_, rfl, checkRetry_keeps (.refl s)⟩
  | dumpComplete => exact ⟨_, rfl, dumpComplete_keeps (.refl s)⟩
  | otherInstruction _ _ => exact ⟨_, rfl, otherInstruction_keeps (.refl s)⟩

theorem exec_keeps {c : Instr} {s t : State} (h : exec c s = .next t) : Keeps s t := by
  obtain ⟨u, hexec, hkeeps⟩ := exec_eq_run c s
  rw [hexec, run] at h
  split at h
  · cases h; exact hkeeps
  · cases h

/-- Settles O1: a step with a waiting command is `exec` by definition. -/
theorem stepRunsCommand : Obligations.StepRunsCommand := fun _ _ => rfl

/-- Settles O2: every row is `run` of its form. -/
theorem wellFormedCommandsRun : Obligations.WellFormedCommandsRun := by
  intro c s
  obtain ⟨t, hexec, -⟩ := exec_eq_run c s
  exact ⟨fun hwf => ⟨t, by rw [hexec, hwf]; rfl⟩, fun hwf => by rw [hexec, hwf]; rfl⟩

/-! ### The invariant -/

/-- Taking a command off the queue touches no memory and no time. -/
theorem popped_inv {s : State} (h : Inv s) (rest : List Instr) : Inv (s.popped rest) := ⟨{ h.mem with }, h.tb⟩

/-- Settles O5: an idle step and every command keep the invariant. -/
theorem stepKeepsInvariant : Obligations.StepKeepsInvariant := by
  intro s t hinv hstep
  rw [step] at hstep
  split at hstep
  case h_1 =>
    cases hstep
    exact (idleCycle_keeps (.refl s)).inv hinv
  case h_2 _ c rest _ => exact (exec_keeps hstep).inv (popped_inv hinv rest)

/-! ### The state after reset -/

theorem factoryPages_wf : Tab.wf {} factoryPages = true := by decide +kernel

/-- Settles O4: but for the factory pages of the option store, every memory is empty. -/
theorem resetMeetsInvariant : Obligations.ResetMeetsInvariant :=
  ⟨⟨wf_nil _, wf_nil _, wf_nil _, wf_nil _, wf_nil _, wf_nil _, factoryPages_wf⟩, Nat.two_pow_pos 64, Nat.two_pow_pos 32⟩

/-- Settles O3: each field is a literal of `State.reset`, and an unlisted entry of a table reads as its default. -/
theorem resetState : Obligations.ResetState :=
  ⟨rfl, rfl, rfl, rfl, rfl, rfl, rfl, rfl, rfl, rfl, fun _ => rfl, fun _ => ⟨rfl, rfl, rfl, rfl, rfl⟩, fun _ => ⟨rfl, rfl⟩,
    fun _ => rfl, fun _ => ⟨rfl, rfl⟩, rfl, rfl, rfl, rfl, rfl⟩

/-! ### The course of a request (R322, R328, R333) -/

/-- Settles O7: the flight of a request just taken is the one that its reply answers. -/
theorem acceptedRequestsAreAnswered : Obligations.AcceptedRequestsAreAnswered := by
  rintro s rq op st det data ⟨htake, htags, -⟩
  exact replied_taken htags (asTaken_of_reports htake (.refl _))

/-- A state in which channel 0 has a request with tag 7 of PMON's opcode 0x0D03 in flight, taken from its slot with a payload that
holds no bytes. -/
def emptyRequestTaken : State :=
  State.modMbox {} 0 (fun m => { m with flights := [{ tag := 7, cseq := 0, opcode := 0x0D03, flags := 0 }] })

/-- A row whose only parameter is the number 1, which that payload does not hold. -/
def otherParameter : Cmd := { params := [[.n4 1]] }

/-- Refutes O8: a row with other parameters than those of the request in flight is not that request's, and changes nothing, where the
statement has it run. -/
theorem not_commandsAreChecked : ¬ Obligations.CommandsAreChecked := by
  intro h
  have hrow : opRow 0x0D03 = some ⟨0x0D03, .q, false, false, false, false, 12⟩ := by decide
  obtain ⟨hwaiting, -⟩ := h emptyRequestTaken ⟨0, 7⟩ 0x0D03 _ (fun _ => true) (fun _ => true) (fun _ => otherParameter) draw hrow
  have hrun := hwaiting { tag := 7, cseq := 0, opcode := 0x0D03, flags := 0 } (by decide) rfl rfl
  have hfree : (0 : Nat) = 1 := congrArg State.free hrun
  exact absurd hfree (by decide)

end Sys2Proof.Proofs

/-! ## Time and its registers (chapter 3)

What the pace monitor, the edges of PPS and of the line triggers and the writes of their registers make of the state, and how the
timebase moves. -/

namespace Sys2Proof.Proofs

open Sys2Proof Sys2Proof.Machine Sys2Proof.Safety Sys2Proof.Laws

/-! ### What counting, raising and recording leave -/

section Reported

variable (code inst qual n : Nat) (nm : Names) (ps : List Nat) (s : State)

@[simp] theorem count_tb : (count code inst qual n s).tb = s.tb := (count_reports (.refl s)).rest.tb
@[simp] theorem count_su : (count code inst qual n s).su = s.su := (count_reports (.refl s)).rest.su
@[simp] theorem raise_tb : (raise code inst n nm s).tb = s.tb := (raise_reports (.refl s)).rest.tb
@[simp] theorem raise_hf : (raise code inst n nm s).hf = s.hf := (raise_reports (.refl s)).rest.hf
@[simp] theorem ledger_hf : (ledger code n ps s).hf = s.hf := (ledger_reports (.refl s)).rest.hf

end Reported

/-! ### The pace monitor (R48, R49) -/

theorem listMin_mem_and_le : ∀ {l : List Nat}, l ≠ [] → listMin l ∈ l ∧ ∀ r ∈ l, listMin l ≤ r
  | [a], _ => by simp [listMin]
  | a :: b :: t, _ => by
    obtain ⟨hmem, hle⟩ := listMin_mem_and_le (List.cons_ne_nil b t)
    have hmin : listMin (a :: b :: t) = min a (listMin (b :: t)) := rfl
    rw [hmin]
    refine ⟨?_, fun r hr => ?_⟩
    · rcases min_choice a (listMin (b :: t)) with h | h <;> rw [h]
      · exact List.mem_cons_self
      · exact List.mem_cons_of_mem a hmem
    · rcases List.mem_cons.1 hr with rfl | hr
      · exact min_le_left ..
      · exact (min_le_right ..).trans (hle r hr)

section Pace

variable (rings : List Nat) (s : State)

theorem paceWindowEnd_readings : (paceWindowEnd rings s).hf.paceNow = listMin rings ∧
    (paceWindowEnd rings s).hf.paceLow = min s.hf.paceLow (listMin rings) ∧ (paceWindowEnd rings s).hf.floor = s.hf.floor := by
  simp only [paceWindowEnd]
  split
  · split <;> simp
  · exact ⟨rfl, rfl, rfl⟩

variable {rings s}

theorem paceWindowEnd_lowRaised (hlow : listMin rings < s.hf.floor) : (paceWindowEnd rings s).hf.lowRaised = true := by
  simp only [paceWindowEnd, if_pos hlow]
  split <;> simp

/-- Above the floor, or once the event has come, only the pace monitor's own registers change. -/
theorem paceWindowEnd_quiet (h : s.hf.floor ≤ listMin rings ∨ s.hf.lowRaised = true) :
    paceWindowEnd rings s = { s with hf := (paceWindowEnd rings s).hf } := by
  simp only [paceWindowEnd]
  split
  next hlow =>
    have hraised : s.hf.lowRaised = true := h.resolve_left hlow.not_ge
    simp [hraised]
  next => rfl

/-- The first window below the floor raises *pace low* and records it. -/
theorem paceWindowEnd_first (hlow : listMin rings < s.hf.floor) (hfirst : s.hf.lowRaised = false) :
    paceWindowEnd rings s = ledger 0x0400 0 [listMin rings, s.th.band, corner s]
      (raise 0x0400 0xFFFF 0 .nothing { s with hf := (paceWindowEnd rings s).hf }) := by
  have hend : paceWindowEnd rings s = ledger 0x0400 0 [listMin rings, s.th.band, corner s] (raise 0x0400 0xFFFF 0 .nothing
      { s with hf := { s.hf with paceNow := listMin rings, paceLow := min s.hf.paceLow (listMin rings), lowRaised := true,
                                 aboveUs := 0 } }) := by
    simp only [paceWindowEnd, if_pos hlow, hfirst, Bool.not_false, if_true]
    rfl
  rw [show (paceWindowEnd rings s).hf = _ from (congrArg State.hf hend).trans (by rw [ledger_hf, raise_hf]), ← hend]

end Pace

/-! ### Edges on PPS_IN (R54, R57) -/

/-- No source of cold reach is asserted, so that the timebase runs (R52). -/
abbrev timeRuns (s : State) : Prop := s.rpm.asserted.any isCold = false

theorem exec_ppsEdge_of_pulse {n sub w : Nat} (s : State) (hsub : sub < 10) (hw : 100 ≤ w) :
    exec (.ppsEdge n sub w) s = .next (onPpsEdge sub (tbAdvance n s)) := by
  refine run_ok (decide_eq_true hsub) ?_
  simp only [ppsEdge, if_neg (show ¬ w < 10 by omega), if_pos hw]

/-- Time passes alone: no other field of the timebase moves with it. -/
theorem tbAdvance_tb {s : State} (n : Nat) (h : timeRuns s) : (tbAdvance n s).tb =
    { s.tb with count := (tbAdvance n s).tb.count, frac := (tbAdvance n s).tb.frac, rawSince := s.tb.rawSince + n } := by
  simp only [tbAdvance, if_neg (ne_true_of_eq_false h)]

theorem tbAdvance_su (n : Nat) (s : State) : (tbAdvance n s).su = s.su := by
  unfold tbAdvance; split <;> rfl

section Edge

variable {u : State} (sub : Nat)

/-- An interval that R54 takes: within 200 ppm of one second. -/
abbrev inRange (n : Nat) : Prop := 99980000 ≤ n ∧ n ≤ 100020000

theorem onPpsEdge_free (h : u.tb.pps = .free) : onPpsEdge sub u = u := by
  simp only [onPpsEdge, if_pos h]

theorem onPpsEdge_rejected (hpps : u.tb.pps ≠ .free) (hprev : u.tb.havePrev = true)
    (hoff : u.tb.rawSince < 99980000 ∨ 100020000 < u.tb.rawSince) : onPpsEdge sub u =
      count 0x4021 0xFFFF 0 1 { u with tb := { u.tb with rejectCnt := satAdd 255 u.tb.rejectCnt 1 } } := by
  simp only [onPpsEdge, if_neg hpps, hprev, hoff, and_self, if_true]

/-- An edge with a step pending, `d` ns before the next whole second. -/
theorem onPpsEdge_step {d : Nat} (hpps : u.tb.pps = .stepPending) (hprev : u.tb.havePrev = false)
    (hd : (1000000000 - stampAt sub u % 1000000000) % 1000000000 = d) : (onPpsEdge sub u).tb = { u.tb with
      ppsStamp := stampAt sub u, phaseErr := clamp31 (phaseErrOf (stampAt sub u)), havePrev := true, rawSince := 0, pps := .tracking
      count := (u.tb.count + d) % 2 ^ 64, stepEn := false, adj := 0, ltLast := u.tb.ltLast.map (fun e => (e.1, e.2 + d)) } := by
  unfold onPpsEdge
  rw [if_neg (by rw [hpps]; decide), if_neg (by rw [hprev]; simp), if_pos hpps]
  simp only [hd]
  rw [hprev]
  rfl

/-- The first edge after a loss or a start measures no interval. -/
theorem onPpsEdge_first (hpps : u.tb.pps = .tracking ∨ u.tb.pps = .holdover) (hprev : u.tb.havePrev = false) :
    (onPpsEdge sub u).tb = { u.tb with
      ppsStamp := stampAt sub u, phaseErr := clamp31 (phaseErrOf (stampAt sub u)), havePrev := true, rawSince := 0
      pps := .tracking } := by
  rcases hpps with hpps | hpps
  · simp only [onPpsEdge, hpps, hprev, reduceCtorEq, if_false, Bool.false_eq_true, false_and]
    split <;> simp
  · simp [onPpsEdge, hpps, hprev]

theorem onPpsEdge_tracked {a : Int × Bool} (hpps : u.tb.pps = .tracking) (hprev : u.tb.havePrev = true)
    (hin : inRange u.tb.rawSince) (ha : adjOf (phaseErrOf (stampAt sub u)) u.tb.rawSince = a) :
    (onPpsEdge sub u).tb = { u.tb with
      ppsStamp := stampAt sub u, phaseErr := clamp31 (phaseErrOf (stampAt sub u)), havePrev := true, rawSince := 0
      refCycles := u.tb.rawSince, pps := .tracking, adj := a.1, clamped := a.2 } := by
  have hok : ¬ (u.tb.rawSince < 99980000 ∨ 100020000 < u.tb.rawSince) := by omega
  simp only [onPpsEdge, hpps, hprev, hok, ha, reduceCtorEq, if_false, and_false, if_true]
  split <;> simp

end Edge

/-- The adjustment is at most 100 ppm (R54). -/
theorem adjOf_bounds (e : Int) {n : Nat} (hn : 0 < n) : -429497 ≤ (adjOf e n).1 ∧ (adjOf e n).1 ≤ 429497 := by
  unfold adjOf
  dsimp only
  split
  · decide
  · split
    · decide
    · next hhi hlo =>
      dsimp only
      have hpos : (0 : Int) < 2 * (10 * n) := by omega
      generalize 1000000000 - e - 10 * (n : Int) = num at hhi hlo ⊢
      constructor
      · rw [Int.le_ediv_iff_mul_le hpos]; omega
      · refine Int.le_of_lt_add_one ((Int.ediv_lt_iff_lt_mul hpos).2 ?_); omega

/-- A trigger edge whose levels pass the filter, at the time of the last command. -/
theorem lineTrigEdge_of_levels {s : State} {j w r sub : Nat} (hw : 50 ≤ w) (hr : 50 ≤ r) (n : Nat)
    (hedge : (tbAdvance n s).tb.edgeFall = s.tb.edgeFall) :
    lineTrigEdge j (s.tb.edgeFall.getLsbD j) w r n sub s = ltCapture j sub (tbAdvance n s) := by
  simp only [lineTrigEdge, hedge, bne_self_eq_false, Bool.false_or, decide_eq_true_eq]
  rw [if_neg (by omega), if_pos (by omega)]

/-- Settles O10: each row by the branch of its meaning that the clause's conditions choose. -/
theorem timeCommandsComplete : Obligations.TimeCommandsComplete := by
  refine ⟨?paceWindowEnd, ?stepPending, ?firstEdge, ?laterEdge, ?filtered, ?lost, ?notTracking, ?enSet, ?enSetAgain, ?enClear,
    ?stepSet, ?stepSetActive, ?stepClear, ?loRead, ?statRead, ?paceWrite, ?trigger⟩
  case paceWindowEnd =>
    intro s rings hlen hlt
    have hwf : (decide (rings.length = 8) && rings.all u16) = true := by simpa [hlen, u16] using hlt
    obtain ⟨hmem, hle⟩ := listMin_mem_and_le (l := rings) (by rintro rfl; cases hlen)
    obtain ⟨hnow, hlow, hfloor⟩ := paceWindowEnd_readings rings s
    refine ⟨paceWindowEnd rings s, _, run_ok hwf rfl, rfl, ?_⟩
    rw [hnow]
    exact ⟨hmem, hle, hlow, hfloor, paceWindowEnd_lowRaised, paceWindowEnd_quiet, paceWindowEnd_first⟩
  case stepPending =>
    intro s n sub w hsub hw hruns hpps hprev
    have htb := tbAdvance_tb n hruns
    refine ⟨_, exec_ppsEdge_of_pulse s hsub hw, ?_⟩
    rw [onPpsEdge_step sub (by rw [htb]; exact hpps) (by rw [htb]; exact hprev) rfl]
    exact ⟨rfl, rfl, rfl, rfl, rfl⟩
  case firstEdge =>
    intro s n sub w hsub hw hruns hpps hprev
    have htb := tbAdvance_tb n hruns
    refine ⟨_, exec_ppsEdge_of_pulse s hsub hw, ?_⟩
    rw [onPpsEdge_first sub (by rw [htb]; exact hpps) (by rw [htb]; exact hprev)]
    exact ⟨rfl, rfl, show (tbAdvance n s).tb.adj = s.tb.adj by rw [htb], rfl, rfl⟩
  case laterEdge =>
    intro s n sub w hsub hw hruns hpps hprev hlo hhi
    have htb := tbAdvance_tb n hruns
    have hraw : (tbAdvance n s).tb.rawSince = s.tb.rawSince + n := congrArg TbState.rawSince htb
    obtain ⟨a, ha⟩ : ∃ a, adjOf (phaseErrOf (stampAt sub (tbAdvance n s))) (s.tb.rawSince + n) = a := ⟨_, rfl⟩
    obtain ⟨hmin, hmax⟩ := ha ▸ adjOf_bounds (phaseErrOf (stampAt sub (tbAdvance n s))) (show 0 < s.tb.rawSince + n by omega)
    refine ⟨_, exec_ppsEdge_of_pulse s hsub hw, ?_⟩
    rw [onPpsEdge_tracked sub (u := tbAdvance n s) (a := a) (by rw [htb]; exact hpps) (by rw [htb]; exact hprev)
      (by rw [hraw]; exact ⟨hlo, hhi⟩) (by rw [hraw]; exact ha)]
    exact ⟨rfl, hraw, rfl, hmin, hmax, ha.symm⟩
  case filtered =>
    rintro s n sub w hsub (hw | ⟨hpps, hw⟩)
    · refine run_ok (decide_eq_true hsub) ?_
      simp only [ppsEdge, if_pos hw]
    · have hfree : (tbAdvance n s).tb.pps = .free := by
        unfold tbAdvance; split <;> exact hpps
      rw [exec_ppsEdge_of_pulse s hsub hw, onPpsEdge_free sub hfree]
  case lost =>
    intro s hpps
    exact run_ok rfl (if_pos hpps)
  case notTracking =>
    intro s hpps
    exact run_ok rfl (if_neg hpps)
  case enSet =>
    intro s ag hag hoff
    exact run_ok (wf_may hag) ((regWrite_may hag).trans (if_neg (ne_true_of_eq_false hoff)))
  case enSetAgain =>
    intro s ag hag hon
    exact run_ok (wf_may hag) ((regWrite_may hag).trans (if_pos hon))
  case enClear =>
    intro s ag hag
    exact run_ok (wf_may hag) (regWrite_may hag)
  case stepSet =>
    intro s ag hag hidle
    have hnone : noStreamActive s = true := List.all_eq_true.2 fun c hc => by simp [hidle c hc]
    exact run_ok (wf_may hag) ((regWrite_may hag).trans (by simp [stepEnSet, hnone]))
  case stepSetActive =>
    intro s ag c hag hc hactive
    have hsome : noStreamActive s = false := List.all_eq_false.2 ⟨c, hc, by simp [hactive]⟩
    exact run_ok (wf_may hag) ((regWrite_may hag).trans (by simp [stepEnSet, hsome]))
  case stepClear =>
    intro s ag hag
    exact run_ok (wf_may hag) (regWrite_may hag)
  case loRead =>
    rintro s i r v hi hr hserial rfl
    have hwf : (Agent.wf (.core i) && r.wf) = true := by simp [Agent.wf, coreOk, hr, hi.trans (Nat.lt_succ_self 5)]
    have hread : loReadLatch (.core i) r .lo s = pairRead (.core i) r .lo s := by simp [loReadLatch, hi, hserial]
    exact ⟨_, run_ok hwf hread, rfl, latched_setLatch_same s (.core i) r _, rfl⟩
  case statRead =>
    intro s ag hag
    refine ⟨_, _, run_ok (wf_may hag) (by rw [tbPpsStatRead, regRead_may hag]; rfl), ?_, rfl⟩
    have hcode : ppsCode s.tb.pps ≤ 3 := by cases s.tb.pps <;> decide
    have hbit : b2n s.tb.clamped ≤ 1 := by cases s.tb.clamped <;> decide
    omega
  case paceWrite =>
    intro s ag v hag
    exact run_ok (wf_may hag) (regWrite_may hag)
  case trigger =>
    intro s j w r n sub hj hw hr hsub hruns hseen
    refine ⟨_, run_ok (by simp [hj, hsub]) (lineTrigEdge_of_levels hw hr n (by rw [tbAdvance_tb n hruns])), ?_⟩
    · have hunseen : (tbAdvance n s).tb.ltSeen.getLsbD j = false := by rw [tbAdvance_tb n hruns]; exact hseen
      simp only [ltCapture, hunseen, Bool.false_eq_true, false_and, if_false, count_tb, count_su, get_set_same, tbAdvance_su,
        and_self, and_true]
      rw [tbAdvance, if_neg (ne_true_of_eq_false hruns)]
      rfl

/-! ### Rejected edges (R54, R57) -/

/-- With no cycle since the last command the timebase stands. -/
theorem tbAdvance_zero {s : State} (hcount : s.tb.count < 2 ^ 64) (hfrac : s.tb.frac < 2 ^ 32) : tbAdvance 0 s = s := by
  have hgain : tbGain 0 s.tb.adj = 0 := by simp [tbGain]
  simp only [tbAdvance, hgain, Nat.add_zero, Nat.mod_eq_of_lt hfrac, Nat.div_eq_of_lt hfrac, Nat.mod_eq_of_lt hcount, ite_self]

/-- Settles O11: the rejecting branch of each capture. -/
theorem rejectedEdges : Obligations.RejectedEdges := by
  refine ⟨?rejected, ?overRate, ?filtered⟩
  case rejected =>
    intro s hruns hpps hprev n sub w hsub hw hoff
    have htb := tbAdvance_tb n hruns
    have hraw : (tbAdvance n s).tb.rawSince = s.tb.rawSince + n := congrArg TbState.rawSince htb
    refine ⟨_, exec_ppsEdge_of_pulse s hsub hw, ?_⟩
    rw [onPpsEdge_rejected sub (by rw [htb]; exact hpps) (by rw [htb]; exact hprev) (by rw [hraw]; exact hoff), count_tb, htb]
    exact ⟨rfl, rfl, rfl, rfl, rfl⟩
  case overRate =>
    intro s j w r sub hj hw hr hsub hseen hcount hfrac hsoon
    refine ⟨ltCapture j sub s, run_ok (by simp [hj, hsub]) ?_, ?_⟩
    · rw [lineTrigEdge_of_levels hw hr 0 (by rw [tbAdvance_zero hcount hfrac]), tbAdvance_zero hcount hfrac]
    · simp [ltCapture, hseen, hsoon, hj]
  case filtered =>
    intro s j w r n sub b hj hsub hshort
    refine run_ok (by simp [hj, hsub]) ?_
    have hmin : min w r < 10 := by omega
    simp only [lineTrigEdge, hmin, decide_true, Bool.or_true, if_true]

/-! ### The timebase (R52, R54) -/

theorem stampAt_zero {s : State} (hfrac : s.tb.frac < 2 ^ 32) : stampAt 0 s = s.tb.count := by
  simp only [stampAt, Nat.zero_mul, ite_self]
  omega

/-- Settles O12: the pending step's distance to the whole second, and one cycle of the reference clock. -/
theorem timebaseMoves : Obligations.TimebaseMoves := by
  refine ⟨?step, fun s hnone => ⟨?stands, ?cycle⟩⟩
  case step =>
    intro s w hw hruns hpps hprev hcount hfrac
    have hstamp := stampAt_zero hfrac
    obtain ⟨d, hd⟩ : ∃ d, (1000000000 - stampAt 0 s % 1000000000) % 1000000000 = d := ⟨_, rfl⟩
    refine ⟨onPpsEdge 0 s, ?_, ?_⟩
    · rw [exec_ppsEdge_of_pulse s (by decide) hw, tbAdvance_zero (by omega) hfrac]
    · have hlt : s.tb.count + d < 2 ^ 64 := by omega
      rw [onPpsEdge_step 0 hpps hprev hd, Nat.mod_eq_of_lt hlt]
      rw [hstamp] at hd
      dsimp only
      omega
  case stands =>
    intro hcold
    rw [step, hnone]
    exact congrArg _ (if_pos hcold)
  case cycle =>
    intro hruns hfrac hroom hmin hmax
    refine ⟨idleCycle s, by rw [step, hnone], ?_⟩
    have hgain : (tbGain 1 s.tb.adj : Int) = 10 * (2 ^ 32 + s.tb.adj) := by
      rw [tbGain, Nat.cast_mul, Int.toNat_of_nonneg (by omega)]
      rfl
    simp only [idleCycle, tbAdvance, if_neg (ne_true_of_eq_false hruns), and_true]
    generalize tbGain 1 s.tb.adj = g at hgain ⊢
    omega

end Sys2Proof.Proofs

/-! ## Turfs, windows and decoders (chapter 4)

A command whose checks all pass is its effect (`atornQ_done`, `atorn_done`); each clause shows that the conditions of the row's check
lists are false in the state in which the request has begun, and what the effect is there. -/

namespace Sys2Proof.Proofs

open Sys2Proof Sys2Proof.Machine Sys2Proof.Safety Sys2Proof.Laws

/-! ### Commands that their checks let through (R333) -/

section Done

variable {s : State} {rq : Rq} {op : Nat} {c : State → Cmd} {eff eff' : State → State}

/-- None of a list of conditions holds. -/
theorem firstTrue_eq_none {l : List Bool} (h : ∀ b ∈ l, b = false) : firstTrue l 1 = none := (ft_iff l 1).2 h

/-- What a command does matters only in the state in which it has begun. -/
theorem doneBy_congr (h : eff (begun s rq op) = eff' (begun s rq op)) : doneBy s rq op eff = doneBy s rq op eff' :=
  congrArg (answered s rq) h

/-- A command of a right that its channel has, none of whose conditions holds. -/
theorem atornQ_done (h : accepts s rq op true true) (hbad : ∀ b ∈ (c (begun s rq op)).bad, b = false)
    (hdenied : (c (begun s rq op)).denied = none) (hrefuse : ∀ b ∈ (c (begun s rq op)).refuse, b = false)
    (heff : eff (begun s rq op) = eff' (begun s rq op)) : atornQ op rq c eff s = doneBy s rq op eff' :=
  (q_done h (firstTrue_eq_none hbad) hdenied (firstTrue_eq_none hrefuse)).trans (doneBy_congr heff)

/-- The same, for a command that asks for the sender's own or granted part. -/
theorem atorn_done {owns granted : State → Bool} (h : accepts s rq op true true) (ho : owns s = true) (hg : granted s = true)
    (hbad : ∀ b ∈ (c (begun s rq op)).bad, b = false) (hdenied : (c (begun s rq op)).denied = none)
    (hrefuse : ∀ b ∈ (c (begun s rq op)).refuse, b = false) (heff : eff (begun s rq op) = eff' (begun s rq op)) :
    atorn op rq owns granted c eff s = doneBy s rq op eff' :=
  (a_done h ho hg (firstTrue_eq_none hbad) hdenied (firstTrue_eq_none hrefuse)).trans (doneBy_congr heff)

end Done

/-! ### Turf commands (R60-R63) -/

theorem turfGet_of_some {s : State} {id : Nat} {t : Turf} (h : s.turf id = some t) (p : Turf → Bool) : turfGet s id p = p t := by
  rw [turfGet, h]

theorem turfMod_of_some {u : State} {rq : Rq} {id : Nat} {t : Turf} (h : u.turf id = some t) (f : Turf → Turf) :
    turfMod rq id f u = turfPut rq id (some (f t)) none u := by
  rw [turfMod, h, Option.map_some]

/-- Settles O14: each command's conditions and effect in the state in which it has begun. -/
theorem turfCommandsComplete : Obligations.TurfCommandsComplete := by
  refine ⟨?create, ?destroy, ?grow, ?shrink, ?set, ?grant, ?revoke, ?queryOne, ?queryAll⟩
  case create =>
    intro s rq id base size rtype h hid htype hnew hrange hroom
    exact run_ok h.1 (atornQ_done h.2 (by simp [hid, htype]) rfl (by simp [hnew, hrange, hroom]) rfl)
  case destroy =>
    intro s rq id t h hid hturf hgrants hjobs
    refine run_ok h.1 (atornQ_done h.2 (by simp [hid]) rfl ?_ (by simp [hturf]))
    simp [hturf, turfGet_of_some hturf, hgrants, hjobs]
  case grow =>
    intro s rq id size t h hid hturf hpos hmod hle hfits
    have hseg : size % seg2M = 0 := hmod
    refine run_ok h.1 (atornQ_done h.2 (by simp [hid]) rfl ?_ (by simp [hturf, hle.not_gt]))
    have hroom : ¬ (t.size < size ∧ (uBytes s < t.base + size ∨ turfOverlaps s id (t.base + t.size) (t.base + size) = true)) := by
      rintro ⟨hlt, hbad⟩
      rcases hfits with heq | ⟨hspace, hfree⟩
      · omega
      · rw [hfree] at hbad
        simp at hbad
        omega
    simp only [begun_turf, begun_turfGet, turfGet_of_some hturf, hturf, begun_uBytes, begun_turfOverlaps]
    simpa [hseg, hpos.ne', hle.not_gt] using hroom
  case shrink =>
    intro s rq id size t h hid hturf hpos hmod hlt hreach hjobs
    have hseg : size % seg2M = 0 := hmod
    refine run_ok h.1 (atornQ_done h.2 (by simp [hid]) rfl ?_ (by simp [hturf, hlt]))
    simp [hturf, turfGet_of_some hturf, hlt.le, hreach, hjobs, hpos.ne', hseg]
  case set =>
    rintro s rq id mask reserve cap deadline rtype t u h hid hturf hbad rfl hreserve hcap hdevice
    refine run_ok h.1 (atornQ_done h.2 (by simp [hid, hbad]) rfl ?_ (turfMod_of_some (by rw [begun_turf, hturf]) _))
    simpa [hturf, turfGet_of_some hturf, hcap, Nat.not_lt, imp_iff_not_or] using ⟨hreserve, hdevice⟩
  case grant =>
    intro s rq id g access t h hid hg haccess hturf hroom hpresent
    refine run_ok h.1 (atornQ_done h.2 (by simp [hid, hg, haccess]) rfl ?_ (turfMod_of_some (by rw [begun_turf, hturf]) _))
    simp only [begun_turf, begun_turfGet, turfGet_of_some hturf, hturf, begun_grantCount, begun_granteePresent, hpresent]
    rcases hroom with hsome | ⟨hfew, htotal⟩
    · simp [Option.isNone_eq_false_iff.2 hsome]
    · simp [hfew, htotal]
  case revoke =>
    intro s rq id g t h hid hg hturf hgrant hreach
    refine run_ok h.1 (atornQ_done h.2 (by simp [hid, hg]) rfl ?_ (turfMod_of_some (by rw [begun_turf, hturf]) _))
    simp [hturf, turfGet_of_some hturf, Option.isNone_eq_false_iff.2 hgrant, hreach]
  case queryOne =>
    intro s rq id t h hid hturf hseen
    exact run_ok h.1 (atorn_done h.2 rfl (by simp only [hturf, hseen]) (by simp [hid.not_ge]) rfl (by simp [hturf]) rfl)
  case queryAll =>
    intro s rq h hnone
    exact run_ok h.1 (atorn_done h.2 rfl (by simp only [hnone]) (by simp) rfl (by simp) rfl)

/-! ### Windows, unmaps and decoders (R65-R67, R102) -/

theorem unmapStep_of_idle {s : State} {b : Nat} (howed : b ∈ s.te.unmaps) (hhome : homedHere s (b / 32) = true)
    (hrest : (s.seg (b / 32)).migrating = false) (hidle : unmapIdle s b = true) : unmapStep b s = unmapOrdered b s := by
  simp [unmapStep, howed, hhome, hrest, hidle]

theorem unmapStep_of_busy {s : State} {b : Nat} (h : b ∉ s.te.unmaps ∨ unmapIdle s b = false) : unmapStep b s = s := by
  rcases h with h | h <;> simp [unmapStep, h]

/-- What a commit of a decoder asks for (R65, R66). -/
theorem hdmCommit_iff {s : State} {p l k base size ways gran pos start : Nat} :
    (hdmFormOk base size ways gran pos && hdmInOrder s p l k base && decide (start + size / 2 ^ ways ≤ uBytes s)
      && covered s (mayReach (.fn p l) false) start (start + size / 2 ^ ways)) = true ↔
    base % 2 ^ 28 = 0 ∧ size % 2 ^ 28 = 0 ∧ 0 < size ∧ ways ≤ 4 ∧ 8 ≤ gran ∧ gran ≤ 14 ∧ pos < 2 ^ ways ∧
      (∀ i < k, ((s.ld p l).decs.get {} i).committed = true ∧
        ((s.ld p l).decs.get {} i).base + ((s.ld p l).decs.get {} i).size ≤ base) ∧
      start + size / 2 ^ ways ≤ uBytes s ∧ covered s (mayReach (.fn p l) false) start (start + size / 2 ^ ways) = true := by
  simp only [hdmFormOk, hdmInOrder, Bool.and_eq_true, beq_iff_eq, decide_eq_true_eq, List.all_eq_true, List.mem_range, and_assoc]

/-- Settles O15: the row of the window, the two ends of an owed unmap, and the commit of a decoder. -/
theorem windowsAndDecodersComplete : Obligations.WindowsAndDecodersComplete := by
  refine ⟨?window, ?idle, ?busy, ?commit, ?committed⟩
  case window =>
    rintro s rq fn base len p f h hown rfl hplain hbase hlen hsize hcover
    have hsegs : base % seg2M = 0 ∧ len % seg2M = 0 := ⟨hbase, hlen⟩
    refine run_ok h.1 ?_
    dsimp only [windowMap]
    refine atorn_done h.2 rfl (by simpa using hown) (by simp [hplain]) rfl ?_ rfl
    simp [hsegs, hsize, hcover]
  case idle =>
    intro s b hb howed hhome hrest hidle
    exact run_ok (decide_eq_true hb) (by rw [billetUnmap, unmapStep_of_idle howed hhome hrest hidle])
  case busy =>
    intro s b hb h
    exact run_ok (decide_eq_true hb) (by rw [billetUnmap, unmapStep_of_busy h])
  case commit =>
    intro s p l k base size ways gran pos skip lock hwf hreached hplain hold
    refine ⟨_, ⟨_, !_, lock && _, base, size, ways, gran, pos, skip, hdmStart s p l k skip⟩, run_ok hwf ?_, rfl, rfl, rfl, rfl,
      hdmCommit_iff⟩
    simp only [hdmDecoderCommit, hreached, hplain, hold, Bool.not_true, Bool.or_self, Bool.false_eq_true, if_false]
    rfl
  case committed =>
    intro s p l k base size ways gran pos skip lock hwf hold
    refine run_ok hwf ?_
    simp only [hdmDecoderCommit, hold, Bool.not_true, Bool.false_eq_true, if_false, if_true, ite_self]

end Sys2Proof.Proofs

/-! ## Requests of hosts (chapters 4 and 10)

CXL.mem requests, the requests of a plain PCIe function and configuration space: the branch of each meaning that the clause's
conditions choose, with what counting a write leaves of the state that the later branches read. -/

namespace Sys2Proof.Proofs

open Sys2Proof Sys2Proof.Machine Sys2Proof.Safety Sys2Proof.Laws

/-! ### What counting leaves of the tests that a request meets -/

section Counted

variable (code inst qual n : Nat) (s : State)

@[simp] theorem count_te : (count code inst qual n s).te = s.te := (count_reports (.refl s)).rest.te
@[simp] theorem count_tu : (count code inst qual n s).tu = s.tu := (count_reports (.refl s)).tu
@[simp] theorem count_lds : (count code inst qual n s).px.lds = s.px.lds := (count_counts (.refl s)).lds
@[simp] theorem count_open : (count code inst qual n s).px.open_ = s.px.open_ :=
  (pxRest_eq (count_reports (.refl s)).rest.px).2.1

theorem count_notReady : notReady (count code inst qual n s) = notReady s := by
  simp only [notReady, count_open, count_tu]

theorem count_turfAt (d : Nat) : turfAt (count code inst qual n s) d = turfAt s d := by
  simp only [turfAt, count_te]

theorem count_cxlDpa (m : MReq) : cxlDpa (count code inst qual n s) m = cxlDpa s m := by
  simp only [cxlDpa, hdmRoute, State.ld, count_lds, count_turfAt]

theorem count_covered (p : Turf → Bool) (lo hi : Nat) : covered (count code inst qual n s) p lo hi = covered s p lo hi :=
  coveredFrom_congr (by rw [count_te]) p _ lo hi

theorem count_barDpa (p f off len : Nat) : barDpa (count code inst qual n s) p f off len = barDpa s p f off len := by
  simp only [barDpa, count_te, count_covered]

end Counted

/-! ### Notification leaves the power state of every function (R241) -/

/-- Every function is in D3hot in `t` where it is in `s`. -/
structure SameD3 (s t : State) : Prop where
  d3 : ∀ p f, (t.fn p f).d3 = (s.fn p f).d3

theorem SameD3.refl (s : State) : SameD3 s s := ⟨fun _ _ => rfl⟩

theorem SameD3.trans {s u t : State} (h : SameD3 s u) (k : SameD3 u t) : SameD3 s t := ⟨fun p f => (k.d3 p f).trans (h.d3 p f)⟩

theorem SameD3.ite {s t u : State} {c : Prop} [Decidable c] (h : SameD3 s t) (k : SameD3 s u) : SameD3 s (if c then t else u) := by
  split
  · exact h
  · exact k

section D3

variable {s u : State} (h : SameD3 s u)

include h

theorem sameD3_of_fns {t : State} (k : t.px.fns = u.px.fns) : SameD3 s t := h.trans ⟨fun _ _ => by simp only [State.fn, k]⟩

theorem foldl_sameD3 {α : Type} {g : State → α → State} (hg : ∀ v a, SameD3 s v → SameD3 s (g v a)) (l : List α) :
    SameD3 s (l.foldl g u) := by
  induction l generalizing u with
  | nil => exact h
  | cons a l ih => exact ih (hg u a h)

theorem modFn_sameD3 {g : FnState → FnState} (hg : ∀ x, (g x).d3 = x.d3) (p f : Nat) : SameD3 s (u.modFn p f g) := by
  refine h.trans ⟨fun q k => ?_⟩
  by_cases hkey : q * 16 + k = p * 16 + f
  · simp only [State.fn, State.modFn, hkey, get_upd_same, hg]
  · rw [modFn_other _ _ _ _ _ _ hkey]

theorem fire_sameD3 (p f v : Nat) : SameD3 s (fire p f v u) := by
  refine .ite (sameD3_of_fns h rfl) (modFn_sameD3 h (fun x => ?_) p f)
  rfl

theorem countQuiet_sameD3 (code inst n : Nat) : SameD3 s (countQuiet code inst n u) := sameD3_of_fns h rfl

theorem notePut_sameD3 (ch code aux param : Nat) : SameD3 s (notePut ch code aux param u) := by
  have hquiet := countQuiet_sameD3 h 0x2C24 ch 1
  have hput (v : State) (hv : SameD3 s v) : SameD3 s (v.modMbox ch (fun m => fifoPut m code aux param)) := sameD3_of_fns hv rfl
  have hplaced := hput (if ((countQuiet 0x2C24 ch 1 u).mbox ch).fifo.length < 256 then countQuiet 0x2C24 ch 1 u
    else countQuiet 0x2C25 ch 1 (countQuiet 0x2C24 ch 1 u)) (.ite hquiet (countQuiet_sameD3 hquiet 0x2C25 ch 1))
  unfold notePut
  refine .ite h ?_
  dsimp only
  split
  next p f _ =>
    have hfired := SameD3.ite (c := (u.mbox ch).fifo.isEmpty = true) (fire_sameD3 hplaced p f 1) hplaced
    exact .ite hfired (fire_sameD3 hfired p f _)
  next => exact hplaced

theorem route_sameD3 (code aux param : Nat) (nm : Names) : SameD3 s (route code aux param nm u) :=
  foldl_sameD3 h (fun _ ch hv => .ite (notePut_sameD3 hv ch code aux param) hv) _

theorem count_sameD3 (code inst qual n : Nat) : SameD3 s (count code inst qual n u) := by
  unfold count
  dsimp only
  refine foldl_sameD3 (sameD3_of_fns h ?_) (fun v k hv => route_sameD3 (sameD3_of_fns hv ?_) 0x4400 k 0 .nothing) _
  · rfl
  · rfl

end D3

/-! ### CXL.mem (R233) -/

section Cxl

variable {s : State} {m : MReq}

theorem memRead_of_dpa {d : Nat} (hserves : cxlServes s m = true) (hready : notReady s = false) (hdpa : cxlDpa s m = some d)
    (rd : List RdRes) : memRead m rd s = afterAccess (submit (cxlAcc m .cxlRd d none rd) s) := by
  simp [memRead, hserves, hready, hdpa]

theorem memWrite_of_granted {d id : Nat} {t : Turf} (hserves : cxlServes s m = true) (hready : notReady s = false)
    (hdpa : cxlDpa s m = some d) (hturf : turfAt s d = some (id, t)) (hmay : mayReach (.fn m.port m.ld) true t = true)
    (data : Line) (mask : BitVec 64) (rd : List RdRes) : memWrite m data mask false rd s =
      afterAccess (submit (cxlAcc m .cxlWr d (some (data, mask)) rd) (count 0x0020 m.port 0 64 s)) := by
  simp [memWrite, hserves, count_notReady, hready, count_cxlDpa, hdpa, count_turfAt, hturf, hmay]

/-- Where no CXL port takes a request nothing happens. -/
theorem memRead_of_notServed (h : cxlServes s m = false) (rd : List RdRes) : memRead m rd s = s := by
  simp [memRead, h]

theorem memWrite_of_notServed (h : cxlServes s m = false) (data : Line) (mask : BitVec 64) (poison : Bool) (rd : List RdRes) :
    memWrite m data mask poison rd s = s := by
  simp [memWrite, h]

end Cxl

/-- Settles O16: the served branch of each request, and the branch of a port that takes none. -/
theorem lineRequestsComplete : Obligations.LineRequestsComplete := by
  refine ⟨?read, ?write, ?spec, ?other, ?notServed⟩
  case read =>
    intro s m rd d hwf hserves hready hdpa
    have hread := memRead_of_dpa hserves hready hdpa rd
    exact ⟨run_ok hwf hread, run_ok hwf hread⟩
  case write =>
    intro s m rd d id t hwf hserves hready hdpa hturf hmay
    exact ⟨fun data n => run_ok hwf (memWrite_of_granted hserves hready hdpa hturf hmay ..),
      fun data mask => run_ok hwf (memWrite_of_granted hserves hready hdpa hturf hmay ..)⟩
  case spec =>
    intro s m hwf
    exact run_ok hwf rfl
  case other =>
    intro s m op hwf hop hserves
    exact run_ok (by simp [Instr.wf, hwf, hop]) (if_pos hserves)
  case notServed =>
    intro s m rd data mask poison n op hwf hop hno
    have hread := memRead_of_notServed hno rd
    exact ⟨run_ok hwf hread, run_ok hwf hread, run_ok hwf (memWrite_of_notServed hno ..), run_ok hwf (memWrite_of_notServed hno ..),
      run_ok (by simp [Instr.wf, hwf, hop]) (if_neg (ne_true_of_eq_false hno))⟩

/-! ### A function's requests (R67, R228, R230, R235, R241) -/

theorem configRequest_of_present {s : State} {p f : Nat} (hport : portServes s p = true) (hfn : f ∈ portFns s p) (off : Nat)
    (wr : Option Word) : configRequest p f off wr s = match wr with
      | some v => emit (.cfgCpl p f off (some v)) (cfgWrite p f off v.toNat s)
      | none => cfgRead p f off s := by
  simp only [configRequest, hport, List.contains_iff_mem.2 hfn, Bool.not_true, Bool.false_eq_true, if_false] <;> rfl

/-- Settles O18: the branch of each request that is served. -/
theorem functionRequestsComplete : Obligations.FunctionRequestsComplete := by
  refine ⟨?read, ?write, ?atomic, ?cfgWrite, ?cfgRead, ?absent, ?flush, ?reset⟩
  case read =>
    intro s p f tag off len rd d hwf hserves hd3 hready hdpa
    exact run_ok hwf (by simp [bar2Read, hserves, hd3, hready, hdpa])
  case write =>
    intro s p f off bytes relaxed rd d hwf hserves hd3 hready hdpa hcover
    have hd3' : ((count 0x0020 p 0 bytes.length s).fn p f).d3 = false := ((count_sameD3 (.refl s) ..).d3 p f).trans hd3
    exact run_ok hwf (by simp [bar2Write, hserves, hd3', count_notReady, hready, count_barDpa, hdpa, count_covered, hcover])
  case atomic =>
    intro s p f tag hwf hreached
    exact ⟨_, run_ok hwf (if_pos hreached), rfl, rfl⟩
  case cfgWrite =>
    intro s p f off v hwf hport hfn
    exact run_ok hwf (configRequest_of_present hport hfn off _)
  case cfgRead =>
    intro s p f off hwf hport hfn
    exact run_ok hwf (configRequest_of_present hport hfn off _)
  case absent =>
    intro s p f off wr hwf hport hfn
    have hnot : (portFns s p).contains f = false := by simpa using hfn
    exact run_ok hwf (by simp only [configRequest, hport, hnot, Bool.not_true, Bool.not_false, Bool.false_eq_true, if_false, if_true]; rfl)
  case flush =>
    intro s p hp hport hplain
    exact run_ok (decide_eq_true hp) (by simp only [gpfFlush, hport, hplain, Bool.not_false, Bool.and_self, if_true]; rfl)
  case reset =>
    intro s p f hok hreached
    exact run_ok hok (if_pos hreached)

/-! ### Configuration space (R228) -/

/-- An access to a register of the standard header or of a capability, aligned and within the function's space. -/
theorem configurationRequest_wf {p f off : Nat} (hp : p < 10) (hf : f < 256) (hoff : off < 4096) (halign : off % 4 = 0)
    (wr : Option Word) : (Instr.configurationRequest p f off wr).wf = true := by
  simp [Instr.wf, portOk, hp, hf, hoff, halign]

theorem bit_eq_getLsbD (v : Word) (i : Nat) : (v.toNat / 2 ^ i % 2 == 1) = v.getLsbD i := by
  rw [BitVec.getLsbD, Nat.testBit_eq_decide_div_mod_eq]
  rfl

/-- Settles O19: the identity's word, and the two registers that steer a function. -/
theorem configurationSpace : Obligations.ConfigurationSpace := by
  refine ⟨?identity, ?command, ?power⟩
  case identity =>
    intro s p f hport hfn hp hf
    exact run_ok (configurationRequest_wf hp hf (by decide) (by decide) _) (configRequest_of_present hport hfn 0 none)
  case command =>
    intro s p f v hport hfn hp hf
    refine ⟨_, run_ok (configurationRequest_wf hp hf (by decide) (by decide) _) (configRequest_of_present hport hfn 4 (some v)), ?_⟩
    have hfn' : (emit (.cfgCpl p f 4 (some v)) (cfgWrite p f 4 v.toNat s)).fn p f =
        { s.fn p f with mse := v.toNat / 2 % 2 == 1, bme := v.toNat / 4 % 2 == 1 } := modFn_same ..
    rw [hfn']
    exact ⟨bit_eq_getLsbD v 1, bit_eq_getLsbD v 2⟩
  case power =>
    intro s p f v hport hfn hp hf
    refine ⟨_, run_ok (configurationRequest_wf hp hf (by decide) (by decide) _) (configRequest_of_present hport hfn 0x44 (some v)), ?_⟩
    have hfn' : (emit (.cfgCpl p f 0x44 (some v)) (cfgWrite p f 0x44 v.toNat s)).fn p f =
        { s.fn p f with d3 := v.toNat % 4 == 3 } := modFn_same ..
    rw [hfn']
    exact beq_iff_eq

end Sys2Proof.Proofs

/-! ## A host's write and read of one line (chapters 2 and 4 to 6)

The write's path on a device with no twin: the line is stored, and what follows (the frame's state, the journal, reservations,
channels, the segment's history) leaves every stored line alone. -/

namespace Sys2Proof.Proofs

open Sys2Proof Sys2Proof.Machine Sys2Proof.Safety Sys2Proof.Laws

/-! ### What a write stores beyond its line -/

/-- `t` holds the lines, the tier map and the pair of `s`, and frame `f` is in the same state. -/
structure SameStores (f : Nat) (s t : State) : Prop where
  lines : t.ft.lines = s.ft.lines
  mlines : t.mc.mlines = s.mc.mlines
  map : t.te.map = s.te.map
  st : (t.frame f).st = (s.frame f).st
  open_ : t.px.open_ = s.px.open_
  tu : t.tu = s.tu

namespace SameStores

theorem refl (f : Nat) (s : State) : SameStores f s s := ⟨rfl, rfl, rfl, rfl, rfl, rfl⟩

variable {f : Nat} {s u v : State}

theorem trans (h : SameStores f s u) (k : SameStores f u v) : SameStores f s v :=
  ⟨k.lines.trans h.lines, k.mlines.trans h.mlines, k.map.trans h.map, k.st.trans h.st, k.open_.trans h.open_, k.tu.trans h.tu⟩

theorem ite {c : Prop} [Decidable c] (h : SameStores f s u) (k : SameStores f s v) : SameStores f s (if c then u else v) := by
  split
  · exact h
  · exact k

theorem foldl {α : Type} {g : State → α → State} (hg : ∀ v a, SameStores f s v → SameStores f s (g v a)) (l : List α)
    (h : SameStores f s u) : SameStores f s (l.foldl g u) := by
  induction l generalizing u with
  | nil => exact h
  | cons a l ih => exact ih (hg u a h)

theorem reports (h : SameStores f s u) (k : Reports u v) : SameStores f s v :=
  h.trans ⟨by rw [k.rest.ft], by rw [k.rest.mc], by rw [k.rest.te], by simp only [State.frame, k.rest.te],
    (pxRest_eq k.rest.px).2.1, k.tu⟩

end SameStores

section Stores

variable {f : Nat} {s u : State} (h : SameStores f s u)

include h

theorem modFrame_sameStores {g : Frame → Frame} (hg : (g (u.frame f)).st = (u.frame f).st) : SameStores f s (u.modFrame f g) :=
  h.trans ⟨rfl, rfl, rfl, by rw [modFrame_same, hg], rfl, rfl⟩

theorem dirtyFrame_sameStores (hdirty : (s.frame f).st = .dirty) : SameStores f s (dirtyFrame f u) := by
  refine modFrame_sameStores h ?_
  rw [show (u.frame f).st = .dirty from h.st.trans hdirty]

theorem journalAdd_sameStores (billet kind val : Nat) : SameStores f s (journalAdd billet kind val u) := by
  refine h.trans ?_
  unfold journalAdd
  refine .ite ?_ ⟨rfl, rfl, rfl, rfl, rfl, rfl⟩
  unfold journalWrite
  exact .ite ⟨rfl, rfl, rfl, rfl, rfl, rfl⟩ ⟨rfl, rfl, rfl, rfl, rfl, rfl⟩

theorem dirtiedRecord_sameStores : SameStores f s (dirtiedRecord f u) :=
  .ite h (journalAdd_sameStores (modFrame_sameStores h rfl) ..)

theorem wrote_sameStores (hdirty : (s.frame f).st = .dirty) (l : Nat) : SameStores f s (wrote f l u) :=
  dirtiedRecord_sameStores (modFrame_sameStores (dirtyFrame_sameStores h hdirty) rfl)

theorem poisonDel_sameStores (dpa : Nat) (billet : Bool) : SameStores f s (poisonDel dpa billet u) :=
  h.trans ⟨rfl, rfl, rfl, rfl, rfl, rfl⟩

theorem poisonCleared_sameStores : SameStores f s (poisonCleared f u) := .ite (poisonDel_sameStores h ..) h

theorem leaveFilling_sameStores (hdirty : (s.frame f).st = .dirty) : SameStores f s (leaveFilling f u) := by
  have hst : (u.frame f).st = .dirty := h.st.trans hdirty
  have hsame : leaveFilling f u = u := by
    unfold leaveFilling
    dsimp only
    rw [hst]
    rfl
  rw [hsame]
  exact h

theorem dropResv_sameStores (a : Acc) : SameStores f s (dropResv a u) := by
  refine .foldl (fun v i hv => ?_) _ h
  dsimp only
  split
  · refine .ite ?_ hv
    exact .ite ((hv.trans (v := v.modCpu i (fun c => { c with resv := none, resvAge := 0 })) ⟨rfl, rfl, rfl, rfl, rfl, rfl⟩).reports
      (count_reports (.refl _))) hv
  · exact hv

theorem srcWritten_sameStores (a : Acc) : SameStores f s (srcWritten a u) := by
  refine .foldl (fun v c hv => ?_) _ h
  dsimp only
  split
  · refine .ite ?_ hv
    exact (hv.trans (v := v.modChan c (fun x => { x with srcWritten := true })) ⟨rfl, rfl, rfl, rfl, rfl, rfl⟩).reports
      (ledger_reports (raise_reports (.refl _)))
  · exact hv

/-- With no twin in sync, the home only writes down who wrote (R199). -/
theorem watchWriters_sameStores (hps : s.tu.ps = .unpaired) (a : Acc) : SameStores f s (watchWriters a u) := by
  have hno : (u.tu.ps == .inSync) = false := by rw [h.tu, hps]; rfl
  simp only [watchWriters, modSeg_tu, hno, Bool.false_and, Bool.false_eq_true, if_false]
  exact h.trans ⟨rfl, rfl, rfl, rfl, rfl, rfl⟩

end Stores

/-! ### The bytes of a whole line -/

theorem byteMask_getLsbD (k : Nat) : (0xFF#512).getLsbD k = (decide (k < 512) && decide (k < 8)) := by
  rw [BitVec.getLsbD_ofNat, show Nat.testBit 255 k = decide (k < 8) from Nat.testBit_two_pow_sub_one 8 k]

theorem putByte_getLsbD {v : BitVec 512} {i : Nat} {b : Byte} {k : Nat} (hk : k < 512) :
    (putByte v i b).getLsbD k = if k / 8 = i then b.getLsbD (k % 8) else v.getLsbD k := by
  simp only [putByte, BitVec.getLsbD_or, BitVec.getLsbD_and, BitVec.getLsbD_not, BitVec.getLsbD_shiftLeft, BitVec.getLsbD_setWidth,
    byteMask_getLsbD, hk, decide_true, Bool.true_and]
  by_cases h : k / 8 = i
  · have hlow : ¬ k < 8 * i := by omega
    have hmod : k - 8 * i = k % 8 := by omega
    have hbyte : k % 8 < 8 := Nat.mod_lt _ (by decide)
    have hline : k % 8 < 512 := by omega
    simp [h, hlow, hmod, hbyte, hline]
  · rw [if_neg h]
    by_cases hlow : k < 8 * i
    · simp [hlow]
    · have hout : 8 ≤ k - 8 * i := by omega
      simp [hout.not_gt, BitVec.getLsbD_of_ge b _ hout]

theorem byteOf_getLsbD (v : BitVec 512) {i k : Nat} (hk : k < 8) : (byteOf v i).getLsbD k = v.getLsbD (8 * i + k) := by
  simp [byteOf, hk]

/-- The first `n` bytes of one line over another. -/
theorem foldl_putByte_getLsbD (old new : Line) (n : Nat) {k : Nat} (hk : k < 512) :
    ((List.range n).foldl (fun v i => putByte v i (byteOf new i)) old).getLsbD k =
      if k / 8 < n then new.getLsbD k else old.getLsbD k := by
  induction n with
  | zero => rfl
  | succ n ih =>
    rw [List.range_succ, List.foldl_append, List.foldl_cons, List.foldl_nil, putByte_getLsbD hk]
    split
    next h =>
      rw [byteOf_getLsbD new (Nat.mod_lt _ (by decide)), if_pos (by omega)]
      congr 1
      omega
    next h =>
      rw [ih]
      have hiff : k / 8 < n ↔ k / 8 < n + 1 := by omega
      simp only [hiff]

theorem fullMask_getLsbD {i : Nat} (h : i < 64) : fullMask.getLsbD i = true := by
  have hall : fullMask = BitVec.allOnes 64 := rfl
  rw [hall, BitVec.getLsbD_allOnes]
  exact decide_eq_true h

/-- A write of every byte of a line leaves nothing of the old one (R84). -/
theorem maskMerge_fullMask (old new : Line) : maskMerge old new fullMask = new := by
  have hput : maskMerge old new fullMask = (List.range 64).foldl (fun v i => putByte v i (byteOf new i)) old := by
    refine List.foldl_ext _ _ _ fun v i hi => ?_
    rw [fullMask_getLsbD (List.mem_range.1 hi), if_pos rfl]
  refine BitVec.eq_of_getLsbD_eq fun k hk => ?_
  rw [hput, foldl_putByte_getLsbD old new 64 hk, if_pos (by omega)]

/-! ### The write's path (R102, R104) -/

section Write

variable {s : State} {a : Acc} {f : Nat} {d : Line}

/-- The state in which the line has been stored in its frame. -/
def lineStored (a : Acc) (f : Nat) (d : Line) (s : State) : State :=
  poisonDel (lineDpa (s.frame f).billet a.lineIn) false (putLine f a.lineIn (.data d) s)

theorem writeLine_of_full (hwr : a.wr = some (d, fullMask)) (hrd : a.rd = []) (hstall : devStalled s f = false) :
    writeLine a f s =
      ordered a (leaveFilling f (poisonCleared f (wrote f a.lineIn (lineStored a f d s)))) := by
  have hfull : isFull a = true := by simp [isFull, hwr]
  have hline : newLine a 0 = d := by simp only [newLine, hwr, maskMerge_fullMask]
  have hsent : lineSent f a.rd s = (true, s) := by rw [hrd]; rfl
  simp only [writeLine, hstall, hfull, Bool.false_eq_true, if_false, if_true, hsent, hline]
  rfl

/-- Without a twin a host's write is answered once its line is stored (R14, R201). -/
theorem ordered_of_standalone (hkind : a.kind = .cxlWr) (hps : s.tu.ps = .unpaired) (hpair : s.tu.record.pairId = 0) :
    ordered a s = .done (answerWrite a (watchWriters a (srcWritten a (dropResv a s)))) := by
  have hsame := srcWritten_sameStores (dropResv_sameStores (.refl 0 s) a) a
  have hmirror : mirrored (srcWritten a (dropResv a s)) a.seg = false := by simp only [mirrored, hsame.tu, hps]
  simp only [ordered, hkind, hsame.tu, hpair, hmirror, hps, if_true, Option.isSome_none, Bool.false_and, Bool.or_self,
    Bool.false_eq_true, if_false]
  rfl

/-- Storing a line touches the front tier's lines alone of what a device holds. -/
theorem lineStored_sameStores (a : Acc) (f : Nat) (d : Line) (s : State) :
    SameStores f { s with ft := { s.ft with lines := s.ft.lines.set zeroLine (lineKey f a.lineIn) (.data d) } } (lineStored a f d s) := by
  have hcounted : SameStores f s (ftAccess (frameDev f) 2 s) := (SameStores.refl f s).reports (count_reports (count_reports (.refl s)))
  unfold lineStored putLine checkWrite
  generalize ftAccess (frameDev f) 2 s = u at hcounted
  exact ⟨by rw [← hcounted.lines]; rfl, hcounted.mlines, hcounted.map, hcounted.st, hcounted.open_, hcounted.tu⟩

/-- A host's write at a device that homes every segment goes to its frame. -/
theorem serve_of_standalone_write (hkind : a.kind = .cxlWr) (hwr : a.wr = some (d, fullMask)) (hready : notReady s = false)
    (hover : failingOver s = false) (hps : s.tu.ps = .unpaired) (hmap : s.te.map.get .unmapped a.billet = .res f)
    (hcounted : (s.frame f).counted = true) (old : Bool) (y : Why) (prior : List Wait) :
    serve old a y prior s = writeLine a f s := by
  have hwrite : a.isWrite = true := by simp [Acc.isWrite, hkind, hwr]
  have hhome : homedHere s a.seg = true := by simp only [homedHere, hps]
  have hsync : (s.tu.ps == .inSync) = false := by rw [hps]; rfl
  have hsource : (s.tu.ps == .resyncSource) = false := by rw [hps]; rfl
  have hpath : writePath a y prior s = writeLine a f s := by simp only [writePath, hmap, hcounted, if_true]
  simp only [serve, hkind, hready, hwrite, hover, hhome, hsync, hsource, hpath, Bool.and_false, Bool.false_and, Bool.false_eq_true,
    if_false, if_true, Bool.true_or]

end Write

/-- Settles O20: the write stores its line, and what follows keeps every stored line (`SameStores`). -/
theorem hostWriteStoresOneLine : Obligations.HostWriteStoresOneLine := by
  intro s old a y prior f d hkind hwr hrd hready hover hps hpair hmap hst hcounted hstall
  have hstored := lineStored_sameStores a f d s
  have hmoved := leaveFilling_sameStores (poisonCleared_sameStores (wrote_sameStores hstored hst a.lineIn)) hst
  have hdone := watchWriters_sameStores (srcWritten_sameStores (dropResv_sameStores hmoved a) a) hps a
  refine ⟨_, ?_, ?_, fun k hk => ?_, hdone.mlines, hdone.map, hdone.st.trans hst, hdone.open_⟩
  · rw [serve_of_standalone_write hkind hwr hready hover hps hmap hcounted, writeLine_of_full hwr hrd hstall,
      ordered_of_standalone hkind (by rw [hmoved.tu]; exact hps) (by rw [hmoved.tu]; exact hpair)]
  · rw [hdone.lines]
    exact get_set_same ..
  · rw [hdone.lines]
    exact get_set_other _ _ _ _ _ hk

/-! ### The read's path (R59, R83, R104) -/

section Read

variable {s : State} {a : Acc} {f : Nat}

/-- A host's read at a device with no twin takes the read path. -/
theorem serve_of_standalone_read (hkind : a.kind = .cxlRd) (hwr : a.wr = none) (hready : notReady s = false)
    (hps : s.tu.ps = .unpaired) (old : Bool) (y : Why) (prior : List Wait) : serve old a y prior s = readPath a y prior s := by
  have hread : a.isWrite = false := by simp [Acc.isWrite, hkind, hwr]
  have hsync : (s.tu.ps == .inSync) = false := by rw [hps]; rfl
  have htarget : (s.tu.ps == .resyncTarget) = false := by rw [hps]; rfl
  simp only [serve, hkind, hready, hread, hsync, htarget, Bool.and_false, Bool.false_and, Bool.or_self, Bool.false_eq_true, if_false]

theorem ftAccess_sameStores {u : State} (h : SameStores f s u) (d n : Nat) : SameStores f s (ftAccess d n u) :=
  h.reports (count_reports (count_reports (.refl u)))

/-- A read of a line counts accesses and moves its check slots. -/
theorem lineFetch_sameStores (l : Nat) (rd : List RdRes) (u : State) : SameStores f u (lineFetch f l rd u) := by
  have hcounted := ftAccess_sameStores (.refl f u) (frameDev f) (min 3 (edcErrors rd + 1))
  have hchecked : SameStores f u (checkRead f l (ftAccess (frameDev f) (min 3 (edcErrors rd + 1)) u)) := by
    generalize ftAccess (frameDev f) (min 3 (edcErrors rd + 1)) u = v at hcounted ⊢
    unfold checkRead
    dsimp only
    generalize hslots : State.modFtDev v (frameDev f) _ = w
    have hw : SameStores f u w := by
      subst hslots
      exact hcounted.trans ⟨rfl, rfl, rfl, rfl, rfl, rfl⟩
    exact .ite hw (ftAccess_sameStores (hw.reports (count_reports (.refl w))) ..)
  unfold lineFetch
  dsimp only
  generalize checkRead f l (ftAccess (frameDev f) (min 3 (edcErrors rd + 1)) u) = v at hchecked ⊢
  exact .ite hchecked (hchecked.trans ⟨rfl, rfl, rfl, rfl, rfl, rfl⟩)

/-- What a read with no error gives of a line. -/
def readOut : LineVal → LineRes
  | .data v => .data v
  | .poison => .poison

theorem ftRead_of_clean (l : Nat) (u : State) : ftRead f l [] u = (readOut (getLine u f l), lineFetch f l [] u) := by
  have hline : getLine (lineFetch f l [] u) f l = getLine u f l := by
    rw [getLine, (lineFetch_sameStores l [] u).lines, getLine]
  simp only [ftRead, ftReadRest, hline]
  cases getLine u f l <;> rfl

theorem readPath_of_resident (hmap : s.te.map.get .unmapped a.billet = .res f) (hst : (s.frame f).st ∈ [.clean, .dirty])
    (hstall : devStalled s f = false) (hrd : a.rd = []) (y : Why) (prior : List Wait) :
    ∃ t, readPath a y prior s = .done (answerRead a (getLine s f a.lineIn) t) ∧ t.ft.lines = s.ft.lines ∧ t.te.map = s.te.map := by
  have hfull : ((s.frame f).st == .filling) = false := by
    rcases List.mem_pair.1 hst with h | h <;> rw [h] <;> rfl
  have hread (u : State) (hu : u.ft.lines = s.ft.lines) : ftRead f a.lineIn [] u = (readOut (getLine s f a.lineIn), lineFetch f a.lineIn [] u) := by
    rw [ftRead_of_clean, getLine, hu, getLine]
  have hsame (u : State) := lineFetch_sameStores (f := f) a.lineIn [] u
  refine ⟨_, ?_, (hsame (s.modFrame f fun x => { x with touched := true, st := if x.st == .evicting then .clean else x.st })).lines,
    (hsame _).map⟩
  simp only [readPath, hmap, hfull, hrd, show ∀ g, devStalled (s.modFrame f g) f = false from fun _ => hstall, Bool.false_and,
    Bool.false_eq_true, if_false]
  rw [hread (s.modFrame f _) rfl]
  cases getLine s f a.lineIn <;> rfl

end Read

/-- Settles O21: the read path's three branches. -/
theorem hostReadReturnsTheLine : Obligations.HostReadReturnsTheLine := by
  intro s old a y prior hkind hwr hrd hready hps
  rw [serve_of_standalone_read hkind hwr hready hps]
  refine ⟨fun f hmap hst hstall => readPath_of_resident hmap hst hstall hrd y prior, fun hmap => ?_, fun hmap => ?_⟩
  · simp only [readPath, hmap]
  · simp only [readPath, hmap]

end Sys2Proof.Proofs

/-! ## The front tier's own events (chapter 5) -/

namespace Sys2Proof.Proofs

open Sys2Proof Sys2Proof.Machine Sys2Proof.Safety Sys2Proof.Laws

/-! ### What touches the devices' records alone -/

/-- `t` is `s` in the front tier but for the devices' own records, and in the media. -/
structure DevOnly (s t : State) : Prop where
  ft : t.ft = { s.ft with dev := t.ft.dev }
  mc : t.mc = s.mc

namespace DevOnly

theorem refl (s : State) : DevOnly s s := ⟨rfl, rfl⟩

variable {s u v : State}

theorem trans (h : DevOnly s u) (k : DevOnly u v) : DevOnly s v := ⟨by rw [k.ft, h.ft], k.mc.trans h.mc⟩

theorem reports (h : DevOnly s u) (k : Reports u v) : DevOnly s v := h.trans ⟨by rw [k.rest.ft], k.rest.mc⟩

theorem ite {c : Prop} [Decidable c] (h : DevOnly s u) (k : DevOnly s v) : DevOnly s (if c then u else v) := by
  split
  · exact h
  · exact k

theorem modFtDev (h : DevOnly s u) (d : Nat) (g : FtDev → FtDev) : DevOnly s (u.modFtDev d g) := h.trans ⟨rfl, rfl⟩

theorem ftAccess (h : DevOnly s u) (d n : Nat) : DevOnly s (ftAccess d n u) := h.reports (count_reports (count_reports (.refl u)))

theorem lineFetch (h : DevOnly s u) (f l : Nat) (rd : List RdRes) : DevOnly s (lineFetch f l rd u) := by
  have hchecked : DevOnly s (checkRead f l (Machine.ftAccess (frameDev f) (min 3 (edcErrors rd + 1)) u)) :=
    .ite ((h.ftAccess ..).modFtDev ..) ((((h.ftAccess ..).modFtDev ..).reports (count_reports (.refl _))).ftAccess ..)
  exact .ite hchecked (hchecked.modFtDev ..)

theorem formatted (h : DevOnly s u) : u.mc.formatted = s.mc.formatted := by rw [h.mc]

end DevOnly

/-! ### Re-track and temperatures (R85, R86) -/

theorem marginLow_eq_true {band m : Nat} (h : m * 100 < minMargin band * 256) : marginLow band m = true := decide_eq_true h

theorem marginLow_eq_false {band m : Nat} (h : minMargin band * 256 ≤ m * 100) : marginLow band m = false :=
  decide_eq_false h.not_gt

section Bands

/-- The readings set one device's band after the other. -/
def setBands (l : List (Int × Nat)) (s : State) : State :=
  l.foldl (fun s x => s.modFtDev x.2 (fun d => { d with rband := bandOfTemp x.1 })) s

theorem setBands_ft (l : List (Int × Nat)) (s : State) : (setBands l s).ft = { s.ft with dev := (setBands l s).ft.dev } := by
  induction l generalizing s with
  | nil => rfl
  | cons x l ih => exact ih _

theorem setBands_lines (l : List (Int × Nat)) (s : State) : (setBands l s).ft.lines = s.ft.lines := by rw [setBands_ft]

theorem setBands_band (l : List (Int × Nat)) (s : State) : (setBands l s).ft.band = s.ft.band := by rw [setBands_ft]

theorem setBands_th (l : List (Int × Nat)) (s : State) : (setBands l s).th = s.th := by
  induction l generalizing s with
  | nil => rfl
  | cons x l ih => exact ih _

theorem setBands_ftDev_other {l : List (Int × Nat)} {d : Nat} (h : ∀ x ∈ l, x.2 ≠ d) (s : State) :
    (setBands l s).ftDev d = s.ftDev d := by
  induction l generalizing s with
  | nil => rfl
  | cons x l ih =>
    rw [List.forall_mem_cons] at h
    exact (ih h.2 _).trans (modFtDev_other _ _ _ _ (Ne.symm h.1))

theorem setBands_rband {l : List (Int × Nat)} {d : Nat} {v : Int} (hval : ∀ x ∈ l, x.2 = d → x.1 = v) {s : State}
    (h : (∃ x ∈ l, x.2 = d) ∨ (s.ftDev d).rband = bandOfTemp v) : ((setBands l s).ftDev d).rband = bandOfTemp v := by
  induction l generalizing s with
  | nil => simpa [setBands] using h
  | cons x l ih =>
    rw [List.forall_mem_cons] at hval
    refine ih hval.2 ?_
    by_cases hx : x.2 = d
    · right
      subst hx
      dsimp only
      rw [modFtDev_same, hval.1 rfl]
    · dsimp only
      rw [modFtDev_other _ _ _ _ (Ne.symm hx)]
      simpa [hx] using h

theorem gddrTemps_eq (temps : List Int) (s : State) : ∃ hot, gddrTemps temps s =
    refreshSeen { setBands (temps.zipIdx.filter (fun x => !devRetired s x.2)) s with
      ft := { (setBands (temps.zipIdx.filter (fun x => !devRetired s x.2)) s).ft with hotDev := hot } } := ⟨_, rfl⟩

end Bands

/-! ### Patrol and sparing (R86-R88) -/

theorem patrolNext_ftDev (s : State) (d : Nat) : (patrolNext s).ftDev d = s.ftDev d := by
  unfold patrolNext
  split
  · rfl
  · split <;> rfl

theorem rowSparingCopy_of_clean {s : State} {q : RowSpare} {l : List RowSpare} (hq : s.ft.spareQ = q :: l)
    (hdev : devRetired s q.dev = false) : ∃ u, DevOnly s u ∧ rowSparingCopy [] s =
      if 56 ≤ q.next + 1 then sparingDone q u
      else { u with ft := { u.ft with spareQ := u.ft.spareQ.map (fun x => if x = q then { q with next := q.next + 1 } else x) } } := by
  refine ⟨_, ((DevOnly.refl s).lineFetch (rowFrame q.dev q.row q.next) (rowLine q.row q.next) []).ftAccess q.dev 2, ?_⟩
  simp only [rowSparingCopy, hq, hdev, Bool.false_eq_true, if_false, ftRead_of_clean]

/-- Settles O22: the branch of each event. -/
theorem frontTierEventsComplete : Obligations.FrontTierEventsComplete := by
  refine ⟨?writeBack, ?superseded, ?kept, ?retrained, ?silent, ?retired, ?temps, ?cooler, ?hotter, ?patrol, ?patrolSkips, ?patrolStops,
    ?copy, ?lastCopy, ?noCopy⟩
  case writeBack =>
    intro s f l hf hl hwb
    exact run_ok (by simpa [Instr.wf, frameOk, lineOk] using ⟨hf, hl⟩) (if_pos (List.contains_iff_mem.2 hwb))
  case superseded =>
    intro s f l hf hl hwb
    exact run_ok (by simpa [Instr.wf, frameOk, lineOk] using ⟨hf, hl⟩) (if_neg fun h => hwb (List.contains_iff_mem.1 h))
  case kept =>
    intro s d m r hd hm hlive hok
    refine run_ok (by simp [Instr.wf, devOk, u8, hd, hm]) ?_
    simp only [ftRetrack, hlive, marginLow_eq_false hok, Bool.not_true, Bool.false_eq_true, if_false]
  case retrained =>
    intro s d m r hd hm hlive hlow
    have hwf : (Instr.ftRetrack d m r true).wf = true := by simp [Instr.wf, devOk, u8, hd, hm]
    refine ⟨fun hok => run_ok hwf ?_, fun hstill => run_ok hwf ?_⟩
    · simp only [ftRetrack, hlive, marginLow_eq_true hlow, modFtDev_ft_band, marginLow_eq_false hok, Bool.not_true, Bool.false_eq_true, if_false, if_true]
    · simp only [ftRetrack, hlive, marginLow_eq_true hlow, modFtDev_ft_band, marginLow_eq_true hstill, Bool.not_true, Bool.false_eq_true, if_false, if_true]
  case silent =>
    intro s d m r hd hm hlive
    refine run_ok (by simp [Instr.wf, devOk, u8, hd, hm]) ?_
    simp only [ftRetrack, hlive, Bool.not_false, Bool.false_eq_true, if_false, if_true]
  case retired =>
    intro s d m r b hd hm hretired
    exact run_ok (by simp [Instr.wf, devOk, u8, hd, hm]) (if_pos hretired)
  case temps =>
    intro s temps hlen
    obtain ⟨hot, heq⟩ := gddrTemps_eq temps s
    refine ⟨_, run_ok (decide_eq_true hlen) heq, fun d hd hlive => ?_, fun d hd hretired => ?_, ?_, ?_, ?_⟩
    · have hget : temps[d]? = some (temps.getD d 0) := by
        rw [List.getD_eq_getElem?_getD, List.getElem?_eq_getElem (by omega)]
        rfl
      refine setBands_rband (fun x hx hxd => ?_) (.inl ⟨(temps.getD d 0, d), ?_, rfl⟩)
      · have hmem := List.mem_zipIdx_iff_getElem?.1 (List.mem_filter.1 hx).1
        rw [hxd, hget] at hmem
        exact (Option.some.inj hmem).symm
      · exact List.mem_filter.2 ⟨List.mem_zipIdx_iff_getElem?.2 hget, by simp [hlive]⟩
    · refine setBands_ftDev_other (fun x hx hxd => ?_) s
      have hkept := (List.mem_filter.1 hx).2
      rw [hxd, hretired] at hkept
      cases hkept
    · exact setBands_lines _ s
    · exact setBands_band _ s
    · simp only [refreshSeen, thRefresh, setBands_th]
  case cooler =>
    intro s
    exact run_ok rfl rfl
  case hotter =>
    intro s
    exact run_ok rfl rfl
  case patrol =>
    intro s rd hworks hactive
    have hnext : devActive (patrolNext s) (frameDev s.ft.patFrame) = true := by rw [devActive, patrolNext_ftDev]; exact hactive
    exact run_ok rfl (by simp only [patrolStep, hworks, hnext, Bool.not_true, Bool.false_eq_true, if_false, if_true])
  case patrolSkips =>
    intro s rd hworks hactive
    have hnext : devActive (patrolNext s) (frameDev s.ft.patFrame) = false := by rw [devActive, patrolNext_ftDev]; exact hactive
    exact run_ok rfl (by simp only [patrolStep, hworks, hnext, Bool.not_true, Bool.false_eq_true, if_false])
  case patrolStops =>
    intro s rd hworks
    exact run_ok rfl (by simp only [patrolStep, hworks, Bool.not_false, if_true])
  case copy =>
    intro s q l hq hdev hnext
    obtain ⟨u, hu, hcopy⟩ := rowSparingCopy_of_clean hq hdev
    rw [if_neg (by omega)] at hcopy
    refine ⟨_, run_ok rfl hcopy, ?_⟩
    rw [hu.ft, ← hq]
    exact ⟨rfl, rfl, rfl⟩
  case lastCopy =>
    intro s q l hq hdev hnext
    obtain ⟨u, hu, hcopy⟩ := rowSparingCopy_of_clean hq hdev
    rw [if_pos (by omega)] at hcopy
    have herase : s.ft.spareQ.erase q = l := by rw [hq, List.erase_cons_head]
    refine ⟨_, run_ok rfl hcopy, ?_⟩
    unfold sparingDone
    dsimp only
    rw [hu.formatted]
    split
    next hformatted =>
      rw [show (remapWrite { u with ft := { u.ft with spareQ := u.ft.spareQ.erase q } }).ft = { u.ft with spareQ := u.ft.spareQ.erase q }
        from rfl, show (remapWrite { u with ft := { u.ft with spareQ := u.ft.spareQ.erase q } }).mc.remapMedia = u.ft.remap from rfl, hu.ft]
      exact ⟨herase, rfl, fun _ => rfl⟩
    next hnot =>
      rw [hu.ft]
      exact ⟨herase, rfl, fun h => absurd h hnot⟩
  case noCopy =>
    intro s rd hq
    exact run_ok rfl (by simp only [rowSparingCopy, hq])

end Sys2Proof.Proofs

/-! ## Retirement, raw access and the front tier's commands (chapters 5 and 6) -/

namespace Sys2Proof.Proofs

open Sys2Proof Sys2Proof.Machine Sys2Proof.Safety Sys2Proof.Laws

/-! ### Clearing and copying ranges of a table -/

section Ranges

variable {α : Type} {d : α}

/-- In a table whose keys rise from a bound, a key below the bound is not listed. -/
theorem get_of_lt_sortedFrom {t : Tab α} {m k : Nat} (h : Tab.sortedFrom m t = true) (hk : k < m) : t.get d k = d := by
  induction t generalizing m with
  | nil => rfl
  | cons p t ih =>
    simp only [Tab.sortedFrom, Bool.and_eq_true, decide_eq_true_eq] at h
    rw [Tab.get, if_neg (by omega)]
    exact ih h.2 (by omega)

theorem get_filter_key (t : Tab α) (p : Nat → Bool) (k : Nat) :
    Tab.get d (t.filter (fun q => p q.1)) k = if p k then t.get d k else d := by
  induction t with
  | nil => simp [Tab.get]
  | cons q t ih =>
    obtain ⟨n, v⟩ := q
    rw [List.filter_cons]
    by_cases hk : k = n
    · subst hk
      by_cases hp : p k = true
      · simp [hp, Tab.get]
      · simp only [hp, Bool.false_eq_true, if_false, ih]
    · split
      · simp only [Tab.get, if_neg hk, ih]
      · simp only [Tab.get, if_neg hk, ih]

theorem get_clear_inside {t : Tab α} {lo hi k : Nat} (h : lo ≤ k ∧ k < hi) : (t.clear lo hi).get d k = d := by
  rw [Tab.clear, get_filter_key t (fun n => !(decide (lo ≤ n) && decide (n < hi))) k, if_neg (by simp [h])]

theorem get_clear_outside {t : Tab α} {lo hi k : Nat} (h : k < lo ∨ hi ≤ k) : (t.clear lo hi).get d k = t.get d k := by
  rw [Tab.clear, get_filter_key t (fun n => !(decide (lo ≤ n) && decide (n < hi))) k, if_pos (by simp; omega)]

/-- A table whose keys all lie at or above a bound rises from that bound. -/
theorem sortedFrom_of_le {t : Tab α} {m src : Nat} (h : Tab.sortedFrom m t = true) (hle : ∀ x ∈ t, src ≤ x.1) :
    Tab.sortedFrom src t = true := by
  cases t with
  | nil => rfl
  | cons p t =>
    simp only [Tab.sortedFrom, Bool.and_eq_true, decide_eq_true_eq] at h ⊢
    exact ⟨hle p List.mem_cons_self, h.2⟩

variable [DecidableEq α]

/-- Values set at shifted keys, one entry of a rising table after the other. -/
theorem get_foldl_set_shifted {src dst i m : Nat} {t : Tab α} (h : Tab.sortedFrom m t = true) (hm : src ≤ m) (acc : Tab α) :
    (t.foldl (fun acc p => acc.set d (p.1 - src + dst) p.2) acc).get d (dst + i) = t.get (acc.get d (dst + i)) (src + i) := by
  induction t generalizing acc m with
  | nil => rfl
  | cons p t ih =>
    obtain ⟨n, v⟩ := p
    simp only [Tab.sortedFrom, Bool.and_eq_true, decide_eq_true_eq] at h
    rw [List.foldl_cons, ih h.2 (by omega), Tab.get]
    by_cases hk : src + i = n
    · have hkey : n - src + dst = dst + i := by omega
      rw [if_pos hk, hkey, get_set_same, get_of_lt_sortedFrom h.2 (by omega)]
    · rw [if_neg hk, get_set_other _ _ _ _ _ (by omega)]

theorem get_copy {t : Tab α} {src dst n i : Nat} (h : Tab.wf d t = true) (hi : i < n) :
    (t.copy d src dst n).get d (dst + i) = t.get d (src + i) := by
  have hsorted := sortedFrom_of_le (src := src)
    (sortedFrom_filter t (fun p => decide (src ≤ p.1) && decide (p.1 < src + n)) ((wf_iff d t).1 h).1)
    (fun x hx => by have hkept := (List.mem_filter.1 hx).2; simp at hkept; exact hkept.1)
  rw [Tab.copy, get_foldl_set_shifted hsorted (Nat.le_refl src), get_clear_inside (by omega),
    get_filter_key t (fun k => decide (src ≤ k) && decide (k < src + n)), if_pos (by simp; omega)]

end Ranges

/-! ### The copy of a dirty frame (R90) -/

section DirtyCopy

variable {s t : State} {f g : Nat}

theorem frameRead_devOnly (f : Nat) (s : State) : DevOnly s (frameRead f s) := by
  unfold frameRead
  dsimp only
  have hseen := (DevOnly.refl s).modFtDev (frameDev f)
  exact .ftAccess (.ite (hseen _) ((hseen _).reports (count_reports (.refl _)))) ..

theorem frameRead_te (f : Nat) (s : State) : (frameRead f s).te = s.te := by
  unfold frameRead Machine.ftAccess
  dsimp only
  split <;> simp only [count_te, modFtDev_te]

theorem copied_frame (x : Frame) (t : State) (hne : g ≠ f) :
    (dropFrame f (frameInto x f g t)).frame g = { x with st := .dirty, redirty := false, touched := true, fails := 0 } := by
  simp only [State.frame, dropFrame, frameInto]
  rw [get_set_other _ _ _ _ _ hne, get_set_same]

theorem copied_line (x : Frame) (hlines : Tab.wf zeroLine t.ft.lines = true) (hne : g ≠ f) {l : Nat} (hl : l < 1024) :
    getLine (dropFrame f (frameInto x f g t)) g l = getLine t f l := by
  simp only [getLine, dropFrame, frameInto, lineKey]
  rw [get_clear_outside (by omega), get_copy hlines hl]

theorem dirtyFrameCopy_of_clean {tl : List (Nat × Line)} (hretiring : (s.ftDev (frameDev f)).st = 1) (hdirty : (s.frame f).st = .dirty)
    (hfree : freeFrame s = some g) : dirtyFrameCopy f [] tl s =
      settle (dirtiedRecord g (dropFrame f (frameInto (s.frame f) f g (ftAccess (frameDev g) 2048 (frameRead f (dropDestage f s)))))) := by
  simp [dirtyFrameCopy, frameForCopy, hretiring, hdirty, hfree, copyBads]

end DirtyCopy

/-! ### Retirement and raw access (R90, R94) -/

theorem any_used_eq_false {s : State} {d : Nat} {p : FrState → Bool}
    (h : ∀ kv ∈ s.te.frames, frameDev kv.1 ≠ d ∨ frUsed kv.2.st = false) :
    (s.te.frames.any fun kv => frameDev kv.1 == d && frUsed kv.2.st && p kv.2.st) = false := by
  rw [List.any_eq_false]
  intro kv hkv
  rcases h kv hkv with hdev | hst
  · simp [hdev]
  · simp [hst]

theorem foldl_unused {s : State} {d : Nat} {l : List (Nat × Frame)} (h : ∀ kv ∈ l, frameDev kv.1 ≠ d ∨ frUsed kv.2.st = false) :
    l.foldl (fun s kv => if frameDev kv.1 == d && frUsed kv.2.st then releaseClean kv.1 s else s) s = s := by
  induction l with
  | nil => rfl
  | cons kv l ih =>
    have hskip : (frameDev kv.1 == d && frUsed kv.2.st) = false := by
      rcases h kv List.mem_cons_self with hdev | hst
      · simp [hdev]
      · simp [hst]
    rw [List.foldl_cons, hskip, if_neg Bool.false_ne_true]
    exact ih fun x hx => h x (List.mem_cons_of_mem _ hx)

section Raw

variable {s : State} (hen : s.ft.rawEn = true) (hlive : devRetired s s.ft.rawDev = false)
  (htarget : rawTarget s s.ft.rawDev s.ft.rawLine = true)

include hen hlive htarget

theorem rawOp_write : rawOp 1 s = { s with ft := { s.ft with
    rawStatus := 0, rawCmd := 1, rawSlots := s.ft.rawSlots.insert (rawKey s.ft.rawDev s.ft.rawLine) ⟨s.ft.rawData, s.ft.rawCheck⟩ } } := by
  simp [rawOp, hen, hlive, htarget]

theorem rawOp_read : (rawOp 2 s).ft.rawStatus = 0 ∧
    ((rawOp 2 s).ft.rawData, (rawOp 2 s).ft.rawCheck) = rawBits s s.ft.rawDev s.ft.rawLine := by
  simp [rawOp, hen, hlive, htarget, draw]

theorem rawOp_decode : (rawOp 3 s).ft.rawStatus = 0 ∧ (rawOp 3 s).ft.rawOutcome < 4 ∧
    ((rawOp 3 s).ft.rawOutcome = 3 ↔ isMarker (rawBits s s.ft.rawDev s.ft.rawLine) = true) := by
  unfold rawOp
  simp only [hen, hlive, htarget, Bool.not_true, Bool.false_eq_true, if_false, draw]
  refine ⟨rfl, ?_⟩
  by_cases hmarker : isMarker (rawBits s s.ft.rawDev s.ft.rawLine) = true
  · simp [hmarker]
  · simp only [hmarker]
    rw [if_neg (by omega)]
    cases rsDecode (rawBits s s.ft.rawDev s.ft.rawLine).1 _ _ <;> simp

theorem rawOp_status {cmd : Nat} (hlo : 1 ≤ cmd) (hhi : cmd < 4) : (rawOp cmd s).ft.rawStatus = 0 := by
  rcases (by omega : cmd = 1 ∨ cmd = 2 ∨ cmd = 3) with rfl | rfl | rfl
  · rw [rawOp_write hen hlive htarget]
  · exact (rawOp_read hen hlive htarget).1
  · exact (rawOp_decode hen hlive htarget).1

end Raw

theorem rawOp_disabled {s : State} (h : s.ft.rawEn = false) (cmd : Nat) :
    rawOp cmd s = { s with ft := { s.ft with rawStatus := 2, rawCmd := cmd } } := by
  simp [rawOp, h]

/-- Raw access reaches a slot by the frames and the spare rows alone (R75, R76). -/
theorem rawTarget_congr {s t : State} (hte : t.te = s.te) (hdensity : t.ft.density = s.ft.density) (hdev : t.ft.dev = s.ft.dev)
    (hremap : t.ft.remap = s.ft.remap) (d q : Nat) : rawTarget t d q = rawTarget s d q := by
  simp only [rawTarget, isTable, devRetired, State.ftDev, State.frame, sparesTaken, hte, hdensity, hdev, hremap] <;> rfl

theorem coreWrite {i : Nat} (hi : i < 5) (body : State → State) (s : State) : regWrite (.core i) body s = body s := if_pos hi

theorem coreOk_of_firmware {i : Nat} (hi : i < 5) : coreOk i = true := by simp [coreOk]; omega

theorem begun_retiredCount (s : State) (rq : Rq) (op : Nat) : retiredCount (begun s rq op) = retiredCount s := by
  simp only [retiredCount, show devRetired (begun s rq op) = devRetired s from funext fun d => by simp only [devRetired, begun_ftDev]]

theorem query_done {s : State} {rq : Rq} {op : Nat} (h : accepts s rq op true true) (data : State → List Byte) :
    query op rq data s = doneBy s rq op (fun u => ok rq (data u) u) :=
  atornQ_done h (by simp) rfl (by simp) rfl

/-- Settles O23: the copy of a dirty frame, the end of a retirement, raw access and the front-tier commands. -/
theorem frontTierCommandsComplete : Obligations.FrontTierCommandsComplete := by
  refine ⟨?copy, ?noCopy, ?retired, ?notRetiring, ?raw, ?rawDisabled, ?lock, ?frontQuery, ?retire, ?ceiling, ?frontRaw⟩
  case copy =>
    intro s f tl g hmem hf hretiring hdirty hfree hne
    generalize ht : ftAccess (frameDev g) 2048 (frameRead f (dropDestage f s)) = t
    have hft : DevOnly (dropDestage f s) t := ht ▸ (frameRead_devOnly f _).ftAccess ..
    have hlines : t.ft.lines = s.ft.lines := by rw [hft.ft]; rfl
    refine ⟨dropFrame f (frameInto (s.frame f) f g t), run_ok (by simpa [Instr.wf, frameOk] using hf) ?_, ?_, ?_, ?_, ?_, ?_⟩
    · rw [dirtyFrameCopy_of_clean hretiring hdirty hfree, ht]
    · simp only [dropFrame, frameInto]
      rw [get_set_same]
    · rw [copied_frame _ _ hne]
    · rw [copied_frame _ _ hne]
    · simp only [State.frame, dropFrame]
      rw [get_set_same]
    · intro l hl
      rw [copied_line _ (by rw [hlines]; exact hmem.lines) hne hl, getLine, hlines, getLine]
  case noCopy =>
    intro s f bad tl hf hst
    exact run_ok (by simpa [Instr.wf, frameOk] using hf) (by simp [dirtyFrameCopy, hst])
  case retired =>
    intro s d u hd hst hunused hdev hmoved hdev'
    have hnone : (s.te.frames.any fun kv => frameDev kv.1 == d && frUsed kv.2.st && !(kv.2.st == .clean || kv.2.st == .evicting)) = false :=
      any_used_eq_false (p := fun st => !(st == .clean || st == .evicting)) hunused
    refine ⟨{ u.modFtDev d (fun x => { x with st := 2 }) with te := { u.te with pool := u.te.pool - usable u.ft.density } },
      run_ok (by simp [Instr.wf, devOk, hd]) ?_, ?_, rfl⟩
    · unfold deviceRetired
      rw [hst, hnone, foldl_unused hunused]
      dsimp only
      rw [hmoved]
      dsimp only
      rw [(ledger_reports (raise_reports (.refl _))).rest.ft]
      simp [hdev']
    · exact congrArg FtDev.st (modFtDev_same u d _)
  case notRetiring =>
    intro s d hd hst
    exact run_ok (by simp [Instr.wf, devOk, hd]) (by simp [deviceRetired, hst])
  case raw =>
    intro s i hi hen hlive htarget
    refine ⟨⟨_, run_ok (coreOk_of_firmware hi) ?_, rfl⟩, ⟨rawOp 2 s, run_ok (coreOk_of_firmware hi) (coreWrite hi _ s), rawOp_read hen hlive htarget⟩,
      rawOp 3 s, run_ok (coreOk_of_firmware hi) (coreWrite hi _ s), rawOp_decode hen hlive htarget⟩
    exact (coreWrite hi _ s).trans (rawOp_write hen hlive htarget)
  case rawDisabled =>
    intro s i hi hen
    have hfail : ∀ cmd, rawBy i cmd s = { s with ft := { s.ft with rawStatus := 2, rawCmd := cmd } } :=
      fun cmd => (coreWrite hi _ s).trans (rawOp_disabled hen cmd)
    exact ⟨run_ok (coreOk_of_firmware hi) (hfail 1), run_ok (coreOk_of_firmware hi) (hfail 2), run_ok (coreOk_of_firmware hi) (hfail 3)⟩
  case lock =>
    intro s i hi
    exact run_ok (coreOk_of_firmware hi) (coreWrite hi _ s)
  case frontQuery =>
    intro s rq h
    exact run_ok h.1 (query_done h.2 _)
  case retire =>
    intro s rq d h hd hst hcount
    exact run_ok h.1 (atornQ_done h.2 (by simp; omega) rfl (by simp [hst, begun_inEmber h.2, begun_retiredCount, hcount]) rfl)
  case ceiling =>
    intro s rq g h hpos hle hsup
    exact run_ok h.1 (atornQ_done h.2 (by simp; omega) rfl (by simp; omega) rfl)
  case frontRaw =>
    intro s rq op d q data check h hop hd hq hen hlive htarget
    refine ⟨_, rfl, rawOp_status ?_ ?_ ?_ (by omega) (by omega), run_ok h.1 ?_⟩
    · exact hen
    · exact hlive
    · refine (rawTarget_congr (s := s) ?_ ?_ ?_ ?_ d q).trans htarget
      · exact begun_te s rq 0x0203
      all_goals rfl
    · have hlive' : devRetired (begun s rq 0x0203) d = false := by simpa [devRetired] using hlive
      have htarget' := (rawTarget_congr (begun_te s rq 0x0203) (by rw [begun_ft]) (by rw [begun_ft]) (by rw [begun_ft]) d q).trans htarget
      refine (atornQ_done h.2 (by simp; omega) rfl (by simp [hen, hlive', htarget']) rfl).trans ?_
      simp only [doneBy, begun_ft]

end Sys2Proof.Proofs

/-! ## The tier engine's own events (chapter 6) -/

namespace Sys2Proof.Proofs

open Sys2Proof Sys2Proof.Machine Sys2Proof.Safety Sys2Proof.Laws

/-! ### A table whose values all change -/

theorem get_map {α : Type} {d : α} (t : Tab α) (f : α → α) (k : Nat) (hd : f d = d) :
    Tab.get d (t.map (fun kv => (kv.1, f kv.2))) k = f (t.get d k) := by
  induction t with
  | nil => exact hd.symm
  | cons p t ih =>
    rw [List.map_cons, Tab.get, Tab.get]
    split
    · rfl
    · exact ih

/-! ### The lookaside (R107, R108) -/

theorem laHas_laInsert (e : LaEnt) (l : Look) : laHas (laInsert e l) e.seg = true := by
  unfold laHas laInsert
  dsimp only
  rw [List.any_eq_true]
  refine ⟨some e, ?_, by simp⟩
  split
  next h => exact List.mem_of_getElem (List.getElem_set_self (by simpa using h))
  next => exact List.mem_append_right _ List.mem_cons_self

/-- A port's lookaside with the entry of the fill that ends (R109). -/
def lookEntered (g : Nat) (streaming : Bool) (l : Look) : Look :=
  { laInsert ⟨g, !streaming, if streaming then 3 else 0, streaming, false⟩ l with miss := none }

/-- What waited for the lookaside of segment `g` at port `p` may go on. -/
def lookReady (p g : Nat) (ws : List Wait) : List Wait :=
  ws.map (fun w => if w.why == .look && w.acc.port == p && w.acc.seg == g then { w with why := .ready } else w)

/-- The fill of segment `g` for port `p` has ended. -/
def lookFilled (p g : Nat) (streaming : Bool) (s : State) : State := setWaits (lookReady p g) (s.modLook p (lookEntered g streaming))

theorem lookasideFill_of_miss {s : State} {p g : Nat} {streaming : Bool} (h : (s.look p).miss = some (g, streaming)) :
    lookasideFill p s = afterAccess (settle (if streaming then promoteAhead g (lookFilled p g streaming s) else lookFilled p g streaming s)) := by
  rw [lookasideFill, h]
  rfl

theorem lookFilled_look (p g : Nat) (streaming : Bool) (s : State) :
    ((lookFilled p g streaming s).look p).miss = none ∧ laHas ((lookFilled p g streaming s).look p) g = true := by
  have hlook : (lookFilled p g streaming s).look p = lookEntered g streaming (s.look p) := modLook_same s p _
  rw [hlook]
  exact ⟨rfl, laHas_laInsert ⟨g, _, _, _, _⟩ (s.look p)⟩

theorem lookFilled_waits (p g : Nat) (streaming : Bool) (s : State) :
    (lookFilled p g streaming s).te.waits = lookReady p g s.te.waits := rfl

/-! ### Eviction (R102) -/

section Evict

variable {s : State} {f : Nat}

theorem evictCommit_of_unpinned (hst : (s.frame f).st = .evicting) (hpin : pinned s (s.frame f).billet = false) :
    (evictCommit f s).te.map.get .unmapped (s.frame f).billet = entOf (s.frame f) ∧ (evictCommit f s).frame f = {} := by
  have hcommit : evictCommit f s = count 0x0C27 (s.frame f).turf 0 1
      (dropFrame f { s with te := { s.te with map := s.te.map.set .unmapped (s.frame f).billet (entOf (s.frame f)) } }) := by
    simp [evictCommit, hst, hpin]
  rw [hcommit]
  simp only [count_te, State.frame, dropFrame, get_set_same, and_self]

theorem evictCommit_of_pinned (hpin : pinned s (s.frame f).billet = true) : evictCommit f s = s := by
  simp [evictCommit, hpin]

end Evict

/-! ### Fills (R103, R104) -/

theorem mediaFillUnit_of_next {s v : State} {f u loc : Nat} {su : Susp} (hst : (s.frame f).st = .filling) (hsrc : (s.frame f).src = .media)
    (hloc : (s.frame f).mediaLoc = some loc) (htodo : (s.frame f).todo.head? = some u) (hstall : ncStalled s loc = false)
    (hv : v = suspends loc su ((mediaBusy s).modFrame f (fun x => { x with todo := x.todo.drop 1 }))) (good : Bool) :
    mediaFillUnit f u good su s = if good && saltHeld v loc then fillArrived f (fillUnit f u (mediaLine v loc) v)
      else readBegin loc u f (if good then 2 else 1) .fill v := by
  simp only [mediaFillUnit, hst, hsrc, hloc, htodo, hstall, ← hv, beq_self_eq_true, Bool.not_false, Bool.and_self, if_true]

theorem mediaFillUnit_of_other {s : State} {f u : Nat} (h : (s.frame f).todo.head? ≠ some u) (good : Bool) (su : Susp) :
    mediaFillUnit f u good su s = s := by
  unfold mediaFillUnit
  dsimp only
  rw [beq_eq_false_iff_ne.2 h]
  simp only [Bool.and_false, Bool.false_and, Bool.false_eq_true, if_false]
  split <;> rfl

/-- Settles O24: one clause per event of the tier engine. -/
theorem tierEngineEventsComplete : Obligations.TierEngineEventsComplete := by
  refine ⟨?sweep, ?evict, ?noEvict, ?commit, ?noCommit, ?fill, ?otherUnit, ?line, ?look, ?lookStream, ?noLook, ?inval, ?asks, ?noAsk⟩
  case sweep =>
    intro s hpool
    refine ⟨_, run_ok rfl (if_neg (by omega)), rfl, fun f => ?_⟩
    exact get_map s.te.frames aged f rfl
  case evict =>
    intro s f h
    exact run_ok rfl (by simp only [backgroundEviction, h])
  case noEvict =>
    intro s h
    exact run_ok rfl (by simp only [backgroundEviction, h])
  case commit =>
    intro s f hf hst
    exact ⟨run_ok (by simpa [Instr.wf, frameOk] using hf) (by simp [evictionCommit, hst]), evictCommit_of_unpinned hst,
      evictCommit_of_pinned⟩
  case noCommit =>
    intro s f hf hst
    exact run_ok (by simpa [Instr.wf, frameOk] using hf) (by simp [evictionCommit, hst])
  case fill =>
    intro s f u loc su v hf hu hsu hst hsrc hloc htodo hstall hv
    have hwf : ∀ good, Instr.wf (.mediaFillUnit f u good su) = true := fun good => by simpa [Instr.wf, frameOk] using ⟨⟨hf, hu⟩, hsu⟩
    have hfill := mediaFillUnit_of_next hst hsrc hloc htodo hstall hv
    exact ⟨fun hsalt => run_ok (hwf _) (by simp [hfill, hsalt]), fun hsalt => run_ok (hwf _) (by simp [hfill, hsalt]),
      run_ok (hwf _) (by simp [hfill])⟩
  case otherUnit =>
    intro s f u good su hf hu hsu htodo
    exact run_ok (by simpa [Instr.wf, frameOk] using ⟨⟨hf, hu⟩, hsu⟩) (mediaFillUnit_of_other htodo good su)
  case line =>
    intro s f l hf hl hst
    have hwf : (frameOk f && lineOk l) = true := by simpa [frameOk, lineOk] using ⟨hf, hl⟩
    refine ⟨fun hsrc => run_ok hwf ?_, fun hsrc => run_ok hwf ?_, fun g hsrc hcopy => run_ok hwf ?_⟩
    · simp [fillLineArrival, hst, hsrc]
    · simp [fillLineArrival, hst, hsrc]
    · simp [fillLineArrival, hst, hsrc, hcopy]
  case look =>
    intro s p g hp hmiss
    exact ⟨lookFilled p g false s, run_ok (by simpa [Instr.wf, portOk] using hp) (by rw [lookasideFill_of_miss hmiss, if_neg Bool.false_ne_true]),
      (lookFilled_look p g false s).1, (lookFilled_look p g false s).2, lookFilled_waits p g false s⟩
  case lookStream =>
    intro s p g hp hmiss
    exact ⟨lookFilled p g true s, run_ok (by simpa [Instr.wf, portOk] using hp) (by rw [lookasideFill_of_miss hmiss, if_pos rfl]), lookFilled_look p g true s⟩
  case noLook =>
    intro s p hp hmiss
    exact run_ok (by simpa [Instr.wf, portOk] using hp) (by simp only [lookasideFill, hmiss])
  case inval =>
    intro s ag p hag hp
    exact run_ok (by simpa [Instr.wf, portOk] using ⟨wf_may hag, hp⟩) (regWrite_may hag)
  case asks =>
    intro s f l hf hl hasks
    refine ⟨_, run_ok (by simpa [Instr.wf, frameOk, lineOk] using ⟨hf, hl⟩) (if_pos hasks), rfl, rfl⟩
  case noAsk =>
    intro s f l hf hl hasks
    exact run_ok (by simpa [Instr.wf, frameOk, lineOk] using ⟨hf, hl⟩) (by simp [cheaperPath, hasks])

end Sys2Proof.Proofs

/-! ## The course of a destage (chapters 6 and 7) -/

namespace Sys2Proof.Proofs

open Sys2Proof Sys2Proof.Machine Sys2Proof.Safety Sys2Proof.Laws

/-- Only the media controller's own state differs, and of that the slots are as before. -/
structure MediaOnly (s t : State) : Prop where
  slots : t.mc.slots = s.mc.slots
  te : t.te = s.te
  tu : t.tu = s.tu

namespace MediaOnly

variable {s u : State}

theorem refl (s : State) : MediaOnly s s := ⟨rfl, rfl, rfl⟩

theorem trans {v : State} (h : MediaOnly s u) (k : MediaOnly u v) : MediaOnly s v :=
  ⟨k.slots.trans h.slots, k.te.trans h.te, k.tu.trans h.tu⟩

theorem parityAfter (loc : Nat) (s : State) : MediaOnly s (parityAfter loc s) := by
  unfold Machine.parityAfter
  dsimp only
  split
  · split
    · exact ⟨rfl, rfl, rfl⟩
    · exact refl s
  · exact refl s

theorem journalAdd (billet kind val : Nat) (s : State) : MediaOnly s (journalAdd billet kind val s) := by
  unfold Machine.journalAdd
  dsimp only
  split
  · unfold journalWrite
    split <;> exact ⟨rfl, rfl, rfl⟩
  · exact ⟨rfl, rfl, rfl⟩

end MediaOnly

theorem MediaOnly.modFrame {s u : State} (h : MediaOnly s u) (f : Nat) (g : Frame → Frame) : MediaOnly (s.modFrame f g) (u.modFrame f g) :=
  ⟨h.slots, by simp only [State.modFrame, h.te], h.tu⟩

section DestageEnd

variable {s : State} {f : Nat} {d : Destage}

/-- The slot that the destage's program wrote (R133). -/
def destageSlotRec (s : State) (f : Nat) (d : Destage) : MSlot :=
  slotIn s d.loc ⟨(s.frame f).billet, d.seq, d.gen, mediaGen s, b2n d.ember, unitsOf d.lines, marksOf d.lines, 0, 0⟩

/-- The frame and the slot of a destage that ends (R102). -/
def destageSettled (f : Nat) (d : Destage) (s : State) : State :=
  State.modFrame { s with mc := { s.mc with slots := s.mc.slots.set none d.loc (some (destageSlotRec s f d)) } } f (destaged d.loc)

theorem slotWrite_mediaOnly (d : Destage) (s : State) :
    MediaOnly { s with mc := { s.mc with slots := s.mc.slots.set none d.loc (some (destageSlotRec s f d)) } }
      (slotWrite d (s.frame f).billet s) := by
  refine .trans ?_ (.parityAfter d.loc _)
  exact ⟨rfl, rfl, rfl⟩

/-- A destage that ends with the twin's link down (R118). -/
theorem destageEnd_of_found (hd : findDestage s f = some d) (hlink : linkUp s = false) :
    ∃ v, MediaOnly (destageSettled f d s) v ∧ destageEnd f s = count 0x1025 0xFFFF 0 1 v := by
  have hwritten := ((slotWrite_mediaOnly (f := f) d s).trans (v := dropDestage f (slotWrite d (s.frame f).billet s)) ⟨rfl, rfl, rfl⟩).modFrame f
    (destaged d.loc)
  have hjournal := hwritten.trans (.journalAdd (s.frame f).billet 0 d.loc _)
  generalize hw : journalAdd (s.frame f).billet 0 d.loc _ = w at hjournal
  refine ⟨{ w with
    mctl := { w.mctl with destageCnt := satAdd (2 ^ 64 - 1) w.mctl.destageCnt 1 }
    mc := { w.mc with retryRaised := w.mc.retryRaised.erase (s.frame f).billet } }, hjournal.trans ⟨rfl, rfl, rfl⟩, ?_⟩
  · have hdown : ∀ u : State, u.tu = w.tu → linkUp u = false := fun u hu => by
      simp only [linkUp, hu, hjournal.tu]
      exact hlink
    simp only [destageEnd, hd, hw]
    rw [hdown _ (by rw [count_tu])]
    simp

end DestageEnd

theorem frameOf_of_res {t : State} {b f : Nat} (h : t.te.map.get .unmapped b = .res f) : Machine.frameOf t b = some f := by
  rw [Machine.frameOf, h]

/-- Settles O25: one clause per event of a destage. -/
theorem destageCompletes : Obligations.DestageCompletes := by
  refine ⟨?complete, ?noDestage, ?ended, ?fail, ?noFail, ?retry, ?noRetry⟩
  case complete =>
    intro s f d rds u hf hrds hd hu hhalt
    refine run_ok (by simpa [Instr.wf, frameOk] using ⟨hf, hrds⟩) ?_
    simp only [destageComplete, hd, ← hu, hhalt, Bool.and_not_self, Bool.false_eq_true, if_false]
  case noDestage =>
    intro s f rds hf hrds hd
    exact run_ok (by simpa [Instr.wf, frameOk] using ⟨hf, hrds⟩) (by simp only [destageComplete, hd])
  case ended =>
    intro s f d hd hlink
    obtain ⟨v, hv, hend⟩ := destageEnd_of_found hd hlink
    have hframe : (destageEnd f s).frame f = destaged d.loc (s.frame f) := by
      rw [hend, State.frame, count_te, hv.te]
      exact modFrame_same _ f _
    refine ⟨by rw [hframe]; rfl, by rw [hframe]; rfl, by rw [hframe]; rfl, destageSlotRec s f d, ?_, rfl, rfl⟩
    rw [hend, (count_reports (.refl v)).rest.mc, hv.slots]
    exact get_set_same none s.mc.slots d.loc (some (destageSlotRec s f d))
  case fail =>
    intro s f d hf hd
    refine ⟨_, rfl, fun hfails => run_ok (by simpa [Instr.wf, frameOk] using hf) ?_, fun loc t hfails hslot =>
      ⟨{ (takeSeq t).2 with mc := { (takeSeq t).2.mc with destages := t.mc.destages ++ [{ d with loc := loc, seq := t.mc.seq, susp := 0 }] } },
        run_ok (by simpa [Instr.wf, frameOk] using hf) ?_, rfl, rfl⟩⟩
    · simp only [programFail, hd]
      rw [if_pos (by omega)]
    · simp only [programFail, hd]
      rw [if_neg (by omega), hslot]
      rfl
  case noFail =>
    intro s f hf hd
    exact run_ok (by simpa [Instr.wf, frameOk] using hf) (by simp only [programFail, hd])
  case retry =>
    intro s b hb hmem
    refine ⟨_, rfl, fun f hmap hbg hable => run_ok (by simpa [Instr.wf] using hb) ?_,
      fun f hmap hno => run_ok (by simpa [Instr.wf] using hb) ?_⟩
    · have hframe := frameOf_of_res (t := { s with mc := { s.mc with retry := s.mc.retry.erase b } }) hmap
      simp only [destageRetry, List.contains_iff_mem.2 hmem, hframe, Bool.not_true, Bool.false_eq_true, if_false]
      exact if_pos (Bool.and_eq_true_iff.2 ⟨hbg, hable⟩)
    · have hframe := frameOf_of_res (t := { s with mc := { s.mc with retry := s.mc.retry.erase b } }) hmap
      simp only [destageRetry, List.contains_iff_mem.2 hmem, hframe, Bool.not_true, Bool.false_eq_true, if_false]
      refine if_neg fun h => ?_
      obtain ⟨hbg, hable⟩ := Bool.and_eq_true_iff.1 h
      rcases hno with hno | hno
      · exact Bool.false_ne_true (hno.symm.trans hbg)
      · exact Bool.false_ne_true (hno.symm.trans hable)
  case noRetry =>
    intro s b hb hmem
    exact run_ok (by simpa [Instr.wf] using hb) (by simp [destageRetry, hmem])

end Sys2Proof.Proofs

/-! ## The media controller's own work (chapters 7 and 8) -/

namespace Sys2Proof.Proofs

open Sys2Proof Sys2Proof.Machine Sys2Proof.Safety Sys2Proof.Laws

/-! ### Row verification (R135) -/

section Verify

variable {α : Type} {s : State}

/-- A fold that changes records of block sets alone. -/
theorem foldl_modSet_eq (key : α → Nat) (g : State → α → BlkSet → BlkSet) (l : List α) (s : State) :
    ∃ sets, l.foldl (fun s a => s.modSet (key a) (g s a)) s = { s with mc := { s.mc with sets := sets } } := by
  induction l generalizing s with
  | nil => exact ⟨s.mc.sets, rfl⟩
  | cons a l ih =>
    obtain ⟨sets, hsets⟩ := ih (s.modSet (key a) (g s a))
    exact ⟨sets, hsets.trans rfl⟩

/-- Reads of the sectors of a list begin at step 5 (R135). -/
def verifyReads (l : List Nat) (s : State) : State := l.foldl (fun s e => readBegin (e / 16) (e % 16) 0 5 .verify s) s

theorem verifyReads_rows (l : List Nat) (s : State) : (verifyReads l s).mc.rows = s.mc.rows := by
  induction l generalizing s with
  | nil => rfl
  | cons e l ih => exact ih (readBegin (e / 16) (e % 16) 0 5 .verify s)

theorem verifyReads_keeps {l : List Nat} {x : MRead} (h : x ∈ s.mc.reads) : x ∈ (verifyReads l s).mc.reads := by
  induction l generalizing s with
  | nil => exact h
  | cons e l ih => exact ih (List.mem_append_left _ h)

theorem verifyReads_mem {l : List Nat} {e : Nat} (h : e ∈ l) :
    ∃ x ∈ (verifyReads l s).mc.reads, x.loc = e / 16 ∧ x.unit = e % 16 ∧ x.step = 5 ∧ x.why = .verify := by
  induction l generalizing s with
  | nil => cases h
  | cons a l ih =>
    rcases List.mem_cons.1 h with rfl | htail
    · exact ⟨⟨s.mc.readCnt, e / 16, e % 16, 0, 5, .verify, false, 0⟩,
        verifyReads_keeps (s := readBegin (e / 16) (e % 16) 0 5 .verify s) (List.mem_append_right _ List.mem_cons_self), rfl, rfl, rfl, rfl⟩
    · exact ih htail

theorem rowVerify_of_unverified {rn : Nat} {r : Row} (hrow : s.row rn = some r) (hclosed : r.closed = true) (hheld : r.parityHeld = true)
    (hverified : r.verified = false) (hbg : bgOk s = true) (failing : List Nat) : ∃ sets l,
    rowVerify rn failing s = owedWork
      (State.modRow (verifyReads l { s with mc := { s.mc with sets := sets } }) rn (fun r => { r with verified := true })) ∧
    (∀ e ∈ failing, locSet s (e / 16) ∈ r.sets → isCurrent s (e / 16) = true → e ∈ l) ∧ (failing = [] → l = []) := by
  unfold rowVerify
  simp only [hrow, hclosed, hheld, hverified, hbg, Bool.not_true, Bool.or_self, Bool.false_eq_true, if_false]
  generalize hfs : (failing.filter (fun e => r.sets.contains (locSet s (e / 16)))).eraseDups = fs
  obtain ⟨sets, hsets⟩ := foldl_modSet_eq (fun k => k)
    (fun s k x => { x with ashOwed := x.ashOwed || (decide (2 ≤ failingIn s fs k) && !setAsh x) }) r.sets s
  rw [hsets]
  refine ⟨sets, _, rfl, fun e he hset hcur => ?_, fun hnil => ?_⟩
  · refine List.mem_filter.2 ⟨?_, hcur⟩
    rw [← hfs, List.mem_eraseDups]
    exact List.mem_filter.2 ⟨he, List.contains_iff_mem.2 hset⟩
  · rw [← hfs, hnil]
    rfl

end Verify

/-! ### Erases (R136, R138) -/

/-- A set whose erase has ended well (R138). -/
def setErased (k : Nat) (s : State) : State :=
  let u := eraseSlots k s
  let v := u.modSet k (erasedRec (u.mc.orderCnt + 1))
  { v with
    mc := { v.mc with orderCnt := u.mc.orderCnt + 1 }
    mctl := { v.mctl with stokeFreed := v.mctl.stokeFreed + b2n (v.mctl.stoke && !inSlc v k) } }

theorem setErased_setRec_same (k : Nat) (s : State) : (setErased k s).setRec k = erasedRec (s.mc.orderCnt + 1) (s.setRec k) :=
  modSet_same (eraseSlots k s) k _

theorem setErased_setRec_other {k j : Nat} (h : j ≠ k) (s : State) : (setErased k s).setRec j = s.setRec j :=
  modSet_other (eraseSlots k s) k _ j h

theorem eraseComplete_of_erasable {s : State} {k : Nat} (hable : erasable s k = true) (hledger : isLedgerSet s k = false) (good : Bool) :
    eraseComplete k good s = if inEmber s then s.modSet k (fun x => { x with eraseOwed := true })
      else if good then afterAccess (settle (owedWork (setErased k s)))
      else owedWork (lunAshCheck (setLun k) (ashSet k (eraseSlots k s))) := by
  simp only [eraseComplete, hable, hledger, Bool.not_true, Bool.or_self, Bool.false_eq_true, if_false]
  rfl

/-! ### Drift (R143, R152) -/

theorem firstSample_of_sampled {s : State} {k : Nat} (h : (s.setRec k).sampled = true) (overHalf : Bool) : firstSample k overHalf s = s := by
  simp only [firstSample, h, if_true]

theorem not_setAsh_of_setBusy {x : BlkSet} (h : setBusy x = true) : setAsh x = false := by
  simp only [setBusy, setAsh, Bool.or_eq_true, beq_iff_eq, Bool.or_eq_false_iff, beq_eq_false_iff_ne] at h ⊢
  omega

theorem driftSample_of_busy {s : State} {k : Nat} (hbg : bgOk s = true) (hbusy : setBusy (s.setRec k) = true)
    (hsampled : (s.setRec k).sampled = true) (overHalf again : Bool) :
    driftSample k overHalf again s = if !overHalf then mediaLevels s else if again then driftUp k (driftUp k s) else driftUp k s := by
  simp only [driftSample, hbg, hbusy, Bool.not_true, Bool.or_self, Bool.false_eq_true, if_false, firstSample_of_sampled hsampled,
    not_setAsh_of_setBusy hbusy, Bool.false_or]

theorem driftUp_of_lt {s : State} {k : Nat} (h : (s.setRec k).drift < 15) : driftUp k s = s.modSet k (fun x => { x with drift := x.drift + 1 }) :=
  if_pos h

/-! ### The wear table (R151) -/

/-- The rows of a LUN whose records are rebuilt are verified afresh. -/
def rowsUnverified (u : Nat) (s : State) : State :=
  { s with mc := { s.mc with rows := s.mc.rows.map (fun (kv : Nat × Option Row) => (kv.1, kv.2.map (fun r : Row =>
    if r.sets.any (fun k => setLun k == u) then { r with verified := false } else r))) } }

/-- A set's record after the rebuild of a LUN's records. -/
def rebuiltEntry (u : Nat) (s : State) (kv : Nat × BlkSet) : Nat × BlkSet :=
  if setLun kv.1 = u ∧ !isLedgerSet s kv.1 then (kv.1, rebuiltRec s kv.1 kv.2) else kv

theorem wearRebuilt_of_unlevelled {s : State} {u : Nat} (hgood : lunGood s u = true) (hun : (s.lun u).unlevelled = true) :
    wearRebuilt u s = mediaLevels (ledger 0x1005 (srcLun u) [u] (raise 0x1005 u u .nothing
      (State.modLun { s with mc := { (rowsUnverified u s).mc with sets := s.mc.sets.map (rebuiltEntry u (rowsUnverified u s)) } } u
        (fun x => { x with unlevelled := false })))) := by
  simp only [wearRebuilt, hgood, hun, Bool.not_true, Bool.or_self, Bool.false_eq_true, if_false]
  rfl

theorem journalWrite_of_pending (s : State) : (journalWrite s).mc.jPend = [] ∧
    (journalWrite s).mc.journal = s.mc.jPend.reverse ++ s.mc.journal ∧
    (journalWrite s).mc.seq = s.mc.seq + (if s.mc.jPend = [] then 0 else 1) := by
  by_cases h : s.mc.jPend = []
  · simp [journalWrite, h]
  · simp [journalWrite, sysWrite, takeSeqs, h]

theorem levelMove_of_gap {s : State} (hbg : bgOk s = true) (hgap : s.mc.prof.en < 10 * (wearMax s - wearMin s) ∨
    s.mctl.idle = true ∧ s.mc.prof.en < 20 * (wearMax s - wearMin s)) :
    levelMove s = match levelVictim s with
      | some k => mediaLevels (moveAll k 4 s)
      | none => s := by
  have hmoves : (bgOk s && ((s.mctl.idle && decide (s.mc.prof.en < 20 * (wearMax s - wearMin s))) ||
      decide (s.mc.prof.en < 10 * (wearMax s - wearMin s)))) = true := by
    rcases hgap with hgap | ⟨hidle, hgap⟩
    · simp [hbg, hgap]
    · simp [hbg, hidle, hgap]
  exact if_pos hmoves

/-! ### The kiln (R137, R141) -/

/-- A fold takes `n` freed sets. -/
def foldBegun (n : Nat) (s : State) : State := { s with mctl := { s.mctl with stokeFreed := s.mctl.stokeFreed - n } }

/-- A slot has been folded. -/
def foldCounted (s : State) : State :=
  count 0x1026 0xFFFF 0 1 { s with mctl := { s.mctl with foldCnt := satAdd (2 ^ 64 - 1) s.mctl.foldCnt 1 } }

theorem kilnFold_of_next {s : State} {l : Nat} (hruns : kilnRuns s = true)
    (hfreed : (if s.mctl.stoke then foldRowSets s else 0) ≤ s.mctl.stokeFreed) (hnext : kilnNext s = some l) (hstall : ncStalled s l = false) :
    kilnFold s = if isCurrent (moveSlot l 2 (foldBegun (if s.mctl.stoke then foldRowSets s else 0) (pauseWait (80 + locChan l) s))) l
      then moveSlot l 2 (foldBegun (if s.mctl.stoke then foldRowSets s else 0) (pauseWait (80 + locChan l) s))
      else afterAccess (settle (mediaLevels (foldCounted
        (moveSlot l 2 (foldBegun (if s.mctl.stoke then foldRowSets s else 0) (pauseWait (80 + locChan l) s)))))) := by
  simp only [kilnFold, hruns, hnext, hstall, Nat.not_lt.2 hfreed, Bool.not_true, Bool.false_eq_true, if_false]
  rfl

/-- Settles O26: one clause per piece of the media controller's work. -/
theorem mediaWorkCompletes : Obligations.MediaWorkCompletes := by
  refine ⟨?verify, ?noVerify, ?fold, ?foldStoke, ?noFold, ?erase, ?eraseEmber, ?noErase, ?idle, ?smoulder, ?noSmoulder, ?drift, ?checkpoint,
    ?noCheckpoint, ?rebuilt, ?noRebuilt, ?level, ?noLevel, ?timeout, ?journal, ?chunk, ?noChunk⟩
  case verify =>
    intro s rn r failing hwf hrow hclosed hheld hverified hbg
    obtain ⟨sets, l, hverify, hmem, hnil⟩ := rowVerify_of_unverified hrow hclosed hheld hverified hbg failing
    refine ⟨_, run_ok hwf hverify, ?_, fun e he hset hcur => verifyReads_mem (hmem e he hset hcur), fun h => ?_⟩
    · have hrows : (verifyReads l { s with mc := { s.mc with sets := sets } }).mc.rows = s.mc.rows := verifyReads_rows l _
      simp only [State.row, State.modRow, hrows, get_upd_same]
      rw [show s.mc.rows.get none rn = some r from hrow]
      rfl
    · rw [hnil h]
      rfl
  case noVerify =>
    intro s rn failing hwf h
    refine run_ok hwf ?_
    unfold rowVerify
    rcases h with hbg | hrow | ⟨r, hrow, h⟩
    · split
      · rfl
      · simp [hbg]
    · simp only [hrow]
    · rcases h with h | h | h <;> simp [hrow, h]
  case fold =>
    intro s l n hruns hn hfreed hnext hstall
    subst hn
    have hfold := kilnFold_of_next hruns hfreed hnext hstall
    refine ⟨foldBegun _ (pauseWait (80 + locChan l) s), rfl, fun hmoved => ⟨_, rfl, run_ok rfl ?_⟩, fun hstays => run_ok rfl ?_⟩
    · exact hfold.trans (if_neg (ne_true_of_eq_false hmoved))
    · exact hfold.trans (if_pos hstays)
  case foldStoke =>
    intro s hruns hstoke hfreed
    exact run_ok rfl (by simp only [kilnFold, hruns, hstoke, hfreed, Bool.not_true, Bool.false_eq_true, if_false, if_true])
  case noFold =>
    intro s h
    refine run_ok rfl ?_
    unfold kilnFold
    dsimp only
    rcases h with hruns | ⟨hfreed, hstall⟩
    · simp [hruns]
    · have hneed : ¬ s.mctl.stokeFreed < (if s.mctl.stoke = true then foldRowSets s else 0) := by
        split
        next hs => exact Nat.not_lt.2 (hfreed hs)
        next => omega
      rw [if_neg hneed]
      split
      · rfl
      · split
        · rfl
        next l hl => rw [if_pos (hstall l hl)]
  case erase =>
    intro s k hk hable hledger hember
    have hwf : ∀ good, Instr.wf (.blockSetEraseComplete k good) = true := fun good => by simpa [Instr.wf] using hk
    refine ⟨⟨setErased k s, run_ok (hwf _) ?_, setErased_setRec_same k s, rfl, rfl, fun j hj => setErased_setRec_other hj s⟩, run_ok (hwf _) ?_⟩
    · rw [eraseComplete_of_erasable hable hledger, hember, if_neg Bool.false_ne_true, if_pos rfl]
    · rw [eraseComplete_of_erasable hable hledger, hember, if_neg Bool.false_ne_true, if_neg Bool.false_ne_true]
  case eraseEmber =>
    intro s k good hk hable hledger hember
    refine run_ok (by simpa [Instr.wf] using hk) ?_
    rw [eraseComplete_of_erasable hable hledger, if_pos hember]
  case noErase =>
    intro s k good hk h
    refine run_ok (by simpa [Instr.wf] using hk) ?_
    rcases h with h | h <;> simp [eraseComplete, h]
  case idle => exact fun s => run_ok rfl rfl
  case smoulder => exact fun s hbg => run_ok rfl (if_pos hbg)
  case noSmoulder => exact fun s hbg => run_ok rfl (if_neg (ne_true_of_eq_false hbg))
  case drift =>
    intro s k hk hbg hbusy hsampled
    have hwf : ∀ half again, Instr.wf (.driftSample k half again) = true := fun _ _ => by simpa [Instr.wf] using hk
    have hsample := driftSample_of_busy hbg hbusy hsampled
    refine ⟨fun again => run_ok (hwf _ _) (hsample false again), fun hlt => run_ok (hwf _ _) ?_, fun hlt => ⟨_, run_ok (hwf _ _) (hsample true true), ?_⟩,
      fun hge howed => run_ok (hwf _ _) ?_⟩
    · exact (hsample true false).trans (driftUp_of_lt hlt)
    · have hfirst := driftUp_of_lt (Nat.lt_succ_of_lt hlt)
      have hrec : (driftUp k s).setRec k = { s.setRec k with drift := (s.setRec k).drift + 1 } := by rw [hfirst, modSet_same]
      show ((driftUp k (driftUp k s)).setRec k).drift = _
      rw [driftUp_of_lt (by rw [hrec]; exact Nat.succ_lt_succ hlt), modSet_same, hrec]
    · refine (hsample true false).trans ?_
      show driftUp k s = _
      rw [driftUp, if_neg (Nat.not_lt.2 hge), howed]
      rfl
  case checkpoint =>
    intro s bad hwf hformatted
    refine ⟨_, run_ok hwf (if_neg (by simp [hformatted])), fun h => ?_⟩
    rw [h]
    rfl
  case noCheckpoint =>
    intro s bad hwf hformatted
    exact run_ok hwf (by simp [bstCheckpoint, hformatted])
  case rebuilt =>
    intro s u hu hgood hun
    refine ⟨_, run_ok (by simpa using hu) (wearRebuilt_of_unlevelled hgood hun), ?_, fun k x hlun hledger hmem => ?_⟩
    · rw [modLun_same]
    · have hentry : rebuiltEntry u (rowsUnverified u s) (k, x) = (k, rebuiltRec s k x) := if_pos ⟨hlun, by rw [show isLedgerSet (rowsUnverified u s) k = false from hledger]; rfl⟩
      exact hentry ▸ List.mem_map_of_mem hmem
  case noRebuilt =>
    intro s u hu h
    refine run_ok (by simpa using hu) ?_
    rcases h with h | h <;> simp [wearRebuilt, h]
  case level =>
    intro s k hbg hgap hvictim
    exact run_ok rfl (by rw [levelMove_of_gap hbg hgap, hvictim])
  case noLevel =>
    intro s h
    refine run_ok rfl ?_
    unfold levelMove
    dsimp only
    rcases h with h | h | h | ⟨hidle, h⟩
    · simp [h]
    · rw [h]
      split <;> rfl
    · rw [if_neg]
      simp
      omega
    · rw [if_neg]
      simp [hidle]
      omega
  case timeout => exact fun s u lost hwf => run_ok hwf rfl
  case journal => exact fun s => ⟨_, run_ok rfl rfl, journalWrite_of_pending s⟩
  case chunk =>
    intro s hbg hformatted
    exact ⟨_, rfl, run_ok rfl (if_pos (Bool.and_eq_true_iff.2 ⟨hbg, hformatted⟩))⟩
  case noChunk =>
    intro s h
    refine run_ok rfl (if_neg ?_)
    rcases h with h | h <;> simp [h]

end Sys2Proof.Proofs

/-! ## The read recovery and the media commands (chapter 7) -/

namespace Sys2Proof.Proofs

open Sys2Proof Sys2Proof.Machine Sys2Proof.Safety Sys2Proof.Laws

/-! ### The end of a recovery step (R144, R145) -/

/-- The read that the end of a recovery step speaks of. -/
def readEnds (s : State) (id : Nat) (x : MRead) : Bool :=
  x.id == id && x.step < 6 && !ncStalled s x.loc && (x.why != .verify || bgOk s)

/-- What the end of a recovery step does with its outcome. -/
def readOutcome (r : MRead) (res : SecRes) (cls : Nat) (u : State) : State :=
  match res with
  | .good => readAccept r cls (if r.second then raise 0x1004 0xFFFF (locBillet u r.loc + r.unit * 2 ^ 32) .nothing u else u)
  | .noDecode => if r.second then integrityHalt 2 (r.loc + r.unit * 2 ^ 32) u else readNext r u
  | .mismatch => if r.second then integrityHalt 2 (r.loc + r.unit * 2 ^ 32) u else putRead { r with second := true } u

section Read

variable {s u : State} {id cls : Nat} {su : Susp} {r : MRead} (hfind : s.mc.reads.find? (readEnds s id) = some r)
  (hu : u = if r.why = .verify then s else suspends r.loc su s)

include hfind hu

theorem readComplete_of_found (res : SecRes) :
    readComplete id res cls su s = readOutcome r (if r.step < 5 && !saltHeld u r.loc then .noDecode else res) cls u := by
  have hsusp : (if (r.why == .verify) = true then s else suspends r.loc su s) = u := by simp only [hu, beq_iff_eq]
  unfold readComplete
  rw [show (fun x : MRead => x.id == id && decide (x.step < 6) && !ncStalled s x.loc && (x.why != .verify || bgOk s)) = readEnds s id
    from rfl, hfind]
  simp only [hsusp]
  rfl

theorem readComplete_of_key (hkey : 5 ≤ r.step ∨ saltHeld u r.loc = true) (res : SecRes) :
    readComplete id res cls su s = readOutcome r res cls u := by
  rw [readComplete_of_found hfind hu, if_neg]
  rcases hkey with h | h
  · simp; omega
  · simp [h]

theorem readComplete_of_noKey (hstep : r.step < 5) (hkey : saltHeld u r.loc = false) (res : SecRes) :
    readComplete id res cls su s = readOutcome r .noDecode cls u := by
  rw [readComplete_of_found hfind hu, if_pos (by simp [hstep, hkey])]

theorem readComplete_noDecode : readComplete id .noDecode cls su s = readOutcome r .noDecode cls u := by
  rw [readComplete_of_found hfind hu, ite_self]

end Read

/-- Settles O27: the ends of a recovery step by outcome, and the media commands. -/
theorem mediaCommandsComplete : Obligations.MediaCommandsComplete := by
  refine ⟨?read, ?noRead, ?query, ?format, ?retire, ?recDeep⟩
  case read =>
    intro s id cls su r u hwf hfind hu
    have hwf : ∀ res, Instr.wf (.mediaReadComplete id res cls su) = true := fun _ => hwf
    refine ⟨fun hkey => ⟨fun hsecond => ⟨?_, ?_⟩, fun hsecond => ⟨?_, ?_⟩⟩, fun hsecond => ?_, fun hsecond => ?_, fun hstep hkey res => ?_⟩
    all_goals refine run_ok (hwf _) ?_
    · rw [readComplete_of_key hfind hu hkey, readOutcome, hsecond, if_neg Bool.false_ne_true]
    · rw [readComplete_of_key hfind hu hkey, readOutcome, hsecond, if_neg Bool.false_ne_true]
    · rw [readComplete_of_key hfind hu hkey, readOutcome, hsecond, if_pos rfl]
    · rw [readComplete_of_key hfind hu hkey, readOutcome, hsecond, if_pos rfl]
    · rw [readComplete_noDecode hfind hu, readOutcome, hsecond, if_neg Bool.false_ne_true]
    · rw [readComplete_noDecode hfind hu, readOutcome, hsecond, if_pos rfl]
    · rw [readComplete_of_noKey hfind hu hstep hkey, readOutcome]
  case noRead =>
    intro s id res cls su hwf hfind
    refine run_ok hwf ?_
    unfold readComplete
    rw [hfind]
  case query => exact fun s rq h => run_ok h.1 (query_done h.2 _)
  case format =>
    intro s rq gib slc h hpos hle hslc hturfs hlimit hstreams hpair hrng
    have hturfs' : turfCount (begun s rq 0x0301) = 0 := by simpa only [turfCount, begun_te] using hturfs
    have hlimit' : userLimit (begun s rq 0x0301) = userLimit s := by simp only [userLimit, begun_mc, begun_board]
    have hstreams' : noStreamActive (begun s rq 0x0301) = true := by simpa only [noStreamActive, begun_su] using hstreams
    have hrefuse : ∀ b ∈ [decide (turfCount (begun s rq 0x0301) ≠ 0), decide (userLimit (begun s rq 0x0301) < gib),
        !noStreamActive (begun s rq 0x0301), formatRefused (begun s rq 0x0301).tu.ps, (begun s rq 0x0301).sec.rngFail], b = false := by
      simp [hturfs', hlimit', hstreams', hpair, hrng, hlimit]
    have hbad : ∀ b ∈ [gib == 0 || decide (65536 < gib), decide (3 ≤ slc)], b = false := by simp; omega
    refine ⟨fun hps => run_ok h.1 (atornQ_done h.2 hbad rfl hrefuse ?_), fun hps hch => run_ok h.1 (atornQ_done h.2 hbad rfl hrefuse ?_),
      fun hch => run_ok h.1 (atornQ_done h.2 hbad rfl hrefuse ?_)⟩
    · simp [hps, b2n]
    · simp [hps, hch, b2n]
    · simp [hch, b2n]
  case retire =>
    intro s rq c l lost h hc hl hash hcord
    have hcord' : cordActive (begun s rq 0x0302) (lunCord (lunIndex c l)) = cordActive s (lunCord (lunIndex c l)) := by
      simp only [cordActive, State.lun, lunGood, lunPopulated, begun_mc]
    have hash' : ((begun s rq 0x0302).lun (lunIndex c l)).ash = false := by simpa only [State.lun, begun_mc] using hash
    exact run_ok h.1 (atornQ_done h.2 (by simp; omega) rfl (by simp [hcord', hash', begun_inEmber h.2]; omega) rfl)
  case recDeep =>
    intro s ag hag
    exact run_ok (wf_may hag) (regRead_may hag)

end Sys2Proof.Proofs

/-! ## Ember and the starts (chapter 8) -/

namespace Sys2Proof.Proofs

open Sys2Proof Sys2Proof.Machine Sys2Proof.Safety Sys2Proof.Laws

/-! ### The power-fail warning (R159, R160, R184) -/

/-- The warning stands, and was not released since (R159). -/
def warned (s : State) : State := { s with eu := { s.eu with pfw := true, pfwHeld := false } }

/-- What an accepted warning begins. -/
def warnActs (s u : State) : State :=
  if inEmber s then (if s.eu.phase == .quiesce then emberEnter 1 u else u)
  else match s.rpm.st with
    | .service => if epochOpen s then emberEnter 1 u else timedShutdown 1 u
    | .kindling => if startPhase s.eu.phase then timedShutdown 1 { u with eu := { u.eu with startEnded := true } } else u
    | _ => u

theorem warnAccepted_of_new {s : State} (h : s.eu.pfw = false) : warnAccepted s = warnActs s (warned s) := by
  unfold warnAccepted
  rw [h, if_neg Bool.false_ne_true]
  rfl

theorem inEmber_of_quiesce {s : State} (h : s.eu.phase = .quiesce) : inEmber s = true := by
  rw [inEmber, h]

theorem holdTimeout_of_hold {s : State} (hphase : s.eu.phase = .sealedHold) (hopen : opening s = false) :
    holdTimeout s = if returnOk s then returnTry s else timedShutdown ((shutdownOf s).getD 1) s := by
  simp only [holdTimeout, hphase, hopen, bne_self_eq_false, Bool.or_self, Bool.false_eq_true, if_false]

theorem opening_of_returnOk {s : State} (h : returnOk s = true) : opening s = false := by
  simp only [returnOk, Bool.and_eq_true, Bool.not_eq_true'] at h
  exact h.2

/-! ### The commits up to that of a kind (R371) -/

theorem commitOfKind_of_run {s : State} {p : OptAct → Bool} {c : Commit} (hrun : s.opt.run = some c) (hp : p c.act = true) :
    commitOfKind p s = commitEnd s := by
  simp only [commitOfKind, hrun, Option.toList_some, List.singleton_append, List.any_cons, hp, Bool.true_or, if_true, commitsUntil]

theorem commitOfKind_of_queue {s : State} {p : OptAct → Bool} {c : Commit} (hrun : s.opt.run = some c) (hp : p c.act = false)
    (hqueue : ∃ d ∈ s.opt.queue, p d.act = true) : commitOfKind p s = commitsUntil p s.opt.queue.length (commitEnd s) := by
  have hany : (s.opt.queue.any fun d => p d.act) = true := List.any_eq_true.2 hqueue
  simp only [commitOfKind, hrun, Option.toList_some, List.singleton_append, List.any_cons, hp, hany, Bool.false_or, if_true, commitsUntil,
    Bool.false_eq_true, if_false]

theorem commitOfKind_of_none {s : State} {p : OptAct → Bool} (hqueue : ∀ c ∈ s.opt.queue, p c.act = false)
    (hrun : ∀ c, s.opt.run = some c → p c.act = false) : commitOfKind p s = s := by
  refine if_neg (ne_true_of_eq_false (List.any_eq_false.2 fun c hc => ne_true_of_eq_false ?_))
  rcases List.mem_append.1 hc with h | h
  · exact hrun c (Option.mem_toList.1 h)
  · exact hqueue c h

/-- Settles O28: the warning and the steps of ember, by phase. -/
theorem emberStepsComplete : Obligations.EmberStepsComplete := by
  refine ⟨?accepted, ?again, ?released, ?held, ?notHeld, ?quiesce, ?noQuiesce, ?flush, ?noFlush, ?back, ?shutdown, ?noTimeout, ?sealed, ?sealedLater,
    ?noSeal⟩
  case accepted =>
    intro s hpfw
    have hacts := warnAccepted_of_new hpfw
    refine ⟨warned s, rfl, fun hphase => run_ok rfl ?_, fun hember hphase => run_ok rfl ?_, fun hember hst hopen => run_ok rfl ?_,
      fun hember hst hopen => run_ok rfl ?_, fun hember hst hstart => run_ok rfl ?_, fun hember hst => run_ok rfl ?_⟩
    all_goals rw [hacts, warnActs]
    · rw [inEmber_of_quiesce hphase, if_pos rfl, if_pos (by simpa using hphase)]
    · rw [hember, if_pos rfl, if_neg (by simpa using hphase)]
    · simp only [hember, hst, hopen, Bool.false_eq_true, if_false, if_true]
    · simp only [hember, hst, hopen, Bool.false_eq_true, if_false]
    · simp only [hember, hst, hstart, Bool.false_eq_true, if_false, if_true]
    · rw [hember, if_neg Bool.false_ne_true]
      rcases hst with ⟨hst, hstart⟩ | ⟨hkindling, hservice⟩
      · rw [hst]
        exact if_neg (ne_true_of_eq_false hstart)
      · split
        · exact absurd ‹_› hservice
        · exact absurd ‹_› hkindling
        · rfl
  case again => exact fun s hpfw => run_ok rfl (if_pos hpfw)
  case released => exact fun s => run_ok rfl rfl
  case held =>
    intro s hpfw
    refine ⟨_, rfl, fun hbare => run_ok rfl ?_, fun hbare hok => run_ok rfl ?_, fun hbare hok => run_ok rfl ?_⟩
    all_goals refine (if_neg (ne_true_of_eq_false hpfw)).trans ?_
    · exact if_pos hbare
    · exact (if_neg (ne_true_of_eq_false hbare)).trans (if_pos hok)
    · exact (if_neg (ne_true_of_eq_false hbare)).trans (if_neg (ne_true_of_eq_false hok))
  case notHeld => exact fun s hpfw => run_ok rfl (if_pos hpfw)
  case quiesce =>
    intro s us hus hphase
    refine ⟨_, _, _, rfl, rfl, rfl, run_ok (by simpa [u32] using hus) ?_⟩
    unfold quiesceEnd
    rw [if_neg (by simp [hphase])]
    simp only [setWaits]
  case noQuiesce =>
    intro s us hus hphase
    exact run_ok (by simpa [u32] using hus) (if_pos (by simpa using hphase))
  case flush =>
    intro s us bad tw hwf hphase
    refine ⟨_, rfl, fun hdirty => run_ok hwf ?_, fun hclean => run_ok hwf ?_⟩
    all_goals refine (if_neg (by simp [hphase])).trans ?_
    · exact if_pos hdirty
    · exact if_neg (not_not_intro hclean)
  case noFlush =>
    intro s us bad tw hwf hphase
    exact run_ok hwf (if_pos (by simpa using hphase))
  case back =>
    intro s hphase hok
    refine run_ok rfl ?_
    rw [holdTimeout_of_hold hphase (opening_of_returnOk hok), if_pos hok, returnTry, if_pos hok]
  case shutdown =>
    intro s hphase hok hopen
    refine run_ok rfl ?_
    rw [holdTimeout_of_hold hphase hopen, if_neg (ne_true_of_eq_false hok)]
  case noTimeout =>
    intro s h
    refine run_ok rfl (if_pos ?_)
    rcases h with h | h <;> simp [h]
  case sealed =>
    intro s c hrun hact hpage
    refine run_ok rfl ?_
    rw [commitOfKind_of_run hrun (by simp [hact]), commitEnd, hrun]
    simp only [commitActed, hact, if_neg hpage]
  case sealedLater =>
    intro s c hrun hact hqueue
    exact run_ok rfl (commitOfKind_of_queue hrun (by simpa using hact) (by simpa using hqueue))
  case noSeal =>
    intro s hqueue hrun
    exact run_ok rfl (commitOfKind_of_none (by simpa using hqueue) (by simpa using hrun))

/-! ### Starts (R175, R176, R178) -/

theorem unlessFailed_of_sound {f : State → State} {u : State} (hft : u.ft.failed = false) (hrec : u.rpm.recovery = 0) :
    unlessFailed f u = f u := by
  simp [unlessFailed, hft, hrec]

theorem unlessFailed_of_recovery {f : State → State} {u : State} (hrec : u.rpm.recovery ≠ 0) : unlessFailed f u = u := by
  simp [unlessFailed, hrec]

theorem unlessFailed_of_failed {f : State → State} {u : State} (hft : u.ft.failed = true) (hrec : u.rpm.recovery = 0) :
    unlessFailed f u =
      { u with eu := { u.eu with phase := .service, epoch := { u.eu.epoch with st := 0 } }, rpm := { u.rpm with st := .service } } := by
  simp [unlessFailed, hft, hrec]

theorem begun_declaredCeil (mj mw : Nat) (s : State) (rq : Rq) (op : Nat) : declaredCeil mj mw (begun s rq op) = declaredCeil mj mw s := by
  simp only [declaredCeil, flushRateBytes, lunGood, lunPopulated, State.lun, begun_mc]

/-- The rejected sectors are recorded, and the front tier is trained and tested (R180, R93). -/
def scanStart (rejected : List Nat) (fail : SelfTest) (s : State) : State :=
  let v := rejected.foldl (fun s e => ledger 0x141F 0 [16, e / 16, e % 16] s) s
  ftStart fail { v with ft := { v.ft with remap := v.mc.remapMedia } }

/-- Settles O29: the starts by the outcome of the front tier's tests, and the ember commands. -/
theorem startsAndEmberCommandsComplete : Obligations.StartsAndEmberCommandsComplete := by
  refine ⟨?restart, ?lost, ?noRestart, ?scan, ?noScan, ?query, ?holdup, ?drill⟩
  case restart =>
    intro s fail hwf hmay
    have hstart : sealedRestart .none fail s = unlessFailed restartLoad (ftStart fail { s with ft := { s.ft with remap := s.mc.remapMedia } }) := by
      rw [sealedRestart, hmay, if_neg (by simp), if_pos rfl]
    have hwf' : (SealLost.wf .none && fail.wf) = true := hwf
    exact ⟨_, rfl, fun hft hrec => run_ok hwf' (hstart.trans (unlessFailed_of_sound hft hrec)),
      fun hrec => run_ok hwf' (hstart.trans (unlessFailed_of_recovery hrec)),
      fun hft hrec => run_ok hwf' (hstart.trans (unlessFailed_of_failed hft hrec))⟩
  case lost =>
    intro s lost fail hlost hfail hmay hnone
    refine run_ok (Bool.and_eq_true_iff.2 ⟨hlost, hfail⟩) ?_
    rw [sealedRestart, hmay, if_neg (by simp), if_neg hnone]
  case noRestart =>
    intro s lost fail hlost hfail hmay
    exact run_ok (Bool.and_eq_true_iff.2 ⟨hlost, hfail⟩) (if_pos (by simp [hmay]))
  case scan =>
    intro s bad rejected fail hwf hmay
    have hstart : fullScan bad rejected fail s = unlessFailed (scanLoad bad rejected) (scanStart rejected fail s) :=
      if_neg (by simp [hmay])
    exact ⟨_, _, rfl, rfl, fun hft hrec => run_ok hwf (hstart.trans (unlessFailed_of_sound hft hrec)),
      fun hrec => run_ok hwf (hstart.trans (unlessFailed_of_recovery hrec)),
      fun hft hrec => run_ok hwf (hstart.trans (unlessFailed_of_failed hft hrec))⟩
  case noScan =>
    intro s bad rejected fail hwf hmay
    exact run_ok hwf (if_pos (by simp [hmay]))
  case query => exact fun s rq h => run_ok h.1 (query_done h.2 _)
  case holdup =>
    intro s rq mj mw h hmj hmw hceil
    exact run_ok h.1 (atornQ_done h.2 (by simp; omega) rfl (by simp [begun_declaredCeil, hceil, begun_inEmber h.2]) rfl)
  case drill =>
    intro s rq h hidle hrec
    have hrefuse : ∀ b ∈ [(List.range 64).any (fun c => ((begun s rq 0x0402).chan c).st == .running), inEmber (begun s rq 0x0402),
        (begun s rq 0x0402).rpm.recovery != 0], b = false := by
      simpa [begun_inEmber h.2, hrec] using hidle
    have hepoch : epochOpen (begun s rq 0x0402) = epochOpen s := by simp only [epochOpen, begun_eu, begun_rpm]
    exact ⟨fun hopen => run_ok h.1 (atornQ_done h.2 (by simp) rfl hrefuse (if_pos (hepoch.trans hopen))),
      fun hshut => run_ok h.1 (atornQ_done h.2 (by simp) rfl hrefuse (if_neg (ne_true_of_eq_false (hepoch.trans hshut))))⟩

end Sys2Proof.Proofs

/-! ## Messages of the twin link (chapter 9) -/

namespace Sys2Proof.Proofs

open Sys2Proof Sys2Proof.Machine Sys2Proof.Safety Sys2Proof.Laws

/-! ### What the receive side does with a sound frame (R194, R208, R213) -/

section SoundFrames

variable {s : State} {h : LinkHdr} {m : LinkMsg} {body : State → State}

/-- The state once the `ACK` of a sound frame is taken. -/
def covered (s : State) (h : LinkHdr) : State :=
  { s with tu := { s.tu with session := h.session, sent := s.tu.sent.filter (fun f => decide (h.ack ≤ f.lseq)) } }

theorem linkRx_of_sound (ht : linkTakes s) (htag : h.tagOk = true) (hform : formOk h m = true) (hsession : sessionOk h s = true) :
    linkRx h m body s = if hdrNum h < s.tu.rxSeq then covered s h else if s.tu.rxSeq < hdrNum h then linkGap (covered s h)
      else genListPump (if s.tp.haltSent && !keptAfterHalt m then received s h else body (received s h)) := by
  rw [linkRx, if_neg (linkRx_guard_of_linkTakes ht), if_neg (by simp [htag]), if_neg (by simp [hform, hsession])]
  rfl

theorem linkRx_of_inOrder (hin : inOrder s h m) : linkRx h m body s = genListPump (body (received s h)) := by
  obtain ⟨hidle, hup, hquiet, htag, hform, hsession, hnum, hkept⟩ := hin
  have hacts : ¬ (s.tp.haltSent && !keptAfterHalt m) = true := by
    rcases hkept with hkept | hkept <;> simp [hkept]
  rw [linkRx_of_sound ⟨hidle, hup, hquiet⟩ htag hform hsession, if_neg (by omega), if_neg (by omega), if_neg hacts]

/-- A message whose row hands its frame to `linkRx`, taken in order. -/
theorem exec_of_inOrder {c : Instr} {t : State} (hexec : exec c s = run c.wf (linkRx h m body s)) (hwf : c.wf = true) (hin : inOrder s h m)
    (hbody : body (received s h) = t) : exec c s = .next (genListPump t) := by
  rw [hexec, linkRx_of_inOrder hin, hbody]
  exact run_ok hwf rfl

end SoundFrames

/-- Settles O32: the number of a sound frame, against the next expected. -/
theorem framesOutOfOrder : Obligations.FramesOutOfOrder := by
  intro s c h m hwf hf
  obtain ⟨body, hexec⟩ := exec_frame hwf hf s
  refine ⟨fun ht htag hform hsession hown => ⟨covered s h, rfl, fun hold => ?_, fun hgap hsoon => ?_, fun hgap hlate => ?_,
    fun hnext hhalt hnot => ?_⟩, fun hnot => ?_⟩
  · rw [hexec, judgedHdr_of_ownSession hown, linkRx_of_sound ht htag hform hsession, if_pos hold]
  · rw [hexec, judgedHdr_of_ownSession hown, linkRx_of_sound ht htag hform hsession, if_neg (by omega), if_pos hgap]
    exact congrArg Host.Outcome.next (if_pos hsoon)
  · rw [hexec, judgedHdr_of_ownSession hown, linkRx_of_sound ht htag hform hsession, if_neg (by omega), if_pos hgap]
    exact congrArg Host.Outcome.next (if_neg (Nat.not_lt.2 hlate))
  · rw [hexec, judgedHdr_of_ownSession hown, linkRx_of_sound ht htag hform hsession, if_neg (by omega), if_neg (by omega),
      if_pos (by simp [hhalt, hnot])]
  · rw [hexec, linkRx, if_pos]
    by_contra hguard
    simp only [Bool.or_eq_true, not_or, Bool.not_eq_true, Bool.not_eq_false'] at hguard
    obtain ⟨⟨hidle, hup⟩, hquiet⟩ := hguard
    exact hnot ⟨hidle, by simpa using hup, hquiet⟩

/-! ### Forwarded writes (R204, R205) -/

section Forwarded

variable {u : State} {tag d : Nat} {un : Bool} {mask : Option (BitVec 64)} {data : List Line} {cfg : Option CfgWrite}

theorem fwdTaken_of_cfg {c : CfgWrite} (hlive : pairLive u = true) (hcfg : cfg = some c) :
    fwdTaken tag d un mask data cfg u = if cfgHome u then settle (cfgOrdered (some tag) c u) else u := by
  simp only [fwdTaken, hlive, hcfg, Bool.not_true, Bool.false_eq_true, if_false, Option.isSome_some, if_true]

/-- A forwarded unmap is owed by the home (R104). -/
def fwdUnmap (tag d : Nat) (v : State) : State :=
  settle (unmapStep (d / 65536) { v with te := { v.te with
    unmaps := if v.te.unmaps.contains (d / 65536) then v.te.unmaps else v.te.unmaps ++ [d / 65536]
    unmapFwd := v.te.unmapFwd ++ [(d / 65536, tag)] } })

theorem fwdTaken_of_data (hlive : pairLive u = true) (hcfg : cfg = none) :
    fwdTaken tag d un mask data cfg u = if un then fwdUnmap tag d (pauseWait 10 u)
      else if fwdDenied u d then linkSend (.fwdResult tag 2) u
      else afterAccess (data.zipIdx.foldl (fun v x => submit
        { who := .twin, kind := .twinFwd tag, dpa := d / 64 * 64 + x.2 * 64, wr := some (x.1, mask.getD fullMask) } v) (pauseWait 10 u)) := by
  simp only [fwdTaken, hlive, hcfg, Bool.not_true, Bool.false_eq_true, if_false, Option.isSome_none, fwdUnmap]

end Forwarded

/-- Settles O30: each message in order does its own part in the state in which its frame is received. -/
theorem twinMessagesComplete : Obligations.TwinMessagesComplete := by
  rintro s u h hh rfl
  refine ⟨?hello, ?pairResult, ?keepalive, ?retry, ?peerStatus, ?repl, ?replAck, ?fwd, ?fwdResult, ?unitReq, ?unitReply, ?credit, ?migBegin,
    ?migReady, ?migDone⟩
  case hello =>
    intro p hin hown
    exact exec_of_inOrder (body := helloTaken p) (show run h.wf (linkRx (helloHdr h p s) (.hello p) (helloTaken p) s) = _ by rw [hown]; rfl) hh hin rfl
  case pairResult =>
    intro o r pgen pairId ho hr hpgen hpair hin
    have hwf : Instr.wf (.pairResult h o r pgen pairId) = true := by simpa [Instr.wf, u8, u32, u64] using ⟨⟨⟨⟨hh, ho⟩, hr⟩, hpgen⟩, hpair⟩
    refine ⟨fun p hello hB hopen => exec_of_inOrder rfl hwf hin ?_, fun hno => exec_of_inOrder rfl hwf hin ?_⟩
    · simp only [pairResultTaken, received, hello, hB, hopen, Bool.and_self, if_true]
    · unfold pairResultTaken
      split
      next p hello =>
        refine if_neg fun hyes => ?_
        obtain ⟨hB, hopen⟩ := Bool.and_eq_true_iff.1 hyes
        rcases hno with hno | hno | hno
        · exact Option.some_ne_none p (hello.symm.trans hno)
        · exact Bool.false_ne_true (hno.symm.trans hB)
        · exact Bool.false_ne_true (hno.symm.trans hopen)
      · rfl
  case keepalive => exact fun hin => exec_of_inOrder (body := fun s => s) rfl hh hin rfl
  case retry =>
    intro n hn hin
    exact exec_of_inOrder rfl (by simpa [Instr.wf] using ⟨hh, hn⟩) hin rfl
  case peerStatus =>
    intro pool b c q hpool hb hc hq hin
    exact exec_of_inOrder rfl (by simpa [Instr.wf, u32] using ⟨⟨⟨⟨hh, hpool⟩, hb⟩, hc⟩, hq⟩) hin rfl
  case repl =>
    intro g gen st recs hwf hin
    refine ⟨fun hrep hlive => exec_of_inOrder rfl hwf hin ?_, fun hno => exec_of_inOrder rfl hwf hin ?_⟩
    · exact if_pos (Bool.and_eq_true_iff.2 ⟨hrep, hlive⟩)
    · refine if_neg fun hyes => ?_
      obtain ⟨hrep, hlive⟩ := Bool.and_eq_true_iff.1 hyes
      exact hno.elim (fun h => Bool.false_ne_true (h.symm.trans hrep)) (fun h => Bool.false_ne_true (h.symm.trans hlive))
  case replAck =>
    intro st hst hin
    exact ⟨_, exec_of_inOrder rfl (by simpa [Instr.wf, u64] using ⟨hh, hst⟩) hin rfl, rfl⟩
  case fwd =>
    intro tag d un mask data cfg htag hd hin
    have hwf : Instr.wf (.fwd h tag d un mask data cfg) = true := by simpa [Instr.wf, u64] using ⟨⟨hh, htag⟩, hd⟩
    refine ⟨fun hlive => ?_, fun c hlive hcfg => ⟨fun hhome => ?_, fun hhome => ?_⟩, fun hlive hcfg hun => ⟨_, rfl, ?_⟩,
      fun hlive hcfg hun hdenied => ?_, fun hlive hcfg hun hdenied => ?_⟩
    all_goals refine exec_of_inOrder (body := fwdTaken tag d un mask data cfg) rfl hwf hin ?_
    · exact if_pos (by rw [show pairLive (received s h) = false from hlive]; rfl)
    · exact (fwdTaken_of_cfg (u := received s h) hlive hcfg).trans (if_pos hhome)
    · exact (fwdTaken_of_cfg (u := received s h) hlive hcfg).trans (if_neg (ne_true_of_eq_false hhome))
    · rw [fwdTaken_of_data (u := received s h) hlive hcfg, if_pos hun]
      rfl
    · rw [fwdTaken_of_data (u := received s h) hlive hcfg, if_neg (ne_true_of_eq_false hun)]
      exact if_pos hdenied
    · rw [fwdTaken_of_data (u := received s h) hlive hcfg, if_neg (ne_true_of_eq_false hun)]
      exact if_neg (ne_true_of_eq_false hdenied)
  case fwdResult =>
    intro tag r htag hr hin
    exact exec_of_inOrder rfl (by simpa [Instr.wf, u64, u8] using ⟨⟨hh, htag⟩, hr⟩) hin rfl
  case unitReq =>
    intro tag b i mode rds htag hb hi hmode hin
    exact exec_of_inOrder (body := fun s => unitReqTaken tag b i mode rds (pauseWait 10 s)) rfl
      (by simpa [Instr.wf, u32, u8] using ⟨⟨⟨⟨hh, htag⟩, hb⟩, hi⟩, hmode⟩) hin rfl
  case unitReply =>
    intro tag st stamp mask data htag hst hstamp hin
    exact exec_of_inOrder rfl (by simpa [Instr.wf, u32, u8, u64] using ⟨⟨⟨hh, htag⟩, hst⟩, hstamp⟩) hin rfl
  case credit =>
    intro n hn hin
    exact exec_of_inOrder rfl (by simpa [Instr.wf, u32] using ⟨hh, hn⟩) hin rfl
  case migBegin =>
    intro g hg hin
    have hwf : Instr.wf (.migBegin h g) = true := by simpa [Instr.wf] using ⟨hh, hg⟩
    refine ⟨fun hps => ⟨_, exec_of_inOrder rfl hwf hin (if_neg ?_), rfl⟩, fun hps => exec_of_inOrder rfl hwf hin (if_pos ?_)⟩
    · simp [received, hps]
    · simpa [received] using hps
  case migReady =>
    intro g hg hin
    exact exec_of_inOrder rfl (by simpa [Instr.wf] using ⟨hh, hg⟩) hin rfl
  case migDone =>
    intro g st hg hst hin
    have hwf : Instr.wf (.migDone h g st) = true := by simpa [Instr.wf, u64] using ⟨⟨hh, hg⟩, hst⟩
    refine ⟨fun hmine => ⟨_, exec_of_inOrder rfl hwf hin (if_pos ?_), rfl⟩, fun hnot => exec_of_inOrder rfl hwf hin (if_neg ?_)⟩
    · simpa [received] using hmine
    · simpa [received] using hnot

/-- Settles O31: the same for the messages of a resync, of commands and of notices. -/
theorem twinResyncMessagesComplete : Obligations.TwinResyncMessagesComplete := by
  rintro s u h hh rfl
  refine ⟨?genList, ?unitCopy, ?segDone, ?segAck, ?resyncDone, ?cmd, ?cmdReply, ?emberNotice, ?haltNotice, ?streamState, ?peerReset⟩
  case genList => exact fun first gens hwf hin => exec_of_inOrder rfl hwf hin rfl
  case unitCopy =>
    intro b i st mask data hb hi hst hin
    have hwf : Instr.wf (.unitCopy h b i st mask data) = true := by simpa [Instr.wf, u8] using ⟨⟨⟨hh, hb⟩, hi⟩, hst⟩
    refine ⟨fun hps => exec_of_inOrder rfl hwf hin (if_neg ?_), fun hps => exec_of_inOrder rfl hwf hin (if_pos ?_)⟩
    · simp [received, hps]
    · simpa [received] using hps
  case segDone =>
    intro g gen hg hgen hin
    have hwf : Instr.wf (.segDone h g gen) = true := by simpa [Instr.wf, u32] using ⟨⟨hh, hg⟩, hgen⟩
    refine ⟨fun hps => exec_of_inOrder rfl hwf hin (if_neg ?_), fun hps => exec_of_inOrder rfl hwf hin (if_pos ?_)⟩
    · simp [received, hps]
    · simpa [received] using hps
  case segAck =>
    intro g hg hin
    have hwf : Instr.wf (.segAck h g) = true := by simpa [Instr.wf] using ⟨hh, hg⟩
    exact ⟨fun hcopy => exec_of_inOrder rfl hwf hin (if_pos hcopy), fun hcopy => exec_of_inOrder rfl hwf hin (if_neg hcopy)⟩
  case resyncDone =>
    intro pgen hpgen hin
    exact exec_of_inOrder rfl (by simpa [Instr.wf, u32] using ⟨hh, hpgen⟩) hin rfl
  case cmd =>
    intro slot hslot hin
    have hwf : Instr.wf (.cmd h slot) = true := by simpa [Instr.wf, slotOk] using ⟨hh, hslot⟩
    exact ⟨fun hroom => exec_of_inOrder rfl hwf hin (if_neg (Nat.not_le.2 hroom)), fun hfull => exec_of_inOrder rfl hwf hin (if_pos hfull)⟩
  case cmdReply =>
    intro slot hslot hin
    exact exec_of_inOrder rfl (by simpa [Instr.wf, slotOk] using ⟨hh, hslot⟩) hin rfl
  case emberNotice =>
    intro c ents hc hents hin
    exact exec_of_inOrder rfl (by simpa [Instr.wf, u8, chanNoOk] using ⟨⟨hh, hc⟩, hents⟩) hin rfl
  case haltNotice =>
    intro r ents hr hents hin
    exact exec_of_inOrder rfl (by simpa [Instr.wf, u8, chanNoOk] using ⟨⟨hh, hr⟩, hents⟩) hin rfl
  case streamState =>
    intro ents hents hin
    exact exec_of_inOrder rfl (by simpa [Instr.wf, chanNoOk] using ⟨hh, hents⟩) hin rfl
  case peerReset =>
    intro hin
    refine ⟨fun hdown => exec_of_inOrder rfl hh hin (if_pos ?_), fun hhalt hft => exec_of_inOrder rfl hh hin (if_neg ?_)⟩
    · simpa [received] using hdown
    · simp [received, hhalt, hft]

end Sys2Proof.Proofs

/-! ## Timers, ports and commands of the twin link (chapter 9) -/

namespace Sys2Proof.Proofs

open Sys2Proof Sys2Proof.Machine Sys2Proof.Safety Sys2Proof.Laws

/-! ### Ports of the link (R192, R208, R219) -/

theorem setTwinPort_only (hi : Bool) (p : TwinPort) (s : State) : (setTwinPort hi p s).px = s.px ∧ (setTwinPort hi p s).sec = s.sec ∧
    (setTwinPort hi p s).ft = s.ft := by
  cases hi <;> exact ⟨rfl, rfl, rfl⟩

theorem retrainPump_only (s : State) : (retrainPump s).px = s.px ∧ (retrainPump s).sec = s.sec ∧ (retrainPump s).ft = s.ft := by
  unfold retrainPump
  split
  · exact ⟨rfl, rfl, rfl⟩
  · split
    · exact ⟨rfl, rfl, rfl⟩
    · split <;> exact ⟨rfl, rfl, rfl⟩

section Ports

variable {s : State} {hi : Bool} {w : Nat}

/-- A twin port that may train does; the first to carry frames begins a session (R192, R194). -/
theorem portTrained_of_may (hw : twinWidth w = true) (hidle : s.tu.idle = false) (hports : twinPorts s ≠ []) (hrec : s.rpm.recovery = 0)
    (hpll : (s.port (twinPortNo hi s)).pllOk = true) : portTrained hi w s =
      if s.tu.lo.up || s.tu.hi.up || !s.px.open_ || s.sec.halt || s.ft.failed
      then retrainPump (setTwinPort hi { up := true, width := w } s)
      else sessionBegin (retrainPump (setTwinPort hi { up := true, width := w } s)) := by
  obtain ⟨hpx, hsec, hft⟩ := retrainPump_only (setTwinPort hi { up := true, width := w } s)
  obtain ⟨hpx', hsec', hft'⟩ := setTwinPort_only hi { up := true, width := w } s
  simp only [portTrained, hw, hidle, hrec, hpll, hpx, hsec, hft, hpx', hsec', hft', List.isEmpty_eq_false_iff.2 hports, Bool.not_true, Bool.or_self,
    bne_self_eq_false, Bool.false_eq_true, if_false]

theorem portTrained_of_not (h : twinWidth w = false ∨ s.tu.idle = true ∨ twinPorts s = [] ∨ s.rpm.recovery ≠ 0 ∨
    (s.port (twinPortNo hi s)).pllOk = false) : portTrained hi w s = s := by
  refine if_pos ?_
  rcases h with h | h | h | h | h <;> simp [h]

/-- The port that degrades is named in the ledger (R219). -/
def degradeRecorded (hi : Bool) (w : Nat) (s : State) : State :=
  ledger 0x1804 (srcPort (twinPortNo hi s)) [twinPortNo hi s, w] (raise 0x1804 (twinPortNo hi s) 0 .nothing s)

theorem degradeRecorded_tu : (degradeRecorded hi w s).tu = s.tu := (ledger_reports (raise_reports (.refl s))).tu

theorem portDegrade_of_lower (hup : (if hi then s.tu.hi else s.tu.lo).up = true) (hlow : w < (if hi then s.tu.hi else s.tu.lo).width)
    (hw : w = 0 ∨ twinWidth w = true) : portDegrade hi w s =
      if w ≠ 0 then setTwinPort hi { (if hi then s.tu.hi else s.tu.lo) with width := w } (degradeRecorded hi w s)
      else if otherUp hi s then setTwinPort hi {} (degradeRecorded hi w s) else lossOfLink (degradeRecorded hi w s) := by
  have hguard : (!(if hi then s.tu.hi else s.tu.lo).up || decide ((if hi then s.tu.hi else s.tu.lo).width ≤ w) ||
      !(w == 0 || twinWidth w)) = false := by
    rw [hup, decide_eq_false (Nat.not_le.2 hlow)]
    rcases hw with hw | hw <;> simp [hw]
  have hother : otherUp hi (degradeRecorded hi w s) = otherUp hi s := by simp only [otherUp, degradeRecorded_tu]
  simp only [portDegrade, hguard, Bool.false_eq_true, if_false, ← hother]
  rfl

end Ports

/-! ### The quorum (R209, R210) -/

/-- PSEQ_IN has not been live for 1 ms. -/
def notLive (s : State) : State := { s with tu := { s.tu with live := false }, tp := { s.tp with notLive1ms := true } }

theorem pseqNotLive_ms (s : State) : pseqNotLive true s =
    if s.tp.deciding && !s.tu.record.token then claimTake (notLive s)
    else if linkUp s && s.tu.ps == .inSync && s.tu.qwired && !s.tu.qfault then
      raise 0x1803 0xFFFF 0 .nothing { notLive s with tu := { (notLive s).tu with qfault := true } }
    else notLive s := rfl

/-- Settles O34: each timer and input, where it acts and where it does not. -/
theorem twinTimersComplete : Obligations.TwinTimersComplete := by
  refine ⟨?trained, ?notTrained, ?gap, ?noGap, ?silent, ?ack, ?noAck, ?keepalive, ?noKeepalive, ?status, ?noStatus, ?stream, ?noStream, ?notLive,
    ?notLiveMs, ?claim, ?live, ?window, ?takeover, ?takeoverLater, ?noTakeover, ?retrain, ?noRetrain, ?degrade⟩
  case trained =>
    intro s hi w hlt hw hidle hports hrec hpll
    have hwf : decide (w < 32) = true := by simpa using hlt
    have htrained := portTrained_of_may hw hidle hports hrec hpll
    refine ⟨_, rfl, fun hkept => run_ok hwf (htrained.trans (if_pos ?_)), fun hlo hhi hopen hhalt hft => run_ok hwf (htrained.trans (if_neg ?_))⟩
    · rcases hkept with h | h | h | h | h <;> simp [h]
    · simp [hlo, hhi, hopen, hhalt, hft]
  case notTrained => exact fun s hi w hlt h => run_ok (by simpa using hlt) (portTrained_of_not h)
  case gap => exact fun s h => run_ok rfl (if_pos h)
  case noGap => exact fun s h => run_ok rfl (if_neg (ne_true_of_eq_false h))
  case silent =>
    rintro s hi p rfl
    refine ⟨fun hup hother => run_ok rfl ?_, fun hup hother => run_ok rfl ?_, fun hdown => run_ok rfl ?_⟩
    · simp only [portSilent, hup, hother, Bool.not_true, Bool.false_eq_true, if_false, if_true]
    · simp only [portSilent, hup, hother, Bool.not_true, Bool.false_eq_true, if_false]
    · simp only [portSilent, hdown, Bool.not_false, if_true]
  case ack => exact fun s hps hun => run_ok rfl (if_pos (by simp [hps, hun]))
  case noAck =>
    intro s h
    refine run_ok rfl (if_neg ?_)
    rcases h with h | h <;> simp [h]
  case keepalive => exact fun s hup hquiet => run_ok rfl (if_pos (by simp [hup, hquiet]))
  case noKeepalive =>
    intro s h
    refine run_ok rfl (if_neg ?_)
    rcases h with h | h <;> simp [h]
  case status => exact fun s hfull hlive => run_ok rfl (if_pos (by simp [hfull, hlive]))
  case noStatus =>
    intro s h
    refine run_ok rfl (if_neg ?_)
    rcases h with h | h <;> simp [h]
  case stream => exact fun s hfull hps hrun => run_ok rfl (if_pos (by simp [hfull, hps, hrun]))
  case noStream =>
    intro s h
    refine run_ok rfl (if_neg ?_)
    rcases h with h | h | h <;> simp [h]
  case notLive => exact fun s => run_ok rfl rfl
  case notLiveMs =>
    intro s
    refine ⟨notLive s, rfl, fun hdec htok => run_ok rfl ?_, fun hno => ?_⟩
    · rw [pseqNotLive_ms, if_pos (by simp [hdec, htok])]
    · have hstay : ¬ (s.tp.deciding && !s.tu.record.token) = true := by rcases hno with h | h <;> simp [h]
      refine ⟨fun hup hps hwired hfault => run_ok rfl ?_, fun hquiet => run_ok rfl ?_⟩
      · rw [pseqNotLive_ms, if_neg hstay, if_pos (by simp [hup, hps, hwired, hfault])]
      · rw [pseqNotLive_ms, if_neg hstay, if_neg (by rcases hquiet with h | h | h | h <;> simp [h])]
  case claim =>
    intro s
    refine ⟨_, rfl, fun hdec htok => run_ok rfl (if_pos ?_), fun hno => run_ok rfl (if_neg ?_)⟩
    · simp [hdec, htok]
    · rcases hno with h | h <;> simp [h]
  case live => exact fun s b => run_ok rfl rfl
  case window =>
    intro s
    refine ⟨fun hdec htok => run_ok rfl ?_, fun hdec htok => run_ok rfl ?_, fun hdec => run_ok rfl ?_⟩
    · simp only [quorumEnd, hdec, htok, Bool.not_true, Bool.false_eq_true, if_false, if_true]
    · simp only [quorumEnd, hdec, htok, Bool.not_true, Bool.false_eq_true, if_false]
    · simp only [quorumEnd, hdec, Bool.not_false, if_true]
  case takeover =>
    intro s c hrun hact hpage
    refine run_ok rfl ?_
    rw [commitOfKind_of_run hrun (by simp [hact]), commitEnd, hrun]
    simp only [commitActed, hact, if_neg hpage]
  case takeoverLater =>
    intro s c hrun hact hqueue
    exact run_ok rfl (commitOfKind_of_queue hrun (by simpa using hact) (by simpa using hqueue))
  case noTakeover =>
    intro s hqueue hrun
    exact run_ok rfl (commitOfKind_of_none (by simpa using hqueue) (by simpa using hrun))
  case retrain =>
    intro s hidle hdec htaking howed hbusy hps
    exact run_ok rfl (if_pos (by simp [hidle, hdec, htaking, howed, hbusy, hps]))
  case noRetrain =>
    intro s h
    refine run_ok rfl (if_neg ?_)
    rcases h with h | h | h | h | h | h <;> simp [h]
  case degrade =>
    rintro s hi w p hlt rfl
    have hwf : decide (w < 32) = true := by simpa using hlt
    refine ⟨degradeRecorded hi w s, rfl, fun hup hlow hw => run_ok hwf ?_, fun hup hlow hw hother => run_ok hwf ?_,
      fun hup hlow hw hother => run_ok hwf ?_, fun hno => run_ok hwf ?_⟩
    · have hpos : w ≠ 0 := by
        rintro rfl
        exact absurd hw (by decide)
      rw [portDegrade_of_lower hup hlow (.inr hw), if_pos hpos]
    · subst hw
      rw [portDegrade_of_lower hup hlow (.inl rfl), if_neg (not_not_intro rfl), if_pos hother]
    · subst hw
      rw [portDegrade_of_lower hup hlow (.inl rfl), if_neg (not_not_intro rfl), if_neg (ne_true_of_eq_false hother)]
    · refine if_pos ?_
      rcases hno with h | h | ⟨h, h'⟩
      · simp [h]
      · simp [h]
      · simp [h, h']

/-! ### Commands (R221) -/

theorem begun_linkUp (s : State) (rq : Rq) (op : Nat) : linkUp (begun s rq op) = linkUp s := by simp only [linkUp, begun_tu]

theorem begun_twinPorts (s : State) (rq : Rq) (op : Nat) : twinPorts (begun s rq op) = twinPorts s := by
  simp only [twinPorts, begun_port]

/-- Settles O35: the twin commands, in the state in which they have begun. -/
theorem twinCommandsComplete : Obligations.TwinCommandsComplete := by
  refine ⟨?query, ?homeSet, ?takeover, ?unpair, ?peerReset, ?retrain⟩
  case query => exact fun s rq h => run_ok h.1 (query_done h.2 _)
  case homeSet =>
    intro s rq base size policy h hpol hbase hsize hpos hroom
    refine run_ok h.1 (atornQ_done h.2 ?_ rfl ?_ rfl)
    · simp [hpol]
    · have hne : size ≠ 0 := by omega
      norm_num at hbase hsize
      rcases hroom with hsame | ⟨hpol3, hmeet, hlen⟩
      · simp [hbase, hsize, hne, hsame]
      · simp [hbase, hsize, hne, hpol3, hmeet, hlen]
  case takeover =>
    intro s rq h hup hmay hpgen
    have hmay' : mayTakeOver (begun s rq 0x0502) = true := by simpa only [mayTakeOver, begun_tu] using hmay
    exact run_ok h.1 (atornQ_done h.2 (by simp) rfl (by simp [begun_linkUp, hup, hmay', hpgen]) rfl)
  case unpair =>
    intro s rq h hnotice hrng
    exact run_ok h.1 (atornQ_done h.2 (by simp) rfl (by simp [hnotice, hrng]) rfl)
  case peerReset =>
    intro s rq h hup hhalt
    exact run_ok h.1 (atornQ_done h.2 (by simp) rfl (by simp [begun_linkUp, hup, hhalt]) rfl)
  case retrain =>
    intro s rq h hports
    have hdone : ∀ eff, ok rq [] (if (begun s rq 0x0505).tu.ps = .refused
        then { begun s rq 0x0505 with tu := { (begun s rq 0x0505).tu with idle := false } } else retrainDegraded (begun s rq 0x0505)) =
        eff (begun s rq 0x0505) → exec (.twinRetrain rq) s = .next (doneBy s rq 0x0505 eff) := fun eff heff =>
      run_ok h.1 (atornQ_done h.2 (by simp) rfl (by simp [begun_twinPorts, hports]) heff)
    refine ⟨fun hps => hdone _ ?_, fun hps => hdone _ ?_⟩
    · rw [if_pos (by rw [begun_tu, hps])]
    · rw [if_neg (by rwa [begun_tu])]

end Sys2Proof.Proofs

/-! ## Ports (chapter 10) -/

namespace Sys2Proof.Proofs

open Sys2Proof Sys2Proof.Machine Sys2Proof.Safety Sys2Proof.Laws

/-! ### Port resets (R231) -/

/-- The reset of a port is not taken now. -/
def resetHeld (s : State) : Prop :=
  euBusy s = true ∨ s.eu.phase = .shutdown ∨ s.rpm.st = .timedShutdown ∨ s.rpm.st = .shutdown

theorem rstAssert_port_of_held {s : State}
    (h : s.eu.phase = .shutdown ∨ s.rpm.st = .timedShutdown ∨ s.rpm.st = .shutdown) (p : Nat) : rstAssert (.port p) s = s := by
  rw [rstAssert, if_neg (by simp [isPowerOn]), if_pos]
  rcases h with h | h | h <;> simp [h]

theorem portPulse_of_held {s : State} (h : resetHeld s) (p : Nat) : portPulse p s = s := by
  unfold portPulse
  cases hbusy : euBusy s with
  | true => rfl
  | false =>
    have hheld := rstAssert_port_of_held (h.resolve_left (ne_true_of_eq_false hbusy)) p
    simp only [hheld, Bool.false_eq_true, if_false]
    split
    · rfl
    next hnot => rw [List.erase_of_not_mem (by simpa using hnot)]

theorem rstAssert_port {s : State} (hidle : euBusy s = false) (hphase : s.eu.phase ≠ .shutdown) (htimed : s.rpm.st ≠ .timedShutdown)
    (hshut : s.rpm.st ≠ .shutdown) (p : Nat) : rstAssert (.port p) s = rstTake (.port p) s := by
  simp [rstAssert, isPowerOn, isCold, hidle, hphase, htimed, hshut]

/-! ### Enumeration below a stream port (R244) -/

section Bars

theorem le_alignUp (a n : Nat) : a ≤ alignUp a n := by
  unfold alignUp
  split
  · exact Nat.le_refl a
  next hn =>
    have hdiv := Nat.div_add_mod' (a + n - 1) n
    have hmod := Nat.mod_lt (a + n - 1) (Nat.pos_of_ne_zero hn)
    omega

theorem alignUp_mod (a : Nat) {n : Nat} (hn : 0 < n) : alignUp a n % n = 0 := by
  rw [alignUp, if_neg (Nat.pos_iff_ne_zero.1 hn), Nat.mul_mod_left]

/-- Every BAR placed lies at or above the first address, naturally aligned. -/
theorem placeBars_mem {a : Nat} {l : List Nat} {b : Nat × Nat} (h : b ∈ placeBars a l) : a ≤ b.1 ∧ (0 < b.2 → b.1 % b.2 = 0) := by
  induction l generalizing a with
  | nil => cases h
  | cons n l ih =>
    rcases List.mem_cons.1 h with rfl | htail
    · exact ⟨le_alignUp a n, alignUp_mod a⟩
    · obtain ⟨hle, halign⟩ := ih htail
      exact ⟨by have := le_alignUp a n; omega, halign⟩

/-- The end of the last BAR placed. -/
def barsEnd (a : Nat) (bars : List (Nat × Nat)) : Nat := bars.foldl (fun n b => max n (b.1 + b.2)) a

theorem le_barsEnd (a : Nat) (bars : List (Nat × Nat)) : a ≤ barsEnd a bars := by
  induction bars generalizing a with
  | nil => exact Nat.le_refl a
  | cons b bars ih => exact (Nat.le_max_left a (b.1 + b.2)).trans (ih _)

theorem bar_le_barsEnd {a : Nat} {bars : List (Nat × Nat)} {b : Nat × Nat} (h : b ∈ bars) : b.1 + b.2 ≤ barsEnd a bars := by
  induction bars generalizing a with
  | nil => cases h
  | cons c bars ih =>
    rcases List.mem_cons.1 h with rfl | htail
    · exact (Nat.le_max_right a _).trans (le_barsEnd _ bars)
    · exact ih htail

/-- What enumeration keeps: at most 8 consumers, one for each function found unless one is left disabled, and their BARs in the
window of their port. -/
structure EnumOk (p n : Nat) (e : EnumSt) : Prop where
  few : e.cons.length ≤ 8
  all : e.off = [] → e.cons.length = n
  from_ : barBase p ≤ e.at_
  bars : ∀ c ∈ e.cons, ∀ b ∈ c.bars, barBase p ≤ b.1 ∧ b.1 + b.2 ≤ barBase p + 2 ^ 36 ∧ (0 < b.2 → b.1 % b.2 = 0)

theorem enumStep_ok {p n : Nat} {e : EnumSt} (h : EnumOk p n e) (f : FoundFn) : EnumOk p (n + 1) (enumStep p e f) := by
  unfold enumStep
  split
  · exact ⟨h.few, fun hoff => absurd hoff (by simp), h.from_, h.bars⟩
  next hroom =>
    have hfew : e.cons.length < 8 := by simp at hroom; omega
    dsimp only
    split
    next hfits =>
      refine ⟨by simp; omega, fun hoff => by simp [h.all hoff], h.from_.trans (le_barsEnd e.at_ _), fun c hc b hb => ?_⟩
      rcases List.mem_append.1 hc with hold | hnew
      · exact h.bars c hold b hb
      · rw [List.mem_singleton.1 hnew] at hb
        obtain ⟨hle, halign⟩ := placeBars_mem hb
        exact ⟨h.from_.trans hle, (bar_le_barsEnd hb).trans hfits, halign⟩
    next =>
      refine ⟨by simp; omega, fun hoff => absurd hoff (by simp), h.from_, fun c hc b hb => ?_⟩
      rcases List.mem_append.1 hc with hold | hnew
      · exact h.bars c hold b hb
      · rw [List.mem_singleton.1 hnew] at hb
        cases hb

theorem enumSteps_ok {p n : Nat} {e : EnumSt} (h : EnumOk p n e) (found : List FoundFn) :
    EnumOk p (n + found.length) (found.foldl (enumStep p) e) := by
  induction found generalizing n e with
  | nil => exact h
  | cons f found ih =>
    rw [List.foldl_cons, List.length_cons, Nat.add_comm found.length, ← Nat.add_assoc]
    exact ih (enumStep_ok h f)

end Bars

/-! ### Links (R226, R227) -/

theorem widthOk_iff {w : Nat} : widthOk w = true ↔ w ∈ [16, 8, 4] := by
  simp [widthOk, or_assoc]

/-- A port that trains at the full rate in flit mode serves; what is missing of its width or of its logical devices is an event. -/
def linkServes (p w : Nat) (b m multi : Bool) (s : State) : State :=
  s.modPort p (fun q => { q with width := w, rate := 6, flit := true, reversed := b, serving := true, mld := multi && m })

/-- A link below the full width is an event (R227). -/
def narrowSeen (p w : Nat) (s : State) : State := if w < 16 then raise 0x0001 p 0 .nothing s else s

/-- A partner that takes no multiple logical devices is an event (R226). -/
def multiRefused (p : Nat) (refused : Bool) (s : State) : State := if refused then raise 0x0002 p 0 .nothing s else s

/-- Settles O36: each event of the links and of the stream ports, where it acts and where it does not. -/
theorem portEventsComplete : Obligations.PortEventsComplete := by
  have hport : ∀ p, p < 10 → portOk p = true := fun p hp => by simpa [portOk] using hp
  refine ⟨?held, ?reset, ?up, ?refused, ?retry, ?lane, ?upconfigure, ?enumerate, ?consumer, ?fatal, ?inbound⟩
  case held => exact fun s p hp h => run_ok (hport p hp) (portPulse_of_held h p)
  case reset =>
    rintro s p t hp hidle hphase htimed hshut rfl
    have hassert := rstAssert_port hidle hphase htimed hshut p
    refine ⟨fun hin => run_ok (hport p hp) ?_, fun hnot => run_ok (hport p hp) ?_⟩
    · simp only [portReset, portPulse, hidle, hassert, hin, Bool.false_eq_true, if_false, if_true]
    · simp only [portReset, portPulse, hidle, hassert, hnot, Bool.false_eq_true, if_false]
  case up =>
    intro s p w b m hp htrains hw hmax
    have hwf : (portOk p && decide (6 < 8) && decide (w < 32)) = true := by
      simp [hport p hp]
      simp at hw
      omega
    obtain ⟨multi, hmulti⟩ : ∃ multi, multi = decide ((s.port p).role = 0 ∧ (s.port p).plain = false ∧ (s.port p).nfunc ≠ 0) := ⟨_, rfl⟩
    have hup : portLinkUp p 6 w true b m s = hostWidth p (multiRefused p (multi && !m) (narrowSeen p w (linkServes p w b m multi s))) := by
      have hmulti' : ((s.port p).role == 0 && !(s.port p).plain && (s.port p).nfunc != 0) = multi := by
        rw [hmulti, Bool.eq_iff_iff]
        simp [and_assoc]
      unfold portLinkUp
      rw [htrains, if_neg (by simp), if_neg (by simp [widthOk_iff.2 hw, hmax])]
      dsimp only
      rw [hmulti']
      rfl
    refine ⟨_, _, multi, run_ok hwf hup, hmulti, rfl, fun hsingle => ?_, fun hmany hrefused => ?_⟩
    · rcases hsingle with h | h <;> simp [h, multiRefused, narrowSeen, linkServes]
    · simp [hmany, hrefused, multiRefused, narrowSeen, linkServes]
  case refused =>
    intro s p rate w flit b m hp hrate hw
    have hwf : (portOk p && decide (rate < 8) && decide (w < 32)) = true := by simpa [hport p hp] using ⟨hrate, hw⟩
    refine ⟨fun hno => run_ok hwf (if_pos (by simp [hno])), fun htrains hlow => run_ok hwf ?_⟩
    rw [portLinkUp, htrains, if_neg (by simp), if_pos]
    · rfl
    · rcases hlow with h | h | h | h
      · simp [h]
      · simp [h]
      · simp [Bool.eq_false_iff.2 (mt widthOk_iff.1 h)]
      · simp [h]
  case retry =>
    intro s p hp
    refine ⟨fun hdis hfew => run_ok (hport p hp) (if_pos (by simp [hdis, hfew])), fun hno => run_ok (hport p hp) (if_neg ?_)⟩
    rcases hno with h | h <;> simp [h]
  case lane =>
    rintro s p u hp rfl
    refine ⟨fun hno => run_ok (hport p hp) (if_pos ?_), fun hrole hserving hwidth => run_ok (hport p hp) ?_,
      fun hrole hserving hwidth => run_ok (hport p hp) ?_⟩
    · rcases hno with h | h <;> simp [h]
    · simp only [laneFailed, hserving, beq_eq_false_iff_ne.2 hrole, Bool.not_true, Bool.or_self, Bool.false_eq_true, if_false, if_neg hwidth]
    · simp only [laneFailed, hserving, beq_eq_false_iff_ne.2 hrole, Bool.not_true, Bool.or_self, Bool.false_eq_true, if_false, if_pos hwidth]
  case upconfigure =>
    intro s p w hp hw hrole
    have hwf : Instr.wf (.linkUpconfigure p w) = true := by simpa [Instr.wf, hport p hp] using hw
    refine ⟨fun hserving hok hmax hlt => run_ok hwf ?_, fun hno => run_ok hwf ?_⟩
    · simp only [upconfigure, widthOk_iff.2 hok, decide_eq_false (Nat.not_lt.2 hmax), hserving, decide_eq_true hlt, Bool.not_true, Bool.or_self,
        Bool.and_self, Bool.false_eq_true, if_false, if_neg hrole, if_true]
    · by_cases hfits : widthOk w = true ∧ w ≤ maxLanes (s.port p)
      · have hnarrow : ((s.port p).serving && decide ((s.port p).width < w)) = false := by
          rcases hno with h | h | h | h
          · simp [h]
          · exact absurd (widthOk_iff.1 hfits.1) h
          · exact absurd hfits.2 (Nat.not_le.2 h)
          · simp [h]
        simp only [upconfigure, hfits.1, decide_eq_false (Nat.not_lt.2 hfits.2), hnarrow, Bool.not_true, Bool.or_self, Bool.false_eq_true,
          if_false, if_neg hrole]
      · refine if_pos ?_
        simp only [Bool.or_eq_true, Bool.not_eq_true', decide_eq_true_eq]
        rw [← Nat.not_le, ← Bool.not_eq_true]
        exact (Classical.not_and_iff_not_or_not).1 hfits
  case enumerate =>
    intro s p found hp
    refine ⟨fun hno => run_ok (hport p hp) (if_pos ?_), fun hrole hserving => ?_⟩
    · rcases hno with h | h <;> simp [h]
    · obtain ⟨hfew, hall, -, hbars⟩ := enumSteps_ok (p := p) (n := 0) (e := { at_ := barBase p })
        ⟨by simp, fun _ => rfl, Nat.le_refl _, fun c hc => absurd hc (by simp)⟩ found
      exact ⟨_, _, rfl, rfl, run_ok (hport p hp) (if_neg (by simp [hrole, hserving])), hfew, fun h => by simpa using hall h, hbars⟩
  case consumer =>
    intro s p c hp hc
    have hwf : (portOk p && decide (c < 8)) = true := by simpa [hport p hp] using hc
    exact ⟨fun h => ⟨run_ok hwf (if_pos h), run_ok hwf (if_pos h)⟩,
      fun h => ⟨run_ok hwf (if_neg (ne_true_of_eq_false h)), run_ok hwf (if_neg (ne_true_of_eq_false h))⟩⟩
  case fatal =>
    intro s p c hp hc
    have hwf : (portOk p && decide (c < 8)) = true := by simpa [hport p hp] using hc
    refine ⟨fun h => ⟨_, rfl, run_ok hwf (if_neg ?_), run_ok hwf (if_neg ?_)⟩, fun h => ⟨run_ok hwf (if_pos ?_), run_ok hwf (if_pos ?_)⟩⟩
    all_goals simp [h]
  case inbound =>
    intro s p hp
    refine ⟨fun hrole hserving => run_ok (hport p hp) (if_pos (by simp [hrole, hserving])), fun hno => run_ok (hport p hp) (if_neg ?_)⟩
    rcases hno with h | h <;> simp [h]

end Sys2Proof.Proofs

/-! ## The primary mailbox, the fabric manager's LD and the port commands (chapter 10) -/

namespace Sys2Proof.Proofs

open Sys2Proof Sys2Proof.Machine Sys2Proof.Safety Sys2Proof.Laws

/-! ### Tables written key by key -/

section Sets

variable {α : Type} [DecidableEq α]

/-- A read past a write to another key, whatever default the write leaves out. -/
theorem get_set_other_default (d d' : α) (t : Tab α) {n k : Nat} (v : α) (h : k ≠ n) : (t.set d n v).get d' k = t.get d' k := by
  unfold Tab.set
  split
  · exact get_erase_other d' t n k h
  · exact get_insert_other d' t n k v h

/-- The values of a function at the keys below `n`, each written with its own default. -/
theorem get_foldl_range (d f : Nat → α) {i : Nat} : ∀ {n : Nat}, i < n →
    ((List.range n).foldl (fun t k => Tab.set (d k) t k (f k)) []).get (d i) i = f i
  | 0, h => absurd h (Nat.not_lt_zero i)
  | n + 1, h => by
    rw [List.range_succ, List.foldl_append, List.foldl_cons, List.foldl_nil]
    by_cases hi : i = n
    · rw [hi, get_set_same]
    · rw [get_set_other_default _ _ _ _ hi, get_foldl_range d f (by omega)]

end Sets

/-! ### The primary mailbox (R237, R238) -/

section Mailbox

variable {s : State} {p l : Nat} (hserves : ldServes s p l = true) (hd3 : (s.fn p l).d3 = false)

theorem fnWrite_of_d3 {f : Nat} (hreached : fnReached s p f = true) (hd3 : (s.fn p f).d3 = true) (body : State → State) :
    fnWrite p f body s = logAer p f .unsupportedRequest s := by
  simp [fnWrite, hreached, hd3]

theorem fnWrite_of_absent {f : Nat} (hreached : fnReached s p f = false) (body : State → State) : fnWrite p f body s = s := by
  simp [fnWrite, hreached]

theorem fnReached_of_ldServes (h : ldServes s p l = true) : fnReached s p l = true := (Bool.and_eq_true_iff.1 h).1

theorem cxlCmd_of_absent (h : ldServes s p l = false) (body : State → State) : cxlCmd p l body s = s := if_neg (ne_true_of_eq_false h)

theorem cxlCmd_of_d3 (h : ldServes s p l = true) (hd3 : (s.fn p l).d3 = true) (body : State → State) :
    cxlCmd p l body s = logAer p l .unsupportedRequest s :=
  (if_pos h).trans (fnWrite_of_d3 (fnReached_of_ldServes h) hd3 body)

include hserves hd3 in
theorem cxlCmd_of_serves (body : State → State) : cxlCmd p l body s = body s :=
  (if_pos hserves).trans (fnWrite_of_reached (fnReached_of_ldServes hserves) hd3 body)

end Mailbox

theorem fmCmd_of_mld {s : State} {p : Nat} (hserves : portServes s p = true) (hmld : (s.port p).mld = true) (body : State → State) :
    fmCmd p body s = body s :=
  if_pos (Bool.and_eq_true_iff.2 ⟨hserves, hmld⟩)

theorem fmCmd_of_other {s : State} {p : Nat} (h : portServes s p = false ∨ (s.port p).mld = false) (body : State → State) :
    fmCmd p body s = s := by
  refine if_neg fun hyes => ?_
  obtain ⟨hserves, hmld⟩ := Bool.and_eq_true_iff.1 hyes
  exact h.elim (fun h => Bool.false_ne_true (h.symm.trans hserves)) (fun h => Bool.false_ne_true (h.symm.trans hmld))

/-- Records of a log that a command clears, and its overflow count. -/
def logCleared (log : Nat) (left : List EvRec) (x : LdState) : LdState :=
  { x with logs := x.logs.set [] log left, overCnt := x.overCnt.set 0 log 0 }

/-- The vector numbers of R243 as a policy sets them: a number of 64 and above is replaced by the default. -/
def policyNum (nums : List Nat) (i : Nat) : Nat := if nums.getD i 0 < 64 then nums.getD i 0 else 3 + i

def policySet (modes nums : List Nat) (x : LdState) : LdState :=
  { x with
    polMode := (List.range 4).foldl (fun (t : Tab Nat) i => t.set 0 i (modes.getD i 0)) []
    polNum := (List.range 4).foldl (fun (t : Tab Nat) i => t.set (3 + i) i (policyNum nums i)) [] }

/-- The poison index within a range and an LD's grants (R238). -/
def poisonMine (s : State) (p l base len : Nat) (e : Nat × Bool) : Bool :=
  decide (e.1 < base + len) && decide (base < e.1 + (if e.2 then 65536 else 64)) && (match turfAt s e.1 with
    | some (_, t) => (grantOf t (.fn p l)).isSome
    | none => false)

theorem poisonMine_iff {s : State} {p l base len : Nat} {e : Nat × Bool} : poisonMine s p l base len e = true ↔
    e.1 < base + len ∧ base < e.1 + (if e.2 then 65536 else 64) ∧ ∃ id t, turfAt s e.1 = some (id, t) ∧ (grantOf t (.fn p l)).isSome = true := by
  unfold poisonMine
  cases turfAt s e.1 with
  | none => simp
  | some x =>
    obtain ⟨id, t⟩ := x
    simp [and_assoc]

section Records

variable {s : State} {p l : Nat} (hserves : ldServes s p l = true) (hd3 : (s.fn p l).d3 = false)

/-- The state of an LD whose records are cleared. -/
def recordsLeft (s : State) (p l log : Nat) (all : Bool) (hs : List Nat) : State :=
  s.modLd p l (logCleared log (if all then [] else ((s.ld p l).logs.get [] log).filter (fun r => !hs.contains r.handle)))

theorem recordsLeft_log (s : State) (p l log : Nat) (all : Bool) (hs : List Nat) : ((recordsLeft s p l log all hs).ld p l).logs.get [] log =
    (if all then [] else ((s.ld p l).logs.get [] log).filter (fun r => !hs.contains r.handle)) := by
  rw [recordsLeft, modLd_same]
  exact get_set_same (α := List EvRec) ..

theorem recordsLeft_over (s : State) (p l log : Nat) (all : Bool) (hs : List Nat) :
    ((recordsLeft s p l log all hs).ld p l).overCnt.get 0 log = 0 := by
  rw [recordsLeft, modLd_same]
  exact get_set_same 0 (s.ld p l).overCnt log 0

theorem recordsLeft_other (s : State) (p l : Nat) {log k : Nat} (h : k ≠ log) (all : Bool) (hs : List Nat) :
    ((recordsLeft s p l log all hs).ld p l).logs.get [] k = (s.ld p l).logs.get [] k := by
  rw [recordsLeft, modLd_same]
  exact get_set_other (α := List EvRec) _ _ _ _ _ h

/-- A policy's modes and numbers, and the numbers replaced by defaults, which are counted (R243). -/
def policyTaken (s : State) (p l : Nat) (modes nums : List Nat) : State :=
  (s.modLd p l (policySet modes nums)).modPort p
    (fun q => { q with policyFix := satAdd max32 q.policyFix (nums.filter (fun n => decide (64 ≤ n))).length })

theorem policyTaken_ld (s : State) (p l : Nat) (modes nums : List Nat) :
    (policyTaken s p l modes nums).ld p l = policySet modes nums (s.ld p l) := modLd_same s p l _

theorem policyTaken_vector (s : State) (p l : Nat) (modes nums : List Nat) {i : Nat} (hi : i < 4) :
    logVector ((policyTaken s p l modes nums).ld p l) i = policyNum nums i := by
  rw [policyTaken_ld]
  exact get_foldl_range (fun i => 3 + i) (policyNum nums) hi

include hserves hd3

theorem clearRecords_of_found {log : Nat} {all : Bool} {hs : List Nat} (hlog : log < 4)
    (hfound : all = true ∨ ∀ h ∈ hs, ∃ r ∈ (s.ld p l).logs.get [] log, r.handle = h) :
    clearRecords p l log all hs s = cxlDone p l 0 [] (recordsLeft s p l log all hs) := by
  refine (cxlCmd_of_serves hserves hd3 _).trans (if_neg ?_)
  rcases hfound with h | h
  · simp [hlog, h]
  · simpa [hlog] using fun _ => h

theorem clearRecords_of_missing {log : Nat} {hs : List Nat} (hmiss : ∃ h ∈ hs, ∀ r ∈ (s.ld p l).logs.get [] log, r.handle ≠ h) :
    clearRecords p l log false hs s = cxlDone p l 2 [] s := by
  refine (cxlCmd_of_serves hserves hd3 _).trans (if_pos ?_)
  simp only [Bool.not_false, Bool.true_and, Bool.or_eq_true, decide_eq_true_eq, Bool.not_eq_true', List.all_eq_false]
  exact .inr (by simpa using hmiss)

theorem setPolicy_of_modes {modes nums : List Nat} (hmodes : ∀ m ∈ modes, m < 3) :
    setPolicy p l modes nums s = cxlDone p l 0 [] (policyTaken s p l modes nums) :=
  (cxlCmd_of_serves hserves hd3 _).trans (if_neg (by simpa using hmodes))

theorem setPolicy_of_badMode {modes nums : List Nat} (hbad : ∃ m ∈ modes, 3 ≤ m) : setPolicy p l modes nums s = cxlDone p l 2 [] s :=
  (cxlCmd_of_serves hserves hd3 _).trans (if_pos (by simpa using hbad))

end Records

/-- Settles O37: the commands of the primary mailbox and of the FM-owned LD, where they are served and where not. -/
theorem cxlCommandsComplete : Obligations.CxlCommandsComplete := by
  refine ⟨?mailbox, ?closed, ?fm, ?noFm, ?unmask⟩
  case mailbox =>
    intro s p l hp hl hserves hd3
    have hfn : fnOk p l = true := by simpa [fnOk] using ⟨hp, hl⟩
    have hcmd := cxlCmd_of_serves hserves hd3
    have hclear : ∀ log (hs : List Nat), log < 256 → (∀ h ∈ hs, h < 65536) → (fnOk p l && u8 log && hs.all u16) = true := fun log hs hlog hhs => by
      simpa [hfn, u8, u16] using ⟨hlog, hhs⟩
    have hget : ∀ log, log < 256 → (fnOk p l && u8 log) = true := fun log hlog => by simpa [hfn, u8] using hlog
    refine ⟨?records, ?badLog, ?clear, run_ok hfn (hcmd _), ?policy, run_ok hfn (hcmd _), run_ok hfn (hcmd _), run_ok hfn (hcmd _),
      ⟨_, run_ok hfn (hcmd _)⟩, ?poison, ?other⟩
    case records => exact fun log hlog => run_ok (hget log (by omega)) ((hcmd _).trans (if_neg (Nat.not_le.2 hlog)))
    case badLog =>
      exact fun log hs all hlog hlt hhs => ⟨run_ok (hget log hlt) ((hcmd _).trans (if_pos hlog)),
        run_ok (hclear log hs hlt hhs) ((hcmd _).trans (if_pos (by simp [hlog])))⟩
    case clear =>
      intro log hs all hlog hhs
      have hwf := hclear log hs (by omega) hhs
      refine ⟨fun hfound => ⟨_, run_ok hwf (clearRecords_of_found hserves hd3 hlog hfound), recordsLeft_log .., recordsLeft_over ..,
        fun k hk => recordsLeft_other s p l hk all hs⟩, fun hall hmiss => ?_⟩
      subst hall
      exact run_ok hwf (clearRecords_of_missing hserves hd3 hmiss)
    case policy =>
      intro modes nums hmodes hnums
      have hwf : (fnOk p l && decide (modes.length = 4) && decide (nums.length = 4)) = true := by simp [hfn, hmodes, hnums]
      refine ⟨fun hok => ⟨_, run_ok hwf (setPolicy_of_modes hserves hd3 hok), ?_, fun i hi => ⟨?_, policyTaken_vector s p l modes nums hi⟩⟩,
        fun hbad => run_ok hwf (setPolicy_of_badMode hserves hd3 hbad)⟩
      · rw [policyTaken, modPort_same]
        rfl
      · rw [policyTaken_ld]
        exact get_foldl_range (fun _ => 0) (fun i => modes.getD i 0) hi
    case poison =>
      refine fun base len hbase hlen => ⟨s.px.poisonIdx.filter (poisonMine s p l base len),
        run_ok (by simpa [hfn, u64] using ⟨hbase, hlen⟩) (hcmd _), List.filter_sublist, fun e => ?_⟩
      rw [List.mem_filter, poisonMine_iff]
    case other =>
      exact fun op hop hother => run_ok (by simpa [hfn, u16] using hop) ((if_neg (ne_true_of_eq_false hother)).trans (hcmd _))
  case closed =>
    intro s p l log all hs modes nums base len op hp hl hlog hhs hmodes hnums hbase hlen hop c hc
    have hfn : fnOk p l = true := by simpa [fnOk] using ⟨hp, hl⟩
    have hclosed : ∀ {c : Instr} {b : Bool} (body : State → State), b = true → exec c s = run b (cxlCmd p l body s) →
        (ldServes s p l = false → exec c s = .next s) ∧ (ldServes s p l = true → (s.fn p l).d3 = true → cxlOpcodes.contains op = false →
          exec c s = .next (logAer p l .unsupportedRequest s)) := fun body hwf hexec =>
      ⟨fun h => hexec.trans (run_ok hwf (cxlCmd_of_absent h _)), fun h hd3 _ => hexec.trans (run_ok hwf (cxlCmd_of_d3 h hd3 _))⟩
    simp only [List.mem_cons, List.not_mem_nil, or_false] at hc
    rcases hc with rfl | rfl | rfl | rfl | rfl | rfl | rfl | rfl | rfl | rfl
    · exact hclosed _ (by simpa [hfn, u8] using hlog) rfl
    · exact hclosed _ (by simpa [hfn, u8, u16] using ⟨hlog, hhs⟩) rfl
    · exact hclosed _ hfn rfl
    · exact hclosed _ (by simp [hfn, hmodes, hnums]) rfl
    · exact hclosed _ hfn rfl
    · exact hclosed _ hfn rfl
    · exact hclosed _ hfn rfl
    · exact hclosed _ hfn rfl
    · exact hclosed _ (by simpa [hfn, u64] using ⟨hbase, hlen⟩) rfl
    · have hwf : (fnOk p l && u16 op) = true := by simpa [hfn, u16] using hop
      refine ⟨fun h => run_ok hwf ?_, fun h hd3 hother => run_ok hwf ?_⟩
      · unfold cxlOther
        rw [cxlCmd_of_absent h, ite_self]
      · exact (if_neg (ne_true_of_eq_false hother)).trans (cxlCmd_of_d3 h hd3 _)
  case fm =>
    intro s p hp hserves hmld
    have hport : portOk p = true := by simpa [portOk] using hp
    have hcmd := fmCmd_of_mld hserves hmld
    refine ⟨run_ok hport (hcmd _), run_ok hport (hcmd _), run_ok hport ((hcmd _).trans ?_), fun sizes hne => run_ok hport ((hcmd _).trans ?_),
      run_ok hport (hcmd _), fun vals => run_ok hport (hcmd _), _, run_ok hport (hcmd _)⟩
    · rw [if_pos (by rfl), cxlOk]
    · rw [if_neg (by exact hne), cxlInvalid]
  case noFm =>
    intro s p vals hp h c hc
    have hport : portOk p = true := by simpa [portOk] using hp
    simp only [List.mem_cons, List.not_mem_nil, or_false] at hc
    rcases hc with rfl | rfl | rfl | rfl | rfl | rfl <;> exact run_ok hport (fmCmd_of_other h _)
  case unmask =>
    intro s p f v hp hf hv
    have hwf : (fnOk p f && decide (v < 64)) = true := by simpa [fnOk] using ⟨⟨hp, hf⟩, hv⟩
    exact ⟨fun hreached hd3 => run_ok hwf (fnWrite_of_reached hreached hd3 _), fun hreached hd3 => run_ok hwf (fnWrite_of_d3 hreached hd3 _),
      fun habsent => run_ok hwf (fnWrite_of_absent habsent _)⟩

/-! ### A vector's one message (R243) -/

section Fire

variable {s : State} {p f v : Nat}

/-- The vector's message goes out where it is pending and open. -/
def fireOne (p f : Nat) (s : State) (v : Nat) : State :=
  let x := s.fn p f
  if x.pend.getLsbD v && x.msixEn && !x.msixMask && !(x.msix.get {} v).mask then
    emit (.msix p f v) (s.modFn p f (fun x => { x with pend := x.pend &&& ~~~((1#64) <<< v) }))
  else s

theorem fireOnes_of_clear {l : List Nat} (h : ∀ w ∈ l, (s.fn p f).pend.getLsbD w = false) : l.foldl (fireOne p f) s = s := by
  induction l with
  | nil => rfl
  | cons w l ih =>
    have hskip : fireOne p f s w = s := by simp [fireOne, h w List.mem_cons_self]
    rw [List.foldl_cons, hskip]
    exact ih fun x hx => h x (List.mem_cons_of_mem _ hx)

theorem range_split {n v : Nat} (hv : v < n) : List.range n = List.range v ++ v :: List.range' (v + 1) (n - v - 1) := by
  have happend := List.range'_append_1 (s := 0) (m := v) (n := n - v - 1 + 1)
  rw [Nat.zero_add, show v + (n - v - 1 + 1) = n by omega] at happend
  rw [List.range_eq_range', List.range_eq_range', ← List.range'_succ, happend]

/-- A pending bit alone is sent once, and the vectors past it have nothing to send. -/
theorem firePending_of_one (hen : (s.fn p f).msixEn = true) (hmask : (s.fn p f).msixMask = false)
    (hvec : ((s.fn p f).msix.get {} v).mask = false) (hpend : (s.fn p f).pend = (1#64) <<< v) (hv : v < 64) :
    firePending p f s = emit (.msix p f v) (s.modFn p f (fun x => { x with pend := x.pend &&& ~~~((1#64) <<< v) })) := by
  have hbit : ((1#64) <<< v).getLsbD v = true := by simp [hv]
  have hbelow : ∀ w ∈ List.range v, (s.fn p f).pend.getLsbD w = false := fun w hw => by
    rw [hpend]
    simp [List.mem_range.1 hw]
  have hone : fireOne p f s v = emit (.msix p f v) (s.modFn p f (fun x => { x with pend := x.pend &&& ~~~((1#64) <<< v) })) := by
    simp [fireOne, hpend, hbit, hen, hmask, hvec]
  have hsent : ((emit (.msix p f v) (s.modFn p f (fun x => { x with pend := x.pend &&& ~~~((1#64) <<< v) }))).fn p f).pend = 0 := by
    show (State.fn (State.modFn _ p f _) p f).pend = 0
    rw [modFn_same]
    show (s.fn p f).pend &&& _ = 0
    rw [hpend]
    exact BitVec.and_not_self _
  calc firePending p f s = (List.range 64).foldl (fireOne p f) s := rfl
    _ = (List.range' (v + 1) (64 - v - 1)).foldl (fireOne p f) (fireOne p f s v) := by
      rw [range_split hv, List.foldl_append, fireOnes_of_clear hbelow, List.foldl_cons]
    _ = _ := by
      rw [hone]
      exact fireOnes_of_clear fun w _ => by rw [hsent]; exact BitVec.getLsbD_zero

end Fire

/-! ### The sender of a command -/

theorem count_bind (code inst qual n : Nat) (s : State) (k : Nat) : ((count code inst qual n s).mbox k).bind_ = (s.mbox k).bind_ := by
  have hboxes : boxRest ((count code inst qual n s).mbox k) = boxRest (s.mbox k) := (count_reports (.refl s)).boxes k
  show (boxRest ((count code inst qual n s).mbox k)).bind_ = (boxRest (s.mbox k)).bind_
  rw [hboxes]

theorem begun_bind (s : State) (rq : Rq) (op k : Nat) : ((begun s rq op).mbox k).bind_ = (s.mbox k).bind_ := by
  rw [begun, takeDirect, count_bind]
  by_cases hk : k = rq.ch
  · rw [hk, modMbox_same]
  · rw [modMbox_other _ _ _ _ hk]

theorem begun_senderOf (s : State) (rq : Rq) (op ch : Nat) : senderOf (begun s rq op) ch = senderOf s ch := by
  simp only [senderOf, begun_bind]

/-- Settles O38: one message of an unmasked vector, and the port commands. -/
theorem portCommandsComplete : Obligations.PortCommandsComplete := by
  refine ⟨?unmask, ?query, ?queryAll, ?retrain, ?rescan⟩
  case unmask =>
    intro s p f v hp hf hv hreached hd3 hen hmask hpend
    have hwf : (fnOk p f && decide (v < 64)) = true := by simpa [fnOk] using ⟨⟨hp, hf⟩, hv⟩
    have hfn := modFn_same s p f (fun x => { x with msix := x.msix.upd {} v (fun e => { e with mask := false }) })
    have hvec : (((s.modFn p f (fun x => { x with msix := x.msix.upd {} v (fun e => { e with mask := false }) })).fn p f).msix.get {} v).mask = false := by
      rw [hfn]
      simp
    refine ⟨_, run_ok hwf ((fnWrite_of_reached hreached hd3 _).trans (firePending_of_one (by rw [hfn]; exact hen) (by rw [hfn]; exact hmask)
      hvec (by rw [hfn]; exact hpend) hv)), rfl, ?_, ?_⟩
    · show (State.fn (State.modFn _ p f _) p f).pend = 0
      rw [modFn_same, hfn]
      show (s.fn p f).pend &&& _ = 0
      rw [hpend, BitVec.and_not_self]
    · show ((State.fn (State.modFn _ p f _) p f).msix.get {} v).mask = false
      rw [modFn_same]
      exact hvec
  case query =>
    intro s rq p h hp
    have hone : p ≠ allOnes := by unfold allOnes; omega
    exact run_ok h.1 (atornQ_done h.2 (by simp [hp]) rfl (by simp) (by rw [if_neg hone]; simp))
  case queryAll => exact fun s rq h => run_ok h.1 (atornQ_done h.2 (by simp) rfl (by simp) (by rw [if_pos rfl]))
  case retrain =>
    intro s rq p h hp hrole hsender
    have hsender' : senderPort (begun s rq 0x0601) rq.ch = senderPort s rq.ch := by simp only [senderPort, begun_senderOf]
    exact run_ok h.1 (atornQ_done h.2 (by simp [hp]) rfl (by simp [hrole, hsender', hsender, begun_inEmber h.2]) rfl)
  case rescan =>
    intro s rq p h hp hrole hstream
    have hstream' : streamOn (begun s rq 0x0602) p = false := by simpa only [streamOn, begun_su] using hstream
    have hbad : ∀ b ∈ [decide (10 ≤ p)], b = false := by simp [hp]
    have hrefuse : ∀ b ∈ [((begun s rq 0x0602).port p).role != 1, streamOn (begun s rq 0x0602) p], b = false := by simp [hrole, hstream']
    have hport := begun_port s rq 0x0602 p
    exact ⟨fun hserving => run_ok h.1 (atornQ_done h.2 hbad rfl hrefuse (if_pos (by rw [hport]; exact hserving))),
      fun hdown => run_ok h.1 (atornQ_done h.2 hbad rfl hrefuse (if_neg (by rw [hport, hdown]; exact Bool.false_ne_true)))⟩

end Sys2Proof.Proofs

/-! ## Stream channels (chapter 11) -/

namespace Sys2Proof.Proofs

open Sys2Proof Sys2Proof.Machine Sys2Proof.Safety Sys2Proof.Laws

/-! ### A job's checks once its command has begun -/

section Begun

variable (s : State) (rq : Rq) (op : Nat)

theorem begun_turfAt (d : Nat) : turfAt (begun s rq op) d = turfAt s d := by simp only [turfAt, begun_te]

theorem begun_rangeGranted (ag : Agent) (base len : Nat) : rangeGranted (begun s rq op) ag base len = rangeGranted s ag base len := by
  simp only [rangeGranted, begun_turfAt]

theorem begun_jobBad (c : Nat) (j : JobParams) : jobBad (begun s rq op) c j = jobBad s c j := by
  simp only [jobBad, consumerHere, begun_port]

theorem begun_ownsJob (c : Nat) : ownsJob rq c (begun s rq op) = ownsJob rq c s := by simp only [ownsJob, hasJob, begun_chan]

theorem begun_activeLanes : activeLanes (begun s rq op) = activeLanes s := by simp only [activeLanes, begun_xe]

theorem begun_admitted (skip port : Option Nat) : admitted (begun s rq op) skip port = admitted s skip port := by
  simp only [admitted, begun_su]

theorem begun_rateOver (c : Nat) (j : JobParams) : rateOver (begun s rq op) c j = rateOver s c j := by
  have hport : portPayload (begun s rq op) j.port = portPayload s j.port := by rw [portPayload, portPayload, begun_port]
  have hdev : devPayload (begun s rq op) = devPayload s := by rw [devPayload, devPayload, begun_activeLanes]
  simp only [rateOver, begun_admitted, hport, hdev]

theorem begun_pinsOver (c : Nat) (j : JobParams) : pinsOver (begun s rq op) c j = pinsOver s c j := by
  simp only [pinsOver, begun_turfAt, begun_su]

theorem begun_standbyBad (mode : Nat) (j : JobParams) (peer : Option JobParams) :
    standbyBad (begun s rq op) mode j peer = standbyBad s mode j peer := by
  simp only [standbyBad, begun_tu]

theorem begun_startBad (c mode : Nat) (peer : Option JobParams) : startBad (begun s rq op) c mode peer = startBad s c mode peer := by
  simp only [startBad, begun_chan, begun_rateOver, begun_pinsOver, begun_standbyBad, begun_rangeGranted, begun_senderOf,
    inEmber_eq (t := begun s rq op) (s := s) (by simp), begun_rpm]

end Begun

theorem ownsJob_of_owner {s : State} {rq : Rq} {c : Nat} {j : JobParams} (hjob : (s.chan c).job = some j) (howner : (s.chan c).owner = rq.ch) :
    ownsJob rq c s = true := by
  simp [ownsJob, hasJob, hjob, howner]

theorem chanActive_iff {st : ChSt} : chanActive st = true ↔ st ∈ [ChSt.priming, .armed, .running, .standby] := by
  cases st <;> simp [chanActive]

/-! ### Job load (R249) -/

section JobLoad

variable {s : State} {rq : Rq} {c : Nat} {j : JobParams}

theorem jobLoad_of_file (hcode : loadCode (jobRd s j) j.len = 0) : jobLoad rq c j s =
    if !fileRange (hdrOf (rdBytes (jobRd s j) 0 128)) j then reply rq 0x0301 2 [] s
    else if !ringPlaced s j then reply rq 0x0301 5 [] s
    else if !ringAlone s j then reply rq 0x0301 6 [] s
    else ok rq [] (setCommitted rq (countStreams (· + 1) j (setChan c
      { st := .loaded, job := some j, owner := rq.ch, next := j.first, header := rdBytes (jobRd s j) 0 128 } s))) :=
  if_neg (not_not_intro hcode)

end JobLoad

/-! ### Resume (R251, R260) -/

/-- A channel that a resume may leave. -/
def resumable (s : State) (c : Nat) : Bool :=
  match (s.chan c).st with
  | .held | .done | .standby => true
  | _ => false

/-- A line named that lies outside the job. -/
def lineOut (s : State) (c line : Nat) : Bool :=
  match (s.chan c).job with
  | some j => line != allOnes && (decide (line < j.first) || decide (lastOf j < line))
  | none => false

theorem streamResume_eq (rq : Rq) (c line stamp mode : Nat) (peer : Option JobParams) (s : State) :
    streamResume rq c line stamp mode peer s = atorn 0x0704 rq (ownsJob rq c) (fun _ => true)
      (fun s => { params := [[.n4 c], [.n4 line], [.n8 stamp], [.n4 mode]], bad := [decide (64 ≤ c), false, false, decide (2 ≤ mode)], refuse :=
        [!resumable s c, lineOut s c line, line == allOnes && !(s.chan c).heldValid] ++ startBad s c mode peer })
      (fun s => ok rq [] (setCommitted rq (prime c (if line = allOnes then (s.chan c).next else line) stamp mode s))) s := rfl

/-- Settles O39: the stream commands, in the state in which they have begun. -/
theorem streamCommandsComplete : Obligations.StreamCommandsComplete := by
  refine ⟨?load, ?loadFile, ?unload, ?start, ?stop, ?resume, ?query⟩
  case load =>
    intro s rq c j h hbad hjob hrange
    exact run_ok h.1 (atornQ_done h.2 (by rw [begun_jobBad]; exact hbad) rfl
      (by simp [hasJob, begun_rangeGranted, begun_senderOf, hrange, show (s.chan c).job.isSome = false from hjob]) rfl)
  case loadFile =>
    intro s rq c j
    refine ⟨fun hcode => if_pos hcode, fun hcode => ⟨fun hrange => ?_, fun hrange => ⟨fun hplace => ?_, fun hplace halone => ?_, fun hplace halone => ?_⟩⟩⟩
    all_goals rw [jobLoad_of_file hcode, hrange]
    · rfl
    · rw [if_neg (by simp), hplace]
      rfl
    · rw [if_neg (by simp), hplace, if_neg (by simp), halone]
      rfl
    · rw [if_neg (by simp), hplace, if_neg (by simp), halone, if_neg (by simp)]
  case unload =>
    intro s rq c j h hc hjob howner hst
    refine run_ok h.1 ?_
    unfold streamJobUnload
    refine atorn_done h.2 (ownsJob_of_owner hjob howner) rfl ?_ rfl ?_ ?_
    · simp [hc]
    · simp only [List.mem_cons, List.not_mem_nil, or_false] at hst
      rcases hst with hst | hst | hst <;> simp [hst]
    · simp only [begun_chan, hjob]
  case start =>
    intro s rq c j stamp mode peer h hc hmode hjob howner hst hbad
    refine run_ok h.1 (atorn_done h.2 (ownsJob_of_owner hjob howner) rfl (by simp [hc, hmode]) rfl ?_ ?_)
    · rw [begun_startBad]
      simpa [hst] using hbad
    · simp only [begun_chan]
  case stop =>
    intro s rq c j h hc hjob howner hst
    have hactive : chanActive (s.chan c).st = true := chanActive_iff.2 hst
    have hdone : ∀ eff, ok rq [] (setCommitted rq (unpin c (relFinish c (stopChan 6 c (begun s rq 0x0703))))) = eff (begun s rq 0x0703) →
        exec (.streamStop rq c) s = .next (doneBy s rq 0x0703 eff) := fun eff heff =>
      run_ok h.1 (atorn_done h.2 (ownsJob_of_owner hjob howner) rfl (by simp [hc]) rfl (by simp [hactive]) heff)
    refine ⟨fun hrel => hdone _ ?_, fun hrel => hdone _ ?_⟩
    · simp only [stopChan, begun_chan, hactive, hrel, List.isEmpty_nil, if_true]
    · simp only [stopChan, begun_chan, hactive, List.isEmpty_eq_false_iff.2 hrel, Bool.false_eq_true, if_false, if_true]
  case resume =>
    intro s rq c j line stamp mode peer h hc hmode hjob howner hst hbad
    have hactive : resumable (begun s rq 0x0704) c = true := by
      simp only [List.mem_cons, List.not_mem_nil, or_false] at hst
      rcases hst with hst | hst | hst <;> simp [resumable, hst]
    have hown := ownsJob_of_owner hjob howner
    have hargs : ∀ b ∈ [decide (64 ≤ c), false, false, decide (2 ≤ mode)], b = false := by simp [hc, hmode]
    have hshared : ∀ b ∈ startBad (begun s rq 0x0704) c mode peer, b = false := by rwa [begun_startBad]
    refine ⟨fun hfirst hlast hline => run_ok h.1 ((streamResume_eq ..).trans (atorn_done h.2 hown rfl hargs rfl ?_ ?_)), fun hline hvalid =>
      run_ok h.1 ((streamResume_eq ..).trans (atorn_done h.2 hown rfl hargs rfl ?_ ?_))⟩
    · refine List.forall_mem_append.2 ⟨?_, hshared⟩
      simp [hactive, lineOut, hjob, hfirst, hlast, hline]
    · rw [if_neg hline]
    · refine List.forall_mem_append.2 ⟨?_, hshared⟩
      simp [hactive, lineOut, hjob, hline, hvalid]
    · rw [if_pos hline, begun_chan]
  case query =>
    intro s rq c h hc
    refine run_ok h.1 (atornQ_done h.2 ?_ rfl (by simp) rfl)
    rcases hc with h | h <;> simp [h]

/-! ### The channels' own events (R251, R255, R257) -/

theorem armedRun_of_reached {s : State} {c : Nat} (hst : (s.chan c).st = .armed) (hstamp : (s.chan c).stamp ≤ s.tb.count) :
    armedRun c s = streamNotify c (s.modChan c (fun x => { x with st := .running })) :=
  if_pos (by simp [hst, hstamp])

theorem armedRun_of_waiting {s : State} {c : Nat} (h : (s.chan c).st ≠ .armed ∨ s.tb.count < (s.chan c).stamp) : armedRun c s = s := by
  refine if_neg ?_
  rcases h with h | h <;> simp [h]

/-- The channel whose window has become resident. -/
def armed (c : Nat) (s : State) : State :=
  raise 0x1C00 c 0 (.stream c) (s.modChan c (fun x => { x with st := if x.standbyMode then .standby else .armed }))

theorem armed_chan (c : Nat) (s : State) :
    (armed c s).chan c = { s.chan c with st := if (s.chan c).standbyMode then .standby else .armed } := by
  rw [State.chan, armed, (raise_reports (.refl _)).rest.su]
  exact modChan_same s c _

theorem armed_tb (c : Nat) (s : State) : (armed c s).tb = s.tb := (raise_reports (.refl _)).rest.tb

theorem triggerDecisionPoint_wf {input : Nat} {rds : List (Nat × List RdRes)} (hinput : input < 16) (hrds : ∀ x ∈ rds, x.1 < 2 ^ 40) :
    Instr.wf (.triggerDecisionPoint input rds) = true := by
  simpa [Instr.wf, hinput] using hrds

/-- Settles O40: each event of the channels, where it acts and where it does not. -/
theorem streamEventsComplete : Obligations.StreamEventsComplete := by
  have hchan : ∀ c, c < 64 → chanNoOk c = true := fun c hc => by simpa [chanNoOk] using hc
  refine ⟨?armed, ?notArmed, ?timeout, ?noTimeout, ?start, ?noStart, ?edge, ?noEdge, ?release, ?noRelease, ?doorbell, ?badDoorbell, ?lateMax⟩
  case armed =>
    rintro s c t hc hst hres rfl
    have hgo : channelArmed c s = armedRun c (armed c s) := if_pos (by simp [hst, hres])
    refine ⟨fun hwait => run_ok (hchan c hc) (hgo.trans (armedRun_of_waiting ?_)), fun hmode hstamp =>
      run_ok (hchan c hc) (hgo.trans (armedRun_of_reached ?_ ?_))⟩
    · rw [armed_chan, armed_tb]
      rcases hwait with h | h
      · exact .inl (by simp [h])
      · exact .inr h
    · simp [armed_chan, hmode]
    · rw [armed_chan, armed_tb]
      exact hstamp
  case notArmed =>
    intro s c hc h
    refine run_ok (hchan c hc) (if_neg ?_)
    rcases h with h | h <;> simp [h]
  case timeout => exact fun s c hc h => run_ok (hchan c hc) (if_pos (by simp [h]))
  case noTimeout => exact fun s c hc h => run_ok (hchan c hc) (if_neg (by simp [h]))
  case start => exact fun s c hc hst hstamp => run_ok (hchan c hc) (armedRun_of_reached hst hstamp)
  case noStart => exact fun s c hc h => run_ok (hchan c hc) (armedRun_of_waiting h)
  case edge =>
    intro s input rds e hinput hrds hfind
    exact run_ok (triggerDecisionPoint_wf hinput hrds) (by simp only [triggerDecision, hfind]; rfl)
  case noEdge =>
    intro s input rds hinput hrds hfind
    exact run_ok (triggerDecisionPoint_wf hinput hrds) (by simp only [triggerDecision, hfind])
  case release =>
    intro s c hc hst r t hrel htodo
    exact run_ok (hchan c hc) (by simp only [lineReleaseComplete, chanActive_iff.2 hst, lineEnd, hrel, htodo, List.isEmpty_nil, if_true])
  case noRelease =>
    intro s c hc h
    refine run_ok (hchan c hc) ?_
    unfold lineReleaseComplete lineEnd
    rcases h with h | h | ⟨r, t, hrel, htodo⟩
    · exact if_neg (mt chanActive_iff.1 h)
    · rw [h]
      exact ite_self s
    · rw [hrel]
      simp [htodo]
  case doorbell =>
    intro s c j v hc hjob hp hk
    have hwf : (chanNoOk c && portOk j.port && decide (j.consumer < 16) && decide (15 < 16)) = true := by simp [hchan c hc, portOk, hp, hk]
    refine ⟨fun hle => run_ok hwf ?_, fun hlt => run_ok hwf ?_⟩
    · simp only [creditDoorbell, hjob]
      exact if_pos (by simpa using hle)
    · simp only [creditDoorbell, hjob]
      exact if_neg (by simpa using hlt)
  case badDoorbell =>
    intro s c p k v be hc hp hk hbe hother
    refine run_ok (by simp [hchan c hc, portOk, hp, hk, hbe]) ?_
    unfold creditDoorbell
    dsimp only
    split
    next j hjob =>
      refine if_neg ?_
      rcases hother j hjob with h | h | h <;> simp [Ne.symm h, h]
    next => rfl
  case lateMax => exact fun s ag c v hag hc => run_ok (Bool.and_eq_true_iff.2 ⟨wf_may hag, hchan c hc⟩) (regWrite_may hag)

end Sys2Proof.Proofs

/-! ## The outcome of an edge (R257) -/

namespace Sys2Proof.Proofs

open Sys2Proof Sys2Proof.Machine Sys2Proof.Safety Sys2Proof.Laws

/-! ### Notification takes nothing back from what the device has put out -/

/-- Everything that the device had put out in `s` it has put out in `t`. -/
structure OutGrows (s t : State) : Prop where
  out : s.out ⊆ t.out

namespace OutGrows

variable {s u v : State}

theorem refl (s : State) : OutGrows s s := ⟨fun _ h => h⟩

theorem trans (h : OutGrows s u) (k : OutGrows u v) : OutGrows s v := ⟨fun _ x => k.out (h.out x)⟩

theorem ite {c : Prop} [Decidable c] (h : OutGrows s u) (k : OutGrows s v) : OutGrows s (if c then u else v) := by
  split
  · exact h
  · exact k

theorem of_eq (h : OutGrows s u) (k : v.out = u.out) : OutGrows s v := h.trans ⟨fun _ x => k ▸ x⟩

theorem emit (h : OutGrows s u) (o : Out) : OutGrows s (emit o u) := h.trans ⟨fun _ x => List.mem_cons_of_mem o x⟩

theorem foldl {α : Type} {g : State → α → State} (hg : ∀ v a, OutGrows s v → OutGrows s (g v a)) (l : List α) (h : OutGrows s u) :
    OutGrows s (l.foldl g u) := by
  induction l generalizing u with
  | nil => exact h
  | cons a l ih => exact ih (hg u a h)

theorem fire (h : OutGrows s u) (p f v : Nat) : OutGrows s (fire p f v u) := .ite (h.emit _) (h.of_eq rfl)

theorem notePut (h : OutGrows s u) (ch code aux param : Nat) : OutGrows s (notePut ch code aux param u) := by
  have hquiet : OutGrows s (countQuiet 0x2C24 ch 1 u) := h.of_eq rfl
  have hput (v : State) (hv : OutGrows s v) : OutGrows s (v.modMbox ch (fun m => fifoPut m code aux param)) := hv.of_eq rfl
  have hplaced := hput (if ((countQuiet 0x2C24 ch 1 u).mbox ch).fifo.length < 256 then countQuiet 0x2C24 ch 1 u
    else countQuiet 0x2C25 ch 1 (countQuiet 0x2C24 ch 1 u)) (.ite hquiet (hquiet.of_eq rfl))
  unfold Machine.notePut
  refine .ite h ?_
  dsimp only
  split
  next p f _ =>
    have hfired := OutGrows.ite (c := (u.mbox ch).fifo.isEmpty = true) (hplaced.fire p f 1) hplaced
    exact .ite hfired (hfired.fire p f _)
  next => exact hplaced

theorem route (h : OutGrows s u) (code aux param : Nat) (nm : Names) : OutGrows s (route code aux param nm u) :=
  h.foldl (fun _ ch hv => .ite (hv.notePut ch code aux param) hv) _

theorem count (h : OutGrows s u) (code inst qual n : Nat) : OutGrows s (count code inst qual n u) := by
  unfold Machine.count
  dsimp only
  refine OutGrows.foldl (fun v k hv => OutGrows.route (hv.of_eq ?_) 0x4400 k 0 .nothing) _ (h.of_eq ?_)
  · rfl
  · rfl

theorem raise (h : OutGrows s u) (code inst param : Nat) (nm : Names) : OutGrows s (raise code inst param nm u) :=
  (h.count code inst 0 1).route code inst param nm

end OutGrows

/-! ### A starve mark (R257) -/

section Starve

variable {s : State} {c : Nat} {j : JobParams} {stamp : Nat}

theorem relFlush_of_waiting (hhead : headNow (s.chan c) = false) (hrel : (s.chan c).rel ≠ []) : relFlush c s = s := by
  have hheads : ∀ n, headsEnd n c s = s := fun n => by cases n <;> simp [headsEnd, hhead]
  rw [relFlush, hheads, relEmpty]
  exact if_pos (by simp [hrel])

theorem headNow_of_append {x y : Chan} {l : List Release} (h : y.rel = x.rel ++ l) (hrel : x.rel ≠ []) : headNow y = headNow x := by
  unfold headNow
  rw [h]
  cases hx : x.rel with
  | nil => exact absurd hx hrel
  | cons r t => rfl

theorem rel_ne_nil_of_inRelease {x : Chan} (h : 0 < inRelease x) : x.rel ≠ [] := by
  rintro hrel
  simp [inRelease, hrel] at h

theorem starveEntry_chan (q line reason detail : Nat) (s : State) :
    (starveEntry c j q line reason detail stamp s).chan c = { s.chan c with starve := inc32 (s.chan c).starve } := by
  unfold starveEntry
  rw [State.chan, (raise_reports (count_reports (.refl _))).rest.su]
  exact modChan_same (ringEntry j q line 2 reason detail stamp 0 0 s) c _

theorem starveEntry_out (q line reason detail : Nat) (s : State) :
    .ring j.port j.consumer (j.entryBase + 32 * ((q - 1) % j.entries)) (entryBytes line 2 reason detail stamp 0 0) ∈
      (starveEntry c j q line reason detail stamp s).out := by
  have hring := (OutGrows.refl (ringEntry j q line 2 reason detail stamp 0 0 s)).of_eq
    (v := (ringEntry j q line 2 reason detail stamp 0 0 s).modChan c (fun x => { x with starve := inc32 x.starve })) rfl
  exact ((hring.count ..).raise ..).out (List.mem_cons_of_mem _ List.mem_cons_self)

/-- The channel after a starve mark at the head of its releases, with none behind it. -/
def markSettled (c : Nat) (s : State) : State := s.modChan c (fun x => { x with rel := [] })

theorem streamNotify_of_alone {u : State} (hjob : (u.chan c).job = some j) (hpartner : j.partner = allOnes) : streamNotify c u = u := by
  have halone : hasPartner u c = false := by
    rw [hasPartner, hjob]
    exact decide_eq_false (by rw [hpartner]; decide)
  simp [streamNotify, halone]

/-- A mark alone in release, which does not stop its channel, becomes a ring entry at once. -/
theorem relFlush_of_loneMark {r : Release} (hrel : (s.chan c).rel = [r]) (hmark : r.mark = true) (hbad : r.bad = some (1, 0))
    (hjob : (s.chan c).job = some j) (hpartner : j.partner = allOnes) (hstops : markStops j 1 = false) (hstop : (s.chan c).stopping = none) :
    relFlush c s = starveEntry c j r.seq r.line 1 0 r.stamp (markSettled c s) := by
  have hentry := starveEntry_chan (c := c) (j := j) (stamp := r.stamp) r.seq r.line 1 0 (markSettled c s)
  have hset : (markSettled c s).chan c = { s.chan c with rel := [] } := modChan_same s c _
  have hend : headEnd c s = starveEntry c j r.seq r.line 1 0 r.stamp (markSettled c s) := by
    unfold headEnd
    simp only [hrel, hjob, hbad, hmark, hstops, Bool.false_and, Bool.and_true, if_true, Bool.false_eq_true, if_false]
    rw [if_neg (by decide), streamNotify_of_alone (by rw [starveEntry_chan, modChan_same]; exact hjob) hpartner]
    rfl
  have hhead : headNow (s.chan c) = true := by simp [headNow, hrel, hmark]
  rw [relFlush, hrel, List.length_singleton, headsEnd, if_pos hhead, headsEnd, hend, relEmpty, hentry, hset]
  simp [hstop]

end Starve

/-! ### A line (R257) -/

section Line

variable (v s : State) (c : Nat) (j : JobParams) (stamp : Nat)

/-- The release of the line fetched. -/
def lineRelease : Release :=
  if (activeLanes v).isEmpty then ⟨(s.chan c).produced + 1, (s.chan c).next, stamp, false, [], [], some (7, 0)⟩
  else match decodeLine (jobRd v j) (s.chan c).header (s.chan c).next j.x j.l with
    | .bytes b => ⟨(s.chan c).produced + 1, (s.chan c).next, stamp, false, List.range (cdiv j.l 4096), b, none⟩
    | .bad reason det => ⟨(s.chan c).produced + 1, (s.chan c).next, stamp, false, [], [], some (reason, det)⟩

theorem lineRelease_head : (lineRelease v s c j stamp).line = (s.chan c).next ∧ (lineRelease v s c j stamp).stamp = stamp ∧
    (lineRelease v s c j stamp).seq = (s.chan c).produced + 1 ∧ (lineRelease v s c j stamp).mark = false := by
  unfold lineRelease
  split
  · exact ⟨rfl, rfl, rfl, rfl⟩
  · split <;> exact ⟨rfl, rfl, rfl, rfl⟩

/-- The line's fetch. -/
def lineFetched (rds : List (Nat × List RdRes)) (s : State) (c : Nat) (j : JobParams) : State :=
  streamFetch rds (lineReads (jobRd s j) (s.chan c).header j.base (s.chan c).next j.x j.l) (pauseWait (16 + c) s)

variable {v s c j}

theorem chanDecide_of_ready (rds : List (Nat × List RdRes)) (hjob : (s.chan c).job = some j) (hcredit : 0 < credit j (s.chan c))
    (hroom : inRelease (s.chan c) < 2) (hready : lineReady s (s.chan c) j (s.chan c).next = true) :
    chanDecide rds stamp c s =
      if (lineFetched rds s c j).sec.halt || (lineFetched rds s c j).ft.failed
      then (lineFetched rds s c j).modChan c (fun x => { x with produced := ((s.chan c).produced + 1) % 2 ^ 32 })
      else pinWindow c (((lineFetched rds s c j).modChan c (fun x => { x with
        produced := ((s.chan c).produced + 1) % 2 ^ 32, rel := x.rel ++ [lineRelease (lineFetched rds s c j) s c j stamp] })).modChan c
          (fun x => { x with next := x.next + 1, lastLine := decide (x.next = lastOf j) })) := by
  simp only [chanDecide, hjob, if_neg hcredit.ne', if_neg hroom.not_ge, hready, Bool.not_true, Bool.false_eq_true, if_false]
  rfl

end Line

/-- Settles O41: the branches of the decision point, each with what it leaves of the channel. -/
theorem edgeOutcomes : Obligations.EdgeOutcomes := by
  rintro s c j stamp rds _ _ hchan rfl hjob hst hstop rfl
  refine ⟨fun hcredit => ?_, fun hcredit hgo hpartner hrel hready => ?_, fun hcredit hfull hhead => ?_, fun hcredit hroom hready => ?_⟩
  · simp only [chanDecide, hjob, if_pos hcredit]
  · have hnone : ¬ 2 ≤ inRelease (s.chan c) := by simp [inRelease, hrel]
    have hstops : markStops j 1 = false := by simp [markStops, hgo]
    rw [chanDecide_of_starve rds stamp hjob hcredit (.inr hready), if_neg hnone]
    have hlone := relFlush_of_loneMark (c := c) (s := starveTaken j stamp 1 c s) (j := j) (r := ⟨(s.chan c).produced + 1, (s.chan c).next, stamp,
      true, [], [], some (1, 0)⟩) (by simp [starveTaken_rel, hrel]) rfl rfl (by simp [starveTaken, hjob]) hpartner hstops
      (by simp [starveTaken, hstop, hstops])
    rw [hlone]
    refine ⟨?_, ?_, ?_, ?_, starveEntry_out ..⟩
    all_goals simp [starveEntry_chan, markSettled, starveTaken]
  · rw [chanDecide_of_starve rds stamp hjob hcredit (.inl hfull), if_pos hfull]
    have hrel := rel_ne_nil_of_inRelease (x := s.chan c) (by omega)
    have hwaits : relFlush c (starveTaken j stamp 4 c s) = starveTaken j stamp 4 c s := by
      refine relFlush_of_waiting ?_ (by simp [starveTaken_rel])
      rw [headNow_of_append (starveTaken_rel stamp 4) hrel, hhead]
    rw [hwaits]
    exact ⟨by simp [starveTaken], starveTaken_produced stamp 4, starveTaken_rel stamp 4⟩
  · refine ⟨lineFetched rds s c j, rfl, fun hhalt hft => ?_, fun hdown => ?_⟩
    · obtain ⟨hline, hstamp, hseq, hmark⟩ := lineRelease_head (lineFetched rds s c j) s c j stamp
      refine ⟨lineRelease (lineFetched rds s c j) s c j stamp, hline, hstamp, hseq, hmark, fun hnone => ?_, fun hsome b hb => ?_,
        fun hsome n d hbad => ?_, ?_⟩
      · rw [lineRelease, hnone]
        rfl
      · rw [lineRelease, if_neg (by simpa using hsome), hb]
        exact ⟨rfl, rfl⟩
      · rw [lineRelease, if_neg (by simpa using hsome), hbad]
      · rw [chanDecide_of_ready stamp rds hjob hcredit hroom hready, if_neg (by simp [hhalt, hft])]
    · rw [chanDecide_of_ready stamp rds hjob hcredit hroom hready, if_pos (by simpa using hdown)]

end Sys2Proof.Proofs

/-! ## The expansion engine (chapter 12) -/

namespace Sys2Proof.Proofs

open Sys2Proof Sys2Proof.Machine Sys2Proof.Safety Sys2Proof.Laws

/-! ### Lanes (R290, R291) -/

/-- What `admitWatch` adds to its change are reports. -/
theorem admitWatch_reports (f : State → State) (s : State) : Reports (f s) (admitWatch f s) := by
  have hports : Reports (f s) ((List.range 10).foldl (fun t p =>
      if decide (admitted s none (some p) ≤ portPayload s p) && decide (portPayload t p < admitted t none (some p))
      then raise 0x1C04 p 0 .nothing t else t) (f s)) := by
    refine List.foldlRecOn (motive := Reports (f s)) _ _ (.refl _) fun t ht p _ => ?_
    split
    · exact raise_reports ht
    · exact ht
  unfold admitWatch
  dsimp only
  split
  · exact raise_reports hports
  · exact hports

/-- The state of a lane after its retirement for a cause. -/
def laneTaken (lane cause : Nat) (s : State) : State := admitWatch (fun s => { s with xe := { s.xe with
  lanes := s.xe.lanes.set {} lane { s.xe.lanes.get {} lane with st := 2, cause := cause }, retiring := s.xe.retiring.erase lane,
  spareOwed := s.xe.spareOwed + b2n ((s.xe.lanes.get {} lane).st == 0) } }) s

/-- A retirement's reports: the option bytes, the event and the ledger's record. -/
def laneReported (lane cause : Nat) (u : State) : State :=
  ledger 0x2000 (srcLane lane) [lane, cause] (raise 0x2000 lane 0 .nothing (commit { page := 35, off := 0, bytes := leBytes 2 (retiredSet u) } u))

theorem laneRetire_of_live {s : State} {lane : Nat} (cause : Nat) (h : (s.xe.lanes.get {} lane).st ≠ 2) :
    laneRetire lane cause s = laneReported lane cause (laneTaken lane cause s) := if_neg h

theorem laneReported_xe (lane cause : Nat) (u : State) : (laneReported lane cause u).xe = u.xe :=
  (ledger_reports (raise_reports (commit_reports (.refl _)))).rest.xe

theorem laneTaken_xe (lane cause : Nat) (s : State) : (laneTaken lane cause s).xe = { s.xe with
    lanes := s.xe.lanes.set {} lane { s.xe.lanes.get {} lane with st := 2, cause := cause }, retiring := s.xe.retiring.erase lane,
    spareOwed := s.xe.spareOwed + b2n ((s.xe.lanes.get {} lane).st == 0) } :=
  (admitWatch_reports ..).rest.xe

/-- A fault of a lane not retired is counted, and retires the lane. -/
theorem laneFault_of_live {s : State} {lane : Nat} (cause : Nat) (h : (s.xe.lanes.get {} lane).st ≠ 2) :
    laneFault lane cause s =
      laneReported lane cause (laneTaken lane cause { s with xe := { s.xe with laneFaults := inc32 s.xe.laneFaults } }) :=
  (if_neg h).trans (laneRetire_of_live (s := { s with xe := { s.xe with laneFaults := inc32 s.xe.laneFaults } }) cause h)

theorem laneFault_xe {s : State} {lane : Nat} (cause : Nat) (h : (s.xe.lanes.get {} lane).st ≠ 2) :
    (laneFault lane cause s).xe = { s.xe with
      lanes := s.xe.lanes.set {} lane { s.xe.lanes.get {} lane with st := 2, cause := cause }, retiring := s.xe.retiring.erase lane,
      spareOwed := s.xe.spareOwed + b2n ((s.xe.lanes.get {} lane).st == 0), laneFaults := inc32 s.xe.laneFaults } := by
  rw [laneFault_of_live cause h, laneReported_xe, laneTaken_xe]

theorem laneFault_lanes {s : State} {lane : Nat} (cause : Nat) (h : (s.xe.lanes.get {} lane).st ≠ 2) :
    (laneFault lane cause s).xe.lanes = s.xe.lanes.set {} lane { s.xe.lanes.get {} lane with st := 2, cause := cause } := by
  rw [laneFault_xe cause h]

/-- Settles O44: the retirement's one change, and the reports behind it. -/
theorem laneRetirement : Obligations.LaneRetirement := by
  refine fun s lane cause _ => ⟨fun hlive => ⟨_, laneTaken lane cause { s with xe := { s.xe with laneFaults := inc32 s.xe.laneFaults } }, rfl,
    laneFault_of_live cause hlive, ?_, ?_, ?_, fun i hi => ?_, ?_⟩, fun hretired => if_pos hretired⟩
  · rw [laneFault_of_live cause hlive, laneReported_xe]
  · rw [laneFault_xe cause hlive]
  · rw [laneFault_lanes cause hlive, get_set_same]
  · rw [laneFault_lanes cause hlive, get_set_other _ _ _ _ _ hi]
  · rw [laneFault_xe cause hlive]

/-! ### Test sticks (R291) -/

/-- A lane after its test stick. -/
def laneTested (good : Bool) (l : Lane) : Lane :=
  if l.st = 2 then l else if good then { l with tests := (l.tests + 1) % 65536 } else { l with st := 2, cause := 2 }

theorem laneDrops_xe (lane : Nat) (s : State) : (laneDrops lane s).xe = s.xe := by
  unfold laneDrops
  split <;> rfl

/-- A test stick changes its own lane. -/
theorem laneTest_lanes {s : State} (hup : s.xe.up = true) (i : Nat) (good : Bool) : (laneTest i good s).xe.up = true ∧
    (laneTest i good s).xe.lanes.get {} i = laneTested good (s.xe.lanes.get {} i) ∧
    ∀ k, k ≠ i → (laneTest i good s).xe.lanes.get {} k = s.xe.lanes.get {} k := by
  by_cases hst : (s.xe.lanes.get {} i).st = 2
  · have hsame : laneTest i good s = s := if_pos (by simp [hst])
    rw [hsame, laneTested, if_pos hst]
    exact ⟨hup, rfl, fun _ _ => rfl⟩
  rw [laneTested, if_neg hst]
  cases good with
  | true =>
    rw [if_pos rfl]
    have hgood : laneTest i true s = { s with xe := { s.xe with
        lanes := s.xe.lanes.set {} i { s.xe.lanes.get {} i with tests := ((s.xe.lanes.get {} i).tests + 1) % 2 ^ 16 } } } := by
      rw [laneTest, if_neg (by simp [hup, hst]), if_pos rfl]
    rw [hgood]
    exact ⟨hup, get_set_same {} s.xe.lanes i _, fun k hk => get_set_other {} s.xe.lanes i k _ hk⟩
  | false =>
    rw [if_neg Bool.false_ne_true]
    have hbad : laneTest i false s = laneFault i 2 (laneDrops i s) := by
      rw [laneTest, if_neg (by simp [hup, hst]), if_neg Bool.false_ne_true]
    have hlive : ((laneDrops i s).xe.lanes.get {} i).st ≠ 2 := by rwa [laneDrops_xe]
    rw [hbad, laneFault_lanes 2 hlive, laneFault_xe 2 hlive, laneDrops_xe]
    exact ⟨hup, get_set_same .., fun k hk => get_set_other _ _ _ _ _ hk⟩

/-- The test sticks of the lanes from `n` on, one result each. -/
theorem laneTests_lanes (res : List Bool) : ∀ (n : Nat) (s : State), s.xe.up = true → ∀ i,
    (((res.zipIdx n).foldl (fun s x => laneTest x.2 x.1 s) s).xe.lanes.get {} i) =
      if n ≤ i ∧ i < n + res.length then laneTested (res.getD (i - n) true) (s.xe.lanes.get {} i) else s.xe.lanes.get {} i := by
  induction res with
  | nil => intro n s _ i; simp
  | cons good res ih =>
    intro n s hup i
    obtain ⟨hup', hsame, hother⟩ := laneTest_lanes hup n good
    rw [List.zipIdx_cons, List.foldl_cons, ih (n + 1) _ hup', List.length_cons]
    rcases Nat.lt_trichotomy i n with hlt | rfl | hgt
    · rw [hother i hlt.ne, if_neg (by omega), if_neg (by omega)]
    · rw [hsame, if_neg (by omega), if_pos (by omega), Nat.sub_self, List.getD_cons_zero]
    · obtain ⟨k, rfl⟩ : ∃ k, i = n + 1 + k := ⟨i - (n + 1), by omega⟩
      rw [hother _ hgt.ne', show n + 1 + k - n = k + 1 by omega, Nat.add_sub_cancel_left, List.getD_cons_succ]
      exact if_congr (by omega) rfl rfl

/-- Sound test sticks change lanes and nothing else. -/
theorem laneTests_good (res : List (Bool × Nat)) (hgood : ∀ x ∈ res, x.1 = true) (s : State) :
    ∃ lanes, res.foldl (fun s x => laneTest x.2 x.1 s) s = { s with xe := { s.xe with lanes := lanes } } := by
  refine List.foldlRecOn (motive := fun t => ∃ lanes : Tab Lane, t = { s with xe := { s.xe with lanes := lanes } }) _ _ ⟨s.xe.lanes, rfl⟩ ?_
  rintro _ ⟨lanes, rfl⟩ x hx
  rw [laneTest, hgood x hx]
  split
  · exact ⟨_, rfl⟩
  · exact ⟨_, rfl⟩

theorem testStick_of_down {s : State} (hup : s.xe.up = false) (res : List Bool) : testStick res s = s :=
  List.foldlRecOn (motive := fun t => t = s) _ _ rfl fun t ht x _ => by
    rw [ht]
    exact if_pos (by simp [hup])

/-! ### `NOLENE_CHECK` (R287) -/

theorem begun_fileByte (s : State) (rq : Rq) (op base : Nat) : fileByte (begun s rq op) base = fileByte s base := by
  funext off
  unfold fileByte localLine getLine State.frame
  rw [begun_te, begun_ft, begun_mc]

/-- The state after a lane has finished a stick, before its count. -/
def stickDone (c stick : Nat) (r : Release) (s : State) : State :=
  { s.modChan c (fun x => { x with rel := x.rel.map (fun o => if o.seq = r.seq then { o with todo := o.todo.erase stick } else o) }) with
    xe := { s.xe with sticks := (s.xe.sticks + 1) % 2 ^ 64 } }

theorem find?_range_of_first {p : Nat → Bool} {n i : Nat} (hi : i < n) (hp : p i = true) (hfirst : ∀ k < i, p k = false) :
    (List.range n).find? p = some i := by
  rw [List.find?_range_eq_some]
  exact ⟨hp, List.mem_range.2 hi, fun k hk => by simp [hfirst k hk]⟩

/-- The state after spare `i` has taken an active place. -/
def spareTaken (i : Nat) (s : State) : State :=
  { s with xe := { s.xe with lanes := s.xe.lanes.set {} i { s.xe.lanes.get {} i with st := 0 }, spareOwed := s.xe.spareOwed - 1 } }

theorem spareActivate_of_first {s : State} {i : Nat} (hi : i < 9) (hspare : (s.xe.lanes.get {} i).st = 1)
    (hfirst : ∀ k < i, (s.xe.lanes.get {} k).st ≠ 1) (howed : 0 < s.xe.spareOwed) : spareActivate s = spareTaken i s := by
  have hfind : (List.range 9).find? (fun i => (s.xe.lanes.get {} i).st == 1) = some i :=
    find?_range_of_first hi (by simp [hspare]) (fun k hk => by simpa using hfirst k hk)
  simp only [spareActivate, hfind, if_neg howed.ne']
  rfl

/-- Settles O43: the engine's events by their conditions, its commands as let through. -/
theorem expansionCompletes : Obligations.ExpansionCompletes := by
  refine ⟨fun s c k lane hc hk hlane => ?_,
    fun s res hlen => ⟨fun hdown => run_ok (by simpa [Instr.wf] using hlen) (testStick_of_down hdown res), fun hup => ?_, fun _ hgood => ?_⟩,
    fun s lane hlane => ⟨fun hup hst => run_ok (decide_eq_true hlane) (if_neg (by simp [hup, hst])),
      fun hno => run_ok (decide_eq_true hlane) (if_pos ?_)⟩, fun s => ⟨fun i hi howed hspare hfirst => ?_, fun hno => run_ok rfl ?_⟩,
    fun s rq base len h hlo hhi halign hgranted => ⟨fun hpoison => ?_, fun hsound => ?_⟩,
    fun s rq h => run_ok h.1 (query_done h.2 _), fun s rq lane h hlane hst hlast => ?_⟩
  · have hwf (b : Bool) : Instr.wf (.stickRendered c k lane b) = true := by simpa [Instr.wf, chanNoOk] using ⟨⟨hc, hk⟩, hlane⟩
    refine ⟨fun r howner hworks => ⟨⟨stickDone c k r s, run_ok (hwf true) ?_, rfl, ?_, fun d hd => ?_⟩, run_ok (hwf false) ?_⟩, fun b hno => run_ok (hwf b) ?_⟩
    · simp only [stickRendered, howner, hworks, Bool.not_true, Bool.false_eq_true, if_false, if_true]
      rfl
    · exact congrArg Chan.rel (modChan_same s c _)
    · exact modChan_other s c _ d hd
    · simp only [stickRendered, howner, hworks, Bool.not_true, Bool.false_eq_true, if_false]
    · rcases hno with h | h
      · simp only [stickRendered, h]
      · unfold stickRendered
        split
        · rfl
        · exact if_pos (by simp [h])
  · obtain hlanes := laneTests_lanes res 0 s hup
    refine ⟨_, run_ok (by simpa [Instr.wf] using hlen) rfl, fun i hi => ?_⟩
    have hlane : (testStick res s).xe.lanes.get {} i = laneTested (res.getD i true) (s.xe.lanes.get {} i) := by
      rw [testStick, hlanes i, if_pos (by omega), Nat.sub_zero]
    rw [hlane, laneTested]
    exact ⟨fun h => if_pos h, fun h hg => by rw [if_neg h, if_pos hg], fun h hg => by rw [if_neg h, if_neg (ne_true_of_eq_false hg)]⟩
  · obtain ⟨lanes, hl⟩ := laneTests_good res.zipIdx (fun x hx => hgood x.1 (List.fst_mem_of_mem_zipIdx hx)) s
    exact ⟨_, run_ok (by simpa [Instr.wf] using hlen) hl, rfl⟩
  · rcases hno with h | h <;> simp [h]
  · refine ⟨spareTaken i s, run_ok rfl (spareActivate_of_first hi hspare hfirst howed), rfl, ?_, ?_, fun k hk => ?_⟩
    · exact Nat.sub_add_cancel howed
    · exact get_set_same ..
    · exact get_set_other _ _ _ _ _ hk
  · unfold spareActivate
    split
    case h_1 i hfind =>
      rcases hno with hnone | hno
      · exact if_pos hnone
      · exact absurd (by simpa using List.find?_some hfind) (hno i (List.mem_range.1 (List.mem_of_find?_eq_some hfind)))
    case h_2 => rfl
  · refine run_ok h.1 (atornQ_done h.2 ?_ rfl ?_ ?_)
    · simp; omega
    · simp [hgranted, halign, begun_rangeGranted, begun_senderOf]
    · simp only [begun_fileByte, hpoison, if_true]
  · refine run_ok h.1 (atornQ_done h.2 ?_ rfl ?_ ?_)
    · simp; omega
    · simp [hgranted, halign, begun_rangeGranted, begun_senderOf]
    · simp only [begun_fileByte, hsound, Bool.false_eq_true, if_false]
  · refine run_ok h.1 (atornQ_done h.2 (by simpa using hlane) rfl ?_ rfl)
    simp [begun_activeLanes, begun_inEmber h.2, hst]
    omega

end Sys2Proof.Proofs

/-! ## A core's own memory (chapter 13) -/

namespace Sys2Proof.Proofs

open Sys2Proof Sys2Proof.Machine Sys2Proof.Safety Sys2Proof.Laws

/-! ### Bytes of a memory of the cluster -/

theorem get_putFrom {α : Type} [DecidableEq α] {d : α} (bs : List α) : ∀ (n off : Nat) (t : Tab α) (k : Nat),
    ((bs.zipIdx n).foldl (fun (t : Tab α) x => t.set d (off + x.2) x.1) t).get d k =
      if h : off + n ≤ k ∧ k < off + n + bs.length then bs[k - (off + n)] else t.get d k := by
  induction bs with
  | nil => intro n off t k; simp
  | cons b bs ih =>
    intro n off t k
    rw [List.zipIdx_cons, List.foldl_cons, ih (n + 1)]
    rcases Nat.lt_trichotomy k (off + n) with hlt | rfl | hgt
    · rw [dif_neg (by omega), dif_neg (by omega), get_set_other _ _ _ _ _ hlt.ne]
    · rw [dif_neg (by omega), dif_pos (by simp), get_set_same]
      simp
    · rw [get_set_other _ _ _ _ _ hgt.ne']
      obtain ⟨j, rfl⟩ : ∃ j, k = off + n + 1 + j := ⟨k - (off + n + 1), by omega⟩
      by_cases hin : j < bs.length
      · rw [dif_pos (by omega), dif_pos (by simp; omega)]
        simp [show off + n + 1 + j - (off + (n + 1)) = j by omega, show off + n + 1 + j - (off + n) = j + 1 by omega]
      · rw [dif_neg (by omega), dif_neg (by simp; omega)]

/-- Bytes put into a memory stand there, and change no other. -/
theorem tabPut_inside {t : Tab Byte} {off k : Nat} {bs : List Byte} (h : k < bs.length) : (tabPut t off bs).get 0 (off + k) = bs[k] := by
  rw [tabPut, get_putFrom bs 0, dif_pos (by omega)]
  simp

theorem tabPut_outside {t : Tab Byte} {off k : Nat} {bs : List Byte} (h : k < off ∨ off + bs.length ≤ k) :
    (tabPut t off bs).get 0 k = t.get 0 k := by
  rw [tabPut, get_putFrom bs 0, dif_neg (by omega)]

/-- A memory after `n` bytes of a value were put at `off`. -/
theorem tabPut_valBytes (t : Tab Byte) (off n : Nat) (v : BitVec 64) :
    (∀ k < n, (tabPut t off (valBytes v n)).get 0 (off + k) = (v >>> (8 * k)).setWidth 8) ∧
    ∀ k, k < off ∨ off + n ≤ k → (tabPut t off (valBytes v n)).get 0 k = t.get 0 k := by
  have hlen : (valBytes v n).length = n := by simp [valBytes]
  refine ⟨fun k hk => ?_, fun k hk => tabPut_outside (by rwa [hlen])⟩
  rw [tabPut_inside (by rwa [hlen])]
  simp [valBytes]

/-! ### What an instruction leaves of its core -/

/-- A core after the retirement of an instruction: only its reservation ages. -/
def coreRetired (c : Core) : Core :=
  match c.resv with
  | none => c
  | some _ => if 64 ≤ c.resvAge then { c with resv := none, resvAge := 0 } else { c with resvAge := c.resvAge + 1 }

section Retired

variable (c : Core)

@[simp] theorem coreRetired_tcm : (coreRetired c).tcm = c.tcm := by unfold coreRetired; split <;> [rfl; split <;> rfl]
@[simp] theorem coreRetired_sb : (coreRetired c).sb = c.sb := by unfold coreRetired; split <;> [rfl; split <;> rfl]
@[simp] theorem coreRetired_exc : (coreRetired c).exc = c.exc := by unfold coreRetired; split <;> [rfl; split <;> rfl]

theorem coreRetired_of_young {l : Nat} (hresv : c.resv = some l) (hage : c.resvAge < 64) : (coreRetired c).resv = some l := by
  simp [coreRetired, hresv, if_neg hage.not_ge]

theorem coreRetired_of_none (hresv : c.resv = none) : (coreRetired c).resv = none := by
  simp [coreRetired, hresv]

end Retired

section Core

variable {s : State} {i : Nat}

theorem resvLost_cpu {l : Nat} (h : (s.cpu i).resv = some l) : (resvLost i s).cpu i = { s.cpu i with resv := none, resvAge := 0 } := by
  rw [resvLost, if_pos (by simp [h]), cpu_of_reports (count_reports (.refl _)), modCpu_same]

theorem retire_cpu (a : Nat) : (retire i a s).cpu i = coreRetired (s.cpu i) := by
  have hcpu : (sample 0x2820 i (Config.freeRead s.free) a (count 0x2820 i 0 1 s)).cpu i = s.cpu i :=
    cpu_of_reports (sample_reports (count_reports (.refl s))) i
  unfold retire coreRetired
  dsimp only
  rw [hcpu]
  cases hl : (s.cpu i).resv with
  | none => exact hcpu
  | some l =>
    dsimp only
    split
    · rw [resvLost_cpu (hcpu ▸ hl), hcpu]
    · rw [modCpu_same, hcpu, hl]

theorem coreDone_cpu (a : Nat) (v : BitVec 64) : (coreDone i a v s).cpu i = coreRetired { s.cpu i with loadWait := false } := by
  have hcpu : (coreDone i a v s).cpu i = (retire i a (s.modCpu i (fun c => { c with loadWait := false }))).cpu i := rfl
  rw [hcpu, retire_cpu, modCpu_same]

/-- A boundary with no exception owed leaves the core and what was put out. -/
theorem boundary_cpu (h : (s.cpu i).exc = []) : (boundary i s).cpu i = s.cpu i := by
  unfold boundary
  split
  · rfl
  · rw [h]
    exact atBoundary_cpu h

/-- An instruction of a ready core that owes no exception leaves of the core and of what was put out what its body leaves. -/
theorem coreRow_result (hready : coreReady s i) {body : State → State} {t : State} (hbody : body (atBoundary s i) = t)
    (hexc : (t.cpu i).exc = []) : (coreRow i body s).cpu i = t.cpu i ∧ (coreRow i body s).out = t.out := by
  rw [coreRow_of_ready hready, hbody]
  exact ⟨boundary_cpu hexc, boundary_out hexc⟩

end Core

/-! ### Fences -/

section Fences

variable {s : State} {i : Nat}

/-- A fence takes its place where a store of its predecessor set waits (R304). -/
theorem fencePut_cpu (pred succ : Nat) : (fencePut i pred succ s).cpu i = coreRetired { s.cpu i with sb := (s.cpu i).sb ++
    (if fenceOpen (s.cpu i).sb pred then [{ addr := 0, size := 0, val := 0, release := false, mark := some (pred, succ) }] else []) } := by
  rw [fencePut, retire_cpu]
  split
  · rw [cpu_of_reports (count_reports (.refl _)), modCpu_same]
  · rw [List.append_nil]

theorem fenceIPut_of_noStores (hsb : (s.cpu i).sb = []) : fenceIPut i s = retire i 0 s := by
  simp [fenceIPut, storesOf, hsb]

end Fences

/-! ### The data TCM -/

section DataTcm

variable {s : State} {i o n : Nat}

/-- The core's map gives its data TCM at 0x20_0000 (R298). -/
theorem target_dataTcm (hn : 0 < n) (h : o + n ≤ 0x40000) (wr : Bool) : target s i (0x200000 + o) n wr = .tcm (2 ^ 18 + o) := by
  have hlow : inside (0x200000 + o) n 0x100000 0x40000 = false := by simp [inside]; omega
  have hhigh : inside (0x200000 + o) n 0x200000 0x40000 = true := by simp [inside]; omega
  rw [target, hlow, if_neg Bool.false_ne_true, hhigh, if_pos rfl, show (0x200000 + o) % 0x40000 = o by omega]

theorem dataTcm_ok (off a : Nat) : (Tgt.tcm off).bad a n = false := rfl

theorem dataTcm_atomicOk (off a : Nat) (h : a % n = 0) : atomicBad (.tcm off) a n = false := by
  simp [atomicBad, dataTcm_ok, h]

theorem mayLoad_of_noStores (hsb : (s.cpu i).sb = []) (dev : Bool) : mayLoad s i dev = true := by
  simp [mayLoad, hsb, fencesPass, storesOf]

theorem newest_of_noStores (hsb : (s.cpu i).sb = []) (a : Nat) : newest s i a n = none := by
  simp [newest, hsb, storesOf]

theorem mayAtomic_of_noStores (hsb : (s.cpu i).sb = []) (a : Nat) (dev rl : Bool) : mayAtomic s i a n dev rl = true := by
  simp [mayAtomic, mayLoad_of_noStores hsb, newest_of_noStores hsb, hsb, fencesPass, storesOf]

theorem tcmMarked_congr {t : State} (h : t.cpu i = s.cpu i) (off : Nat) : tcmMarked t i off n = tcmMarked s i off n := by
  rw [tcmMarked, tcmMarked, h]

theorem loadAt_tcm {off : Nat} (hmark : tcmMarked s i off n = false) (a : Nat) (lr : Bool) :
    loadAt i a n lr .clean [] (.tcm off) s = coreDone i a (bytesVal (tabBytes (s.cpu i).tcm off n) lr) s := by
  simp [loadAt, hmark]

theorem tcmPut_cpu (off : Nat) (bs : List Byte) : (tcmPut i off bs s).cpu i = { s.cpu i with
    tcm := tabPut (s.cpu i).tcm off bs,
    badBytes := (s.cpu i).badBytes.filter (fun k => !(decide (off ≤ k) && decide (k < off + bs.length))) } :=
  modCpu_same ..

/-- A load of the data TCM gives the core its bytes. -/
theorem load_dataTcm (hn : 0 < n) (h : o + n ≤ 0x40000) (hsb : (s.cpu i).sb = []) (hmark : tcmMarked s i (2 ^ 18 + o) n = false) :
    load i (0x200000 + o) n .clean [] s =
      coreDone i (0x200000 + o) (bytesVal (tabBytes (s.cpu i).tcm (2 ^ 18 + o) n) false) s := by
  simp only [load, target_dataTcm hn h, dataTcm_ok, Tgt.device, mayLoad_of_noStores hsb, newest_of_noStores hsb, loadAt_tcm hmark,
    Bool.not_true, Bool.false_eq_true, if_false]

/-- The entry of a store to the data TCM. -/
def dataStore (o n : Nat) (v : BitVec 64) (rel : Bool) : SbEnt :=
  { addr := 0x200000 + o, size := n, val := v &&& BitVec.ofNat 64 (2 ^ (8 * n) - 1), release := rel, dev := false }

theorem store_dataTcm (hn : 0 < n) (h : o + n ≤ 0x40000) (hsb : (s.cpu i).sb = []) (v : BitVec 64) (rel : Bool) :
    store i (0x200000 + o) n v rel s =
      retire i (0x200000 + o) (s.modCpu i (fun c => { c with sb := c.sb ++ [dataStore o n v rel] })) := by
  simp [store, target_dataTcm hn h, dataTcm_ok, Tgt.device, hsb, storesOf, dataStore]

/-- The state in which a core has reserved the line of an address. -/
def reserved (i a : Nat) (s : State) : State := s.modCpu i (fun c => { c with resv := some (a / 64 * 64), resvAge := 0 })

theorem lrDo_dataTcm (hn : 0 < n) (h : o + n ≤ 0x40000) (halign : (0x200000 + o) % n = 0) (hsb : (s.cpu i).sb = []) (rl : Bool) :
    lrDo i (0x200000 + o) n rl s = loadAt i (0x200000 + o) n true .clean [] (.tcm (2 ^ 18 + o))
      (reserved i (0x200000 + o) s) := by
  simp [lrDo, reserved, target_dataTcm hn h, dataTcm_atomicOk _ _ halign, mayAtomic_of_noStores hsb]

theorem scDo_dataTcm (hn : 0 < n) (h : o + n ≤ 0x40000) (halign : (0x200000 + o) % n = 0) (hsb : (s.cpu i).sb = []) (v : BitVec 64) (rl : Bool) :
    scDo i (0x200000 + o) n v rl s =
      if (s.cpu i).resv = some ((0x200000 + o) / 64 * 64)
      then coreDone i (0x200000 + o) 0 (tcmPut i (2 ^ 18 + o) (valBytes v n) (s.modCpu i (fun c => { c with resv := none, resvAge := 0 })))
      else coreDone i (0x200000 + o) 1 (count 0x2824 i 0 1 (s.modCpu i (fun c => { c with resv := none, resvAge := 0 }))) := by
  simp only [scDo, target_dataTcm hn h, dataTcm_atomicOk _ _ halign, mayAtomic_of_noStores hsb, scHolds, Bool.not_true, Bool.false_eq_true,
    if_false, Bool.and_true]
  by_cases hresv : (s.cpu i).resv = some ((0x200000 + o) / 64 * 64) <;> simp [hresv]

theorem amoDo_dataTcm (hn : 0 < n) (h : o + n ≤ 0x40000) (halign : (0x200000 + o) % n = 0) (hsb : (s.cpu i).sb = [])
    (hmark : tcmMarked s i (2 ^ 18 + o) n = false) (op : AmoOp) (v : BitVec 64) (rl : Bool) :
    amoDo i (0x200000 + o) n op v rl s = amoTab i (0x200000 + o) op n v (tabBytes (s.cpu i).tcm (2 ^ 18 + o) n) (tcmPut i (2 ^ 18 + o)) s := by
  simp only [amoDo, target_dataTcm hn h, dataTcm_atomicOk _ _ halign, mayAtomic_of_noStores hsb, hmark, Bool.not_true, Bool.false_eq_true,
    if_false]

/-- The one store of the buffer leaves it for the data TCM. -/
theorem storeLeaves_dataTcm {e : SbEnt} (hsb : (s.cpu i).sb = [e]) (hmark : e.mark = none) (hsent : e.sent = false) (haddr : e.addr = 0x200000 + o)
    (hsize : e.size = n) (hn : 0 < n) (h : o + n ≤ 0x40000) :
    storeLeaves i 0 false s = tcmPut i (2 ^ 18 + o) (valBytes e.val n) (sbErase i e s) := by
  have hleave : mayLeave [] e = true := by simp [mayLeave, storesOf, fencesPass, hmark, hsent]
  simp [storeLeaves, hsb, hleave, storeAt, haddr, hsize, target_dataTcm hn h]

theorem sbErase_cpu (e : SbEnt) : (sbErase i e s).cpu i = { s.cpu i with sb := sbTrim [] ((s.cpu i).sb.erase e) } := modCpu_same ..

end DataTcm

/-- Settles O45: each instruction's result at the data TCM, read off the core that it leaves. -/
theorem coreMemoryCompletes : Obligations.CoreMemoryCompletes := by
  intro s i o n hready h
  obtain ⟨hi, hruns, -, hexc⟩ := id hready
  have hat : (atBoundary s i).cpu i = s.cpu i := atBoundary_cpu hexc
  have hok : coreOk i = true := decide_eq_true hi
  have hu : u64 (0x200000 + o) = true := decide_eq_true (by omega)
  refine ⟨fun hn hsb => ?_, fun e hsb hmark hsent haddr hsize hn => ?_, fun pred succ hp hq => ?_,
    fun hsb => ?_, fun hn halign hsb => ?_⟩
  · have hsize : n = 1 ∨ n = 2 ∨ n = 4 ∨ n = 8 := by simpa using hn
    have hpos : 0 < n := by omega
    have hacc : accessOk (0x200000 + o) n = true := by rw [accessOk, hu]; simpa [sizeOk, or_assoc] using hsize
    have hsb' : ((atBoundary s i).cpu i).sb = [] := by rw [hat, hsb]
    refine ⟨fun hmark acq => ?_, fun v rel => ?_⟩
    · obtain ⟨hcpu, hout⟩ := coreRow_result hready (load_dataTcm hpos h hsb' (by rwa [tcmMarked_congr hat])) (by simp [coreDone_cpu, hat, hexc])
      refine ⟨_, run_ok (by simp [hok, hacc]) rfl, ?_, ?_, ?_⟩
      · rw [loadInstruction, hout, hat]
        exact coreVal_mem_coreDone ..
      · rw [loadInstruction, hcpu, coreDone_cpu, coreRetired_tcm, hat]
      · rw [loadInstruction, hcpu, coreDone_cpu, coreRetired_sb, hat, hsb]
    · obtain ⟨hcpu, -⟩ := coreRow_result hready (store_dataTcm hpos h hsb' v rel) (by simp [retire_cpu, hat, hexc])
      refine ⟨_, run_ok (by simp [hok, hacc]) rfl, ?_, ?_⟩
      · rw [storeInstruction, hcpu, retire_cpu, coreRetired_tcm, modCpu_same, hat]
      · rw [storeInstruction, hcpu, retire_cpu, coreRetired_sb, modCpu_same, hat, hsb]
        rfl
  · have hbody := storeLeaves_dataTcm hsb hmark hsent haddr hsize hn h
    have hcpu : (boundary i (storeLeaves i 0 false s)).cpu i = (storeLeaves i 0 false s).cpu i :=
      boundary_cpu (by rw [hbody, tcmPut_cpu, sbErase_cpu, hexc])
    have hrow : storeVisible i 0 false s = boundary i (storeLeaves i 0 false s) := if_pos hruns
    obtain ⟨hin, hout⟩ := tabPut_valBytes (s.cpu i).tcm (2 ^ 18 + o) n e.val
    refine ⟨_, run_ok (by simp [hok]) hrow, ?_⟩
    rw [hcpu, hbody, tcmPut_cpu, sbErase_cpu, hsb]
    exact ⟨by simp [sbTrim], hin, hout⟩
  · obtain ⟨hcpu, -⟩ := coreRow_result (body := fencePut i pred succ) hready rfl (by simp [fencePut_cpu, hat, hexc])
    refine ⟨_, run_ok (by simp [hok, hp, hq]) rfl, ?_, ?_⟩
    · rw [fence, hcpu, fencePut_cpu, coreRetired_tcm, hat]
    · rw [fence, hcpu, fencePut_cpu, coreRetired_sb, hat]
  · obtain ⟨hcpu, -⟩ := coreRow_result hready (fenceIPut_of_noStores (by rw [hat, hsb])) (by simp [retire_cpu, hat, hexc])
    refine ⟨_, run_ok hok rfl, ?_, ?_⟩
    · rw [fenceI, hcpu, retire_cpu, coreRetired_tcm, hat]
    · rw [fenceI, hcpu, retire_cpu, coreRetired_sb, hat, hsb]
  · have hsize : n = 4 ∨ n = 8 := by simpa using hn
    have hpos : 0 < n := by omega
    have hacc : atomicOk (0x200000 + o) n = true := by rw [atomicOk, hu]; simpa using hsize
    have hal : (0x200000 + o) % n = 0 := by rcases hsize with rfl | rfl <;> omega
    have hsb' : ((atBoundary s i).cpu i).sb = [] := by rw [hat, hsb]
    obtain hput := tabPut_valBytes (s.cpu i).tcm (2 ^ 18 + o) n
    refine ⟨fun hmark aq rl => ?_, fun v aq rl hresv => ?_, fun v aq rl hresv => ?_, fun hmark op v aq rl => ?_⟩
    · have hresvMark : tcmMarked (reserved i (0x200000 + o) (atBoundary s i)) i (2 ^ 18 + o) n = false := by
        simpa [tcmMarked, reserved, hat] using hmark
      obtain ⟨hcpu, hout⟩ := coreRow_result hready ((lrDo_dataTcm hpos h hal hsb' rl).trans (loadAt_tcm hresvMark ..))
        (by simp [coreDone_cpu, reserved, hat, hexc])
      refine ⟨_, run_ok (by simp [hok, hacc]) rfl, ?_, ?_⟩
      · rw [lr, hout, reserved, modCpu_same, hat]
        exact coreVal_mem_coreDone ..
      · rw [lr, hcpu, coreDone_cpu, reserved, modCpu_same]
        exact coreRetired_of_young _ rfl (Nat.zero_lt_succ 63)
    · obtain ⟨hcpu, hout⟩ := coreRow_result hready ((scDo_dataTcm hpos h hal hsb' v rl).trans (if_pos (by rw [hat, hresv])))
        (by simp [coreDone_cpu, tcmPut_cpu, hat, hexc])
      refine ⟨_, run_ok (by simp [hok, hacc]) rfl, ?_, ?_, ?_⟩
      · rw [sc, hout]
        exact coreVal_mem_coreDone ..
      · rw [sc, hcpu, coreDone_cpu, tcmPut_cpu, modCpu_same]
        exact coreRetired_of_none _ rfl
      · rw [sc, hcpu, coreDone_cpu, coreRetired_tcm, tcmPut_cpu, modCpu_same, hat]
        exact hput v
    · obtain ⟨hcpu, hout⟩ := coreRow_result hready ((scDo_dataTcm hpos h hal hsb' v rl).trans (if_neg (by simp [hat, hresv])))
        (by simp [coreDone_cpu, cpu_of_reports (count_reports (.refl _)), hat, hexc])
      refine ⟨_, run_ok (by simp [hok, hacc]) rfl, ?_, ?_, ?_⟩
      · rw [sc, hout]
        exact coreVal_mem_coreDone ..
      · rw [sc, hcpu, coreDone_cpu, cpu_of_reports (count_reports (.refl _)), modCpu_same]
        exact coreRetired_of_none _ rfl
      · rw [sc, hcpu, coreDone_cpu, coreRetired_tcm, cpu_of_reports (count_reports (.refl _)), modCpu_same, hat]
    · obtain ⟨hcpu, hout⟩ := coreRow_result hready (amoDo_dataTcm hpos h hal hsb' (by rwa [tcmMarked_congr hat]) op v rl)
        (by simp [amoTab, coreDone_cpu, tcmPut_cpu, hat, hexc])
      refine ⟨_, run_ok (by simp [hok, hacc]) rfl, ?_, ?_⟩
      · rw [amo, hout, hat]
        exact coreVal_mem_coreDone ..
      · rw [amo, hcpu, amoTab, coreDone_cpu, coreRetired_tcm, tcmPut_cpu, hat]
        exact hput _

end Sys2Proof.Proofs

/-! ## A core's accesses (chapter 13) -/

namespace Sys2Proof.Proofs

open Sys2Proof Sys2Proof.Machine Sys2Proof.Safety Sys2Proof.Laws

/-! ### Rows of a core -/

section Row

variable {s : State} {i : Nat}

/-- Where the core does not run or waits for a load, a row of it is the boundary alone (R305, R306). -/
theorem coreRow_of_stopped (h : ((boundary i s).cpu i).loadWait = true ∨ coreRuns (boundary i s) i = false) (body : State → State) :
    coreRow i body s = boundary i s := if_pos (by simpa using h)

theorem coreRow_of_running (hwait : ((boundary i s).cpu i).loadWait = false) (hruns : coreRuns (boundary i s) i = true) (body : State → State) :
    coreRow i body s = boundary i (body (boundary i s)) := if_neg (by simp [hwait, hruns])

/-- An instruction that runs, with what its body does. -/
theorem coreRow_eq (hwait : ((boundary i s).cpu i).loadWait = false) (hruns : coreRuns (boundary i s) i = true) {body : State → State} {t : State}
    (hbody : body (boundary i s) = t) : coreRow i body s = boundary i t := by
  rw [coreRow_of_running hwait hruns, hbody]

end Row

/-! ### Loads and stores (R298, R300, R301) -/

section Access

variable {s : State} {i a n : Nat}

section Load

variable {tcm : TcmRes} {rd : List RdRes}

theorem load_of_bad (hbad : (target s i a n false).bad a n = true) : load i a n tcm rd s = accFault i (target s i a n false) s := if_pos hbad

theorem load_of_early (hbad : (target s i a n false).bad a n = false) (hmay : mayLoad s i (target s i a n false).device = false) :
    load i a n tcm rd s = s := by
  simp only [load, hbad, hmay, Bool.not_false, Bool.false_eq_true, if_false, if_true]

/-- A load of a device region, or with no store of its own before it, is performed at its target. -/
theorem load_of_direct (hbad : (target s i a n false).bad a n = false) (hmay : mayLoad s i (target s i a n false).device = true)
    (hdirect : (target s i a n false).device = true ∨ newest s i a n = none) :
    load i a n tcm rd s = loadAt i a n false tcm rd (target s i a n false) s := by
  simp only [load, hbad, hmay, Bool.not_true, Bool.false_eq_true, if_false]
  split
  · rfl
  next hdev =>
    rw [hdirect.resolve_left hdev]

/-- A load that shares a location with a store of its own takes its value from the newest one, or waits. -/
theorem load_of_newest (tcm : TcmRes) (rd : List RdRes) (hbad : (target s i a n false).bad a n = false)
    (hmay : mayLoad s i (target s i a n false).device = true) (hdev : (target s i a n false).device = false) {e : SbEnt}
    (hnew : newest s i a n = some e) :
    load i a n tcm rd s = if e.addr ≤ a ∧ a + n ≤ e.addr + e.size
      then coreDone i a ((e.val >>> (8 * (a - e.addr))) &&& BitVec.ofNat 64 (2 ^ (8 * n) - 1)) s else s := by
  rw [hdev] at hmay
  simp only [load, hbad, hmay, hdev, hnew, Bool.not_true, Bool.false_eq_true, if_false]

end Load

section Store

variable {v : BitVec 64} {rel : Bool} (hbad : (target s i a n true).bad a n = false)
include hbad

theorem store_of_full (hfull : 16 ≤ (storesOf (s.cpu i).sb).length) : store i a n v rel s = count 0x2821 i 0 1 s := by
  simp only [store, hbad, hfull, Bool.false_eq_true, if_false, if_true]

theorem store_of_room (hroom : (storesOf (s.cpu i).sb).length < 16) : store i a n v rel s = retire i a (s.modCpu i (fun c => { c with sb := c.sb ++
    [{ addr := a, size := n, val := v &&& BitVec.ofNat 64 (2 ^ (8 * n) - 1), release := rel, dev := (target s i a n true).device }] })) := by
  simp only [store, hbad, if_neg hroom.not_ge, Bool.false_eq_true, if_false]

end Store

theorem storeLeaves_of_leaving {k : Nat} {e : SbEnt} (err : Bool) (hent : (s.cpu i).sb[k]? = some e)
    (hleave : mayLeave ((s.cpu i).sb.take k) e = true) : storeLeaves i k err s = storeAt i e err s := by
  simp only [storeLeaves, hent, hleave, if_true]

end Access

/-! ### Atomic accesses (R307, R308) -/

section Atomic

/-- An atomic access that is not refused, and comes before its order allows it. -/
theorem guarded_of_early {bad may : Bool} {x y z : State} (hbad : bad = false) (hmay : may = false) :
    (if bad then x else if !may then y else z) = y := by simp [hbad, hmay]

theorem guarded_of_clear {bad may : Bool} {x y z : State} (hbad : bad = false) (hmay : may = true) :
    (if bad then x else if !may then y else z) = z := by simp [hbad, hmay]

variable (i a n : Nat) (v : BitVec 64)

/-- An SC performed at a target. -/
def scAt (t : Tgt) (s : State) : State :=
  let u := s.modCpu i (fun c => { c with resv := none, resvAge := 0 })
  if !scHolds s i a t then coreDone i a 1 (count 0x2824 i 0 1 u)
  else match t with
    | .tcm off => coreDone i a 0 (tcmPut i off (valBytes v n) u)
    | .sram off => coreDone i a 0 (sramPut i off (valBytes v n) u)
    | .dpa d _ => dpaRun i [{ dpaWrite (coreAgent u i) a d (valBytes v n) with kind := .coreSc a }] u
    | _ => u

/-- An AMO performed at a target. -/
def amoAt (op : AmoOp) (t : Tgt) (s : State) : State :=
  match t with
  | .tcm off => if tcmMarked s i off n then badUse i t s
    else amoTab i a op n v (tabBytes (s.cpu i).tcm off n) (tcmPut i off) s
  | .sram off => amoTab i a op n v (tabBytes s.cc.sram off n) (sramPut i off) s
  | .dpa d _ => dpaRun i [{ who := coreAgent s i, tag := a, kind := .coreAmo op (d % 64) n v, dpa := d / 64 * 64 }] s
  | _ => s

theorem scDo_eq (rl : Bool) (s : State) : scDo i a n v rl s =
    if atomicBad (target s i a n true) a n then accFault i (target s i a n true) s
    else if !mayAtomic s i a n (target s i a n true).device rl then s else scAt i a n v (target s i a n true) s := rfl

theorem amoDo_eq (op : AmoOp) (rl : Bool) (s : State) : amoDo i a n op v rl s =
    if atomicBad (target s i a n true) a n then accFault i (target s i a n true) s
    else if !mayAtomic s i a n (target s i a n true).device rl then s else amoAt i a n v op (target s i a n true) s := rfl

end Atomic

/-- Settles O46: the row of each instruction, stopped or running, and the branches of its body. -/
theorem coreAccessesComplete : Obligations.CoreAccessesComplete := by
  rintro s u i hi rfl
  have hok : coreOk i = true := decide_eq_true hi
  refine ⟨fun hstop => ?_, fun hwait hruns => ?_, fun hruns => ?_, fun hno => ?_⟩
  · have hrow := coreRow_of_stopped hstop
    exact ⟨fun a n acq tcm rd ha => run_ok (by simp [hok, ha]) (hrow _), fun a n v rel ha => run_ok (by simp [hok, ha]) (hrow _),
      fun p q hp hq => run_ok (by simp [hok, hp, hq]) (hrow _), run_ok hok (hrow _),
      fun a n aq rl ha => run_ok (by simp [hok, ha]) (hrow _), fun a n v aq rl ha => run_ok (by simp [hok, ha]) (hrow _),
      fun a n op v aq rl ha => run_ok (by simp [hok, ha]) (hrow _), fun k hk => run_ok (by simp [hok, hk]) (hrow _)⟩
  · have hrow {body t} := coreRow_eq (i := i) (s := s) hwait hruns (body := body) (t := t)
    have hkind {k : OtherKind} {t : State} (hk : k.wf = true) (hbody : otherDo i k (boundary i s) = t) :
        exec (.otherInstruction i k) s = .next (boundary i t) := run_ok (by simp [hok, hk]) (hrow hbody)
    refine ⟨?_, ?_, ?_, ?_, ?_, hkind rfl rfl, hkind rfl rfl, hkind rfl rfl,
      fun o ho => ⟨hkind (decide_eq_true ho) rfl, hkind (decide_eq_true ho) rfl⟩, fun hic => hkind rfl (if_pos hic), fun hic => hkind rfl (if_neg hic)⟩
    · rintro a n acq tcm rd t ha rfl
      have hwf : Instr.wf (.loadInstruction i a n acq tcm rd) = true := by simp [Instr.wf, hok, ha]
      refine ⟨fun hbad => run_ok hwf (hrow (load_of_bad hbad)), fun hbad hmay => run_ok hwf (hrow (load_of_early hbad hmay)),
        fun hbad hmay hdirect => run_ok hwf (hrow (load_of_direct hbad hmay hdirect)), fun e hbad hmay hdev hnew => ?_⟩
      have hforward := load_of_newest tcm rd hbad hmay hdev hnew
      exact ⟨fun hcover => run_ok hwf (hrow (hforward.trans (if_pos hcover))), fun hpart => run_ok hwf (hrow (hforward.trans (if_neg hpart)))⟩
    · rintro a n v rel t ha rfl
      have hwf : Instr.wf (.storeInstruction i a n v rel) = true := by simp [Instr.wf, hok, ha]
      exact ⟨fun hbad => run_ok hwf (hrow (if_pos hbad)), fun hbad hfull => run_ok hwf (hrow (store_of_full hbad hfull)),
        fun hbad hroom => run_ok hwf (hrow (store_of_room hbad hroom))⟩
    · rintro a n aq rl t ha rfl
      have hwf : Instr.wf (.lr i a n aq rl) = true := by simp [Instr.wf, hok, ha]
      exact ⟨fun hbad => run_ok hwf (hrow (if_pos hbad)), fun hbad hmay => run_ok hwf (hrow (guarded_of_early hbad hmay)),
        fun hbad hmay => run_ok hwf (hrow (guarded_of_clear hbad hmay))⟩
    · rintro a n v aq rl t w ha rfl rfl
      have hwf : Instr.wf (.sc i a n v aq rl) = true := by simp [Instr.wf, hok, ha]
      refine ⟨fun hbad => run_ok hwf (hrow (if_pos hbad)), fun hbad hmay => run_ok hwf (hrow (guarded_of_early hbad hmay)), fun hbad hmay => ?_⟩
      have hrow {t : State} (h : scAt i a n v (target (boundary i s) i a n true) (boundary i s) = t) :
          exec (.sc i a n v aq rl) s = .next (boundary i t) := run_ok hwf (hrow ((guarded_of_clear hbad hmay).trans h))
      exact ⟨fun hlost => hrow (if_pos (by simp [hlost])), fun o hholds ht => hrow (by rw [ht] at hholds ⊢; exact if_neg (by simp [hholds])),
        fun o hholds ht => hrow (by rw [ht] at hholds ⊢; exact if_neg (by simp [hholds])),
        fun d b hholds ht => hrow (by rw [ht] at hholds ⊢; exact if_neg (by simp [hholds]))⟩
    · rintro a n op v aq rl t ha rfl
      have hwf : Instr.wf (.amo i a n op v aq rl) = true := by simp [Instr.wf, hok, ha]
      refine ⟨fun hbad => run_ok hwf (hrow (if_pos hbad)), fun hbad hmay => run_ok hwf (hrow (guarded_of_early hbad hmay)), fun hbad hmay => ?_⟩
      have hrow {t : State} (h : amoAt i a n v op (target (boundary i s) i a n true) (boundary i s) = t) :
          exec (.amo i a n op v aq rl) s = .next (boundary i t) := run_ok hwf (hrow ((guarded_of_clear hbad hmay).trans h))
      exact ⟨fun o ht hmark => hrow (by rw [ht]; exact if_pos hmark), fun o ht hmark => hrow (by rw [ht]; exact if_neg (by simp [hmark])),
        fun o ht => hrow (by rw [ht]; rfl), fun d b ht => hrow (by rw [ht]; rfl)⟩
  · refine ⟨fun k e err hk hent hleave => ?_, fun k err hk hno => ?_, fun e he => ?_, fun hnone => ?_, fun hwait hnone => ?_, fun hno => ?_⟩
    · exact run_ok (by simp [hok, hk]) (if_pos hruns |>.trans (congrArg (boundary i) (storeLeaves_of_leaving err hent hleave)))
    · refine run_ok (by simp [hok, hk]) (if_pos hruns |>.trans (congrArg (boundary i) ?_))
      rcases hno with hnone | ⟨e, hent, hheld⟩
      · simp only [storeLeaves, hnone]
      · simp only [storeLeaves, hent, hheld, Bool.false_eq_true, if_false]
    · exact run_ok hok (if_pos hruns |>.trans (congrArg (boundary i) (by simp only [storeTimeout, he])))
    · exact run_ok hok (if_pos hruns |>.trans (congrArg (boundary i) (by simp only [storeTimeout, hnone])))
    · exact run_ok hok (if_neg (by rw [hnone]; simp [hruns, hwait]))
    · refine run_ok hok (if_pos ?_)
      rcases hno with h | h <;> simp only [h, Bool.not_false, Bool.or_true, Bool.true_or]
  · exact ⟨run_ok hok (if_neg (by simp [hno])), run_ok hok (if_pos (by simp [hno])), fun k err hk => run_ok (by simp [hok, hk]) (if_neg (by simp [hno]))⟩

end Sys2Proof.Proofs

/-! ## The control cluster's events and commands (chapter 13) -/

namespace Sys2Proof.Proofs

open Sys2Proof Sys2Proof.Machine Sys2Proof.Safety Sys2Proof.Laws

/-! ### Writes of the cluster's registers -/

/-- A write by an agent that may write reaches a CC block that is not held in reset (R429, R434). -/
theorem ccWrite_may {s : State} {ag : Agent} (hmay : mayWrite s ag) (hheld : ccHeld s = false) (body : State → State) :
    ccWrite ag body s = body s := by
  cases ag with
  | fn p f => exact (if_neg (by simp [hheld])).trans (regWrite_may hmay)
  | core i => exact regWrite_may hmay
  | ic => exact hmay.elim
  | smbus => exact hmay.elim
  | twin => exact hmay.elim
  | stream c => exact hmay.elim

theorem ccSterrInfoClear_may {s : State} {ag : Agent} (hmay : mayWrite s ag) (hheld : ccHeld s = false) (core : Nat) :
    ccSterrInfoClear ag core s = sterrClear core s := by
  rw [← ccWrite_may hmay hheld (sterrClear core)]
  cases ag with
  | ic => exact hmay.elim
  | _ => rfl

/-- An admin function's write of a register that only cores reach changes nothing (R428). -/
theorem coreOnlyWrite_of_admin {s : State} {p f : Nat} (hmay : mayWrite s (.fn p f)) (body : State → State) : coreOnlyWrite (.fn p f) body s = s := by
  obtain ⟨-, -, hreach, hd3, hadmin⟩ := hmay
  rw [coreOnlyWrite, fnWrite_of_reached hreach hd3, if_pos hadmin]

/-! ### Failures (R296) -/

/-- A set of bits, summed by number. -/
def bitSum (p : Nat → Bool) (n : Nat) : Nat := (List.range n).foldl (fun a j => a + (if p j then 2 ^ j else 0)) 0

theorem bitSum_succ (p : Nat → Bool) (n : Nat) : bitSum p (n + 1) = bitSum p n + if p n then 2 ^ n else 0 := by
  simp [bitSum, List.range_succ]

theorem bitSum_lt (p : Nat → Bool) (n : Nat) : bitSum p n < 2 ^ n := by
  induction n with
  | zero => exact Nat.one_pos
  | succ n ih =>
    rw [bitSum_succ, Nat.pow_succ]
    split <;> omega

theorem testBit_bitSum (p : Nat → Bool) {n i : Nat} (h : i < n) : (bitSum p n).testBit i = p i := by
  induction n with
  | zero => exact absurd h (Nat.not_lt_zero i)
  | succ n ih =>
    have hlt := bitSum_lt p n
    rw [bitSum_succ, Nat.add_comm]
    rcases Nat.lt_succ_iff_lt_or_eq.1 h with hi | rfl
    · rw [← ih hi]
      split
      · exact Nat.testBit_two_pow_add_gt hi _
      · rw [Nat.zero_add]
    · cases hp : p i
      · simpa using Nat.testBit_lt_two_pow hlt
      · rw [if_pos rfl, Nat.testBit_two_pow_add_eq, Nat.testBit_lt_two_pow hlt]
        rfl

/-- A firmware role's core after its failure. -/
def coreFailed (i cause : Nat) (s : State) : State := s.modCpu i (fun c => { c with st := 2, cause := cause })

/-- The failed set that goes to the option bytes. -/
def failedBits (s : State) : Nat := bitSum (fun j => (failedSet s).getLsbD j || decide ((s.cpu j).st = 2)) 6

/-- The reset that a core's failure asserts. -/
def failReset (i cause : Nat) (s : State) : State :=
  rstAssert .coreFail (commit { page := 35, off := 2, bytes := leBytes 1 (failedBits (coreFailed i cause s)) } (coreFailed i cause s))

theorem coreFail_of_role {s : State} {i : Nat} (cause : Nat) (hrole : i ∈ s.cc.fCore) (hst : (s.cpu i).st ≠ 2) : coreFail i cause s =
    if s.rpm.boot = 2 ∨ s.rpm.recovery ≠ 0 then failReset i cause s else startFail 5 (failReset i cause s) := by
  rw [coreFail, if_neg (by simp [hrole, hst]), failReset, failedBits, bitSum]
  simp only [Bool.or_eq_true, decide_eq_true_eq]
  rfl

theorem leBytes_one (v : Nat) : leBytes 1 v = [BitVec.ofNat 8 v] := rfl

theorem failedBits_testBit {s : State} {i cause : Nat} (hi : i < 6) : (BitVec.ofNat 8 (failedBits (coreFailed i cause s))).toNat.testBit i = true := by
  have hlt : failedBits (coreFailed i cause s) < 2 ^ 8 := (bitSum_lt _ 6).trans (by decide)
  rw [BitVec.toNat_ofNat, Nat.mod_eq_of_lt hlt, failedBits, testBit_bitSum _ hi]
  simp [coreFailed]

/-! ### The cluster's reset (R316, R339) -/

/-- What the cluster serves once its roles are assigned. -/
def clusterServes (t : State) : State :=
  if t.cc.exhausted then { t with cc := { t.cc with fwVer := 0 } }
  else if (fwLoad t).cc.served then icAutostart (settleFlights (fwLoad t)) else fwLoad t

theorem clusterResetComplete_of_owed {s : State} (st : List Bool) (howed : s.cc.rstOwed = true) (hheld : ccHeld s = false) :
    clusterResetComplete st s = clusterServes (rolesAssign false st { s with cc := { s.cc with rstOwed := false } }) :=
  if_neg (by simp [howed, hheld])

/-- Settles O47: each event by the condition that its row asks for. -/
theorem clusterEventsComplete : Obligations.ClusterEventsComplete := by
  refine ⟨fun s ag core hmay hheld hcore => run_ok (by simp [wf_may hmay, coreOk, hcore]) (ccSterrInfoClear_may hmay hheld core),
    fun s core hcore => ⟨fun hic => run_ok (decide_eq_true hcore) (if_pos hic), fun hic => run_ok (decide_eq_true hcore) (if_neg hic)⟩,
    fun s i role hi hrole => run_ok (by simp [Agent.wf, coreOk, hrole]; omega) (if_pos hi),
    fun s p f role hmay hrole => ⟨run_ok (by simp [wf_may hmay, hrole]) (coreOnlyWrite_of_admin hmay _), run_ok (wf_may hmay) (coreOnlyWrite_of_admin hmay (fun s => s))⟩,
    fun s hic => run_ok rfl (if_pos hic), fun s hic => run_ok rfl (if_neg hic), ?_, ?_, ?_, ?_, ?_, ?_, ?_⟩
  · rintro s role c hrole hrc
    refine ⟨fun hc hserved hbeat => ?_, fun hc hserved hbeat => ?_, fun hno => ?_⟩ <;> refine run_ok (decide_eq_true hrole) ?_
    · rw [heartbeatMissed, ← hrc, if_neg (by simp [hc, hserved]), if_pos (by simpa using hbeat)]
    · rw [heartbeatMissed, ← hrc, if_neg (by simp [hc, hserved]), if_neg (by simpa using hbeat)]
    · rw [heartbeatMissed, ← hrc]
      exact if_pos (by simpa using hno)
  · intro s core hcore hrole hst
    have hfail := coreFail_of_role 4 hrole hst
    exact ⟨coreFailed core 4 s, _, failReset core 4 s, rfl, rfl, failedBits_testBit hcore,
      fun hboot => run_ok (decide_eq_true hcore) (hfail.trans (if_pos hboot)),
      fun hboot hrec => run_ok (decide_eq_true hcore) (hfail.trans (if_neg (by simp [hboot, hrec])))⟩
  · exact fun s core hcore hno => run_ok (decide_eq_true hcore) (if_pos (by simpa using hno))
  · exact fun s core tcm cor bad hcore htcm hoff => run_ok (by simpa [Instr.wf, coreOk, hcore, htcm, or_imp, forall_and] using hoff) rfl
  · refine fun s => ⟨fun hic hwdt hkick => run_ok rfl ?_, fun hic hwdt hkick => run_ok rfl ?_, fun hno => run_ok rfl (if_pos hno)⟩
    · rw [icWatchdogExpiry, if_neg (by simp [hic, hwdt]), if_pos hkick]
    · rw [icWatchdogExpiry, if_neg (by simp [hic, hwdt]), if_neg (by simp [hkick])]
  · intro s st hst howed hheld
    have hrun := clusterResetComplete_of_owed st howed hheld
    have hwf : Instr.wf (.clusterResetComplete st) = true := decide_eq_true hst
    refine ⟨_, rfl, fun hex => run_ok hwf (hrun.trans (if_pos hex)), fun hex hserved => run_ok hwf (hrun.trans ?_), fun hex hserved => run_ok hwf (hrun.trans ?_)⟩
    · rw [clusterServes, if_neg (by simp [hex]), if_neg (by simp [hserved])]
    · rw [clusterServes, if_neg (by simp [hex]), if_pos hserved]
  · exact fun s st hst hno => run_ok (decide_eq_true hst) (if_pos (by simpa using hno))

/-! ### Commands (R312, R313, R317) -/

section Begun

variable (s : State) (rq : Rq) (op : Nat)

theorem begun_icSource (src base len : Nat) : icSource (begun s rq op) src base len = icSource s src base len := by
  simp only [icSource, begun_fileByte, begun_norBytes]

theorem begun_icSrcHdr (src base len : Nat) : icSrcHdr (begun s rq op) src base len = icSrcHdr s src base len := by
  simp only [icSrcHdr, begun_icSource]

theorem begun_icGranted (src base len : Nat) : icGranted (begun s rq op) rq src base len = icGranted s rq src base len := by
  simp only [icGranted, begun_covered, begun_senderOf]

end Begun

/-- Settles O48: the cluster's commands as let through. -/
theorem clusterCommandsComplete : Obligations.ClusterCommandsComplete := by
  refine ⟨fun s rq h => run_ok h.1 (query_done h.2 _), fun s rq src base len chk h hsrc hnor hst hcore hgranted hsizes => run_ok h.1 ?_,
    fun s rq wdt h hwdt hst => run_ok h.1 ?_, fun s rq h hst => run_ok h.1 (atornQ_done h.2 (by simp) rfl (by simp [hst]) rfl),
    fun s rq w b n a h hw ha hb hn hlen hcov => run_ok h.1 ?_⟩
  · refine atornQ_done h.2 ?_ rfl ?_ rfl
    · by_cases h1 : src = 1 <;> simp [h1] <;> [exact hnor h1; omega]
    · simp [begun_icSrcHdr, begun_icGranted, hst, hcore, hgranted, hsizes]
  · refine atornQ_done h.2 (by simpa using hwdt) rfl ?_ ?_
    · rcases List.mem_cons.1 hst with h1 | h3
      · simp [h1]
      · simp [List.mem_singleton.1 h3]
    · simp only [begun_cc]
  · refine atornQ_done h.2 (by simp; omega) rfl ?_ rfl
    have hform : icWinForm b n = true := by norm_num [icWinForm, hb, hn] at hlen ⊢; exact hlen
    simpa [hform, begun_covered, or_iff_not_imp_left] using hcov

end Sys2Proof.Proofs

/-! ## Mailboxes (chapter 14) -/

namespace Sys2Proof.Proofs

open Sys2Proof Sys2Proof.Machine Sys2Proof.Safety Sys2Proof.Laws

/-! ### The window of a channel (R320, R241) -/

section Window

variable {s : State} {ch : Nat} {ag : Agent}

/-- An agent with the window, awake, has its access served. -/
theorem winAccess_of_window (hwin : windowOf s ch ag = true) (hawake : notD3 s ag) (body : State → State) : winAccess ch ag body s = body s := by
  unfold winAccess
  rw [if_neg (by simp [hwin])]
  cases ag with
  | fn p f =>
    have hreach : fnReached s p f = true := by
      rw [windowOf, Bool.and_eq_true] at hwin
      exact hwin.1
    exact fnWrite_of_reached hreach hawake body
  | core i => rfl
  | ic => rfl
  | smbus => rfl
  | twin => rfl
  | stream c => rfl

theorem winAccess_of_none (hwin : windowOf s ch ag = false) (body : State → State) : winAccess ch ag body s = s := if_pos (by simp [hwin])

/-- A function in D3hot is answered with Unsupported Request. -/
theorem winAccess_of_d3 {p f : Nat} (hwin : windowOf s ch (.fn p f) = true) (hd3 : (s.fn p f).d3 = true) (body : State → State) :
    winAccess ch (.fn p f) body s = logAer p f .unsupportedRequest s := by
  have hreach : fnReached s p f = true := by
    rw [windowOf, Bool.and_eq_true] at hwin
    exact hwin.1
  unfold winAccess
  rw [if_neg (by simp [hwin])]
  exact fnWrite_of_d3 hreach hd3 body

end Window

/-! ### Doorbells (R321, R322) -/

section Doorbell

variable {s : State} {ch be v : Nat}

theorem reqDb_of_fits (h : (v + 256 - (s.mbox ch).reqCons) % 256 ≤ 4 ∧ (v + 256 - (s.mbox ch).reqProd) % 256 ≤ 4) :
    reqDb ch v s = s.modMbox ch (fun m => { m with reqProd := v }) := if_pos h

theorem rplDb_of_fits (h : (v + 256 - (s.mbox ch).rplCons) % 256 ≤ ((s.mbox ch).rplProd + 256 - (s.mbox ch).rplCons) % 256) :
    rplDb ch v s = s.modMbox ch (fun m => { m with
      rplCons := v, flights := release ((v + 256 - (s.mbox ch).rplCons) % 256) m.flights }) := if_pos h

/-- A doorbell with its low byte enabled does what its count asks; one without is rejected. -/
theorem doorbell_of_window (hwin : windowOf s ch (senderOf s ch) = true) (hawake : notD3 s (senderOf s ch)) (body : State → State) :
    doorbell ch be body s = if be % 2 = 1 then body s else dbReject ch s :=
  winAccess_of_window hwin hawake _

theorem doorbell_of_rejected {body : State → State} (hwin : windowOf s ch (senderOf s ch) = true) (hawake : notD3 s (senderOf s ch))
    (h : be % 2 = 0 ∨ body s = dbReject ch s) : doorbell ch be body s = dbReject ch s := by
  rw [doorbell_of_window hwin hawake]
  split
  · exact h.resolve_left (by omega)
  · rfl

end Doorbell

/-! ### Notifications (R326) -/

section Notes

variable {s : State} {ch : Nat}

theorem popNote_of_entry {e : Note} {l : List Note} (h : (s.mbox ch).fifo = e :: l) :
    popNote ch s = (e, s.modMbox ch (fun m => { m with fifo := l, last := e })) := by
  simp only [popNote, h]

theorem popNote_of_empty (h : (s.mbox ch).fifo = []) :
    popNote ch s = ((s.mbox ch).last, s.modMbox ch (fun m => { m with underrun := true })) := by
  simp only [popNote, h]

/-- What a pop gives the agent, and latches for it. -/
def noteGiven (ch : Nat) (ag : Agent) (e : Note) (t : State) : State :=
  emit (.regRead ag (noteNat e)) { t with noteLatch := (ag, ch, e) :: t.noteLatch.filter (fun x => !(x.1 == ag && x.2.1 == ch)) }

theorem noteGiven_mbox (ag : Agent) (e : Note) (t : State) (k : Nat) : (noteGiven ch ag e t).mbox k = t.mbox k := rfl

theorem mem_noteGiven (ag : Agent) (e : Note) (t : State) : (ag, ch, e) ∈ (noteGiven ch ag e t).noteLatch := List.mem_cons_self

theorem mbNotePop_of_window {ag : Agent} (hwin : windowOf s ch ag = true) (hawake : notD3 s ag) :
    mbNotePop ch ag s = noteGiven ch ag (popNote ch s).1 (popNote ch s).2 := winAccess_of_window hwin hawake _

end Notes

/-! ### Taking a request (R324, R328, R333) -/

section Take

variable (ch : Nat) (s : State)

/-- The channel once its next request's slot is copied. -/
def slotTaken : State :=
  let t := count 0x2C20 ch 0 1 (s.modMbox ch (fun m => { m with reqCons := (m.reqCons + 1) % 256, taken := recentTakes s m.taken ++ [s.tb.count] }))
  if ch < 30 then { t with mb := { t.mb with rot := (ch + 1) % 30 } } else t

theorem slotTaken_mbox : boxRest ((slotTaken ch s).mbox ch) =
    boxRest { s.mbox ch with reqCons := ((s.mbox ch).reqCons + 1) % 256, taken := recentTakes s (s.mbox ch).taken ++ [s.tb.count] } := by
  have hbox := (count_reports (a0 := 0x2C20) (a1 := ch) (a2 := 0) (a3 := 1) (.refl (s.modMbox ch (fun m => { m with
    reqCons := (m.reqCons + 1) % 256, taken := recentTakes s m.taken ++ [s.tb.count] })))).boxes ch
  rw [modMbox_same] at hbox
  unfold slotTaken
  dsimp only
  split <;> exact hbox

/-- Taking a slot advances the consumer count and leaves what the checks ask of the channel. -/
theorem slotTaken_fields : ((slotTaken ch s).mbox ch).reqCons = ((s.mbox ch).reqCons + 1) % 256 ∧
    ((slotTaken ch s).mbox ch).rplProd = (s.mbox ch).rplProd ∧ ((slotTaken ch s).mbox ch).expect = (s.mbox ch).expect ∧
    ((slotTaken ch s).mbox ch).flights = (s.mbox ch).flights := by
  have h := slotTaken_mbox ch s
  exact ⟨(congrArg MbChan.reqCons h :), (congrArg MbChan.rplProd h :), (congrArg MbChan.expect h :), (congrArg MbChan.flights h :)⟩

/-- A taken frame answered with a fault. -/
def frameBad (x : Machine.Frm) (st det : Nat) (t : State) : State :=
  replyWith ch (flightOf ch (slotTaken ch s) x) ((slotTaken ch s).mbox ch).flights st det [] t

/-- A frame that passed the sequence check. -/
def frameOn (x : Machine.Frm) : State :=
  let t := (slotTaken ch s).modMbox ch (fun m => { m with expect := some ((x.cseq + 1) % 2 ^ 32) })
  match takeFault (slotTaken ch s) ch x with
  | some (st, det) => if st = 0x0102 then count 0x2C23 ch 0 1 (frameBad ch s x st det t) else frameBad ch s x st det t
  | none => t.modMbox ch (fun m => { m with flights := ((slotTaken ch s).mbox ch).flights ++ [flightOf ch (slotTaken ch s) x] })

theorem takeFrom_eq : takeFrom ch s = emptied ch s (match frameFault (frmOf (reqSlot s ch)) with
    | some off => frameBad ch s (frmOf (reqSlot s ch)) 0x0100 off (slotTaken ch s)
    | none => match ((slotTaken ch s).mbox ch).expect with
      | some e => if e ≠ (frmOf (reqSlot s ch)).cseq then count 0x2C22 ch 0 1 (frameBad ch s (frmOf (reqSlot s ch)) 0x0101 e (slotTaken ch s))
        else frameOn ch s (frmOf (reqSlot s ch))
      | none => frameOn ch s (frmOf (reqSlot s ch))) := rfl

/-- A frame in sequence, or the first of its channel, passes on. -/
theorem takeFrom_of_sequence (hfault : frameFault (frmOf (reqSlot s ch)) = none)
    (hseq : (s.mbox ch).expect = none ∨ (s.mbox ch).expect = some (frmOf (reqSlot s ch)).cseq) :
    takeFrom ch s = emptied ch s (frameOn ch s (frmOf (reqSlot s ch))) := by
  obtain ⟨-, -, hexpect, -⟩ := slotTaken_fields ch s
  rw [takeFrom_eq, hfault, hexpect]
  rcases hseq with h | h <;> rw [h]
  exact congrArg (emptied ch s) (if_neg fun hne => hne rfl)

theorem requestTaken_of_next {s : State} {ch : Nat} (h : nextChan s = some ch) : requestTaken s = takeFrom ch s := by
  simp only [requestTaken, h]

end Take

/-- Settles O49: each access by its window, each count by what it allows, a request by the first check that it fails. -/
theorem mailboxEventsComplete : Obligations.MailboxEventsComplete := by
  refine ⟨fun s ch v be hch hbe hwin hawake => ?_, fun s ch v be hch hbe hwin => ?_, fun s ch ag hch hag => ⟨fun hwin hawake e l hfifo => ?_,
    fun hwin hawake hfifo => ?_, fun hwin => run_ok (by simp [mbOk, hch, hag]) (winAccess_of_none hwin _)⟩,
    fun s ch hch => ⟨fun hwin hawake => ⟨run_ok (decide_eq_true hch) (winAccess_of_window hwin hawake _), run_ok (decide_eq_true hch) (winAccess_of_window hwin hawake _)⟩,
      fun hwin => ⟨run_ok (decide_eq_true hch) (winAccess_of_none hwin _), run_ok (decide_eq_true hch) (winAccess_of_none hwin _)⟩⟩,
    fun s ch v be p f c hch hbe hp hf hwin hd3 hc => ?_, fun s => ⟨fun i hi => ?_, fun ag hag hno => ?_⟩, ?_,
    fun s hnone => run_ok rfl (by simp only [requestTaken, hnone]), fun s rq f bs hrq hfind harea => ?_,
    fun s rq f st det data bs hrq hfind harea hreply => ?_, fun s rq good bs hrq hno => run_ok hrq ?_, fun s => run_ok rfl rfl⟩
  · have hwf : (mbOk ch && decide (be < 16)) = true := by simp [mbOk, hch, hbe]
    refine ⟨fun hodd hfits => run_ok hwf ?_, fun hno => run_ok hwf (doorbell_of_rejected hwin hawake (hno.imp_right fun h => if_neg (by omega))),
      fun hodd hfits => run_ok hwf ?_, fun hno => run_ok hwf (doorbell_of_rejected hwin hawake (hno.imp_right fun h => if_neg (by omega)))⟩
    · rw [doorbell_of_window hwin hawake, if_pos hodd, reqDb_of_fits hfits]
    · rw [doorbell_of_window hwin hawake, if_pos hodd, rplDb_of_fits hfits]
  · have hwf : (mbOk ch && decide (be < 16)) = true := by simp [mbOk, hch, hbe]
    exact ⟨run_ok hwf (winAccess_of_none hwin _), run_ok hwf (winAccess_of_none hwin _)⟩
  · refine ⟨_, run_ok (by simp [mbOk, hch, hag]) (mbNotePop_of_window hwin hawake), ?_⟩
    rw [popNote_of_entry hfifo]
    refine ⟨rfl, ?_, ?_, ?_, mem_noteGiven ..⟩ <;> rw [noteGiven_mbox, modMbox_same]
  · refine ⟨_, run_ok (by simp [mbOk, hch, hag]) (mbNotePop_of_window hwin hawake), ?_⟩
    rw [popNote_of_empty hfifo]
    exact ⟨rfl, by rw [noteGiven_mbox, modMbox_same], mem_noteGiven ..⟩
  · have hfn : fnOk p f = true := by simp [fnOk, hp, hf]
    rcases hc with rfl | ⟨hsender, hc⟩
    · exact run_ok (by simp [mbOk, hch, Agent.wf, hfn]) (winAccess_of_d3 hwin hd3 _)
    · have haccess (body : State → State) : senderAccess ch body s = logAer p f .unsupportedRequest s := by
        rw [senderAccess, hsender, winAccess_of_d3 hwin hd3]
      have hwf : (mbOk ch && decide (be < 16)) = true := by simp [mbOk, hch, hbe]
      simp only [List.mem_cons, List.not_mem_nil, or_false] at hc
      rcases hc with rfl | rfl | rfl | rfl
      · exact run_ok hwf (haccess _)
      · exact run_ok hwf (haccess _)
      · exact run_ok (decide_eq_true hch) (haccess _)
      · exact run_ok (decide_eq_true hch) (haccess _)
  · exact run_ok (decide_eq_true (by omega)) (if_pos hi)
  · refine run_ok hag ?_
    cases ag with
    | core i => exact if_neg fun hi => hno i hi rfl
    | _ => rfl
  · rintro s ch x hnext rfl
    obtain ⟨hcons, hprod, hexpect, hflights⟩ := slotTaken_fields ch s
    have htake := (requestTaken_of_next hnext).trans (takeFrom_eq ch s)
    have hon hfault hseq := (requestTaken_of_next hnext).trans (takeFrom_of_sequence ch s hfault hseq)
    refine ⟨slotTaken ch s, flightOf ch (slotTaken ch s) (frmOf (reqSlot s ch)), _, rfl, hcons, hprod, hexpect, hflights, rfl, rfl, rfl, rfl, rfl, rfl,
      fun off hfault => run_ok rfl ?_, fun e hfault hseq hne => run_ok rfl ?_, fun hfault hseq => ⟨_, rfl, fun st det htf => run_ok rfl ?_, fun htf => run_ok rfl ?_⟩⟩
    · rw [htake, hfault, ← hflights]
      rfl
    · rw [htake, hfault, hexpect, hseq]
      dsimp only
      rw [if_pos hne, frameBad, hflights]
    · rw [hon hfault hseq, frameOn, htf]
      dsimp only
      rw [frameBad, hflights]
    · rw [hon hfault hseq, frameOn, htf, hflights]
  · have hrow (good : Bool) : descArea rq good bs s = inAreaEnd rq f good bs s := by simp only [descArea, hfind, harea, if_true]
    refine ⟨fun hsum => run_ok hrq ((hrow true).trans ?_), fun hcrc hne => run_ok hrq ((hrow true).trans ?_), run_ok hrq (hrow false)⟩
    · rw [inAreaEnd, if_neg (by simp), if_neg (by omega)]
    · rw [inAreaEnd, if_neg (by simp), if_pos ⟨hcrc, hne⟩]
  · have hrow (good : Bool) : descArea rq good bs s = outAreaEnd rq f (st, det, data) good s := by
      simp only [descArea, hfind, harea, hreply, Bool.false_eq_true, if_false]
    exact ⟨_, rfl, run_ok hrq (hrow true), run_ok hrq (hrow false)⟩
  · cases hfind : findFlight s rq.ch rq.tag with
    | none => simp only [descArea, hfind]
    | some f =>
      obtain ⟨harea, hreply⟩ := hno f hfind
      simp only [descArea, hfind, harea, hreply, Bool.false_eq_true, if_false]

end Sys2Proof.Proofs

/-! ## The management port, identification and firmware update (chapter 14) -/

namespace Sys2Proof.Proofs

open Sys2Proof Sys2Proof.Machine Sys2Proof.Safety Sys2Proof.Laws

/-! ### The management port (R327) -/

section Port

variable {s : State}

theorem smbusDo_of_up (hup : smbusUp s = true) (body : State → State) : smbusDo true body s = body s := if_pos (by simp [hup])

theorem smbusDo_of_none {pec : Bool} (h : smbusUp s = false ∨ pec = false) (body : State → State) : smbusDo pec body s = s :=
  if_neg (by rcases h with h | h <;> simp [h])

/-- The 256 bytes of a slot. -/
def slotOf (b : List Byte) : List Byte := (b ++ List.replicate 256 0).take 256

theorem slotOf_length (b : List Byte) : (slotOf b).length = 256 := by
  rw [slotOf, List.length_take, List.length_append, List.length_replicate]
  omega

theorem slotOf_of_whole {b : List Byte} (h : b.length = 256) : slotOf b = b := List.take_left' h

/-- A slot with bytes put into it. -/
def slotPut (old : List Byte) (off : Nat) (bs : List Byte) : List Byte := (slotOf old).take off ++ bs ++ (slotOf old).drop (off + bs.length)

variable {old bs : List Byte} {off : Nat} (h : off + bs.length ≤ 256)
include h

theorem slotPut_length : (slotPut old off bs).length = 256 := by
  rw [slotPut, List.length_append, List.length_append, List.length_take, List.length_drop, slotOf_length]
  omega

theorem slotPut_bytes : ((slotPut old off bs).drop off).take bs.length = bs := by
  have hlen : ((slotOf old).take off).length = off := by
    rw [List.length_take, slotOf_length]
    omega
  rw [slotPut, List.append_assoc, List.drop_left' hlen, List.take_left' rfl]

theorem smbusSlotWrite_of_fits : smbusSlotWrite off bs s = s.modMbox 31 (fun m =>
    { m with slots := m.slots.set [] (m.reqProd % 4) (slotPut (m.slots.get [] (m.reqProd % 4)) off bs) }) := if_neg (by omega)

end Port

theorem smbusPop_eq (s : State) : smbusPop s = emit (.smbus (leBytes 16 (noteNat (popNote 31 s).1))) (popNote 31 s).2 := rfl

theorem emit_mbox (o : Out) (s : State) (k : Nat) : (emit o s).mbox k = s.mbox k := rfl

/-- The 32 bytes of a reply slot from an offset. -/
def replyBytes (slot : List Byte) (off : Nat) : List Byte := ((slotOf slot ++ List.replicate 32 0).drop off).take 32

theorem replyBytes_of_whole {slot : List Byte} {off : Nat} (hlen : slot.length = 256) (hoff : off ≤ 224) :
    replyBytes slot off = (slot.drop off).take 32 := by
  rw [replyBytes, slotOf_of_whole hlen, List.drop_append_of_le_length (by omega), List.take_append_of_le_length (by rw [List.length_drop]; omega)]

theorem replyBytes_length (slot : List Byte) (off : Nat) : (replyBytes slot off).length ≤ 32 := List.length_take_le ..

/-- Settles O50: every code on a port that answers, and none on one that does not. -/
theorem managementPortCompletes : Obligations.ManagementPortCompletes := by
  refine ⟨fun s hup => ⟨fun off bs hoff hpos hlen => ⟨fun hfits => ?_, fun hover => ?_⟩, fun v hv => ?_, run_ok rfl (smbusDo_of_up hup _),
    ⟨_, replyBytes ((s.mbox 31).slots.get [] (4 + (s.mbox 31).rplCons % 4)) s.mb.smbOff, run_ok rfl (smbusDo_of_up hup _), rfl,
      replyBytes_of_whole, replyBytes_length .., rfl⟩, fun e l hfifo => ?_, fun hfifo => ?_, fun c hc => ?_⟩,
    fun s pec v off bs c hv hoff hpos hlen hno hc => ?_, fun s c hc hdown => run_ok (decide_eq_true hc) (if_neg (by simp [hdown]))⟩
  · have hwf : Instr.wf (.smbusSlotWrite off bs true) = true := by simp [Instr.wf, u8, hoff, hpos, hlen]
    refine ⟨_, run_ok hwf ((smbusDo_of_up hup _).trans (smbusSlotWrite_of_fits hfits)), ?_, ?_, fun k hk => ?_⟩ <;> rw [modMbox_same]
    · rw [get_set_same]
      exact slotPut_length hfits
    · rw [get_set_same]
      exact slotPut_bytes hfits
    · exact get_set_other _ _ _ _ _ hk
  · have hwf : Instr.wf (.smbusSlotWrite off bs true) = true := by simp [Instr.wf, u8, hoff, hpos, hlen]
    exact run_ok hwf ((smbusDo_of_up hup _).trans (if_pos hover))
  · have hwf : u8 v = true := decide_eq_true hv
    exact ⟨run_ok hwf (smbusDo_of_up hup _), run_ok hwf (smbusDo_of_up hup _), run_ok hwf (smbusDo_of_up hup _), run_ok hwf (smbusDo_of_up hup _)⟩
  · have hpop := (smbusDo_of_up hup smbusPop).trans (smbusPop_eq s)
    rw [popNote_of_entry hfifo] at hpop
    exact ⟨_, run_ok rfl hpop, rfl, by rw [emit_mbox, modMbox_same], by rw [emit_mbox, modMbox_same]⟩
  · have hpop := (smbusDo_of_up hup smbusPop).trans (smbusPop_eq s)
    rw [popNote_of_empty hfifo] at hpop
    exact ⟨_, run_ok rfl hpop, rfl, by rw [emit_mbox, modMbox_same]⟩
  · refine run_ok (decide_eq_true (by omega)) (if_pos ?_)
    simp [hup]
    omega
  · have hv' : u8 v = true := decide_eq_true hv
    have hslot : Instr.wf (.smbusSlotWrite off bs pec) = true := by simp [Instr.wf, u8, hoff, hpos, hlen]
    simp only [List.mem_cons, List.not_mem_nil, or_false] at hc
    rcases hc with rfl | rfl | rfl | rfl | rfl | rfl | rfl | rfl
    · exact run_ok hslot (smbusDo_of_none hno _)
    · exact run_ok hv' (smbusDo_of_none hno _)
    · exact run_ok rfl (smbusDo_of_none hno _)
    · exact run_ok hv' (smbusDo_of_none hno _)
    · exact run_ok rfl (smbusDo_of_none hno _)
    · exact run_ok hv' (smbusDo_of_none hno _)
    · exact run_ok rfl (smbusDo_of_none hno _)
    · exact run_ok hv' (smbusDo_of_none hno _)

/-! ### The session of an update, which notification leaves alone -/

/-- `s` and `t` agree on the mailboxes' state outside the channels. -/
structure SameDesk (s t : State) : Prop where
  desk : { t.mb with chans := [] } = { s.mb with chans := [] }

namespace SameDesk

variable {s u v : State}

theorem refl (s : State) : SameDesk s s := ⟨rfl⟩

theorem ite {c : Prop} [Decidable c] (h : SameDesk s u) (k : SameDesk s v) : SameDesk s (if c then u else v) := by
  split
  · exact h
  · exact k

theorem of_eq (h : SameDesk s u) (k : { v.mb with chans := [] } = { u.mb with chans := [] }) : SameDesk s v := ⟨k.trans h.desk⟩

theorem foldl {α : Type} {g : State → α → State} (hg : ∀ v a, SameDesk s v → SameDesk s (g v a)) (l : List α) (h : SameDesk s u) :
    SameDesk s (l.foldl g u) := by
  induction l generalizing u with
  | nil => exact h
  | cons a l ih => exact ih (hg u a h)

theorem fire (h : SameDesk s u) (p f v : Nat) : SameDesk s (fire p f v u) := .ite (h.of_eq rfl) (h.of_eq rfl)

theorem notePut (h : SameDesk s u) (ch code aux param : Nat) : SameDesk s (notePut ch code aux param u) := by
  have hquiet : SameDesk s (countQuiet 0x2C24 ch 1 u) := h.of_eq rfl
  have hput (v : State) (hv : SameDesk s v) : SameDesk s (v.modMbox ch (fun m => fifoPut m code aux param)) := hv.of_eq rfl
  have hplaced := hput (if ((countQuiet 0x2C24 ch 1 u).mbox ch).fifo.length < 256 then countQuiet 0x2C24 ch 1 u
    else countQuiet 0x2C25 ch 1 (countQuiet 0x2C24 ch 1 u)) (.ite hquiet (hquiet.of_eq rfl))
  unfold Machine.notePut
  refine .ite h ?_
  dsimp only
  split
  next p f _ =>
    have hfired := SameDesk.ite (c := (u.mbox ch).fifo.isEmpty = true) (hplaced.fire p f 1) hplaced
    exact .ite hfired (hfired.fire p f _)
  next => exact hplaced

theorem route (h : SameDesk s u) (code aux param : Nat) (nm : Names) : SameDesk s (route code aux param nm u) :=
  h.foldl (fun _ ch hv => .ite (hv.notePut ch code aux param) hv) _

theorem count (h : SameDesk s u) (code inst qual n : Nat) : SameDesk s (count code inst qual n u) := by
  unfold Machine.count
  dsimp only
  refine SameDesk.foldl (fun v k hv => SameDesk.route (hv.of_eq ?_) 0x4400 k 0 .nothing) _ (h.of_eq ?_)
  · rfl
  · rfl

end SameDesk

section Begun

variable (s : State) (rq : Rq) (op : Nat)

theorem begun_sameDesk : SameDesk s (begun s rq op) := by
  unfold begun takeDirect
  refine SameDesk.count (.of_eq (.refl s) ?_) ..
  rfl

theorem begun_sess : (begun s rq op).mb.sess = s.mb.sess := (congrArg MbState.sess (begun_sameDesk s rq op).desk :)
theorem begun_sessDone : (begun s rq op).mb.sessDone = s.mb.sessDone := (congrArg MbState.sessDone (begun_sameDesk s rq op).desk :)
theorem begun_sessLast : (begun s rq op).mb.sessLast = s.mb.sessLast := (congrArg MbState.sessLast (begun_sameDesk s rq op).desk :)

theorem begun_hasAdmin (ch : Nat) : hasAdmin (begun s rq op) ch = hasAdmin s ch := by simp only [hasAdmin, begun_bind]

theorem begun_sessionOf (ch : Nat) : sessionOf (begun s rq op) ch = sessionOf s ch := by
  unfold sessionOf
  rw [begun_sess]

theorem begun_norRead (addr n : Nat) : norRead (begun s rq op) addr n = norRead s addr n := by simp only [norRead, begun_norBytes]

theorem begun_icKey (j : Nat) : icKey (begun s rq op) j = icKey s j := by simp only [icKey, optBytes, begun_page]

theorem begun_pageNat (p off n : Nat) : (begun s rq op).pageNat p off n = s.pageNat p off n := by simp only [State.pageNat, begun_page]

theorem begun_icImageOk (b : List Byte) (n : Nat) (chk : ImgChk) : icImageOk (begun s rq op) b n chk = icImageOk s b n chk := by
  unfold icImageOk icKeyOk icRollback serialOk
  dsimp only
  rw [begun_icKey, begun_pageNat, begun_board]

theorem begun_fwImageOk (b : List Byte) (chk : ImgChk) : fwImageOk (begun s rq op) b chk = fwImageOk s b chk := by
  simp only [fwImageOk, fwKeyOk, serialOk, begun_board, begun_sec]

theorem begun_slotCheck (ic : Bool) (n : Nat) (chk : ImgChk) : slotCheck (begun s rq op) ic n chk = slotCheck s ic n chk := by
  unfold slotCheck updateSlot
  dsimp only
  rw [begun_norRead, begun_icImageOk, begun_fwImageOk, begun_cc]

theorem begun_preferred : preferred (begun s rq op) = preferred s := by simp only [preferred, begun_pageNat]

/-- The flight of a request given by its row has no payload of a slot. -/
theorem begun_findFlight {s : State} {rq : Rq} {op : Nat} (h : accepts s rq op true true) :
    findFlight (begun s rq op) rq.ch rq.tag = some (directFlight s rq op (blockOf op)) := by
  have hboxes : boxRest ((begun s rq op).mbox rq.ch) = boxRest _ := (count_reports (.refl _)).boxes rq.ch
  rw [modMbox_same] at hboxes
  obtain ⟨-, hnew, -⟩ := h
  rw [findFlight, boxRest_flights hboxes, List.find?_append, List.find?_eq_none.2 fun f hf => by simp [hnew f hf], Option.none_or,
    List.find?_cons_of_pos (by simp [directFlight])]

end Begun

theorem sessionOf_own {s : State} {ch n : Nat} {ic : Bool} (h : s.mb.sess = some (ch, ic, n)) : sessionOf s ch = some (ic, n) := by
  simp [sessionOf, h]

/-- A chunk that its row presents alone may have up to 224 bytes, or whole words up to 64 KiB (R337). -/
theorem begun_chunkOk {s : State} {rq : Rq} {op n : Nat} (h : accepts s rq op true true) (hn : n ≤ 224 ∨ n ≤ 65536 ∧ n % 4 = 0) :
    chunkBad rq n (begun s rq op) = false := by
  simp only [chunkBad, begun_findFlight h, directFlight, List.isEmpty_nil, if_true]
  simp
  omega

/-- The end of an update of `n` bytes: the slot's check, and what follows it. -/
def updateEnds (rq : Rq) (chk : ImgChk) (ic : Bool) (n : Nat) (s : State) : State :=
  if !slotCheck s ic n chk then reply rq 0x0301 3 [] (sessionClose s)
  else if ic then ok rq [] (sessionClose (slotMark (updateSlot s ic) chk s))
  else commit { page := 35, off := 3, bytes := leBytes 1 (updateSlot s ic), act := .reply rq.ch rq.tag }
    (sessionClose (slotMark (updateSlot s ic) chk s))

/-- The end of a format that a command asked for (R153). -/
def formatPart (s : State) : State :=
  match s.mctl.formatRq with
  | some (g, k, n) => if n < 2 && !formatOpening s then formatDone g k s else s
  | none => s

theorem formatPart_of_asked {s : State} {g k n : Nat} (h : s.mctl.formatRq = some (g, k, n)) :
    formatPart s = if n < 2 && !formatOpening s then formatDone g k s else s := by
  simp only [formatPart, h]

/-- The end of the block's part of a command, by its opcode. -/
def blockPart (rq : Rq) (op : Nat) (s : State) : State :=
  match op with
  | 0x0011 => ok rq [] s
  | 0x0301 => formatPart s
  | 0x0302 => ok rq [] { s with mctl := { s.mctl with retireLun := none } }
  | 0x0802 => ok rq [] { xeLaneRetired s with xe := { (xeLaneRetired s).xe with retiring := [] } }
  | _ => s

theorem blockEnd_of_ran {s : State} {rq : Rq} {f : Flight} (hfind : findFlight s rq.ch rq.tag = some f) (hran : f.ran = true) :
    blockEnd rq s = blockPart rq f.opcode s := by
  simp only [blockEnd, hfind, hran, Bool.not_true, Bool.false_eq_true, if_false]
  rfl

/-- Settles O51: the mailbox's own commands as let through, and the end of a block's part by its opcode. -/
theorem mailboxCommandsComplete : Obligations.MailboxCommandsComplete := by
  refine ⟨fun s rq h => run_ok h.1 (query_done h.2 _), fun s rq h => run_ok h.1 (query_done h.2 _), fun s rq k h => ⟨fun hk howner => ?_, fun hk hadmin => ?_⟩,
    fun s rq h => run_ok h.1 (query_done h.2 _), fun s rq tg len h htg hpos hlen hsess => ?_, fun s rq ic n off bs h hsess hchunk => ?_,
    fun s rq chk ic n h hsess hdone => ?_, fun s rq h hslot hsess hrec => run_ok h.1 (atornQ_done h.2 (by simp) rfl ?_ rfl),
    fun s rq f hrq hfind hran => ?_, fun s rq hrq hno => run_ok hrq ?_⟩
  · refine run_ok h.1 (atornQ_done h.2 (by simp; omega) rfl ?_ ?_)
    · rcases howner with rfl | hadmin <;> simp [begun_hasAdmin, *]
    · rw [if_neg (by simp [allOnes]; omega)]
  · refine run_ok h.1 (atornQ_done h.2 (by simp [hk]) rfl (by simp [begun_hasAdmin, hadmin]) ?_)
    rw [if_pos hk]
  · refine run_ok h.1 ?_
    unfold fwUpdateBegin
    refine atornQ_done h.2 (by simp; omega) rfl ?_ ?_
    · have hlen0 : len ≠ 0 := hpos.ne'
      rcases hsess with hnone | ⟨ic, m, hown⟩ <;> simp [begun_sess, *]
    · simp only [updateSlot, begun_cc]
  · have hown := sessionOf_own hsess
    refine ⟨fun hoff hfits => ⟨fun u => { u.mb with sessDone := off + bs.length, sessLast := some (off, bs) }, run_ok h.1 ?_, fun u => rfl⟩, fun hoff hlast => run_ok h.1 ?_⟩
    · unfold fwUpdateData
      refine atornQ_done h.2 ?_ rfl ?_ ?_
      · simp [begun_chunkOk h.2 hchunk]
      · simp [begun_sessionOf, hown, begun_sessDone, begun_sessLast, hoff]
        omega
      · simp only [begun_sessionOf, hown, begun_sessDone, hoff, ne_eq, not_true_eq_false, if_false, Option.getD_some, updateSlot, begun_cc]
        rfl
    · unfold fwUpdateData
      refine atornQ_done h.2 ?_ rfl ?_ ?_
      · simp [begun_chunkOk h.2 hchunk]
      · simp [begun_sessionOf, hown, begun_sessDone, begun_sessLast, hlast]
      · rw [if_pos (by rwa [begun_sessDone])]
  · have hown := sessionOf_own hsess
    have hrow {eff : State → State} (heff : updateEnds rq chk ic n (begun s rq 0x0013) = eff (begun s rq 0x0013)) :
        exec (.fwUpdateEnd rq chk) s = .next (doneBy s rq 0x0013 eff) := by
      refine run_ok h.1 (atornQ_done h.2 (by simp) rfl ?_ ?_)
      · simp [begun_sessionOf, hown, begun_sessDone, hdone]
      · simp only [begun_sessionOf, hown, Option.getD_some]
        exact heff
    refine ⟨fun hcheck => hrow ?_, fun hcheck hic => hrow ?_, fun hcheck hic => hrow ?_⟩
    · rw [updateEnds, begun_slotCheck, hcheck]
      rfl
    · rw [updateEnds, begun_slotCheck, hcheck, hic]
      rfl
    · rw [updateEnds, begun_slotCheck, hcheck, hic]
      simp only [updateSlot, begun_cc]
      rfl
  · have hactive : (s.cc.served && preferred s == s.cc.fwSlot) = false := by rcases hslot with hs | hs <;> simp [hs]
    simp [begun_preferred, begun_sess, hactive, hsess, hrec]
  · refine ⟨fun hop => run_ok hrq ?_, fun hop => run_ok hrq ?_, fun hop => ⟨_, rfl, run_ok hrq ?_⟩,
      fun g k n hop hformat => ⟨fun hn hopen => run_ok hrq ?_, fun hno => run_ok hrq ?_⟩, fun hop hformat => run_ok hrq ?_, fun hop => run_ok hrq ?_⟩
    all_goals rw [blockEnd_of_ran hfind hran]
    · rw [hop]
      rfl
    · rw [hop]
      rfl
    · rw [hop]
      rfl
    · rw [hop]
      exact (formatPart_of_asked hformat).trans (if_pos (by simp [hn, hopen]))
    · rw [hop]
      exact (formatPart_of_asked hformat).trans (if_neg (by simpa using fun hn => hno.resolve_left (by omega)))
    · rw [hop]
      show formatPart s = s
      simp only [formatPart, hformat]
    · simp only [List.mem_cons, List.not_mem_nil, or_false, not_or] at hop
      obtain ⟨h1, h2, h3, h4⟩ := hop
      unfold blockPart
      split
      next h => exact absurd h h1
      next h => exact absurd h h2
      next h => exact absurd h h3
      next h => exact absurd h h4
      next => rfl
  · unfold blockEnd
    split
    · rfl
    next f hfind => exact if_pos (by simp [hno f hfind])

end Sys2Proof.Proofs

/-! ## Security (chapter 15) -/

namespace Sys2Proof.Proofs

open Sys2Proof Sys2Proof.Machine Sys2Proof.Safety Sys2Proof.Laws

/-! ### The front sweep (R355) -/

section Front

variable {s : State} (rd : List RdRes)

/-- The line that the front sweep takes, read where it is held. -/
def sweepRead (f l : Nat) (s : State) : State := if lineHeld s f l then (ftRead f l rd s).2 else s

/-- The front sweep's pointer behind the line that it has taken. -/
def frontMoved (f l : Nat) (u : State) : State :=
  { count 0x2420 0xFFFF 0 1 u with sec := { (count 0x2420 0xFFFF 0 1 u).sec with
    fFrame := if l = 1023 then f + 1 else f, fLine := if l = 1023 then 0 else l + 1 } }

theorem frontSweepStep_of_line (hruns : sweepRuns s = true) (hopen : s.sec.fDone = false) (htrained : s.ft.trained = true) {f l : Nat}
    (hnext : frontNext s = some (f, l)) : frontSweepStep rd s = if (sweepRead rd f l s).sec.halt then sweepRead rd f l s
      else if (frontNext (frontMoved f l (sweepRead rd f l s))).isNone then frontSwept (frontMoved f l (sweepRead rd f l s))
        else frontMoved f l (sweepRead rd f l s) := by
  rw [frontSweepStep, if_neg (by simp [hruns, hopen, htrained]), hnext]
  rfl

end Front

/-! ### The media sweep (R356-R358) -/

section Media

variable {s : State} (hruns : sweepRuns s = true) (hmedia : mediaSweeps s = true) (hpassed : s.sec.mPassed = false)

/-- The boundary behind a billet whose copy has moved. -/
def boundMoved (b : Nat) (u : State) : State :=
  { count 0x2421 0xFFFF 0 1 u with
    sec := { (count 0x2421 0xFFFF 0 1 u).sec with mBound := b + 1, movedGib := (count 0x2421 0xFFFF 0 1 u).sec.movedGib + 1 },
    mctl := { (count 0x2421 0xFFFF 0 1 u).mctl with destageCnt := satAdd (2 ^ 64 - 1) (count 0x2421 0xFFFF 0 1 u).mctl.destageCnt 1 } }

include hruns hmedia hpassed

theorem mediaSweepStep_of_billet {b l : Nat} (hnext : mediaSweepNext s = some (b, l)) : mediaSweepStep s =
    if !reserveFree s then s
    else if mediaSweepNext (moveSlot l 4 s) == some (b, l) then moveSlot l 4 s
    else mediaLevels (if 16384 ≤ (boundMoved b (moveSlot l 4 s)).sec.movedGib then boundRecord (boundMoved b (moveSlot l 4 s))
      else boundMoved b (moveSlot l 4 s)) := by
  rw [mediaSweepStep, if_neg (by simp [hruns, hmedia, hpassed]), hnext]
  rfl

theorem mediaSweepStep_of_none (hnext : mediaSweepNext s = none) : mediaSweepStep s = mediaPassed s := by
  rw [mediaSweepStep, if_neg (by simp [hruns, hmedia, hpassed]), hnext]

end Media

/-- The media part complete, its old salt erased. -/
def mediaErased (s : State) : State := { oldSaltErase s with sec := { (oldSaltErase s).sec with mDone := true } }

section Over

variable {t : State}

theorem sweepOver_of_open (h : t.sec.fDone = false ∨ t.sec.rekey = 0) : sweepOver t = t :=
  if_neg (by rcases h with h | h <;> simp [h])

theorem sweepOver_of_done (hkey : t.sec.rekey ≠ 0) (hfront : t.sec.fDone = true) (hmedia : t.sec.mDone = true) :
    sweepOver t = boundRecord { t with sec := { t.sec with rekey := 0, scope := 0, mBound := 0, mPassed := false } } :=
  if_pos (by simp [hkey, hfront, hmedia])

end Over

/-! ### The commands (R364) -/

theorem commit_pageNat (c : Commit) (s : State) (p off n : Nat) : (commit c s).pageNat p off n = s.pageNat p off n := by
  have hopt : optRest (commit c s).opt = optRest s.opt := (commit_reports (.refl s)).rest.opt
  have hpages : (commit c s).opt.pages = s.opt.pages := (congrArg OptState.pages hopt :)
  have hfactory : (commit c s).opt.factory = s.opt.factory := (congrArg OptState.factory hopt :)
  simp only [State.pageNat, State.page, hpages, hfactory]

/-- Settles O52: each sweep by the next line or billet that it finds, the commands as let through. -/
theorem securityCompletes : Obligations.SecurityCompletes := by
  refine ⟨fun s rd f l u hruns hopen htrained hnext hu => ?_, fun s rd hruns hopen htrained hnext => run_ok rfl ?_,
    fun s rd hno => run_ok rfl (if_pos ?_), fun s b l u hruns hmedia hpassed hnext hu => ?_,
    fun s hruns hmedia hpassed hnext => run_ok rfl (mediaSweepStep_of_none hruns hmedia hpassed hnext),
    fun s hno => run_ok rfl (if_pos ?_), fun s hmedia hpassed => ?_, fun s hno => run_ok rfl (if_pos ?_), fun s a ha => run_ok (decide_eq_true ha) rfl,
    fun s => ⟨fun hst => run_ok rfl ?_, fun h1 h2 => run_ok rfl ?_⟩, fun s rq h => run_ok h.1 (query_done h.2 _),
    fun s rq scope h hidle hrng => ?_, fun s rq op h hop => ?_⟩
  · have hstep := frontSweepStep_of_line rd hruns hopen htrained hnext
    obtain rfl : u = sweepRead rd f l s := hu
    refine ⟨fun hhalt => run_ok rfl (hstep.trans (if_pos hhalt)), fun hhalt => ⟨_, rfl, run_ok rfl (hstep.trans (if_neg (by simp [hhalt])))⟩⟩
  · rw [frontSweepStep, if_neg (by simp [hruns, hopen, htrained]), hnext]
  · rcases hno with h | h | h <;> simp [h]
  · subst hu
    have hstep := mediaSweepStep_of_billet hruns hmedia hpassed hnext
    refine ⟨fun hfull => run_ok rfl (hstep.trans (if_pos (by simp [hfull]))), fun hfree hsame => run_ok rfl (hstep.trans ?_),
      fun hfree hmoved => ⟨_, boundMoved b (moveSlot l 4 s), rfl, rfl, rfl, rfl, run_ok rfl (hstep.trans ?_)⟩⟩
    · rw [if_neg (by simp [hfree]), if_pos (by simp [hsame])]
    · rw [if_neg (by simp [hfree]), if_neg (by simpa using hmoved)]
  · rcases hno with h | h | h <;> simp [h]
  · have hstep : mediaSweepComplete s = sweepOver (mediaErased s) := if_neg (by simp [hmedia, hpassed])
    exact ⟨mediaErased s, rfl, fun hno => run_ok rfl (hstep.trans (sweepOver_of_open hno)),
      fun hfront hkey => run_ok rfl (hstep.trans (sweepOver_of_done hkey hfront rfl))⟩
  · rcases hno with h | h <;> simp [h]
  · rcases hst with h | h <;> simp only [rngFails, h]
  · unfold rngFails
    split
    next h => exact absurd h h1
    next h => exact absurd h h2
    next => rfl
  · refine ⟨fun hs => run_ok h.1 ?_, fun hs hf => run_ok h.1 ?_, fun hs hf => run_ok h.1 ?_⟩
    all_goals subst hs
    all_goals refine atornQ_done h.2 (by simp) rfl ?_ ?_
    · simp [scopeMedia, hidle, hrng, begun_inEmber h.2]
    · simp [scopeFront, scopeMedia, secFrontGen, commit_pageNat, begun_pageNat]
    · simp [scopeMedia, hidle, hrng, hf, begun_inEmber h.2]
    · simp [scopeFront, scopeMedia]
    · simp [scopeMedia, hidle, hrng, hf, begun_inEmber h.2]
    · simp [scopeFront, scopeMedia, secFrontGen, commit_pageNat, begun_pageNat]
  · refine ⟨fun u => { u with sec := { u.sec with rekey := if op = 0 then 2 else 1 } }, fun u => rfl, run_ok h.1 (atornQ_done h.2 ?_ rfl ?_ rfl)⟩
    · simp; omega
    · rcases hop with ⟨rfl, hst⟩ | ⟨rfl, hst⟩ <;> simp [hst]

end Sys2Proof.Proofs

/-! ## The option store (chapter 16) -/

namespace Sys2Proof.Proofs

open Sys2Proof Sys2Proof.Machine Sys2Proof.Safety Sys2Proof.Laws

/-! ### The page buffer (R366) -/

theorem byteOf_putByte_same (v : BitVec 512) {i : Nat} (hi : i < 64) (b : Byte) : byteOf (putByte v i b) i = b := by
  refine BitVec.eq_of_getLsbD_eq fun k hk => ?_
  rw [byteOf_getLsbD _ hk, putByte_getLsbD (by omega), if_pos (by omega)]
  congr 1
  omega

theorem byteOf_putByte_other (v : BitVec 512) {i k : Nat} (hk : k < 64) (h : k ≠ i) (b : Byte) : byteOf (putByte v i b) k = byteOf v k := by
  refine BitVec.eq_of_getLsbD_eq fun j hj => ?_
  rw [byteOf_getLsbD _ hj, byteOf_getLsbD _ hj, putByte_getLsbD (by omega), if_neg (by omega)]

/-- The contents that a `LOAD` of a page gives (R366). -/
def loadedData (s : State) (p : Nat) : BitVec 512 :=
  match s.opt.run with
  | some c => if c.page = p then commitImage s c else (s.opt.pages.get {} p).data
  | none => (s.opt.pages.get {} p).data

/-- The buffer after a `LOAD`. -/
def optLoaded (p : Nat) (s : State) (v : BitVec 512) : State := { s with opt := { s.opt with tpage := p, buf := v } }

theorem loadedData_of_other {s : State} {p : Nat} (h : ∀ c, s.opt.run = some c → c.page ≠ p) : loadedData s p = (s.opt.pages.get {} p).data := by
  unfold loadedData
  split
  next c hc => exact if_neg (h c hc)
  next => rfl

theorem loadedData_of_same {s : State} {p : Nat} {c : Commit} (hrun : s.opt.run = some c) (hc : c.page = p) : loadedData s p = commitImage s c := by
  simp only [loadedData, hrun, hc, if_true]

/-! ### The end of a page write (R366, R370) -/

theorem wear_pages (o : OptState) (p : OptPage) : (wear o p).1.pages = o.pages := by
  unfold wear
  split <;> rfl

/-- A page below its wear limit takes one more write, in its place. -/
theorem wear_young (o : OptState) {p : OptPage} (h : p.wcount + 1 < 1000000) : (wear o p).2 = { p with wcount := p.wcount + 1 } := by
  rw [wear, if_neg (by omega), satAdd, Nat.min_eq_right (by omega)]

/-- A page just written, below its wear limit. -/
theorem commitPage_get {o : OptState} {page : Nat} (whole : Bool) (img : BitVec 512) (h : (o.pages.get {} page).wcount + 1 < 1000000) :
    ((commitPage page whole img o).pages.get {} page).data = img ∧
    ((commitPage page whole img o).pages.get {} page).wcount = (o.pages.get {} page).wcount + 1 := by
  let o1 : OptState := { (wear o { wcount := o.commitW, phys := o.commitPhys }).1 with
    commitW := (wear o { wcount := o.commitW, phys := o.commitPhys }).2.wcount, commitPhys := (wear o { wcount := o.commitW, phys := o.commitPhys }).2.phys }
  have hpages : o1.pages = o.pages := wear_pages o _
  have hpage : (commitPage page whole img o).pages.get {} page =
      (wear o1 { o1.pages.get {} page with data := img, damaged := (o1.pages.get {} page).damaged && !whole }).2 := get_set_same ..
  rw [hpage, wear_young _ (by rw [hpages]; exact h), hpages]
  exact ⟨rfl, rfl⟩

theorem pages_of_reports {s t : State} (h : Reports s t) : t.opt.pages = s.opt.pages := (congrArg OptState.pages h.rest.opt :)

/-- The event of few spare pages, once. -/
def sparesLowRaised (s : State) : State :=
  if s.opt.sparesUsed ≥ 56 ∧ !s.opt.lowRaised then
    raise 0x3001 0xFFFF 0 .nothing { s with opt := { s.opt with lowRaised := true } } else s

theorem sparesLowRaised_pages (s : State) : (sparesLowRaised s).opt.pages = s.opt.pages := by
  unfold sparesLowRaised
  split
  · exact pages_of_reports (s := { s with opt := { s.opt with lowRaised := true } }) (raise_reports (.refl _))
  · rfl

theorem spareEvents_pages (was : Nat) (s : State) : (spareEvents was s).opt.pages = s.opt.pages := by
  have heq : spareEvents was s = if was < 64 ∧ (sparesLowRaised s).opt.sparesUsed = 64 then raise 0x3002 0xFFFF 0 .nothing (sparesLowRaised s)
      else sparesLowRaised s := rfl
  rw [heq, ← sparesLowRaised_pages s]
  split
  · exact pages_of_reports (raise_reports (.refl _))
  · rfl

theorem commitApply_pages (c : Commit) (s : State) : (commitApply c s).opt.pages =
    (commitPage c.page (decide (64 ≤ c.bytes.length)) (commitImage s c) s.opt).pages :=
  (spareEvents_pages ..).trans (pages_of_reports (count_reports (.refl _)))

/-! ### The commands' checks once a command has begun (R363, R371) -/

section Begun

variable (s : State) (rq : Rq) (op : Nat)

theorem begun_unlocks (k : Nat) : ((begun s rq op).mbox k).unlocks = (s.mbox k).unlocks := by
  have hboxes : boxRest ((begun s rq op).mbox k) = boxRest _ := (count_reports (.refl _)).boxes k
  have hunlocks := (congrArg MbChan.unlocks hboxes :)
  by_cases hk : k = rq.ch
  · rw [hk, modMbox_same] at hunlocks
    exact hk ▸ hunlocks
  · rw [modMbox_other _ _ _ _ hk] at hunlocks
    exact hunlocks

theorem begun_areaDenied (ch dir first n : Nat) : areaDenied (begun s rq op) ch dir first n = areaDenied s ch dir first n := by
  have hopen : areaOpen (begun s rq op) ch = areaOpen s ch := by
    funext a d
    rw [areaOpen, areaOpen, hasPw, hasPw, begun_sec, begun_unlocks]
  rw [areaDenied, areaDenied, hopen]

theorem begun_pageSoon (k : Nat) : pageSoon (begun s rq op) k = pageSoon s k := by
  rw [pageSoon, pageSoon, begun_opt, begun_page]

theorem begun_writeRefused (p off : Nat) (data : List Byte) : writeRefused (begun s rq op) p off data = writeRefused s p off data := by
  simp only [writeRefused, lowersRollback, begun_pageSoon]

theorem begun_pwMatches (a d : Nat) (pw : BitVec 128) : pwMatches (begun s rq op) a d pw = pwMatches s a d pw := by
  unfold pwMatches
  rw [begun_sec]

theorem begun_failCount (a : Nat) : failCount (begun s rq op) a = failCount s a := by rw [failCount, failCount, begun_pageSoon]

end Begun

/-- Settles O53: the registers for a firmware core, the end of a page write, the patrol, and the commands as let through. -/
theorem optionStoreCompletes : Obligations.OptionStoreCompletes := by
  refine ⟨fun s core p hcore hp => ?_, fun s p b hp => ⟨run_ok (by simpa [coreOk] using hp) rfl, run_ok (by simpa [coreOk] using hp) rfl, run_ok rfl rfl⟩,
    fun s core hcore hbyte => ⟨fun b => ?_, run_ok (by simp [coreOk]; omega) (if_pos hcore)⟩, fun s c v hrun hv => ?_,
    fun s hnone => run_ok rfl (by simp only [commitEnd, hnone]), fun s weak bad hp => run_ok (by simpa [or_imp, forall_and] using hp) rfl,
    fun s p => ⟨rfl, fun hd => if_pos hd, fun hd => if_neg (ne_true_of_eq_false hd)⟩, fun s rq first n h hlo hpos hhi harea => run_ok h.1 ?_,
    fun s rq p off data img b h hp hoff hpos hlen harea hwr => run_ok h.1 ?_, fun s rq p off data img h hfirst => run_ok h.1 ?_,
    fun s rq a d pw h hpos ha hd hpair hopen => ?_, fun s rq a d old new h hpos ha hd hpair hopen => ?_⟩
  · have hwf : (coreOk core && decide (p < 1024)) = true := by simp [coreOk, hp]; omega
    refine ⟨fun harea => ⟨_, rfl, run_ok hwf ?_⟩, fun harea => run_ok hwf ?_, fun hrun => run_ok hwf ?_, fun c hrun hc => run_ok hwf ?_⟩ <;>
      refine (if_pos hcore).trans ?_
    · exact if_neg (by simpa [Option.isSome_iff_ne_none] using harea)
    · exact if_pos harea
    · exact congrArg (optLoaded p s) (loadedData_of_other hrun)
    · exact congrArg (optLoaded p s) (loadedData_of_same hrun hc)
  · refine ⟨_, run_ok (by simp [coreOk]; omega) (if_pos hcore), rfl, byteOf_putByte_same _ hbyte b, fun k hk hne => byteOf_putByte_other _ hk hne b⟩
  · have hend : commitEnd s = commitStart (if c.page = 35 then page35 v else v) := by
      rw [hv]
      simp only [commitEnd, hrun]
    refine ⟨run_ok rfl hend, fun hact => ?_, fun ch tag hact => ?_, fun hyoung => ?_⟩
    · simp only [hv, commitActed, hact]
    · simp only [hv, commitActed, hact]
    · rw [commitApply_pages]
      exact commitPage_get _ _ hyoung
  · refine atornQ_done h.2 (by simp; omega) (by rw [begun_areaDenied]; exact harea) (by simp; omega) rfl
  · unfold optWrite
    refine atornQ_done h.2 ?_ ?_ ?_ rfl
    · simp [List.ne_nil_of_length_pos hpos]; omega
    · exact (begun_areaDenied ..).trans harea
    · simp [begun_writeRefused, hwr]
  · unfold optWrite
    refine atornQ_done h.2 (by simp) ?_ ?_ rfl
    · cases img with
      | nil => rfl
      | cons e l => exact (begun_areaDenied ..).trans (hfirst e rfl).1
    · cases img with
      | nil => simp
      | cons e l => simp [begun_writeRefused, (hfirst e rfl).2]
  · have hbad : ∀ b ∈ [a == 0 || decide (6 < a), decide (2 ≤ d)], b = false := by simp; omega
    have hrefuse : ∀ b ∈ [a == 1 && d == 1, (begun s rq 0x0B02).sec.closed.contains a], b = false := by
      have hout : a ∉ s.sec.closed := by simpa using hopen
      simpa [hout] using hpair
    refine ⟨fun hmatch => ⟨fun u => if failCount s a = 0 then u else failWrite a 0 u, fun h0 => funext fun u => if_pos h0,
      fun h0 => funext fun u => if_neg h0, run_ok h.1 (atornQ_done h.2 hbad rfl hrefuse ?_)⟩, fun hmatch => run_ok h.1 (atornQ_done h.2 hbad rfl hrefuse ?_)⟩
    · rw [begun_pwMatches, if_pos hmatch, begun_failCount]
    · rw [begun_pwMatches, if_neg (by simp [hmatch])]
  · have hbad : ∀ b ∈ [a == 0 || decide (6 < a), decide (2 ≤ d)], b = false := by simp; omega
    have hrefuse : ∀ b ∈ [a == 1 && d == 1, (begun s rq 0x0B03).sec.closed.contains a], b = false := by
      have hout : a ∉ s.sec.closed := by simpa using hopen
      simpa [hout] using hpair
    refine ⟨fun hmatch => ⟨if new = 0 then none else some (Config.verifier (pwKey a d) new), fun h0 => if_pos h0,
      fun h0 => if_neg h0, run_ok h.1 (atornQ_done h.2 hbad rfl hrefuse ?_)⟩, fun hmatch => run_ok h.1 (atornQ_done h.2 hbad rfl hrefuse ?_)⟩
    · rw [begun_pwMatches, if_pos hmatch]
    · rw [begun_pwMatches, if_neg (by simp [hmatch])]

end Sys2Proof.Proofs

/-! ## The ledger (chapter 16) -/

namespace Sys2Proof.Proofs

open Sys2Proof Sys2Proof.Machine Sys2Proof.Safety Sys2Proof.Laws

/-! ### What a program puts on the media (R378) -/

/-- The greatest of a list's values is no less than any of them. -/
theorem le_foldl_max {α β : Type} [LinearOrder β] (f : α → β) (l : List α) : ∀ m : β,
    m ≤ l.foldl (fun m x => max m (f x)) m ∧ ∀ x ∈ l, f x ≤ l.foldl (fun m x => max m (f x)) m := by
  induction l with
  | nil => exact fun m => ⟨le_rfl, fun _ h => absurd h List.not_mem_nil⟩
  | cons y l ih =>
    intro m
    obtain ⟨hstart, hall⟩ := ih (max m (f y))
    refine ⟨(le_max_left ..).trans hstart, fun x hx => ?_⟩
    rcases List.mem_cons.1 hx with rfl | hx
    · exact (le_max_right ..).trans hstart
    · exact hall x hx

/-- What a list of records puts into the table is theirs. -/
theorem mem_foldl_insert {x : Nat × LgRec} (rs : List LgRec) : ∀ {t : Tab LgRec},
    x ∈ rs.foldl (fun (t : Tab LgRec) (r : LgRec) => Tab.insert t r.seq r) t → x ∈ t ∨ ∃ r ∈ rs, x = (r.seq, r) := by
  induction rs with
  | nil => exact fun h => .inl h
  | cons r rs ih =>
    intro t h
    rcases ih h with h | ⟨q, hq, rfl⟩
    · exact (mem_insert h).symm.imp_right fun h => ⟨r, List.mem_cons_self, h⟩
    · exact .inr ⟨q, List.mem_cons_of_mem r hq, rfl⟩

/-- A staged record as it goes to the media. -/
def lgStored (bad : List Nat) (r : LgRec) : LgRec := if bad.contains r.seq then lgHole r.seq else r

theorem lgStored_seq (bad : List Nat) (r : LgRec) : (lgStored bad r).seq = r.seq := by
  unfold lgStored
  split <;> rfl

theorem lgHoles_staged (bad : List Nat) (s : State) : (lgHoles bad s).lg.staged = s.lg.staged.map (lgStored bad) := rfl

theorem ledgerProgram_of_running {s : State} (hrun : s.lg.programming = true) (hon : s.lg.offline = false) (good : Bool) (bad : List Nat) :
    ledgerProgram good bad s = if good then lgProgrammed (lgHoles bad s) else ledgerSetFails (lgHoles bad s) :=
  if_neg (by simp [hrun, hon])

/-- Settles O54: the ledger's commands as let through, and its programs by what is staged. -/
theorem ledgerCompletes : Obligations.LedgerCompletes := by
  refine ⟨fun s rq h => run_ok h.1 (query_done h.2 _), fun s rq first n out h hfirst hpos hn => run_ok h.1 (atornQ_done h.2 ?_ rfl ?_ rfl),
    fun s hon hstaged => run_ok rfl (if_neg ?_), fun s hno => run_ok rfl (if_pos ?_), fun s bad hrun hon => ⟨?_, ?_⟩,
    fun s good bad hno => run_ok rfl (if_pos ?_), fun s c hrun hact hpage => run_ok rfl ?_, fun s c hrun hact hqueue => run_ok rfl ?_, fun s hno => run_ok rfl ?_⟩
  · simp; omega
  · simp; omega
  · simp [hon, hstaged]
  · simpa using hno
  · refine ⟨_, run_ok rfl (ledgerProgram_of_running hrun hon true bad), rfl, rfl, ?_, ?_, rfl, ?_⟩
    · intro r hr
      have := (le_foldl_max LgRec.seq (s.lg.staged.map (lgStored bad)) s.lg.mediaSeq).2 (lgStored bad r) (List.mem_map_of_mem hr)
      rw [lgStored_seq] at this
      exact this
    · exact (le_foldl_max LgRec.seq (s.lg.staged.map (lgStored bad)) s.lg.mediaSeq).1
    · intro x hx
      rcases mem_foldl_insert _ (List.mem_of_mem_filter hx) with h | ⟨q, hq, rfl⟩
      · exact .inl h
      · obtain ⟨r, hr, rfl⟩ := List.mem_map.1 hq
        exact .inr ⟨r, hr, congrArg (·, lgStored bad r) (lgStored_seq bad r)⟩
  · exact run_ok rfl (ledgerProgram_of_running hrun hon false bad)
  · rcases hno with h | h <;> simp [h]
  · rw [commitOfKind_of_run hrun (by simp [hact])]
    simp only [commitEnd, hrun, if_neg hpage, commitActed, hact]
  · exact commitOfKind_of_queue hrun (by simp [hact]) (by simpa using hqueue)
  · rcases hno with hnone | ⟨hqueue, hrun⟩
    · rw [commitOfKind]
      split
      · simp only [commitsUntil, hnone]
      · rfl
    · exact commitOfKind_of_none (by simpa using hqueue) (by simpa using hrun)

end Sys2Proof.Proofs

/-! ## Sources of reset, PLLs and the end of a start (chapter 17) -/

namespace Sys2Proof.Proofs

open Sys2Proof Sys2Proof.Machine Sys2Proof.Safety Sys2Proof.Laws

/-! ### Sources (R386-R388) -/

section Source

variable {s : State} {src : RstSrc}

theorem rstAssert_of_powerOn (h : isPowerOn src = true) : rstAssert src s = rstTake src s := if_pos h

theorem rstAssert_of_down (hsrc : isPowerOn src = false) (h : s.rpm.st = .timedShutdown ∨ s.rpm.st = .shutdown ∨ s.eu.phase = .shutdown) :
    rstAssert src s = s := by
  rw [rstAssert, if_neg (by simp [hsrc]), if_pos (by simpa [or_assoc] using h)]

theorem rstRelease_of_absent (h : src ∉ s.rpm.asserted) : rstRelease src s = s := if_neg (by simpa using h)

theorem rstRelease_of_asserted (h : src ∈ s.rpm.asserted) : rstRelease src s =
    if (s.rpm.asserted.erase src).isEmpty then intervalEnd { s with rpm := { s.rpm with asserted := s.rpm.asserted.erase src } }
    else { s with rpm := { s.rpm with asserted := s.rpm.asserted.erase src } } := if_pos (by simpa using h)

/-- RESET_N taken by a device that is not shut down (R185, R186): deferred in ember, the cause of an ember where the epoch is open, else a
reset. -/
theorem rstAssert_resetN (htimed : s.rpm.st ≠ .timedShutdown) (hshut : s.rpm.st ≠ .shutdown) (hphase : s.eu.phase ≠ .shutdown) :
    rstAssert .resetN s =
      if euBusy s && !(s.eu.phase == .sealedHold) then { s with eu := { s.eu with deferred := s.eu.deferred.erase .resetN ++ [.resetN] } }
      else if epochOpen s then { emberEnter 4 s with eu := { (emberEnter 4 s).eu with deferred := (emberEnter 4 s).eu.deferred ++ [.resetN] } }
      else rstTake .resetN s := by
  have hopen : (epochOpen s && s.rpm.st == .service) = epochOpen s := by
    rw [epochOpen, Bool.and_assoc, Bool.and_self]
  rw [rstAssert, if_neg (by simp [isPowerOn]), if_neg (by simp [htimed, hshut, hphase])]
  simp only [isCold, Bool.true_and, hopen, if_true]

end Source

/-! ### PLLs (R389, R390) -/

section Pll

variable {s : State} {p : Pll}

theorem pllWaits_of_open (hst : s.rpm.st = .kindling) (hlock : p ∉ s.rpmx.plls) (hfail : p ∉ s.rpmx.pllFail) : pllWaits p s = true := by
  simp [pllWaits, hst, hlock, hfail]

theorem pllWaits_of_none (h : s.rpm.st ≠ .kindling ∨ p ∈ s.rpmx.plls ∨ p ∈ s.rpmx.pllFail) : pllWaits p s = false := by
  rcases h with h | h | h <;> simp [pllWaits, h]

end Pll

/-! ### The restart from a shutdown (R409) -/

theorem restartMet_iff {s : State} : restartMet s = true ↔ s.rpm.st = .shutdown ∧
    (s.rpmx.downCause = 1 ∧ (s.eu.pfw = false ∧ s.eu.pfwHeld = true ∨ s.rpmx.rstPin = 2) ∨
     s.rpmx.downCause = 2 ∧ s.th.coolOk = true ∧ s.eu.pfw = false ∨ s.rpmx.downCause = 3 ∧ s.rpmx.rstPin = 2) := by
  rw [restartMet]
  split
  next h => simp [h]
  next h => simp [h]
  next h => simp [h]
  next h1 h2 h3 => simpa using fun _ => ⟨fun h => (h1 h).elim, fun h => (h2 h).elim, fun h => (h3 h).elim⟩

/-- Settles O55, source by source and PLL by PLL; each row that does not speak of the present state is the branch that changes nothing. -/
theorem resetSourcesComplete : Obligations.ResetSourcesComplete := by
  refine ⟨fun s => ⟨fun h => run_ok rfl ?_, fun h => run_ok rfl (if_pos (by simpa using h))⟩, ?_, ?_, fun s => ⟨fun h => run_ok rfl ?_, fun h => run_ok rfl ?_⟩,
    fun s src hwf => ⟨fun h => run_ok hwf ?_, fun h1 h2 h3 => run_ok hwf ?_⟩, fun s p hp => ⟨fun hst hlock hfail => ?_, fun hno => ?_⟩, ?_, ?_,
    fun s => ⟨fun hst hent hboot hset => run_ok rfl (if_pos (by simp [hst, hent, hboot, hset])), fun hno => run_ok rfl (if_neg ?_)⟩,
    fun s => ⟨fun hop hdone hfail => ?_, fun hno => run_ok rfl (if_pos (by simpa [or_assoc] using hno))⟩, fun s met hmet => ?_,
    fun s => ⟨fun h => run_ok rfl (if_pos (by simp [h])), fun h => run_ok rfl (if_neg (by simp [h]))⟩⟩
  · rw [porDetected, if_neg (by simpa using h), rstAssert_of_powerOn rfl]
  · rintro s t rfl
    refine ⟨fun hin hlast => run_ok rfl ?_, fun hin hmore => run_ok rfl ?_, fun hout => run_ok rfl (rstRelease_of_absent hout)⟩
    · exact (rstRelease_of_asserted hin).trans (if_pos (List.isEmpty_iff.2 hlast))
    · exact (rstRelease_of_asserted hin).trans (if_neg fun h => hmore (List.isEmpty_iff.1 h))
  · rintro s t rfl
    refine ⟨fun h => run_ok rfl ?_, fun htimed hshut hout hphase => ?_⟩
    · by_cases hheld : (shuttingDown s || s.rpm.asserted.contains .resetN) = true
      · exact if_pos hheld
      · have hphase : s.eu.phase = .shutdown := by
          simp only [shuttingDown, Bool.or_eq_true, beq_iff_eq, List.contains_iff_mem, not_or] at hheld
          exact ((h.resolve_left hheld.1.1).resolve_left hheld.1.2).resolve_left hheld.2
        exact (if_neg hheld).trans (rstAssert_of_down (s := { s with rpmx := { s.rpmx with rstPin := 1 } }) rfl (.inr (.inr hphase)))
    · have htake : resetNAccepted s = _ := (if_neg (by simp [shuttingDown, htimed, hshut, hout])).trans
        (rstAssert_resetN (s := { s with rpmx := { s.rpmx with rstPin := 1 } }) htimed hshut hphase)
      refine ⟨fun hbusy hhold => run_ok rfl (htake.trans (if_pos ?_)), fun hidle => ?_⟩
      · exact Bool.and_eq_true_iff.2 ⟨hbusy, by simp [hhold]⟩
      · have htake := htake.trans (if_neg fun hc => ?_)
        · exact ⟨fun hopen => ⟨_, rfl, run_ok rfl (htake.trans (if_pos hopen))⟩, fun hopen => run_ok rfl (htake.trans (if_neg (ne_true_of_eq_false hopen)))⟩
        · obtain ⟨hbusy, hhold⟩ := Bool.and_eq_true_iff.1 hc
          rcases hidle with h | h
          · exact absurd (show euBusy s = true from hbusy) (by simp [h])
          · exact absurd hhold (by simp [h])
  · rw [resetNReleased, if_pos (by simpa [shuttingDown] using h)]
  · have hback : ¬((shuttingDown s && decide (s.rpmx.rstPin ≠ 0)) = true) := by
      rcases h with ⟨htimed, hshut⟩ | hpin
      · simp [shuttingDown, htimed, hshut]
      · simp [hpin]
    rw [resetNReleased, if_neg (by simpa using hback)]
  · rcases h with rfl | rfl | ⟨rfl, hpin⟩
    · rfl
    · rfl
    · exact if_pos hpin
  · cases src with
    | por => exact absurd rfl h1
    | restart => exact absurd rfl h2
    | resetN => exact if_neg fun hpin => h3 ⟨rfl, hpin⟩
    | _ => rfl
  · have hwaits := pllWaits_of_open hst hlock hfail
    refine ⟨run_ok hp (if_pos hwaits), _, rfl, ?_, ?_, ?_⟩
    · rintro rfl
      exact run_ok hp (if_neg (by simp [hwaits]))
    · rintro k rfl
      exact run_ok hp (if_neg (by simp [hwaits]))
    · rintro k (rfl | rfl)
      · exact run_ok hp (if_neg (by simp [hwaits]))
      · exact run_ok hp (if_neg (by simp [hwaits]))
  · have hwaits := pllWaits_of_none hno
    exact ⟨run_ok hp (if_neg (by simp [hwaits])), run_ok hp (if_pos (by simp [hwaits]))⟩
  · rintro s p t hp rfl
    refine ⟨fun hno => run_ok hp (if_pos (by simpa using hno)), ?_, ?_, ?_, ?_⟩
    · rintro hlock rfl
      exact run_ok hp (if_neg (by simpa using hlock))
    · rintro k u hlock rfl rfl
      have hrole : ((({ s with rpmx := { s.rpmx with plls := s.rpmx.plls.erase (.port k) } } : State).modPort k
          (fun q => { q with pllOk := false })).port k).role = (s.port k).role := by
        rw [modPort_same]; rfl
      have hlost : ¬((!s.rpmx.plls.contains (.port k)) = true) := by simpa using hlock
      exact ⟨fun h => run_ok hp ((if_neg hlost).trans (if_neg fun hc => h (hrole ▸ hc))),
        fun h => run_ok hp ((if_neg hlost).trans (if_pos (hrole.trans h)))⟩
    · rintro k hlock rfl
      exact run_ok hp (if_neg (by simpa using hlock))
    · rintro k hlock rfl
      exact run_ok hp (if_neg (by simpa using hlock))
  · rintro s p l t hp hl rfl
    have hwf : (p.wf && l.all devOk) = true := by simpa [hp, devOk] using hl
    refine ⟨fun hno => run_ok hwf (if_pos (by simpa [or_assoc] using hno)), fun hlock hfail hent => ⟨?_, ?_, ?_, ?_⟩⟩
    · rintro rfl
      exact run_ok hwf (if_neg (by simp [hlock, hfail, hent]))
    · rintro k rfl
      exact run_ok hwf (if_neg (by simp [hlock, hfail, hent]))
    · rintro k u rfl rfl
      exact run_ok hwf (if_neg (by simp [hlock, hfail, hent]))
    · rintro k u rfl rfl
      exact run_ok hwf (if_neg (by simp [hlock, hfail, hent]))
  · rcases hno with h | h | h | h <;> simp [h]
  · have hkeep : Rest s (fsCommit .none (fun p => { p with count := 0, starts := satAdd max32 p.starts 1 }) s) := (commit_reports (.refl s)).rest
    refine ⟨_, _, run_ok rfl (if_neg (by simp [hop, hdone, hfail])), rfl, rfl, ?_⟩
    dsimp only
    rw [norSlot, hkeep.cc, hkeep.sec, hkeep.nor]
    split
    · rfl
    · exact Nat.max_eq_left (Nat.zero_le _)
  · have hiff : restartMet s = true ↔ met := restartMet_iff.trans hmet.symm
    refine ⟨fun h => run_ok rfl ?_, fun h => run_ok rfl ?_⟩
    · exact (if_neg (by simp [hiff.2 h])).trans (congrArg (rstRelease .restart) (rstAssert_of_powerOn rfl))
    · exact if_pos (by simpa using mt hiff.1 h)

end Sys2Proof.Proofs

/-! ## The sequencer and the power-good inputs (chapter 17) -/

namespace Sys2Proof.Proofs

open Sys2Proof Sys2Proof.Machine Sys2Proof.Safety Sys2Proof.Laws

/-! ### The step the sequencer stands at (R400) -/

section Step

variable {s : State}

theorem seqIs_of_step {n : Nat} (hrun : s.rpm.running = true) (hwait : s.rpm.waiting = false) (hop : seqWord s / 2 ^ 28 = n) : seqIs n s = true := by
  rw [seqIs, hrun, hwait, hop]; simp

theorem seqIs_of_other {n : Nat} (h : s.rpm.running = false ∨ s.rpm.waiting = true ∨ seqWord s / 2 ^ 28 ≠ n) : seqIs n s = false := by
  rcases h with h | h | h
  · simp [seqIs, h]
  · simp [seqIs, h]
  · rw [seqIs, beq_false_of_ne h, Bool.and_false]

/-- A test of the step that the sequencer stands at, as the guard of a step's meaning. -/
theorem of_seqIs {n : Nat} {a b : State} (h : seqIs n s = true) : (if !seqIs n s then a else b) = b := if_neg (by simp [h])

/-- The next step of a sequencer that does not wait. -/
theorem seqNext_of_idle (h : s.rpm.waiting = false) : seqNext s = { s with rpm := { s.rpm with step := (s.rpm.step + 1) % 64 } } :=
  congrArg (fun w => { s with rpm := { s.rpm with step := (s.rpm.step + 1) % 64, waiting := w } }) h.symm

end Step

/-! ### CHECK (R402) -/

section Check

variable {s : State}

theorem checking_of_step (hrun : s.rpm.running = true) (hwait : s.rpm.waiting = true) (hop : seqWord s / 2 ^ 28 = 4) : checking s = true := by
  rw [checking, hrun, hwait, hop]; rfl

theorem checking_of_other (h : s.rpm.running = false ∨ s.rpm.waiting = false ∨ seqWord s / 2 ^ 28 ≠ 4) : checking s = false := by
  rcases h with h | h | h
  · simp [checking, h]
  · simp [checking, h]
  · rw [checking, beq_false_of_ne h, Bool.and_false]

theorem checkPass_of_up (hcheck : checking s = true) (hst : s.rpm.st = .powerUp) (hgood : s.rpm.pgGood &&& seqMask s = seqMask s) :
    checkPass s = seqNext { s with rpm := { s.rpm with sup := s.rpm.sup ||| seqMask s, retry := 0 } } :=
  (if_neg (by simp [hcheck])).trans ((if_pos (by simp [seqUp, hst])).trans (if_pos hgood))

theorem checkPass_of_down (hcheck : checking s = true) (hst : s.rpm.st ≠ .powerUp) (hlow : s.rpm.pgGood &&& seqMask s = 0) : checkPass s = seqNext s :=
  (if_neg (by simp [hcheck])).trans ((if_neg (by simp [seqUp, hst])).trans (if_pos hlow))

theorem checkPass_of_open (hopen : s.rpm.st = .powerUp ∧ s.rpm.pgGood &&& seqMask s ≠ seqMask s ∨ s.rpm.st ≠ .powerUp ∧ s.rpm.pgGood &&& seqMask s ≠ 0) :
    checkPass s = s := by
  rw [checkPass]
  split
  · rfl
  · rcases hopen with ⟨hst, hbad⟩ | ⟨hst, hhigh⟩
    · exact (if_pos (by simp [seqUp, hst])).trans (if_neg hbad)
    · exact (if_neg (by simp [seqUp, hst])).trans (if_neg hhigh)

theorem checkPass_of_idle (h : checking s = false) : checkPass s = s := if_pos (by simp [h])

end Check

/-! ### Power-good inputs (R399) -/

/-- Outside ember an input that reads good opens no epoch. -/
theorem returnTry_of_running {s : State} (h : inEmber s = false) : returnTry s = s := by
  have hphase : s.eu.phase ≠ .sealedHold := fun hc => by simp [inEmber, hc] at h
  exact if_neg (by simp [returnOk, hphase])

/-- With no step running and no ember, an input that reads good only reads good. -/
theorem returnTry_checkPass_of_idle {s : State} (hrun : s.rpm.running = false) (h : inEmber s = false) : returnTry (checkPass s) = s :=
  (congrArg returnTry (checkPass_of_idle (checking_of_other (.inl hrun)))).trans (returnTry_of_running h)

theorem inEmber_congr {s t : State} (h : t.eu = s.eu) : inEmber t = inEmber s := by rw [inEmber, inEmber, h]

/-- The glitches of an input within the last second, with the one of now. -/
def glitchNear (i : Nat) (s : State) : List Nat := (s.rpmx.glitchT.get [] i).filter (fun k => decide (s.tb.count ≤ k + 1000000000)) ++ [s.tb.count]

/-- A glitch counted. -/
def glitchCounted (i : Nat) (s : State) : State :=
  count 0x3820 i 0 1 { s with rpmx := { s.rpmx with glitch := inc32 s.rpmx.glitch, glitchT := s.rpmx.glitchT.set [] i (glitchNear i s) } }

theorem pgGlitch_of_supervised {s : State} {i : Nat} (hgood : s.rpm.pgGood.getLsbD i = true) (hsup : s.rpm.sup.getLsbD i = true) :
    pgGlitch i s =
      if s.rpm.st = .service then
        if 3 ≤ (glitchNear i s).length ∧ (inEmber s = false ∨ 3 ∉ s.eu.causes) then railFault i false (railWarning i (glitchCounted i s))
        else railWarning i (glitchCounted i s)
      else glitchCounted i s := by
  have hkeep := (count_reports (a0 := 0x3820) (a1 := i) (a2 := 0) (a3 := 1) (.refl { s with rpmx := { s.rpmx with
    glitch := inc32 s.rpmx.glitch, glitchT := s.rpmx.glitchT.set [] i (glitchNear i s) } })).rest
  have hwarn : (railWarning i (glitchCounted i s)).eu = s.eu := (raiseTo_reports (.refl _)).rest.eu.trans hkeep.eu
  have hst : (glitchCounted i s).rpm.st = s.rpm.st := congrArg RpmState.st hkeep.rpm
  rw [pgGlitch, if_neg (by simp [hgood, hsup])]
  dsimp only
  rw [← glitchNear, ← glitchCounted, hst, inEmber_congr hwarn, hwarn]
  simp

/-! ### JUMP (R403) -/

/-- The condition of a JUMP, by its field. -/
theorem jump_taken_iff {s : State} {w : Nat} : (match bits w 9 8 with | 0 => true | 1 => s.board.pseqInHigh | _ => s.pageNat 64 48 1 / 8 % 2 == 1) = true ↔
    bits w 9 8 = 0 ∨ bits w 9 8 = 1 ∧ s.board.pseqInHigh = true ∨ 2 ≤ bits w 9 8 ∧ s.pageNat 64 48 1 / 8 % 2 = 1 := by
  split
  next h => simp [h]
  next h => simp [h]
  next h0 h1 =>
    have h0 : bits w 9 8 ≠ 0 := h0
    have h1 : bits w 9 8 ≠ 1 := h1
    simp [h0, h1, show 2 ≤ bits w 9 8 by omega]

/-- Settles O56: each row is the branch of its meaning that the sequencer's step, its half or the input's bits choose. -/
theorem sequencerCompletes : Obligations.SequencerCompletes := by
  refine ⟨fun s hrun hwait => ⟨fun hop => run_ok rfl ?_, fun hop => run_ok rfl ?_, fun hop => run_ok rfl ?_, fun hop => ?_, fun go hop hgo => ?_, ?_, fun hop hst => run_ok rfl ?_⟩,
    ?_, fun s hrun hwait => ⟨fun hop => run_ok rfl ?_, fun hop hst => ?_, fun hop hst => run_ok rfl ?_⟩, fun s => ⟨fun h => run_ok rfl ?_, fun h => run_ok rfl ?_, fun i hi h => ?_⟩,
    fun s => ⟨fun h => run_ok rfl ?_, fun hrun hst => run_ok rfl ?_, ?_⟩, ?_, fun s i hi => ⟨_, rfl, ?_⟩, fun s i hi => ?_, fun s mv hlen hmv => ?_⟩
  · exact (of_seqIs (seqIs_of_step hrun hwait hop)).trans (seqNext_of_idle hwait)
  · exact (of_seqIs (seqIs_of_step hrun hwait hop)).trans (seqNext_of_idle hwait)
  · exact if_pos (seqIs_of_step hrun hwait hop)
  · have hcheck : checking { s with rpm := { s.rpm with waiting := true, retry := 0 } } = true := checking_of_step hrun rfl hop
    have hpass : seqCheck s = checkPass { s with rpm := { s.rpm with waiting := true, retry := 0 } } := if_pos (seqIs_of_step hrun hwait hop)
    have hkeep (t : BitVec 8) : seqNext { s with rpm := { s.rpm with waiting := true, sup := t, retry := 0 } } =
        { s with rpm := { s.rpm with sup := t, retry := 0, step := (s.rpm.step + 1) % 64 } } :=
      congrArg (fun w => { s with rpm := { s.rpm with sup := t, retry := 0, step := (s.rpm.step + 1) % 64, waiting := w } }) hwait.symm
    exact ⟨fun hst hgood => run_ok rfl (hpass.trans ((checkPass_of_up hcheck hst hgood).trans (hkeep _))),
      fun hst hlow => run_ok rfl (hpass.trans ((checkPass_of_down hcheck hst hlow).trans (hkeep _))),
      fun hopen => run_ok rfl (hpass.trans (checkPass_of_open hopen))⟩
  · have htaken := jump_taken_iff.trans hgo.symm
    have hstep := fun a b => of_seqIs (a := a) (b := b) (seqIs_of_step hrun hwait hop)
    exact ⟨fun h => run_ok rfl ((hstep _ _).trans (if_pos (htaken.2 h))),
      fun h => run_ok rfl ((hstep _ _).trans ((if_neg (mt htaken.1 h)).trans (seqNext_of_idle hwait)))⟩
  · rintro q t hop hst rfl rfl
    have hstep := seqIs_of_step hrun hwait hop
    have hup : seqUp s = true := by simp [seqUp, hst]
    exact ⟨fun h => run_ok rfl ((of_seqIs hstep).trans ((if_pos hup).trans (if_pos (List.isEmpty_iff.2 h)))),
      fun h => run_ok rfl ((of_seqIs hstep).trans ((if_pos hup).trans (if_neg fun hc => h (List.isEmpty_iff.1 hc))))⟩
  · exact (of_seqIs (seqIs_of_step hrun hwait hop)).trans (if_neg (by simp [seqUp, hst]))
  · intro s n c hc h
    have hno := seqIs_of_other h
    simp only [List.mem_cons, Prod.mk.injEq, List.not_mem_nil, or_false] at hc
    rcases hc with ⟨rfl, rfl⟩ | ⟨rfl, rfl⟩ | ⟨rfl, rfl⟩ | ⟨rfl, rfl⟩ | ⟨rfl, rfl⟩ | ⟨rfl, rfl⟩
    · exact run_ok rfl (if_pos (by simp [hno]))
    · exact run_ok rfl (if_pos (by simp [hno]))
    · exact run_ok rfl (if_neg (by simp [hno]))
    · exact run_ok rfl (if_neg (by simp [hno]))
    · exact run_ok rfl (if_pos (by simp [hno]))
    · exact run_ok rfl (if_pos (by simp [hno]))
  · exact if_pos (by rw [hrun, hwait, hop]; rfl)
  · have hcheck := checking_of_step hrun hwait hop
    refine ⟨run_ok rfl ((if_neg (by simp [hcheck])).trans (if_pos (by simp [seqUp, hst]))), fun i hi hmask hlow => ?_⟩
    have hnamed : ¬((!(checking s && seqUp s && (seqMask s).getLsbD i && !s.rpm.pgGood.getLsbD i)) = true) := by
      simp [hcheck, seqUp, hst, hmask, hlow]
    exact ⟨fun h => run_ok (by simpa [railOk] using hi) ((if_neg hnamed).trans (if_neg (Nat.not_le.2 h))),
      fun h => run_ok (by simpa [railOk] using hi) ((if_neg hnamed).trans (if_pos h))⟩
  · exact (if_neg (by simp [checking_of_step hrun hwait hop])).trans (if_neg (by simp [seqUp, hst]))
  · rcases h with h | h | h
    · exact if_neg (by simp [h])
    · exact if_neg (by simp [h])
    · exact if_neg (by rw [beq_false_of_ne h, Bool.and_false]; simp)
  · exact if_pos (by simp [checking_of_other h])
  · refine run_ok (by simpa [railOk] using hi) (if_pos ?_)
    rcases h with h | h | h | h | h | h
    · simp [checking, h]
    · simp [checking, h]
    · simp [checking_of_other (.inr (.inr h))]
    · simp [seqUp, h]
    · simp [h]
    · simp [h]
  · exact if_pos (by simp [h])
  · exact (if_neg (by simp [hrun])).trans (if_pos (by simp [seqUp, hst]))
  · rintro u hrun hst rfl
    exact run_ok rfl ((if_neg (by simp [hrun])).trans (if_neg (by simp [seqUp, hst])))
  · rintro s i t hi rfl
    have hwf : railOk i = true := by simpa [railOk] using hi
    refine ⟨fun h => run_ok hwf (if_pos (List.any_eq_true.2 h)), fun h => ?_⟩
    have hoff : ¬(s.rpm.asserted.any isPowerOn = true) := by simpa using h
    refine ⟨run_ok hwf (if_neg hoff), fun hrun hember => run_ok hwf ((if_neg hoff).trans ?_)⟩
    exact returnTry_checkPass_of_idle hrun hember
  · have hwf : railOk i = true := by simpa [railOk] using hi
    refine ⟨fun h => run_ok hwf (if_pos (by simp [h])), fun hhad => ?_⟩
    have hfell : ¬((!s.rpm.pgGood.getLsbD i) = true) := by simp [hhad]
    refine ⟨fun hst hsup => run_ok hwf ((if_neg hfell).trans ?_), fun hst hsup hrun => run_ok hwf ((if_neg hfell).trans ?_),
      fun hst hrun hsup hen => run_ok hwf ((if_neg hfell).trans ?_), fun hst hno => run_ok hwf ((if_neg hfell).trans ?_),
      fun h => run_ok hwf ((if_neg hfell).trans ?_)⟩
    · dsimp only; rw [hst]; exact if_pos hsup
    · dsimp only; rw [hst]; exact if_pos (by simp [hrun, hsup])
    · dsimp only; rw [hst]; exact if_pos (by simp [hrun, hsup, hen])
    · dsimp only; rw [hst]; exact if_neg (by simpa [and_assoc] using hno)
    · dsimp only
      rcases h with ⟨hst, hsup⟩ | ⟨hst, hno⟩ | hst
      · rw [hst]; exact if_neg (by simp [hsup])
      · rw [hst]; exact if_neg (by rcases hno with h | h <;> simp [h])
      · split
        next h => exact absurd (by simp [h]) hst
        next h => exact absurd (by simp [h]) hst
        next h => exact absurd (by simp [h]) hst
        next => rfl
  · have hwf : railOk i = true := by simpa [railOk] using hi
    refine ⟨fun h => run_ok hwf (if_pos (by rcases h with h | h <;> simp [h])), fun hgood hsup => ?_⟩
    have hrow := pgGlitch_of_supervised hgood hsup
    exact ⟨glitchNear i s, glitchCounted i s, rfl, rfl, fun hst => run_ok hwf (hrow.trans (if_neg hst)),
      fun hst hfew => run_ok hwf (hrow.trans ((if_pos hst).trans (if_neg fun hc => hfew.elim (Nat.not_lt.2 hc.1) (fun h => hc.2.elim (fun hout => by simp [hout] at h) (fun hno => hno h.2))))),
      fun hst hmany hno => run_ok hwf (hrow.trans ((if_pos hst).trans (if_pos ⟨hmany, hno⟩)))⟩
  · have hwf : (decide (mv.length = 8) && mv.all u16) = true := by simpa [hlen, u16] using hmv
    refine ⟨fun h => run_ok hwf (if_pos (List.any_eq_true.2 h)), fun h => ?_⟩
    have hoff : ¬(s.rpm.asserted.any isPowerOn = true) := by simpa using h
    refine ⟨_, run_ok hwf (if_neg hoff), rfl, fun i hi => ?_⟩
    have hget := get_putFrom (d := 0) mv 0 0 [] i
    simp only [Nat.zero_add] at hget
    exact hget.trans ((dif_pos (by omega)).trans (by simp [hlen, hi]))

end Sys2Proof.Proofs

/-! ## Sensors, the pause and the commands of the family (chapter 17) -/

namespace Sys2Proof.Proofs

open Sys2Proof Sys2Proof.Machine Sys2Proof.Safety Sys2Proof.Laws

/-! ### Folds over the sensors -/

theorem get_foldl_set {α : Type} [DecidableEq α] (d : α) (g : Nat → α) (l : List Nat) (k : Nat) : ∀ t : Tab α,
    (l.foldl (fun (t : Tab α) i => t.set d i (g i)) t).get d k = if k ∈ l then g k else t.get d k := by
  induction l with
  | nil => intro t; simp
  | cons i l ih =>
    intro t
    rw [List.foldl_cons, ih]
    by_cases hk : k = i
    · subst hk
      simp
    · simp [get_set_other _ _ _ _ _ hk, hk]

theorem foldl_max_lt {f : Nat → Int} {b : Int} (l : List Nat) (hf : ∀ k ∈ l, f k < b) : ∀ m : Int, m < b → l.foldl (fun m k => max m (f k)) m < b := by
  induction l with
  | nil => intro m hm; exact hm
  | cons i l ih =>
    intro m hm
    exact ih (fun k hk => hf k (List.mem_cons_of_mem _ hk)) _ (max_lt hm (hf i (List.mem_cons_self ..)))

theorem foldl_none {α : Type} {p : Nat → Prop} [DecidablePred p] (g : α → Nat → α) (l : List Nat) (h : ∀ i ∈ l, ¬p i) (a : α) :
    l.foldl (fun a i => if p i then g a i else a) a = a := by
  induction l with
  | nil => rfl
  | cons i l ih => rw [List.foldl_cons, if_neg (h i (List.mem_cons_self ..)), ih fun k hk => h k (List.mem_cons_of_mem _ hk)]

/-! ### Sensors that fail (R411) -/

theorem sensorFails_failed (s : State) (i k : Nat) (hk : k < 12) :
    (sensorFails i s).th.failed.getLsbD k = (s.th.failed.getLsbD k || decide (k = i)) := by
  rw [sensorFails]
  split
  next h =>
    by_cases hki : k = i
    · simp [hki, h]
    · simp [hki]
  next h =>
    rw [(raise_reports (.refl _)).rest.th]
    by_cases hki : k = i
    · subst hki; simp [hk]
    · by_cases hlt : k < i
      · simp [hk, hki, hlt]
      · simp [hk, hki, hlt, show k - i ≠ 0 by omega]

theorem sensorsFail_failed (l : List Nat) (k : Nat) (hk : k < 12) : ∀ s : State,
    (l.foldl (fun s i => sensorFails i s) s).th.failed.getLsbD k = true ↔ s.th.failed.getLsbD k = true ∨ k ∈ l := by
  induction l with
  | nil => simp
  | cons i l ih =>
    intro s
    rw [List.foldl_cons, ih, sensorFails_failed s i k hk]
    simp [or_assoc]

/-- A sample of twelve readings is well formed. -/
theorem thermalSample_wf {l : List Int} {f : List Nat} (hlen : l.length = 12) (hl : ∀ v ∈ l, -2048 ≤ v ∧ v < 2048) (hf : ∀ i ∈ f, i < 12) :
    (decide (l.length = 12) && l.all (fun v => decide (-2048 ≤ v) && decide (v < 2048)) && f.all (fun i => decide (i < 12))) = true := by
  simpa [hlen] using ⟨hl, hf⟩

/-! ### The readings (R411, R412) -/

theorem reports_ite {s t u : State} {c : Prop} [Decidable c] (ht : Reports s t) (hu : Reports s u) : Reports s (if c then t else u) := by
  split
  · exact ht
  · exact hu

/-- The last four samples of each healthy sensor. -/
def sampled (samples : List Int) (s : State) : State :=
  { s with th := { s.th with
      samples := (healthy s).foldl (fun (t : Tab (List Int)) i => t.set [] i (((s.th.samples.get [] i) ++ [samples.getD i 0]).reverse.take 4).reverse)
        s.th.samples,
      throttle := s.th.throttle + (if s.th.pause = 0 then 0 else 50) } }

/-- The readings, the maximum and the band in force. -/
def measured (samples : List Int) (s : State) : State :=
  { sampled samples s with th := { (sampled samples s).th with
      max := highest (sampled samples s), maxSeen := max s.th.maxSeen (highest (sampled samples s)), band := bandOf (highest (sampled samples s)) } }

/-- A change of the band is reported only, before the pause is set. -/
theorem readingsSet_eq (samples : List Int) (s : State) : ∃ u, Reports (measured samples s) u ∧
    readingsSet samples s = pauseSet (pauseOf (highest (sampled samples s))) u := by
  refine ⟨_, ?_, rfl⟩
  have hband (t : State) : Reports t (intCauseAll 3 (raise 0x3C01 0xFFFF 0 .nothing t)) := intCauseAll_reports (raise_reports (.refl t))
  have hrec {t u : State} {c : Prop} [Decidable c] {b : Nat} (h : Reports t u) : Reports t (if c then ledger 0x3C01 0 [b] u else u) :=
    reports_ite (ledger_reports h) h
  have hlog {t u : State} {c : Prop} [Decidable c] {b : Nat} (h : Reports t u) : Reports t (if c then cxlLog 1 2 0x3C01 b .nothing u else u) :=
    reports_ite (cxlLog_reports h) h
  exact hlog (hrec (reports_ite (hband _) (.refl _)))

section Cool

variable {samples : List Int} {s : State}

theorem healthy_of_none (h : s.th.failed = 0) : healthy s = List.range 12 := by
  simp [healthy, h]

/-- The first sample of a sensor is its reading. -/
theorem thReading_sampled {t : State} (hfail : s.th.failed = 0) (hnone : s.th.samples = []) (ht : t.th.samples = (sampled samples s).th.samples)
    {i : Nat} (hi : i < 12) : thReading t i = samples.getD i 0 := by
  have hget : (sampled samples s).th.samples.get [] i = [samples.getD i 0] := by
    rw [sampled, get_foldl_set, healthy_of_none hfail, if_pos (List.mem_range.2 hi), hnone]
    rfl
  rw [thReading, ht, hget]
  simp

theorem highest_of_healthy (hfail : s.th.failed = 0) :
    highest s = ((List.range 11).map (· + 1)).foldl (fun m k => max m (thReading s k)) (thReading s 0) := by
  rw [highest, healthy_of_none hfail]
  rfl

/-- Below 106 °C the highest reading of twelve healthy sensors is at least each of them, and brings no pause. -/
theorem highest_sampled (hlen : samples.length = 12) (hcool : ∀ v ∈ samples, v < 424) (hfail : s.th.failed = 0) (hnone : s.th.samples = []) :
    highest (sampled samples s) < 424 ∧ ∀ i < 12, samples.getD i 0 ≤ highest (sampled samples s) := by
  have hread : ∀ i < 12, thReading (sampled samples s) i = samples.getD i 0 := fun i hi => thReading_sampled hfail hnone rfl hi
  have hlow : ∀ i < 12, thReading (sampled samples s) i < 424 := fun i hi => by
    rw [hread i hi, List.getD_eq_getElem _ _ (by omega)]
    exact hcool _ (List.getElem_mem _)
  rw [highest_of_healthy (s := sampled samples s) hfail]
  obtain ⟨hstart, hall⟩ := le_foldl_max (thReading (sampled samples s)) ((List.range 11).map (· + 1)) (thReading (sampled samples s) 0)
  refine ⟨foldl_max_lt _ (fun k hk => ?_) _ (hlow 0 (by omega)), fun i hi => ?_⟩
  · obtain ⟨j, hj, rfl⟩ := List.mem_map.1 hk
    exact hlow _ (by have := List.mem_range.1 hj; omega)
  · rw [← hread i hi]
    cases i with
    | zero => exact hstart
    | succ j => exact hall _ (List.mem_map.2 ⟨j, List.mem_range.2 (by omega), rfl⟩)

/-- With no pause in force, cool readings set none. -/
theorem readingsSet_of_cool (hlen : samples.length = 12) (hcool : ∀ v ∈ samples, v < 424) (hfail : s.th.failed = 0) (hnone : s.th.samples = [])
    (hpause : s.th.pause = 0) : Reports (measured samples s) (readingsSet samples s) := by
  obtain ⟨u, hu, heq⟩ := readingsSet_eq samples s
  have hzero : pauseOf (highest (sampled samples s)) = 0 := if_pos (highest_sampled hlen hcool hfail hnone).1
  rw [heq, hzero, pauseSet, if_pos (by rw [hu.rest.th]; exact hpause.symm)]
  exact hu

/-- No comparator of healthy sensors trips below 118 °C, where no power-up waits for the cooling. -/
theorem comparators_of_cool (hlen : samples.length = 12) (hcool : ∀ v ∈ samples, v < 424) (hfail : s.th.failed = 0) (hwait : s.rpmx.coolWait = false) :
    ∃ ok, comparators samples s = { s with th := { s.th with hotPrev := 0, coolOk := ok } } := by
  have hlow : ∀ i ∈ List.range 12, samples.getD i 0 < 424 := fun i hi => by
    rw [List.getD_eq_getElem _ _ (by have := List.mem_range.1 hi; omega)]
    exact hcool _ (List.getElem_mem _)
  have hat (c : Int) (hc : 424 ≤ c) : (List.range 12).foldl (fun (m : BitVec 12) i => if c ≤ samples.getD i 0 then m ||| ((1#12) <<< i) else m) 0 = 0 :=
    foldl_none _ _ (fun i hi h => absurd (hlow i hi) (by omega)) 0
  rw [comparators, healthy_of_none hfail]
  simp only [hat 472 (by omega), hat 520 (by omega), hwait]
  exact ⟨_, (if_neg (by simp)).trans ((if_neg (by simp)).trans (if_neg (by simp)))⟩

end Cool

theorem begun_senderPort (s : State) (rq : Rq) (op ch : Nat) : senderPort (begun s rq op) ch = senderPort s ch := by
  rw [senderPort, begun_senderOf, senderPort]

/-- Settles O57: cool readings of twelve healthy sensors set no pause and trip nothing, so that a sample leaves the readings alone; the other
rows are branches of their meanings, the commands the general rule of a command let through. -/
theorem thermalAndPowerComplete : Obligations.ThermalAndPowerComplete := by
  refine ⟨fun s l f hlen hl hf => ⟨fun h => ?_, fun h => ?_⟩, ?_, fun s => ⟨fun h hc => run_ok rfl ?_, fun h hc => run_ok rfl ?_, fun h => run_ok rfl (if_pos h)⟩,
    fun s rq port hport => ⟨fun h => ?_, fun h => ?_⟩, fun s rq port hrec hport => ⟨fun h => ?_, fun h => ?_, fun h hrole hsend => ?_⟩,
    fun s rq h => run_ok h.1 (query_done h.2 _), fun s rq h => run_ok h.1 (query_done h.2 _), fun s ag v h => run_ok (wf_may h) (regWrite_may h)⟩
  · have hwf := thermalSample_wf hlen hl hf
    exact run_ok hwf (if_pos (List.any_eq_true.2 h))
  · have hwf := thermalSample_wf hlen hl hf
    refine ⟨_, rfl, fun i hi => ?_, run_ok hwf (if_neg (by simpa using h))⟩
    rw [sensorsFail_failed _ i hi]
    simp [hi, or_assoc]
  · intro s l hlen hl hpor hfail hwait hpause hnone
    have hcool : ∀ v ∈ l, v < 424 := fun v hv => (hl v hv).2
    have hread := readingsSet_of_cool hlen hcool hfail hnone hpause
    have hwf := thermalSample_wf (f := []) hlen (fun v hv => by have := hl v hv; omega) (by simp)
    have hth : (readingsSet l s).th = (measured l s).th := hread.rest.th
    have hout : (List.range 12).filter (fun i => decide (l.getD i 0 < -220) || decide (600 < l.getD i 0) || ([] : List Nat).contains i) = [] := by
      refine List.filter_eq_nil_iff.2 fun i hi => ?_
      have hget := List.getD_eq_getElem l 0 (show i < l.length by have := List.mem_range.1 hi; omega)
      have hin := hl _ (List.getElem_mem (show i < l.length by have := List.mem_range.1 hi; omega))
      rw [← hget] at hin
      simp only [Bool.or_eq_true, decide_eq_true_eq, List.contains_nil, Bool.false_eq_true, or_false]
      omega
    obtain ⟨ok, hcomp⟩ := comparators_of_cool (s := refreshSeen (readingsSet l s)) hlen hcool (by rw [refreshSeen, hth]; exact hfail)
      (by rw [refreshSeen, hread.rest.rpmx]; exact hwait)
    obtain ⟨hlt, hall⟩ := highest_sampled hlen hcool hfail hnone
    refine ⟨_, run_ok hwf ((if_neg (by simpa using hpor)).trans ((congrArg (fun d : List Nat => comparators l (refreshSeen (readingsSet l
      (d.foldl (fun s i => sensorFails i s) s)))) hout).trans hcomp)), ?_, ?_, ?_, ?_, fun i hi => ⟨?_, ?_⟩, ?_⟩
    · exact (congrArg ThState.failed hth).trans hfail
    · exact (congrArg ThState.pause hth).trans hpause
    · exact (congrArg ThState.tripped hth :)
    · exact (congrArg ThState.band hth).trans (congrArg bandOf (congrArg ThState.max hth).symm)
    · exact thReading_sampled hfail hnone (congrArg ThState.samples hth :) hi
    · exact (hall i hi).trans_eq (congrArg ThState.max hth).symm
    · exact (congrArg ThState.max hth).trans_le ((le_max_right _ _).trans_eq (congrArg ThState.maxSeen hth).symm)
  · exact (if_neg h).trans (if_neg (by simp [hc]))
  · exact (if_neg h).trans (if_pos hc)
  · exact run_ok h.1 (atornQ_done h.2 (by simp; omega) rfl (by simp) rfl)
  · exact run_ok h.1 (atornQ_done h.2 (by simp; omega) rfl (by simp) rfl)
  · exact run_ok h.1 (atornQ_done h.2 (by simp; omega) rfl (by simp [hrec]) rfl)
  · exact run_ok h.1 (atornQ_done h.2 (by simp; omega) rfl (by simp [hrec]) rfl)
  · exact run_ok h.1 (atornQ_done h.2 (by simp; omega) rfl (by simp [hrec, hrole, hsend, begun_senderPort]) rfl)

end Sys2Proof.Proofs

/-! ## Register writes with no row of their own, and writes without `ADMIN` (chapter 19) -/

namespace Sys2Proof.Proofs

open Sys2Proof Sys2Proof.Machine Sys2Proof.Safety Sys2Proof.Laws

/-! ### Who may write (R429, R434) -/

section Guards

variable {s : State} {ag : Agent} {p f : Nat}

theorem regWrite_noAdmin (hreach : fnReached s p f = true) (hd3 : (s.fn p f).d3 = false) (hadmin : fnAdmin s p f = false) (body : State → State) :
    regWrite (.fn p f) body s = countAccErr p f s := by
  rw [regWrite, fnWrite_of_reached hreach hd3, if_neg (ne_true_of_eq_false hadmin)]

theorem coreOnlyWrite_noAdmin (hreach : fnReached s p f = true) (hd3 : (s.fn p f).d3 = false) (hadmin : fnAdmin s p f = false) (body : State → State) :
    coreOnlyWrite (.fn p f) body s = countAccErr p f s := by
  rw [coreOnlyWrite, fnWrite_of_reached hreach hd3, if_neg (ne_true_of_eq_false hadmin)]

theorem regWrite_d3 (hreach : fnReached s p f = true) (hd3 : (s.fn p f).d3 = true) (body : State → State) :
    regWrite (.fn p f) body s = logAer p f .unsupportedRequest s := by rw [regWrite, fnWrite_of_d3 hreach hd3]

theorem coreOnlyWrite_d3 (hreach : fnReached s p f = true) (hd3 : (s.fn p f).d3 = true) (body : State → State) :
    coreOnlyWrite (.fn p f) body s = logAer p f .unsupportedRequest s := by rw [coreOnlyWrite, fnWrite_of_d3 hreach hd3]

theorem regWrite_absent (hreach : fnReached s p f = false) (body : State → State) : regWrite (.fn p f) body s = s := by
  rw [regWrite, fnWrite_of_absent hreach]

theorem coreOnlyWrite_absent (hreach : fnReached s p f = false) (body : State → State) : coreOnlyWrite (.fn p f) body s = s := by
  rw [coreOnlyWrite, fnWrite_of_absent hreach]

theorem coreOnlyWrite_core {i : Nat} (hi : i < 5) (body : State → State) : coreOnlyWrite (.core i) body s = body s := if_pos hi

theorem regWrite_core {i : Nat} (hi : i < 5) (body : State → State) : regWrite (.core i) body s = body s := if_pos hi

theorem regWrite_of_other (hfn : ∀ p f, ag ≠ .fn p f) (hcore : ∀ j, j < 5 → ag ≠ .core j) (body : State → State) : regWrite ag body s = s := by
  cases ag with
  | fn p f => exact absurd rfl (hfn p f)
  | core i => exact if_neg fun h => hcore i h rfl
  | _ => rfl

theorem coreOnlyWrite_of_other (hfn : ∀ p f, ag ≠ .fn p f) (hcore : ∀ j, j < 5 → ag ≠ .core j) (body : State → State) : coreOnlyWrite ag body s = s := by
  cases ag with
  | fn p f => exact absurd rfl (hfn p f)
  | core i => exact if_neg fun h => hcore i h rfl
  | _ => rfl

end Guards

/-! ### The write of a block register (R428, R431) -/

/-- Four aligned bytes are one write. -/
theorem splitWrite_four (v : BitVec 64) (one : Nat → Word → State → State) (s : State) : splitWrite 4 v one s = one 0 (v.setWidth 32) s := rfl

theorem wideOk_four {a : Nat} (h : a % 4 = 0) : wideOk a 4 = true := by simp [wideOk, h]

/-- A core's write of four aligned bytes at an offset of a block is the block's write. -/
theorem exec_coreWrite {s : State} {i b off : Nat} {v : BitVec 64} (hi : i < 5) (hb : b < 0x12) (hoff : off < 0x80000) (halign : off % 4 = 0)
    (hwin : b = 0x0B → 0x20000 ≤ off) :
    exec (.registerWrite (.core i) (0x10000000 + 0x100000 * b + off) 4 v) s = .next (blockWrite (.core i) b off (v.setWidth 32) s) := by
  have hblock : (0x10000000 + 0x100000 * b + off) % 0x10000000 / 0x100000 = b := by omega
  have hat : (0x10000000 + 0x100000 * b + off) % 0x10000000 % 0x100000 = off := by omega
  have hspecial : ¬(b = 0x0B ∧ off < 0x20000) := fun h => absurd (hwin h.1) (by omega)
  refine run_ok (by simp [Agent.wf, coreOk, u64, sizeOk]; omega) ((if_pos ⟨hi, by omega, by omega⟩).trans ?_)
  rw [coreRegWrite]
  simp only [hblock, hat, if_neg hspecial, wideOk_four halign, hoff, decide_true, Bool.and_self, if_true]
  rfl

/-- A function's write of four bytes is well formed. -/
theorem fnWrite_wf {p f addr : Nat} (hp : p < 10) (hf : f < 16) (haddr : addr < 2 ^ 64) : ((Agent.fn p f).wf && u64 addr && sizeOk 4) = true := by
  simpa [Agent.wf, fnOk, u64, sizeOk, hp, hf] using haddr

/-- A function's write of four aligned bytes at an offset of a block other than the mailboxes is the block's write. -/
theorem exec_fnBlockWrite {s : State} {p f b off : Nat} {v : BitVec 64} (hp : p < 10) (hf : f < 16) (hreach : fnReached s p f = true)
    (hd3 : (s.fn p f).d3 = false) (hb : b < 0x12) (hmail : b ≠ 0x0B) (hoff : off < 0x10000) (halign : off % 4 = 0) :
    exec (.registerWrite (.fn p f) (0x100000 + 0x10000 * b + off) 4 v) s = .next (blockWrite (.fn p f) b off (v.setWidth 32) s) := by
  have hblock : (0x100000 + 0x10000 * b + off) / 0x10000 - 0x10 = b := by omega
  have hat : (0x100000 + 0x10000 * b + off) % 0x10000 = off := by omega
  have hmsix : ¬((decide (0x1000 ≤ 0x100000 + 0x10000 * b + off) && decide (0x100000 + 0x10000 * b + off + 4 ≤ 0x1400)) = true) := by
    simp; omega
  refine run_ok (fnWrite_wf hp hf (by omega)) ((if_neg (by simp [hreach])).trans ((if_neg (by simp [hd3])).trans
    ((if_neg hmsix).trans ((if_neg (by omega)).trans ((if_pos (by omega)).trans ?_)))))
  simp only [hblock, hat, if_neg hmail, wideOk_four halign, if_true]
  rfl

/-- The blocks whose registers a function without `ADMIN` may not write. -/
theorem blockWrite_noAdmin {s : State} {p f b : Nat} (hreach : fnReached s p f = true) (hd3 : (s.fn p f).d3 = false) (hadmin : fnAdmin s p f = false)
    (hb : b ∈ [0x00, 0x01, 0x02, 0x03, 0x04, 0x05, 0x06, 0x07, 0x08, 0x09, 0x0C, 0x0D, 0x0E, 0x0F, 0x10, 0x11]) (off : Nat) (v : Word) :
    blockWrite (.fn p f) b off v s = countAccErr p f s := by
  have hreg := regWrite_noAdmin hreach hd3 hadmin
  have hcore := coreOnlyWrite_noAdmin hreach hd3 hadmin
  simp only [List.mem_cons, List.not_mem_nil, or_false] at hb
  rcases hb with rfl | rfl | rfl | rfl | rfl | rfl | rfl | rfl | rfl | rfl | rfl | rfl | rfl | rfl | rfl | rfl
  case inr.inr.inl =>
    rw [blockWrite]
    split
    · exact hcore _
    · exact hreg _
  all_goals simp only [blockWrite, hreg, hcore]

/-! ### The rows of a register write -/

/-- A row that writes a register for those who may. -/
def WritesReg (ag : Agent) (c : Instr) (s : State) : Prop := ∃ body, exec c s = .next (regWrite ag body s)

/-- A row that writes what only cores reach. -/
def WritesCoreReg (ag : Agent) (c : Instr) (s : State) : Prop := ∃ body, exec c s = .next (coreOnlyWrite ag body s)

/-- The rows of what only cores reach. -/
theorem writesCoreReg_of_mem {s : State} {ag : Agent} {k r n : Nat} {out inst : Bool} {v : Word} {c : Instr} (hag : ag.wf = true) (hk : k < 256)
    (hr : r < 4) (hn : n < 10) (hc : c ∈ [Instr.pmonCtlSnap ag, .pmonCtlClear ag, .pmonSelWrite ag k inst v, .pmonBwMaxWrite ag n out, .ccHeartbeatWrite ag r]) : WritesCoreReg ag c s := by
  simp only [List.mem_cons, List.not_mem_nil, or_false] at hc
  rcases hc with rfl | rfl | rfl | rfl | rfl
  · exact ⟨_, run_ok hag rfl⟩
  · exact ⟨_, run_ok hag rfl⟩
  · exact ⟨_, run_ok (by simp [hag, hk]) rfl⟩
  · exact ⟨_, run_ok (by simp [hag, portOk, hn]) rfl⟩
  · exact ⟨_, run_ok (by simp [hag, hr]) rfl⟩

/-- The rows of what a function with `ADMIN` may write. -/
theorem writesReg_of_mem {s : State} {ag : Agent} {m q : Nat} {v : Word} {c : Instr} (hag : ag.wf = true) (hm : m < 64) (hq : q < 10)
    (hc : c ∈ [Instr.tbCtlPpsEnSet ag, .tbCtlPpsEnClear ag, .tbCtlStepEnSet ag, .tbCtlStepEnClear ag, .hfPaceWrite ag v, .teLaInval ag q,
      .suChLateMaxWrite ag m v, .thMaxSeenWrite ag v]) : WritesReg ag c s := by
  simp only [List.mem_cons, List.not_mem_nil, or_false] at hc
  rcases hc with rfl | rfl | rfl | rfl | rfl | rfl | rfl | rfl
  · exact ⟨_, run_ok hag rfl⟩
  · exact ⟨_, run_ok hag rfl⟩
  · exact ⟨_, run_ok hag rfl⟩
  · exact ⟨_, run_ok hag rfl⟩
  · exact ⟨_, run_ok hag rfl⟩
  · exact ⟨_, run_ok (by simp [Instr.wf, hag, portOk, hq]) rfl⟩
  · exact ⟨_, run_ok (by simp [hag, chanNoOk, hm]) rfl⟩
  · exact ⟨_, run_ok hag rfl⟩

/-- Settles O60: a row of such a write is a guarded write of its body, and a function without `ADMIN` does not pass the guard. -/
theorem writesWithoutAdmin : Obligations.WritesWithoutAdmin := by
  refine ⟨fun s p f b o v hp hf hreach hd3 hadmin hb ho halign => ?_, fun s ag k m r n i q out inst v c hag hk hm hr hn hi hq hc => ?_⟩
  · have hlist : b < 0x12 ∧ b ≠ 0x0B := by
      simp only [List.mem_cons, List.not_mem_nil, or_false] at hb
      omega
    exact (exec_fnBlockWrite hp hf hreach hd3 hlist.1 hlist.2 ho halign).trans (congrArg _ (blockWrite_noAdmin hreach hd3 hadmin hb o _))
  · have hrow : WritesReg ag c s ∨ WritesCoreReg ag c s := by
      rw [show [Instr.tbCtlPpsEnSet ag, .tbCtlPpsEnClear ag, .tbCtlStepEnSet ag, .tbCtlStepEnClear ag, .hfPaceWrite ag v, .teLaInval ag q,
        .suChLateMaxWrite ag m v, .thMaxSeenWrite ag v, .pmonCtlSnap ag, .pmonCtlClear ag, .pmonSelWrite ag k inst v,
        .pmonBwMaxWrite ag n out, .ccHeartbeatWrite ag r] = [Instr.tbCtlPpsEnSet ag, .tbCtlPpsEnClear ag, .tbCtlStepEnSet ag,
        .tbCtlStepEnClear ag, .hfPaceWrite ag v, .teLaInval ag q, .suChLateMaxWrite ag m v, .thMaxSeenWrite ag v] ++ [.pmonCtlSnap ag,
        .pmonCtlClear ag, .pmonSelWrite ag k inst v, .pmonBwMaxWrite ag n out, .ccHeartbeatWrite ag r] from rfl, List.mem_append] at hc
      exact hc.imp (writesReg_of_mem hag hm hq) (writesCoreReg_of_mem hag hk hr hn)
    refine ⟨?_, ?_, ?_, fun hfn hcore => ?_, ?_⟩
    · rintro p f rfl hreach hd3 hadmin
      rcases hrow with ⟨body, h⟩ | ⟨body, h⟩
      · exact h.trans (congrArg _ (regWrite_noAdmin hreach hd3 hadmin body))
      · exact h.trans (congrArg _ (coreOnlyWrite_noAdmin hreach hd3 hadmin body))
    · rintro p f rfl hreach hd3
      rcases hrow with ⟨body, h⟩ | ⟨body, h⟩
      · exact h.trans (congrArg _ (regWrite_d3 hreach hd3 body))
      · exact h.trans (congrArg _ (coreOnlyWrite_d3 hreach hd3 body))
    · rintro p f rfl hreach
      rcases hrow with ⟨body, h⟩ | ⟨body, h⟩
      · exact h.trans (congrArg _ (regWrite_absent hreach body))
      · exact h.trans (congrArg _ (coreOnlyWrite_absent hreach body))
    · rcases hrow with ⟨body, h⟩ | ⟨body, h⟩
      · exact h.trans (congrArg _ (regWrite_of_other hfn hcore body))
      · exact h.trans (congrArg _ (coreOnlyWrite_of_other hfn hcore body))
    · rintro p f rfl hreach hd3 hadmin hc
      obtain ⟨body, h⟩ := writesCoreReg_of_mem (s := s) hag hk hr hn hc
      refine h.trans (congrArg _ ?_)
      rw [coreOnlyWrite, fnWrite_of_reached hreach hd3, if_pos hadmin]

/-- A core's write of a channel's binding. -/
theorem exec_bindingWrite {s : State} {i k : Nat} {v : BitVec 64} (hi : i < 5) (hk : k < 30) :
    exec (.registerWrite (.core i) (0x10B20000 + 4 * k) 4 v) s =
      .next (if (!s.mb.lock) = true then s.modMbox k (fun m => { m with bind_ := (v.setWidth 32).toNat % 65536 }) else s) := by
  have hrow := exec_coreWrite (s := s) (b := 0x0B) (off := 0x20000 + 4 * k) (v := v) hi (by decide) (by omega) (by omega) fun _ => by omega
  rw [← Nat.add_assoc] at hrow
  have hbind : blockWrite (.core i) 0x0B (0x20000 + 4 * k) (v.setWidth 32) s = bindWrite (0x20000 + 4 * k) (v.setWidth 32) s := by
    rw [blockWrite, coreOnlyWrite_core hi, if_neg (by omega)]
  rw [hrow, hbind, bindWrite, if_neg (by omega), show (0x20000 + 4 * k) % 0x80 / 4 = k by omega]
  simp [show 0x20000 + 4 * k < 0x20078 by omega]

/-- Settles O59: each write is that of its block or of the function's own registers. -/
theorem registerWritesComplete : Obligations.RegisterWritesComplete := by
  refine ⟨fun s i v hi => ⟨?_, ?_, ?_, fun k hk => ⟨fun hlock => ?_, fun hlock => ?_⟩, fun o ho halign => ⟨?_, ?_⟩⟩,
    fun s p f v hp hf hreach hd3 => ⟨?_, fun ch o hch ho halign => ?_⟩⟩
  · exact (exec_coreWrite (b := 0x10) (off := 0x40) hi (by decide) (by decide) rfl (by decide)).trans (congrArg _ (regWrite_core hi _))
  · exact (exec_coreWrite (b := 0x10) (off := 0x44) hi (by decide) (by decide) rfl (by decide)).trans (congrArg _ (regWrite_core hi _))
  · exact (exec_coreWrite (b := 0x0E) (off := 0x04) hi (by decide) (by decide) rfl (by decide)).trans (congrArg _ (regWrite_core hi _))
  · exact (exec_bindingWrite hi hk).trans (congrArg _ (if_pos (by simp [hlock])))
  · exact (exec_bindingWrite hi hk).trans (congrArg _ (if_neg (by simp [hlock])))
  · exact (exec_coreWrite (b := 0x0D) hi (by decide) ho halign nofun).trans (congrArg _ (coreOnlyWrite_core hi fun s => s))
  · exact (exec_coreWrite (b := 0x09) hi (by decide) ho halign nofun).trans (congrArg _ (regWrite_core hi fun s => s))
  · have hwf := fnWrite_wf hp hf (addr := 0x80)
    exact run_ok (hwf (by decide)) ((if_neg (by simp [hreach])).trans ((if_neg (by simp [hd3])).trans rfl))
  · have hblock : (0x1B0000 + o) / 0x10000 - 0x10 = 0x0B := by omega
    have hat : (0x1B0000 + o) % 0x10000 = o := by omega
    have hmsix : ¬((decide (0x1000 ≤ 0x1B0000 + o) && decide (0x1B0000 + o + 4 ≤ 0x1400)) = true) := by simp; omega
    refine run_ok (fnWrite_wf hp hf (by omega)) ((if_neg (by simp [hreach])).trans ((if_neg (by simp [hd3])).trans
      ((if_neg hmsix).trans ((if_neg (by omega)).trans ((if_pos (by omega)).trans ?_)))))
    simp only [hblock, hat, if_true, hch, winSpecial, show o + 4 ≤ 0x800 by omega]

end Sys2Proof.Proofs
